-- ==== Sys2Proof/Word.lean ====
section
/-! DEFINITION. The word types of the engine and the index types its commands use. -/

namespace Sys2Proof

/-- A byte. -/
abbrev Byte := BitVec 8
/-- A 16-bit value. -/
abbrev W16 := BitVec 16
/-- A 32-bit word: an instruction word, a lane, a sync object value. -/
abbrev W32 := BitVec 32
/-- A 64-bit word: a general register, a local memory word, a CSR, a frame register. -/
abbrev W64 := BitVec 64

/-- A logical tile, number `y * 840 + x` (00, R22: 840 columns and 546 rows). -/
abbrev TileIx := Fin 458640
/-- A region, number `4 * fy + fx / 3` (01, R26). -/
abbrev RegionIx := Fin 28
/-- A paddock id: 0 is the device itself, 1 to 28 the paddocks (01, R42). -/
abbrev PaddockId := Fin 29
/-- A ring pair number (14, R421). -/
abbrev RingIx := Fin 256

/-- Sparse data by number: pairs of a key and a value. An unlisted key holds the default that the
field's reader names. -/
abbrev Map (α : Type) := List (Nat × α)

end Sys2Proof
end

