-- ==== Sys2Proof/Syntax.lean ====
section
/-! DEFINITION. The commands of the engine: one constructor of `Instr` for each row of the operation table, with the
row's operands. An instruction of a tile carries the tile and the fields of its 32-bit word (03, R98); a step of an
engine or an event carries what the specification leaves to the outside (which packet, which region, a level read). -/

namespace Sys2Proof

/-- The four ports of a router, in the order of R241 (09, R283). -/
inductive Dir where
  | north | east | south | west
  deriving DecidableEq, Repr

/-- g.andi, g.ori, g.xori (03, R100). -/
inductive LogicImm where
  | andi | ori | xori
  deriving DecidableEq, Repr

/-- br.eq to br.geu (03, R102). -/
inductive BrOp where
  | eq | ne | lt | ge | ltu | geu
  deriving DecidableEq, Repr

/-- ld.64 to ld.8u (03, R100). -/
inductive LdOp where
  | ld64 | ld32s | ld32u | ld16s | ld16u | ld8s | ld8u
  deriving DecidableEq, Repr

/-- st.64 to st.8 (03, R100). -/
inductive StOp where
  | st64 | st32 | st16 | st8
  deriving DecidableEq, Repr

/-- The fields of a matrix/vector word below its major opcode and sub-op (03, R98): [25:21], [20:16], [15:11],
[10:7] and [6:4]. -/
structure VFields where
  vd : BitVec 5
  vs1 : BitVec 5
  vs2 : BitVec 5
  fmt : BitVec 4
  mask : BitVec 3
  deriving DecidableEq, Repr

/-- vx.mand, vx.mor, vx.mxor, vx.mandn (06, Table 6.4). -/
inductive MaskOp where
  | mand | mor | mxor | mandn
  deriving DecidableEq, Repr

/-- vx.add, vx.sub, vx.mul, vx.fma (06, Table 6.4). -/
inductive ArithOp where
  | add | sub | mul | fma
  deriving DecidableEq, Repr

/-- vx.abs, vx.neg, vx.csgn (06, Table 6.4). -/
inductive SignOp where
  | abs | neg | csgn
  deriving DecidableEq, Repr

/-- vx.and, vx.or, vx.xor (06, Table 6.4). -/
inductive LaneLogic where
  | and | or | xor
  deriving DecidableEq, Repr

/-- vx.shl, vx.shr, vx.sra (06, Table 6.4). -/
inductive ShiftOp where
  | shl | shr | sra
  deriving DecidableEq, Repr

/-- vx.cmpeq, vx.cmplt, vx.cmple (06, Table 6.4). -/
inductive CmpOp where
  | eq | lt | le
  deriving DecidableEq, Repr

/-- vx.recip, vx.sqrt, vx.rsqrt, vx.exp2, vx.log2 (06, Table 6.4). -/
inductive FnOp where
  | recip | sqrt | rsqrt | exp2 | log2
  deriving DecidableEq, Repr

/-- The fields of a queue/sync word below its sub-op (03, R98): [25:21], [20:16], [15:11] and [5:0]. -/
structure QFields where
  rd : BitVec 5
  rs1 : BitVec 5
  qs : BitVec 5
  flags : BitVec 6
  deriving DecidableEq, Repr

/-- An error report on its way to a collector (16, R477, R481): the source id of R475, the event code of R482, the
class bits of R474, the paddock, the tile (0x3FF, 0x3FF for none), the address, the syndrome, whether a tile fault
was raised in SERVICE mode or the event is a poison consumption, the pace count when it was raised (03,
R128), and for a plumb mismatch its pc, bank, shape, row, column and group, as MX_PLUMB_LAST places them (04, R159). -/
structure Report where
  source : BitVec 16
  code : BitVec 16
  cls : BitVec 7
  paddock : Nat
  x : BitVec 10
  y : BitVec 10
  addr : BitVec 64
  synd : BitVec 16
  service : Bool
  poison : Bool
  pace : BitVec 64 := 0
  detail : BitVec 44 := 0
  deriving DecidableEq, Repr

/-- Where a packet that a router takes comes from: the injection of a tile, or its place in the list of packets in
flight (09, R289). -/
inductive PacketRef where
  | injected (k : TileIx)
  | inFlight (n : Nat)
  deriving DecidableEq, Repr

/-- The outcome of a plumb check that a fault of the hardware makes fail: the lowest failing group, row and column
(04, R159). Without such a fault the identities hold. -/
structure PlumbMiss where
  group : BitVec 4
  row : BitVec 7
  col : BitVec 4
  deriving DecidableEq, Repr

/-- What the wafer scan and the boot of a power-up find (21, R612 to R616; 17, R507): which firmware bank the ROM can
boot, whether PACE_REF is within specification, whether both patina copies fail their digest, the coolant flow, and the tiles
(physical column and row) and tier sites (26 of the near tier, then 18 of the far tier) that fail. -/
structure ScanResult where
  bankAok : Bool
  bankBok : Bool
  refOk : Bool
  patinaLost : Bool
  pairFlows : Nat × Nat
  badTiles : List (Nat × Nat)
  badSites : List Nat
  deriving DecidableEq, Repr

/-- A frame on a link of the yoke or of a fabric port (18, R530, R549): its sequence number, whether its code checks, its
type and destination engine, the poison bits of its flits, and the bytes it carries. -/
structure LinkFrame where
  seq : Nat
  good : Bool
  kind : Nat
  dest : BitVec 6
  channel : BitVec 5
  poison : BitVec 17
  body : List Byte
  deriving DecidableEq, Repr

/-- What the primary has sent to the newcomer before a paddock joins (18, R538; 12, R374; log entry 100): where the copied image
stands in the share, and the chains of its ring pairs, input, seed and output of each ring. -/
structure JoinSent where
  image : Option (Nat × Nat)
  chains : List (Nat × BitVec 256 × BitVec 256 × BitVec 256)
  deriving DecidableEq, Repr

/-- What an ATTACH exchange tells of the twin (18, R536, Table 18.4): its mode and mask, its serial, whether its
attestation verifies, whether its arithmetic profile and firmware family are this module's, whether its masked paddocks
exist with the same width, height and share sizes, whether it holds an image in one, and whether it is debug-opened or
already attached. -/
structure AttachMsg where
  mode : Nat
  mask : BitVec 32
  serial : BitVec 48
  authentic : Bool
  profileSame : Bool
  familySame : Bool
  shapesSame : Bool
  images : Bool
  debug : Bool
  attached : Bool
  deriving DecidableEq, Repr

/-- The commands: one constructor per row of the operation table, in its order. -/
inductive Instr where
  -- the control core (03)
  | baseRegisterAlu (k : TileIx) (rd rs1 rs2 : BitVec 5) (func : BitVec 11)
  | gAddi (k : TileIx) (rd rs1 : BitVec 5) (imm : BitVec 16)
  | gLogicImm (k : TileIx) (op : LogicImm) (rd rs1 : BitVec 5) (imm : BitVec 16)
  | gShi (k : TileIx) (rd rs1 : BitVec 5) (imm : BitVec 16)
  | gLhi (k : TileIx) (rd rs1 : BitVec 5) (imm : BitVec 16)
  | gLti (k : TileIx) (signed : Bool) (rd rs1 : BitVec 5) (imm : BitVec 16)
  | branch (k : TileIx) (op : BrOp) (rd rs1 : BitVec 5) (imm : BitVec 16)
  | jLink (k : TileIx) (rd rs1 : BitVec 5) (imm : BitVec 16)
  | jReg (k : TileIx) (rd rs1 : BitVec 5) (imm : BitVec 16)
  | ld (k : TileIx) (op : LdOp) (rd rs1 : BitVec 5) (imm : BitVec 16)
  | st (k : TileIx) (op : StOp) (rd rs1 : BitVec 5) (imm : BitVec 16)
  | rGet (k : TileIx) (rd rs1 rs2 : BitVec 5) (func : BitVec 11)
  | rPut (k : TileIx) (rd rs1 rs2 : BitVec 5) (func : BitVec 11)
  | rFence (k : TileIx) (rd rs1 rs2 : BitVec 5) (func : BitVec 11)
  | cRd (k : TileIx) (rd rs1 : BitVec 5) (imm : BitVec 16)
  | cXchg (k : TileIx) (rd rs1 : BitVec 5) (imm : BitVec 16)
  | cSet (k : TileIx) (rd rs1 : BitVec 5) (imm : BitVec 16)
  | cClr (k : TileIx) (rd rs1 : BitVec 5) (imm : BitVec 16)
  | sysBrk (k : TileIx) (rd rs1 rs2 : BitVec 5) (func : BitVec 11)
  | reservedMajorOpcode (k : TileIx) (w : BitVec 32)
  | fcTileCauseClear (k : TileIx)
  | ceWriteback (k : TileIx) (w : Nat)
  | memScrub (k : TileIx)
  -- the matrix unit (04)
  | mxLda (k : TileIx) (f : VFields)
  | mxLdb (k : TileIx) (f : VFields)
  | mxLdat (k : TileIx) (f : VFields)
  | mxMma (k : TileIx) (f : VFields)
  | mxMmv (k : TileIx) (f : VFields)
  | mxZero (k : TileIx) (f : VFields)
  | mxSta (k : TileIx) (f : VFields)
  | mxWait (k : TileIx) (f : VFields)
  | mxLoadRun (k : TileIx)
  | mxComputeStart (k : TileIx)
  | mxComputeDone (k : TileIx) (miss : Option PlumbMiss)
  -- the vector engine (06, 13)
  | vxLd (k : TileIx) (now : Bool) (f : VFields)
  | vxSt (k : TileIx) (now : Bool) (f : VFields)
  | vxLds (k : TileIx) (now : Bool) (f : VFields)
  | vxSts (k : TileIx) (now : Bool) (f : VFields)
  | vxLdx (k : TileIx) (now : Bool) (f : VFields)
  | vxStx (k : TileIx) (now : Bool) (f : VFields)
  | vxSplat (k : TileIx) (now : Bool) (f : VFields)
  | vxMov (k : TileIx) (now : Bool) (f : VFields)
  | vxSetvl (k : TileIx) (now : Bool) (f : VFields)
  | vxAcc (k : TileIx) (now : Bool) (f : VFields)
  | vxMaskLogic (k : TileIx) (now : Bool) (op : MaskOp) (f : VFields)
  | vxMnot (k : TileIx) (now : Bool) (f : VFields)
  | vxMfromg (k : TileIx) (now : Bool) (f : VFields)
  | vxMfirst (k : TileIx) (now : Bool) (f : VFields)
  | vxCvt (k : TileIx) (now : Bool) (f : VFields)
  | vxLdw (k : TileIx) (now : Bool) (f : VFields)
  | vxStn (k : TileIx) (now : Bool) (f : VFields)
  | vxDequant (k : TileIx) (now : Bool) (b16 : Bool) (f : VFields)
  | vxQuant (k : TileIx) (now : Bool) (bf16 b16 fit : Bool) (f : VFields)
  | vxArith (k : TileIx) (now : Bool) (op : ArithOp) (f : VFields)
  | vxMinmax (k : TileIx) (now : Bool) (isMax : Bool) (f : VFields)
  | vxSign (k : TileIx) (now : Bool) (op : SignOp) (f : VFields)
  | vxLogic (k : TileIx) (now : Bool) (op : LaneLogic) (f : VFields)
  | vxShift (k : TileIx) (now : Bool) (op : ShiftOp) (f : VFields)
  | vxRsum (k : TileIx) (now : Bool) (f : VFields)
  | vxCompare (k : TileIx) (now : Bool) (op : CmpOp) (f : VFields)
  | vxSel (k : TileIx) (now : Bool) (f : VFields)
  | vxFunction (k : TileIx) (now : Bool) (op : FnOp) (f : VFields)
  | vxPerm (k : TileIx) (now : Bool) (f : VFields)
  | vxShuf (k : TileIx) (now : Bool) (f : VFields)
  | vxPack (k : TileIx) (now : Bool) (f : VFields)
  | vxUnpack (k : TileIx) (now : Bool) (f : VFields)
  | vxPack2of4 (k : TileIx) (now : Bool) (one : Bool) (f : VFields)
  | vxExpand (k : TileIx) (now : Bool) (one : Bool) (f : VFields)
  | vxAny (k : TileIx) (now : Bool) (f : VFields)
  | vxAll (k : TileIx) (now : Bool) (f : VFields)
  | vxRedg (k : TileIx) (now : Bool) (f : VFields)
  | vxLane (k : TileIx) (now : Bool) (f : VFields)
  | vxMtog (k : TileIx) (now : Bool) (f : VFields)
  | vxTally (k : TileIx) (now : Bool) (f : VFields)
  | vxBandedit (k : TileIx) (now : Bool) (f : VFields)
  | vxJw (k : TileIx) (now : Bool) (f : VFields)
  | vxQsig (k : TileIx) (now : Bool) (f : VFields)
  | vxPopcnt (k : TileIx) (now : Bool) (f : VFields)
  | nzGeom (k : TileIx) (now : Bool) (f : VFields)
  | nzDgauss (k : TileIx) (now : Bool) (f : VFields)
  -- queues and sync objects (07)
  | qSend (k : TileIx) (f : QFields)
  | qTrysend (k : TileIx) (f : QFields)
  | qRecv (k : TileIx) (f : QFields)
  | qPeek (k : TileIx) (f : QFields)
  | qPop (k : TileIx) (f : QFields)
  | qWord (k : TileIx) (f : QFields)
  | qSelect (k : TileIx) (f : QFields)
  | qCount (k : TileIx) (f : QFields)
  | sWait (k : TileIx) (f : QFields)
  | sSignal (k : TileIx) (f : QFields)
  | sSet (k : TileIx) (f : QFields)
  | sTrywait (k : TileIx) (f : QFields)
  | sRead (k : TileIx) (f : QFields)
  -- poses (08)
  | poseSwitchInsn (k : TileIx) (f : QFields)
  | poseYield (k : TileIx) (f : QFields)
  | poseId (k : TileIx) (f : QFields)
  | poseSwitchRun (k : TileIx)
  | poseStart (k : TileIx) (slot : BitVec 4) (service : Bool) (top : BitVec 6)
  | tileModeWrite (k : TileIx) (byController : Bool) (service : Bool) (top : BitVec 6)
  | tileReset (k : TileIx)
  | poseLoadStart (k : TileIx)
  | poseLoadDone (k : TileIx)
  | steerFire (k : TileIx)
  | outboundSend (k : TileIx) (entry : Nat)
  | msgResendTimeout (k : TileIx) (entry : Nat)
  | syncStuck (k : TileIx) (entry : Option Nat)
  -- the mesh (09)
  | packetRoute (p : PacketRef)
  | flitReceive (n : Nat) (crcError : Bool)
  | linkHeartbeatTimeout (k : TileIx) (d : Dir)
  | msg (n : Nat)
  | msgAnswer (n : Nat)
  | retryNotice (n : Nat)
  | get (n : Nat)
  | coalesceEntryExpire (k : TileIx)
  | getData (n : Nat)
  | put (n : Nat)
  | putAck (n : Nat)
  | nack (n : Nat)
  | signal (n : Nat)
  | wake (n : Nat)
  | gather (n : Nat)
  | rtSrcWrite (k : TileIx) (v : BitVec 64)
  | reinBurstSend (k : TileIx) (d : Dir)
  | reinTapWrite (n : Nat)
  | rtGsendWrite (k : TileIx) (v : BitVec 64)
  | tallyApply (k : TileIx)
  -- pace table entries, issued by the pace unit of a region (02, R69)
  | paceNop (r : RegionIx)
  | reinOpen (r : RegionIx)
  | reinReady (p : PaddockId) (rein : BitVec 12)
  | reinClose (r : RegionIx)
  | poseSwitch (r : RegionIx)
  | poseLoad (r : RegionIx)
  | remountIssueDemand (r : RegionIx)
  | remountIssuePredict (r : RegionIx)
  | gatherOpen (r : RegionIx)
  | ckptMark (r : RegionIx)
  | deadline (r : RegionIx)
  | deadlineTest (p : PaddockId)
  | windowMark (r : RegionIx)
  | ledgerTick (r : RegionIx) (measured : Nat)
  -- the pace (02)
  | beatBoundary (p : PaddockId)
  | strideOpen (p : PaddockId)
  | strideClose (p : PaddockId)
  | replay (p : PaddockId)
  | deviceStride
  | paceSyncInPulse (p : PaddockId)
  | paceRefLost
  | paceRefRestored
  | paceRefFreqCheck (ppm : Nat)
  | paceCtrlWrite (v : BitVec 64)
  | paceSrcWrite (p : PaddockId) (v : BitVec 64)
  | registerWrite (offset : BitVec 32) (four : Bool) (v : BitVec 64)
  -- memory tiers and remounts (10)
  | remountBind (n : Nat)
  | slotRelease (n : Nat)
  | remountGranuleSend (p : PaddockId) (lane : Nat)
  | tierHealComplete (far : Bool) (granule : Nat) (goodMirror : Bool)
  | tierScrub (far : Bool) (uncorrectable : Bool) (corrected : Bool)
  | siteMigrationStart (far : Bool) (logical : Nat)
  | siteMigrationComplete (far : Bool)
  | apertureRead (offset : BitVec 36) (len : Nat)
  | apertureWrite (offset : BitVec 36) (data : List Byte)
  -- the host interface (14)
  | bar2Write (offset : Nat) (data : List Byte)
  | indirectWindowWrite (tileWindow : Bool) (offset : BitVec 32) (v : BitVec 64)
  | hiPoll (fails : BitVec 4)
  | ringEnable (n : RingIx)
  | ringDisable (n : RingIx)
  | eventRingHeadWrite (v : BitVec 64)
  | linkReset
  | descriptorComplete (id : Nat)
  -- descriptors (14, R434)
  | nop (id : Nat)
  | pad (id : Nat)
  | fence (id : Nat)
  | stageIn (id : Nat)
  | stageOut (id : Nat)
  | loadImage (id : Nat)
  | loadImageShared (id : Nat)
  | unloadImage (id : Nat)
  | stride (id : Nat)
  | decodeOpen (id : Nat)
  | decodeStepPrefill (id session : Nat)
  | decodeStepPlain (id session : Nat)
  | decodeStepOutrider (id session : Nat) (maquette : List (List (BitVec 32)))
  | decodeClose (id : Nat)
  | tallyRun (id : Nat)
  | tallyFinish (id : Nat)
  | checkpoint (id : Nat)
  | restore (id : Nat)
  | screenSelfTest (id : Nat) (failures : List (TileIx × BitVec 8 × BitVec 8 × BitVec 64))
  | screenGeneratorKa (id : Nat)
  | screenSamplerKa (id : Nat)
  | dumpSync (id : Nat)
  | releaseWindow (id : Nat)
  | paddockCreate (id : Nat)
  | paddockDestroy (id : Nat)
  | budgetSet (id : Nat)
  | yokeAttach (id : Nat)
  | yokeDetach (id : Nat)
  | fwStage (id : Nat)
  | fwActivate (id : Nat)
  | debugOpen (id : Nat)
  | sealIssue (id : Nat)
  -- faults and repair (16, 17)
  | errorReport (r : Option Report)
  | pathFault (source : BitVec 16) (k : TileIx)
  | lineWithoutReport (source : BitVec 16) (k : TileIx)
  | ackTimeout (source : BitVec 16) (k : TileIx)
  | haltNow
  | fcModeWrite (compat : Bool)
  | firstErrorClear (field : Option (Fin 84))
  | tableFlipRequest (detours : List (TileIx × List (BitVec 64)))
  | tableFlipComplete
  | rePlacement (p : PaddockId)
  | tileRetire (k : TileIx)
  | patinaWrite (entry : BitVec 128)
  -- power and heat (15)
  | ledgerPeriod (temps : List Nat)
  | regionPowerLimit (r : RegionIx)
  | modulePowerLimit
  | throttleRelease (r : RegionIx) (cause : Nat)
  | feedLost (b : Bool)
  | feedRestored (b : Bool)
  | bothFeedsLost
  | converterFail
  | phaseFail (r : RegionIx)
  | efuseTrip (r : RegionIx)
  | coolantInletLimit
  | coolantFlowLimit
  -- the yoke and the fabric (18)
  | yokeData (link : Fin 30) (f : LinkFrame)
  | ack (link : Fin 30) (seq : Nat)
  | nak (link : Fin 30) (seq : Nat)
  | linkRetryTimeout (link : Fin 30)
  | credit (link : Fin 30) (channel : Nat) (n : Nat)
  | heartbeat (link : Fin 30)
  | heartbeatSend (link : Fin 30)
  | yokeDown
  | halted (port : Fin 20)
  | laneSpare (link : Fin 30) (lane : BitVec 8)
  | remoteChannelMsg (link : Fin 30) (channel : Nat) (chseq : Nat) (words : List (BitVec 64 × Bool))
  | mPropose (p : PaddockId) (stride : Nat) (m : Nat)
  | closeReport (p : PaddockId) (stride : Nat) (held : Nat) (fault : Bool) (digest : BitVec 64)
  | mark (p : PaddockId) (stride : Nat) (beat : Nat)
  | partials (p : PaddockId) (digests : List (BitVec 64)) (failures : List TileIx)
  | paddockFail (p : PaddockId)
  | haltNotice
  | detach (p : PaddockId)
  | forward (p : PaddockId) (kind : Nat) (addr : BitVec 64) (data : List (Byte × Bool))
  | attach (a : AttachMsg)
  | attachTimeout
  | attachCopy
  | yokeJoin (p : PaddockId) (sent : JoinSent)
  | twinHaltIn
  | takeOver
  | takeover (p : PaddockId)
  -- security (19)
  | tokenSubmit
  | relkeyErase (v : BitVec 64)
  | doeDiscovery (index : BitVec 8)
  | spdmCert (slot : BitVec 8)
  | spdmChal (slot : BitVec 8) (nonce : List Byte)
  | spdmMeas (slot : BitVec 8) (nonce : List Byte)
  | spdmKeyEx (mutualOwner : Bool) (ownerSig : List Byte)
  | ownerEnrol (session : Nat) (key : List Byte) (sig : List Byte)
  | ownerRemove (session : Nat)
  | releaseKeyPut (session : Nat) (p : PaddockId) (slot : BitVec 2) (key : BitVec 256)
  | releaseKeyPutWrapped (session : Nat) (p : PaddockId) (slot : BitVec 2) (secret : BitVec 3) (wrapped : List Byte)
  | ownerSecretPut (session : Nat) (index : BitVec 3) (secret : List Byte)
  | ideKm (session : Nat) (stream : BitVec 8) (key : BitVec 256)
  | pldmSensorRead (sensor : Nat)
  | pldmSetThreshold (sensor : Nat) (upper : Bool) (value : Int)
  | pldmEventRead
  | pldmEvent (sensor : Nat) (value : Int)
  | firmwareUpdate (image : List Byte)
  | tapBypass (tdi : Bool)
  | tapIdcode
  | tapSamplePreload
  | tapExtest
  | tapPrivate (opcode : BitVec 8)
  -- counters (20)
  | counterClear (v : BitVec 64)
  | counterWrapClear (offset : BitVec 32)
  | bwWindowEnd
  -- the module (21)
  | powerUp (feedA feedB : Bool)
  | modResetRelease (scan : ScanResult)
  | bootTimeout
  | modResetAssert
  -- fetches (03), the vector queue (06), the link's power state (14), retraining (18)
  | fetchFault (k : TileIx)
  | vxInstrStart (k : TileIx)
  | d3hotTransition (enter : Bool)
  | fabricPortRetrain (port : Fin 20) (peer : BitVec 6)
  | yokeRetrain (group : Fin 10)
  deriving DecidableEq, Repr

end Sys2Proof
end

