-- ==== Sys2Proof/Decode.lean ====
section
/-! DEFINITION. The instruction words of a tile: their formats, the word of each instruction, and the instruction of each word
(03, R98 to R101; 04, Table 4.4; 06, Table 6.4; 07, Table 7.3; 08, Table 8.3; 13, R402). The operation table gives no row any
bits, so no table word spells a command (log entry 8). -/

namespace Sys2Proof

/-- The command a word of the operation table spells: the table gives no row any bits. -/
def decodeTableWord (_nbits _w : Nat) : Option Instr := none

/-- The major opcode of an instruction word (03, R98). -/
def majorOf (w : BitVec 32) : Nat := w.toNat / 2 ^ 26

/-- The sub-op of a Queue/sync word. -/
def qSubOf (w : BitVec 32) : Nat := w.toNat / 2 ^ 6 % 32

/-- The sub-op of a Matrix/vector word. -/
def vSubOf (w : BitVec 32) : Nat := w.toNat % 16

/-- The major opcodes that Table 3.3 reserves (03, R100). -/
def reservedMajors : List Nat :=
  [0x1F, 0x22, 0x23, 0x31, 0x32, 0x33, 0x35, 0x36, 0x37, 0x3D, 0x3E, 0x3F]

/-- How many sub-ops, from 0 on, a major opcode of a Queue/sync or Matrix/vector group lists (Tables 4.4, 6.4, 7.3 and 8.3;
13, R402). Major 0x2A also lists 8 to 15. -/
def listedSubs (major : Nat) : Nat :=
  match major with
  | 0x20 => 8 | 0x21 => 5 | 0x34 => 3
  | 0x24 => 3 | 0x25 => 2 | 0x26 => 2 | 0x27 => 1
  | 0x28 => 10 | 0x29 => 7 | 0x2A => 5 | 0x2B => 16 | 0x2C => 9 | 0x2D => 5 | 0x2E => 8 | 0x2F => 5 | 0x30 => 2
  | _ => 32

/-- The sub-op of a word of a group with sub-ops. -/
def subOf (w : BitVec 32) : Nat :=
  if majorOf w = 0x20 ∨ majorOf w = 0x21 ∨ majorOf w = 0x34 then qSubOf w else vSubOf w

/-- R99: a word with a reserved major opcode, or with a reserved sub-op of a group (log entry 120). The reserved functions of
BASE_REGISTER_ALU and of sys are those commands' own operands. -/
def reservedWord (w : BitVec 32) : Bool :=
  reservedMajors.contains (majorOf w)
    || (decide (listedSubs (majorOf w) ≤ subOf w) && !(majorOf w == 0x2A && decide (8 ≤ subOf w)))

/-! ## Formats (03, Table 3.2) -/

/-- Register format. -/
def regWord (major : BitVec 6) (rd rs1 rs2 : BitVec 5) (func : BitVec 11) : BitVec 32 := major ++ rd ++ rs1 ++ rs2 ++ func

/-- Immediate format. -/
def immWord (major : BitVec 6) (rd rs1 : BitVec 5) (imm : BitVec 16) : BitVec 32 := major ++ rd ++ rs1 ++ imm

/-- Queue/sync format. -/
def queueWord (major : BitVec 6) (f : QFields) (sub : BitVec 5) : BitVec 32 := major ++ f.rd ++ f.rs1 ++ f.qs ++ sub ++ f.flags

/-- Matrix/vector format. -/
def vectorWord (major : BitVec 6) (f : VFields) (sub : BitVec 4) : BitVec 32 :=
  major ++ f.vd ++ f.vs1 ++ f.vs2 ++ f.fmt ++ f.mask ++ sub

/-- The fields of a word in Queue/sync format. -/
def queueFields (w : BitVec 32) : QFields :=
  { rd := w.extractLsb' 21 5, rs1 := w.extractLsb' 16 5, qs := w.extractLsb' 11 5, flags := w.extractLsb' 0 6 }

/-- The fields of a word in Matrix/vector format. -/
def vectorFields (w : BitVec 32) : VFields :=
  { vd := w.extractLsb' 21 5, vs1 := w.extractLsb' 16 5, vs2 := w.extractLsb' 11 5, fmt := w.extractLsb' 7 4
    mask := w.extractLsb' 4 3 }

/-! ## The opcode map (03, Table 3.3 and the tables it names) -/

/-- A bit of a sub-op. -/
def subBit (b : Bool) (n : BitVec 4) : BitVec 4 := if b then n else 0

/-- The word of an instruction that the core of a tile issues; `none` for any other command. -/
def Instr.tileWord : Instr → Option (BitVec 32)
  | .baseRegisterAlu _ rd rs1 rs2 func => some (regWord 0x00 rd rs1 rs2 func)
  | .gAddi _ rd rs1 imm => some (immWord 0x01 rd rs1 imm)
  | .gLogicImm _ op rd rs1 imm => some (immWord (match op with | .andi => 0x02 | .ori => 0x03 | .xori => 0x04) rd rs1 imm)
  | .gShi _ rd rs1 imm => some (immWord 0x05 rd rs1 imm)
  | .gLhi _ rd rs1 imm => some (immWord 0x06 rd rs1 imm)
  | .gLti _ signed rd rs1 imm => some (immWord (if signed then 0x07 else 0x08) rd rs1 imm)
  | .branch _ op rd rs1 imm =>
    some (immWord (match op with | .eq => 0x09 | .ne => 0x0A | .lt => 0x0B | .ge => 0x0C | .ltu => 0x0D | .geu => 0x0E) rd rs1 imm)
  | .jLink _ rd rs1 imm => some (immWord 0x0F rd rs1 imm)
  | .jReg _ rd rs1 imm => some (immWord 0x10 rd rs1 imm)
  | .ld _ op rd rs1 imm =>
    some (immWord (match op with
      | .ld64 => 0x11 | .ld32s => 0x12 | .ld32u => 0x13 | .ld16s => 0x14 | .ld16u => 0x15 | .ld8s => 0x16 | .ld8u => 0x17) rd rs1 imm)
  | .st _ op rd rs1 imm =>
    some (immWord (match op with | .st64 => 0x18 | .st32 => 0x19 | .st16 => 0x1A | .st8 => 0x1B) rd rs1 imm)
  | .rGet _ rd rs1 rs2 func => some (regWord 0x1C rd rs1 rs2 func)
  | .rPut _ rd rs1 rs2 func => some (regWord 0x1D rd rs1 rs2 func)
  | .rFence _ rd rs1 rs2 func => some (regWord 0x1E rd rs1 rs2 func)
  | .qSend _ f => some (queueWord 0x20 f 0)
  | .qTrysend _ f => some (queueWord 0x20 f 1)
  | .qRecv _ f => some (queueWord 0x20 f 2)
  | .qPeek _ f => some (queueWord 0x20 f 3)
  | .qPop _ f => some (queueWord 0x20 f 4)
  | .qWord _ f => some (queueWord 0x20 f 5)
  | .qSelect _ f => some (queueWord 0x20 f 6)
  | .qCount _ f => some (queueWord 0x20 f 7)
  | .sWait _ f => some (queueWord 0x21 f 0)
  | .sSignal _ f => some (queueWord 0x21 f 1)
  | .sSet _ f => some (queueWord 0x21 f 2)
  | .sTrywait _ f => some (queueWord 0x21 f 3)
  | .sRead _ f => some (queueWord 0x21 f 4)
  | .mxLda _ f => some (vectorWord 0x24 f 0)
  | .mxLdb _ f => some (vectorWord 0x24 f 1)
  | .mxLdat _ f => some (vectorWord 0x24 f 2)
  | .mxMma _ f => some (vectorWord 0x25 f 0)
  | .mxMmv _ f => some (vectorWord 0x25 f 1)
  | .mxZero _ f => some (vectorWord 0x26 f 0)
  | .mxSta _ f => some (vectorWord 0x26 f 1)
  | .mxWait _ f => some (vectorWord 0x27 f 0)
  | .vxLd _ _ f => some (vectorWord 0x28 f 0)
  | .vxSt _ _ f => some (vectorWord 0x28 f 1)
  | .vxLds _ _ f => some (vectorWord 0x28 f 2)
  | .vxSts _ _ f => some (vectorWord 0x28 f 3)
  | .vxLdx _ _ f => some (vectorWord 0x28 f 4)
  | .vxStx _ _ f => some (vectorWord 0x28 f 5)
  | .vxSplat _ _ f => some (vectorWord 0x28 f 6)
  | .vxMov _ _ f => some (vectorWord 0x28 f 7)
  | .vxSetvl _ _ f => some (vectorWord 0x28 f 8)
  | .vxAcc _ _ f => some (vectorWord 0x28 f 9)
  | .vxMaskLogic _ _ op f => some (vectorWord 0x29 f (match op with | .mand => 0 | .mor => 1 | .mxor => 2 | .mandn => 3))
  | .vxMnot _ _ f => some (vectorWord 0x29 f 4)
  | .vxMfromg _ _ f => some (vectorWord 0x29 f 5)
  | .vxMfirst _ _ f => some (vectorWord 0x29 f 6)
  | .vxCvt _ _ f => some (vectorWord 0x2A f 0)
  | .vxLdw _ _ f => some (vectorWord 0x2A f 1)
  | .vxStn _ _ f => some (vectorWord 0x2A f 2)
  | .vxDequant _ _ b16 f => some (vectorWord 0x2A f (if b16 then 4 else 3))
  | .vxQuant _ _ bf16 b16 fit f => some (vectorWord 0x2A f (8 + subBit bf16 1 + subBit b16 2 + subBit fit 4))
  | .vxArith _ _ op f => some (vectorWord 0x2B f (match op with | .add => 0 | .sub => 1 | .mul => 2 | .fma => 3))
  | .vxMinmax _ _ isMax f => some (vectorWord 0x2B f (if isMax then 5 else 4))
  | .vxSign _ _ op f => some (vectorWord 0x2B f (match op with | .abs => 6 | .neg => 7 | .csgn => 8))
  | .vxLogic _ _ op f => some (vectorWord 0x2B f (match op with | .and => 9 | .or => 10 | .xor => 11))
  | .vxShift _ _ op f => some (vectorWord 0x2B f (match op with | .shl => 12 | .shr => 13 | .sra => 14))
  | .vxRsum _ _ f => some (vectorWord 0x2B f 15)
  | .vxCompare _ _ op f => some (vectorWord 0x2C f (match op with | .eq => 0 | .lt => 1 | .le => 2))
  | .vxSel _ _ f => some (vectorWord 0x2C f 3)
  | .vxFunction _ _ op f =>
    some (vectorWord 0x2C f (match op with | .recip => 4 | .sqrt => 5 | .rsqrt => 6 | .exp2 => 7 | .log2 => 8))
  | .vxTally _ _ f => some (vectorWord 0x2D f 0)
  | .vxBandedit _ _ f => some (vectorWord 0x2D f 1)
  | .vxJw _ _ f => some (vectorWord 0x2D f 2)
  | .vxQsig _ _ f => some (vectorWord 0x2D f 3)
  | .vxPopcnt _ _ f => some (vectorWord 0x2D f 4)
  | .vxPerm _ _ f => some (vectorWord 0x2E f 0)
  | .vxShuf _ _ f => some (vectorWord 0x2E f 1)
  | .vxPack _ _ f => some (vectorWord 0x2E f 2)
  | .vxUnpack _ _ f => some (vectorWord 0x2E f 3)
  | .vxPack2of4 _ _ one f => some (vectorWord 0x2E f (if one then 5 else 4))
  | .vxExpand _ _ one f => some (vectorWord 0x2E f (if one then 7 else 6))
  | .vxAny _ _ f => some (vectorWord 0x2F f 0)
  | .vxAll _ _ f => some (vectorWord 0x2F f 1)
  | .vxRedg _ _ f => some (vectorWord 0x2F f 2)
  | .vxLane _ _ f => some (vectorWord 0x2F f 3)
  | .vxMtog _ _ f => some (vectorWord 0x2F f 4)
  | .nzGeom _ _ f => some (vectorWord 0x30 f 0)
  | .nzDgauss _ _ f => some (vectorWord 0x30 f 1)
  | .poseSwitchInsn _ f => some (queueWord 0x34 f 0)
  | .poseYield _ f => some (queueWord 0x34 f 1)
  | .poseId _ f => some (queueWord 0x34 f 2)
  | .cRd _ rd rs1 imm => some (immWord 0x38 rd rs1 imm)
  | .cXchg _ rd rs1 imm => some (immWord 0x39 rd rs1 imm)
  | .cSet _ rd rs1 imm => some (immWord 0x3A rd rs1 imm)
  | .cClr _ rd rs1 imm => some (immWord 0x3B rd rs1 imm)
  | .sysBrk _ rd rs1 rs2 func => some (regWord 0x3C rd rs1 rs2 func)
  | .reservedMajorOpcode _ w => some w
  | _ => none

/-! ## Decoding a word (03, R98 to R100) -/

/-- A matrix or vector instruction by its major opcode and sub-op; `now` as the vector commands take it. -/
def vectorInstr (k : TileIx) (now : Bool) (major sub : Nat) (f : VFields) : Option Instr :=
  match major, sub with
  | 0x24, 0 => some (.mxLda k f)
  | 0x24, 1 => some (.mxLdb k f)
  | 0x24, 2 => some (.mxLdat k f)
  | 0x25, 0 => some (.mxMma k f)
  | 0x25, 1 => some (.mxMmv k f)
  | 0x26, 0 => some (.mxZero k f)
  | 0x26, 1 => some (.mxSta k f)
  | 0x27, 0 => some (.mxWait k f)
  | 0x28, 0 => some (.vxLd k now f)
  | 0x28, 1 => some (.vxSt k now f)
  | 0x28, 2 => some (.vxLds k now f)
  | 0x28, 3 => some (.vxSts k now f)
  | 0x28, 4 => some (.vxLdx k now f)
  | 0x28, 5 => some (.vxStx k now f)
  | 0x28, 6 => some (.vxSplat k now f)
  | 0x28, 7 => some (.vxMov k now f)
  | 0x28, 8 => some (.vxSetvl k now f)
  | 0x28, 9 => some (.vxAcc k now f)
  | 0x29, 0 => some (.vxMaskLogic k now .mand f)
  | 0x29, 1 => some (.vxMaskLogic k now .mor f)
  | 0x29, 2 => some (.vxMaskLogic k now .mxor f)
  | 0x29, 3 => some (.vxMaskLogic k now .mandn f)
  | 0x29, 4 => some (.vxMnot k now f)
  | 0x29, 5 => some (.vxMfromg k now f)
  | 0x29, 6 => some (.vxMfirst k now f)
  | 0x2A, 0 => some (.vxCvt k now f)
  | 0x2A, 1 => some (.vxLdw k now f)
  | 0x2A, 2 => some (.vxStn k now f)
  | 0x2A, 3 => some (.vxDequant k now false f)
  | 0x2A, 4 => some (.vxDequant k now true f)
  | 0x2B, 0 => some (.vxArith k now .add f)
  | 0x2B, 1 => some (.vxArith k now .sub f)
  | 0x2B, 2 => some (.vxArith k now .mul f)
  | 0x2B, 3 => some (.vxArith k now .fma f)
  | 0x2B, 4 => some (.vxMinmax k now false f)
  | 0x2B, 5 => some (.vxMinmax k now true f)
  | 0x2B, 6 => some (.vxSign k now .abs f)
  | 0x2B, 7 => some (.vxSign k now .neg f)
  | 0x2B, 8 => some (.vxSign k now .csgn f)
  | 0x2B, 9 => some (.vxLogic k now .and f)
  | 0x2B, 10 => some (.vxLogic k now .or f)
  | 0x2B, 11 => some (.vxLogic k now .xor f)
  | 0x2B, 12 => some (.vxShift k now .shl f)
  | 0x2B, 13 => some (.vxShift k now .shr f)
  | 0x2B, 14 => some (.vxShift k now .sra f)
  | 0x2B, 15 => some (.vxRsum k now f)
  | 0x2C, 0 => some (.vxCompare k now .eq f)
  | 0x2C, 1 => some (.vxCompare k now .lt f)
  | 0x2C, 2 => some (.vxCompare k now .le f)
  | 0x2C, 3 => some (.vxSel k now f)
  | 0x2C, 4 => some (.vxFunction k now .recip f)
  | 0x2C, 5 => some (.vxFunction k now .sqrt f)
  | 0x2C, 6 => some (.vxFunction k now .rsqrt f)
  | 0x2C, 7 => some (.vxFunction k now .exp2 f)
  | 0x2C, 8 => some (.vxFunction k now .log2 f)
  | 0x2D, 0 => some (.vxTally k now f)
  | 0x2D, 1 => some (.vxBandedit k now f)
  | 0x2D, 2 => some (.vxJw k now f)
  | 0x2D, 3 => some (.vxQsig k now f)
  | 0x2D, 4 => some (.vxPopcnt k now f)
  | 0x2E, 0 => some (.vxPerm k now f)
  | 0x2E, 1 => some (.vxShuf k now f)
  | 0x2E, 2 => some (.vxPack k now f)
  | 0x2E, 3 => some (.vxUnpack k now f)
  | 0x2E, 4 => some (.vxPack2of4 k now false f)
  | 0x2E, 5 => some (.vxPack2of4 k now true f)
  | 0x2E, 6 => some (.vxExpand k now false f)
  | 0x2E, 7 => some (.vxExpand k now true f)
  | 0x2F, 0 => some (.vxAny k now f)
  | 0x2F, 1 => some (.vxAll k now f)
  | 0x2F, 2 => some (.vxRedg k now f)
  | 0x2F, 3 => some (.vxLane k now f)
  | 0x2F, 4 => some (.vxMtog k now f)
  | 0x30, 0 => some (.nzGeom k now f)
  | 0x30, 1 => some (.nzDgauss k now f)
  | 0x2A, s => if s < 8 then none else some (.vxQuant k now (s % 2 == 1) (s / 2 % 2 == 1) (s / 4 % 2 == 1) f)
  | _, _ => none

/-- A queue, sync or pose instruction by its major opcode and sub-op. -/
def queueInstr (k : TileIx) (major sub : Nat) (f : QFields) : Option Instr :=
  match major, sub with
  | 0x20, 0 => some (.qSend k f)
  | 0x20, 1 => some (.qTrysend k f)
  | 0x20, 2 => some (.qRecv k f)
  | 0x20, 3 => some (.qPeek k f)
  | 0x20, 4 => some (.qPop k f)
  | 0x20, 5 => some (.qWord k f)
  | 0x20, 6 => some (.qSelect k f)
  | 0x20, 7 => some (.qCount k f)
  | 0x21, 0 => some (.sWait k f)
  | 0x21, 1 => some (.sSignal k f)
  | 0x21, 2 => some (.sSet k f)
  | 0x21, 3 => some (.sTrywait k f)
  | 0x21, 4 => some (.sRead k f)
  | 0x34, 0 => some (.poseSwitchInsn k f)
  | 0x34, 1 => some (.poseYield k f)
  | 0x34, 2 => some (.poseId k f)
  | _, _ => none

/-- An instruction in Immediate format by its major opcode. -/
def immInstr (k : TileIx) (major : Nat) (rd rs1 : BitVec 5) (imm : BitVec 16) : Option Instr :=
  match major with
  | 0x01 => some (.gAddi k rd rs1 imm)
  | 0x02 => some (.gLogicImm k .andi rd rs1 imm)
  | 0x03 => some (.gLogicImm k .ori rd rs1 imm)
  | 0x04 => some (.gLogicImm k .xori rd rs1 imm)
  | 0x05 => some (.gShi k rd rs1 imm)
  | 0x06 => some (.gLhi k rd rs1 imm)
  | 0x07 => some (.gLti k true rd rs1 imm)
  | 0x08 => some (.gLti k false rd rs1 imm)
  | 0x09 => some (.branch k .eq rd rs1 imm)
  | 0x0A => some (.branch k .ne rd rs1 imm)
  | 0x0B => some (.branch k .lt rd rs1 imm)
  | 0x0C => some (.branch k .ge rd rs1 imm)
  | 0x0D => some (.branch k .ltu rd rs1 imm)
  | 0x0E => some (.branch k .geu rd rs1 imm)
  | 0x0F => some (.jLink k rd rs1 imm)
  | 0x10 => some (.jReg k rd rs1 imm)
  | 0x11 => some (.ld k .ld64 rd rs1 imm)
  | 0x12 => some (.ld k .ld32s rd rs1 imm)
  | 0x13 => some (.ld k .ld32u rd rs1 imm)
  | 0x14 => some (.ld k .ld16s rd rs1 imm)
  | 0x15 => some (.ld k .ld16u rd rs1 imm)
  | 0x16 => some (.ld k .ld8s rd rs1 imm)
  | 0x17 => some (.ld k .ld8u rd rs1 imm)
  | 0x18 => some (.st k .st64 rd rs1 imm)
  | 0x19 => some (.st k .st32 rd rs1 imm)
  | 0x1A => some (.st k .st16 rd rs1 imm)
  | 0x1B => some (.st k .st8 rd rs1 imm)
  | 0x38 => some (.cRd k rd rs1 imm)
  | 0x39 => some (.cXchg k rd rs1 imm)
  | 0x3A => some (.cSet k rd rs1 imm)
  | 0x3B => some (.cClr k rd rs1 imm)
  | _ => none

/-- An instruction in Register format by its major opcode. -/
def regInstr (k : TileIx) (major : Nat) (rd rs1 rs2 : BitVec 5) (func : BitVec 11) : Option Instr :=
  match major with
  | 0x00 => some (.baseRegisterAlu k rd rs1 rs2 func)
  | 0x1C => some (.rGet k rd rs1 rs2 func)
  | 0x1D => some (.rPut k rd rs1 rs2 func)
  | 0x1E => some (.rFence k rd rs1 rs2 func)
  | 0x3C => some (.sysBrk k rd rs1 rs2 func)
  | _ => none

/-- The instruction of a word at the core of a tile: total; a word that Table 3.3 and the tables it names do not list is a reserved
one (R99). -/
def tileInstr (k : TileIx) (now : Bool) (w : BitVec 32) : Instr :=
  let major := majorOf w
  let rd := w.extractLsb' 21 5
  let rs1 := w.extractLsb' 16 5
  let listed := match immInstr k major rd rs1 (w.extractLsb' 0 16) with
    | some i => some i
    | none => match regInstr k major rd rs1 (w.extractLsb' 11 5) (w.extractLsb' 0 11) with
      | some i => some i
      | none => match queueInstr k major (qSubOf w) (queueFields w) with
        | some i => some i
        | none => vectorInstr k now major (vSubOf w) (vectorFields w)
  listed.getD (.reservedMajorOpcode k w)

end Sys2Proof
end

