-- ==== Sys2Proof/Config.lean ====
section
/-! DEFINITION. What the specification leaves open: the free values. None of these constants has a body, so
nothing in Lean can evaluate one or prove a value of one. -/

namespace Sys2Proof

/-- A fresh 64-bit value that the specification does not give, one for each value of the counter
`State.free` (a sensor reading, a timer, a random number). Log entry 5. -/
opaque Config.freeValue : Nat → BitVec 64

/-- The result of vx.cvt from an integer to a narrower integer format, of the widths named, for a lane outside the
target's range (6, R200): one function of the lane, the same on every execution (12, R369). Log entry 40. -/
opaque Config.intConvert : Nat → Nat → Nat → BitVec 64

/-- The logits that the large model of an image (named by its digest) yields at the position after a sequence of tokens,
after the image's own filters (11, R353, R361, R363): one function, whatever kind of step asks. Log entry 156. -/
opaque Config.headLogits : BitVec 256 → List (BitVec 32) → List (BitVec 32)

/-- The noise of a cell whose sampler (1 GEOM, 2 DGAUSS; its two parameters, the noise key, the cell) needs more words than a stream
has blocks of a 32-bit counter for (13, R385, R403). Log entry 43. -/
opaque Config.longNoise : Nat → Nat → Nat → BitVec 32 → BitVec 32 → BitVec 64 → Int

/-- What a granule reads as under a key that did not encrypt it (10, R321, R326): the key in force, the tweak and what the granule
holds. Log entry 103. -/
opaque Config.otherKey : BitVec 512 → BitVec 128 → BitVec 512 → BitVec 512

/-- ID_SERIAL.serial, fixed at manufacture (00, R5, Table 0.2). Log entry 63. -/
opaque Config.serial : BitVec 48

/-- The SHA-256 of the RSA-3072 public key that the fuses of a root-key slot hold (19, Table 19.1). Log entry 6. -/
opaque Config.rootHash : Nat → BitVec 256

/-- The firmware image that a bank left manufacture with (19, R559). Log entry 6. -/
opaque Config.shippedImage : Bool → List (BitVec 8)

/-- The vendor ID that PCI-SIG assigned to Eokan Systems (14, Table 14.1). Log entry 158. -/
opaque Config.vendorId : BitVec 16

/-- The certificate chain of a slot: 0 the identity chain, 1 the debug chain (19, R568). Log entry 6. -/
opaque Config.certChain : Nat → List (BitVec 8)

/-- The manufacturer code of the IDCODE (19, R580). Log entry 6. -/
opaque Config.makerCode : BitVec 11

/-- The signature of `SEC_IDENTITY`, of the debug key or of a firmware key over a 32-byte digest: RSASSA-PSS with a
private key that the specification does not give (19, R566; 12, R382). Log entry 6. -/
opaque Config.signature : Nat → List (BitVec 8) → List (BitVec 8)

/-- Whether a signature over a message verifies under a public key (19, R559, R577). Log entry 6. -/
opaque Config.verifies : List (BitVec 8) → List (BitVec 8) → List (BitVec 8) → Bool

/-- A key derived or unwrapped by the security chiplet from the bytes named (19, R572, R570). Log entry 6. -/
opaque Config.unwrapKey : List (BitVec 8) → List (BitVec 8) → Option (BitVec 256)

end Sys2Proof
end

