-- ==== Sys2Proof/Machine/Numeric.lean ====
section
/-! DEFINITION. Number formats and arithmetic profile 1 (05): encodings, exact values, rounding, conversions, flags and
the five correctly rounded functions. Everything here is integer arithmetic on exact dyadic values. -/

namespace Sys2Proof.Machine

/-- The format codes of Table 5.1 (R164). -/
inductive Format where
  | fp32 | bf16 | fp16 | e4m3 | e5m2 | e2m3 | e3m2 | e2m1 | int8 | int4 | int32 | int64 | fp64
  deriving DecidableEq, Repr

/-- R164, Table 5.1: codes 0xD to 0xF are reserved. -/
def Format.ofCode (c : BitVec 4) : Option Format :=
  match c.toNat with
  | 0 => some .fp32 | 1 => some .bf16 | 2 => some .fp16 | 3 => some .e4m3 | 4 => some .e5m2
  | 5 => some .e2m3 | 6 => some .e3m2 | 7 => some .e2m1 | 8 => some .int8 | 9 => some .int4
  | 10 => some .int32 | 11 => some .int64 | 12 => some .fp64 | _ => none

/-- Width in bits (Table 5.1). -/
def Format.width : Format → Nat
  | .fp32 => 32 | .bf16 => 16 | .fp16 => 16 | .e4m3 => 8 | .e5m2 => 8 | .e2m3 => 6 | .e3m2 => 6
  | .e2m1 => 4 | .int8 => 8 | .int4 => 4 | .int32 => 32 | .int64 => 64 | .fp64 => 64

/-- The integer formats (R169). -/
def Format.isInt : Format → Bool
  | .int8 | .int4 | .int32 | .int64 => true
  | _ => false

/-- R191: FP6, FP4 and INT4 have no lanes. -/
def Format.hasLanes : Format → Bool
  | .e2m3 | .e3m2 | .e2m1 | .int4 => false
  | _ => true

/-- R191, Table 6.1: lanes of a 512-bit register. -/
def Format.lanes (f : Format) : Nat := 512 / f.width

/-- Formats that are matrix operands: codes 0x0 to 0x9 (Table 5.1). -/
def Format.isMatrix : Format → Bool
  | .int32 | .int64 | .fp64 => false
  | _ => true

/-- The narrow formats of R132, floating point. -/
def Format.isNarrowFloat : Format → Bool
  | .e4m3 | .e5m2 | .e2m3 | .e3m2 | .e2m1 => true
  | _ => false

/-- The narrow formats of R132, integer. -/
def Format.isNarrowInt : Format → Bool
  | .int8 | .int4 => true
  | _ => false

/-- The wide matrix formats of R132. -/
def Format.isWide : Format → Bool
  | .fp32 | .bf16 | .fp16 => true
  | _ => false

/-- Formats with an MX form (Table 5.1). -/
def Format.isMx : Format → Bool
  | .e4m3 | .e5m2 | .e2m3 | .e3m2 | .e2m1 | .int8 | .int4 => true
  | _ => false

/-- How a floating-point format spells infinities and NaNs (Table 5.2). -/
inductive Specials where
  | ieee      -- e all ones: infinity at m = 0, NaN otherwise
  | nanOnly   -- E4M3: the one encoding with every bit of e and m set is NaN
  | none      -- FP4, FP6: neither
  deriving DecidableEq, Repr

/-- The parameters of a floating-point format (Table 5.2). -/
structure FloatParams where
  e : Nat
  m : Nat
  bias : Nat
  specials : Specials
  deriving DecidableEq, Repr

/-- Table 5.2. The integer formats have no parameters of their own; FP32's are given for them and never read. -/
def Format.params : Format → FloatParams
  | .e2m1 => ⟨2, 1, 1, .none⟩
  | .e2m3 => ⟨2, 3, 1, .none⟩
  | .e3m2 => ⟨3, 2, 3, .none⟩
  | .e4m3 => ⟨4, 3, 7, .nanOnly⟩
  | .e5m2 => ⟨5, 2, 15, .ieee⟩
  | .fp16 => ⟨5, 10, 15, .ieee⟩
  | .bf16 => ⟨8, 7, 127, .ieee⟩
  | .fp64 => ⟨11, 52, 1023, .ieee⟩
  | _ => ⟨8, 23, 127, .ieee⟩

/-- An exact value: a NaN (signalling or not), an infinity, or `(-1)^neg * man * 2^exp`. -/
inductive Val where
  | nan (signalling : Bool)
  | inf (neg : Bool)
  | fin (neg : Bool) (man : Nat) (exp : Int)
  deriving DecidableEq, Repr

/-- Whether a value is a NaN. -/
def Val.isNan : Val → Bool
  | .nan _ => true
  | _ => false

/-- Whether a value is a signalling NaN (R167). -/
def Val.isSnan : Val → Bool
  | .nan b => b
  | _ => false

/-- Whether a value is an infinity. -/
def Val.isInf : Val → Bool
  | .inf _ => true
  | _ => false

/-- Whether a value is a zero of either sign. -/
def Val.isZero : Val → Bool
  | .fin _ m _ => m == 0
  | _ => false

/-- The sign of a value; a NaN has sign 0 (R182). -/
def Val.neg : Val → Bool
  | .nan _ => false
  | .inf s => s
  | .fin s _ _ => s

/-- The exception flags (Table 5.7); `underflow` is the matrix path's flush. -/
structure Flags where
  invalid : Bool := false
  divZero : Bool := false
  overflow : Bool := false
  underflow : Bool := false
  inexact : Bool := false
  deriving DecidableEq, Repr

/-- The flags are sticky (R183). -/
def Flags.or (a b : Flags) : Flags :=
  ⟨a.invalid || b.invalid, a.divZero || b.divZero, a.overflow || b.overflow,
   a.underflow || b.underflow, a.inexact || b.inexact⟩

/-- No flag. -/
def Flags.none : Flags := {}

/-- R166 and Table 5.2: the exact value of an encoding of a floating-point format. FP8 NaNs are quiet (R167). -/
def decodeFloat (f : Format) (bits : Nat) : Val :=
  let p := f.params
  let sgn := bits / 2 ^ (p.e + p.m) % 2 == 1
  let ex := bits / 2 ^ p.m % 2 ^ p.e
  let mt := bits % 2 ^ p.m
  let top := ex == 2 ^ p.e - 1
  let finite : Val :=
    if ex == 0 then .fin sgn mt (1 - (p.bias : Int) - (p.m : Int))
    else .fin sgn (mt + 2 ^ p.m) ((ex : Int) - (p.bias : Int) - (p.m : Int))
  match p.specials with
  | .none => finite
  | .nanOnly => if top && mt == 2 ^ p.m - 1 then .nan false else finite
  | .ieee =>
    if top then
      if mt == 0 then .inf sgn
      else .nan (f.width > 8 && mt / 2 ^ (p.m - 1) == 0)
    else finite

/-- Two's complement reading of the low `w` bits. -/
def signedOf (w : Nat) (bits : Nat) : Int :=
  let b := bits % 2 ^ w
  if w ≠ 0 ∧ 2 ^ (w - 1) ≤ b then (b : Int) - (2 ^ w : Nat) else (b : Int)

/-- The low `w` bits of an integer, two's complement (R170: results wrap modulo 2^w). -/
def wrapTo (w : Nat) (v : Int) : Nat := (v % ((2 ^ w : Nat) : Int)).toNat

/-- The exact value of an integer. -/
def Val.ofInt (v : Int) : Val := .fin (decide (v < 0)) v.natAbs 0

/-- The exact value of an element by its format: a float by R166, an integer by its unscaled form (R169). -/
def decodeElem (f : Format) (bits : Nat) : Val :=
  if f.isInt then Val.ofInt (signedOf f.width bits) else decodeFloat f bits

/-- The canonical NaN of a format, sign 0 (Table 5.2, R182). FP4 and FP6 have none; +0 takes its place (Table 5.6). -/
def canonicalNan : Format → Nat
  | .e4m3 => 0x7F
  | .e5m2 => 0x7E
  | .fp16 => 0x7E00
  | .bf16 => 0x7FC0
  | .fp32 => 0x7FC00000
  | .fp64 => 0x7FF8000000000000
  | _ => 0

/-- The sign bit of a format's encoding. -/
def signBit (f : Format) (neg : Bool) : Nat := if neg then 2 ^ (f.params.e + f.params.m) else 0

/-- Table 5.2: the magnitude bits of the largest finite encoding. -/
def largestFinite (f : Format) : Nat :=
  let p := f.params
  match p.specials with
  | .none => 2 ^ (p.e + p.m) - 1
  | .nanOnly => 2 ^ (p.e + p.m) - 2
  | .ieee => 2 ^ (p.e + p.m) - 2 ^ p.m - 1

/-- The magnitude bits of infinity in a format that has one (Table 5.2). -/
def infinityBits (f : Format) : Nat :=
  let p := f.params
  2 ^ (p.e + p.m) - 2 ^ p.m

/-- The rounding modes of Table 5.5; SR carries the element's 32-bit generator word (R178). -/
inductive RMode where
  | rne
  | rtz
  | sr (word : Nat)
  deriving DecidableEq, Repr

/-- A magnitude rounded to an integral number of quanta `2^qe`: `q` quanta, and whether the value changed. -/
structure Rounded where
  q : Nat
  qe : Int
  inexact : Bool
  deriving DecidableEq, Repr

/-- `man * 2^exp` rounded to a multiple of `2^qe` (Table 5.5; SR by the pseudocode of R178). -/
def roundAt (mode : RMode) (man : Nat) (exp qe : Int) : Rounded :=
  if qe ≤ exp then ⟨man * 2 ^ (exp - qe).toNat, qe, false⟩
  else
    let s := (qe - exp).toNat
    let t := man / 2 ^ s
    let rem := man % 2 ^ s
    if rem == 0 then ⟨t, qe, false⟩
    else
      let up : Bool :=
        match mode with
        | .rne => decide (2 ^ s < 2 * rem) || (2 * rem == 2 ^ s && t % 2 == 1)
        | .rtz => false
        | .sr word => decide (word < rem * 2 ^ 32 / 2 ^ s)
      ⟨if up then t + 1 else t, qe, true⟩

/-- The smallest normal exponent of a format. -/
def emin (f : Format) : Int := 1 - (f.params.bias : Int)

/-- The exponent of one unit in the last place at a magnitude, subnormals included. -/
def quantumAt (f : Format) (man : Nat) (exp : Int) : Int :=
  let lead := (Nat.log2 man : Int) + exp
  max lead (emin f) - (f.params.m : Int)

/-- The encoding magnitude of `q * 2^qe`, a value the format's grid holds; it may lie beyond the largest finite
magnitude, and is then the encoding that the exponent field would continue to. -/
def packMagnitude (f : Format) (q : Nat) (qe : Int) : Nat :=
  let p := f.params
  if q == 0 then 0
  else
    let lead := (Nat.log2 q : Int) + qe
    if lead < emin f then q * 2 ^ (qe - (emin f - (p.m : Int))).toNat
    else
      let sig := if (Nat.log2 q) ≤ p.m then q * 2 ^ (p.m - Nat.log2 q) else q / 2 ^ (Nat.log2 q - p.m)
      (lead + (p.bias : Int)).toNat * 2 ^ p.m + (sig - 2 ^ p.m)

/-- R175: tininess after rounding, with an unbounded exponent. -/
def isTiny (f : Format) (mode : RMode) (man : Nat) (exp : Int) : Bool :=
  if man == 0 then false
  else
    let qe := (Nat.log2 man : Int) + exp - (f.params.m : Int)
    let r := roundAt mode man exp qe
    decide ((Nat.log2 r.q : Int) + r.qe < emin f)

/-- What a path does with a result beyond the largest finite value (Table 5.6). -/
inductive Beyond where
  | infinity | saturate | nan
  deriving DecidableEq, Repr

/-- Rounding a finite exact value once into a floating-point format: the encoding and the flags. `flush` selects the
flush of BF16 and of the matrix path (Table 5.6, R148); otherwise a tiny result is kept as a subnormal. -/
def roundFinite (f : Format) (mode : RMode) (flush : Bool) (beyond : Beyond) (neg : Bool) (man : Nat) (exp : Int) :
    Nat × Flags :=
  if man == 0 then (signBit f neg, Flags.none)
  else
    let tiny := isTiny f mode man exp
    if tiny && flush then (signBit f neg, { underflow := true, inexact := true })
    else
      let r := roundAt mode man exp (quantumAt f man exp)
      let mag := packMagnitude f r.q r.qe
      if largestFinite f < mag then
        match beyond with
        | .infinity => (signBit f neg + infinityBits f, { overflow := true, inexact := true })
        | .saturate => (signBit f neg + largestFinite f, { overflow := true, inexact := true })
        | .nan => (canonicalNan f, { overflow := true, inexact := true })
      else (signBit f neg + mag, { underflow := tiny && r.inexact, inexact := r.inexact })

/-- What "beyond largest finite" means for a target (Table 5.6): E4M3 by its option, FP6 and FP4 saturate. -/
def beyondFor (f : Format) (e4m3Nan : Bool) : Beyond :=
  match f.params.specials with
  | .ieee => .infinity
  | .nanOnly => if e4m3Nan then .nan else .saturate
  | .none => .saturate

/-- Table 5.6 for a floating-point target, from any exact value. -/
def toFloat (f : Format) (mode : RMode) (flush : Bool) (e4m3Nan : Bool) (v : Val) : Nat × Flags :=
  match v with
  | .nan s =>
    match f.params.specials with
    | .none => (0, { invalid := true })
    | .nanOnly => (canonicalNan f, { invalid := true })
    | .ieee => (canonicalNan f, { invalid := s })
  | .inf s =>
    match beyondFor f e4m3Nan with
    | .infinity => (signBit f s + infinityBits f, Flags.none)
    | .saturate => (signBit f s + largestFinite f, { overflow := true })
    | .nan => (canonicalNan f, { overflow := true })
  | .fin s m e => roundFinite f mode flush (beyondFor f e4m3Nan) s m e

/-- A rounding mode admitted by a conversion to an integer is RNE or RTZ (Table 5.5). The magnitude is rounded to an
integer and the sign applied. -/
def roundToInt (mode : RMode) (neg : Bool) (man : Nat) (exp : Int) : Int × Bool :=
  let r := roundAt mode man exp 0
  (if neg then -(r.q : Int) else (r.q : Int), r.inexact)

/-- Table 5.6 for an integer target from a floating-point source: the most positive or most negative integer with
invalid beyond the range, 0 with invalid for a NaN. -/
def floatToInt (f : Format) (mode : RMode) (v : Val) : Nat × Flags :=
  let w := f.width
  let hi : Int := (2 ^ (w - 1) : Nat) - 1
  let lo : Int := -((2 ^ (w - 1) : Nat) : Int)
  match v with
  | .nan _ => (0, { invalid := true })
  | .inf s => (wrapTo w (if s then lo else hi), { invalid := true })
  | .fin s m e =>
    let (i, ix) := roundToInt mode s m e
    if hi < i then (wrapTo w hi, { invalid := true, inexact := true })
    else if i < lo then (wrapTo w lo, { invalid := true, inexact := true })
    else (wrapTo w i, { inexact := ix })

/-- An integer lane converted to an integer target: the end of the range on its own side, with overflow (R200). -/
def intToInt (f : Format) (v : Int) : Nat × Flags :=
  let w := f.width
  let hi : Int := (2 ^ (w - 1) : Nat) - 1
  let lo : Int := -((2 ^ (w - 1) : Nat) : Int)
  if hi < v then (wrapTo w hi, { overflow := true })
  else if v < lo then (wrapTo w lo, { overflow := true })
  else (wrapTo w v, Flags.none)

/-- Whether a floating-point result of the vector path is flushed when tiny: BF16 alone (R180, Table 5.6). -/
def flushes (f : Format) : Bool := f == .bf16

/-- Table 5.6: an element of one format converted to another. An integer is rounded to nearest even whatever the code. -/
def convertElem (src dst : Format) (mode : RMode) (e4m3Nan : Bool) (bits : Nat) : Nat × Flags :=
  if dst.isInt then
    if src.isInt then intToInt dst (signedOf src.width bits)
    else floatToInt dst mode (decodeFloat src bits)
  else toFloat dst (if src.isInt then .rne else mode) (flushes dst) e4m3Nan (decodeElem src bits)

/-! ## Exact sums and products -/

/-- Two finite values on one exponent: their signed integers and that exponent. -/
def alignPair (s1 : Bool) (m1 : Nat) (e1 : Int) (s2 : Bool) (m2 : Nat) (e2 : Int) : Int × Int × Int :=
  let e := min e1 e2
  let a : Int := (m1 * 2 ^ (e1 - e).toNat : Nat)
  let b : Int := (m2 * 2 ^ (e2 - e).toNat : Nat)
  (if s1 then -a else a, if s2 then -b else b, e)

/-- The exact sum of two values. A zero sum of non-zero terms, or of zeros of both signs, is +0 (IEEE 754-2019, RNE).
The second component says whether a NaN arose from infinities of both signs. -/
def Val.add (x y : Val) : Val × Bool :=
  match x, y with
  | .nan s, .nan t => (.nan (s || t), false)
  | .nan s, _ => (.nan s, false)
  | _, .nan t => (.nan t, false)
  | .inf s, .inf t => if s == t then (.inf s, false) else (.nan false, true)
  | .inf s, _ => (.inf s, false)
  | _, .inf t => (.inf t, false)
  | .fin s1 m1 e1, .fin s2 m2 e2 =>
    if m1 == 0 && m2 == 0 then (.fin (s1 && s2) 0 0, false)
    else
      let (a, b, e) := alignPair s1 m1 e1 s2 m2 e2
      let t := a + b
      (.fin (decide (t < 0)) t.natAbs e, false)

/-- The exact product of two values; the second component says whether it is a zero times an infinity. -/
def Val.mul (x y : Val) : Val × Bool :=
  match x, y with
  | .nan s, .nan t => (.nan (s || t), false)
  | .nan s, _ => (.nan s, false)
  | _, .nan t => (.nan t, false)
  | .inf s, .inf t => (.inf (s != t), false)
  | .inf s, .fin t m _ => if m == 0 then (.nan false, true) else (.inf (s != t), false)
  | .fin s m _, .inf t => if m == 0 then (.nan false, true) else (.inf (s != t), false)
  | .fin s1 m1 e1, .fin s2 m2 e2 => (.fin (s1 != s2) (m1 * m2) (e1 + e2), false)

/-- The value with its sign turned; a NaN stays as it is. -/
def Val.negate : Val → Val
  | .nan s => .nan s
  | .inf s => .inf (!s)
  | .fin s m e => .fin (!s) m e

/-- An arithmetic result of the vector path: the exact value rounded once by RNE (R180), invalid set where a NaN arose
or an operand was a signalling NaN (Table 5.7). -/
def arithResult (f : Format) (v : Val) (arose : Bool) (snan : Bool) : Nat × Flags :=
  match v with
  | .nan _ => (canonicalNan f, { invalid := arose || snan })
  | _ => let (b, fl) := toFloat f .rne (flushes f) false v
         (b, fl.or { invalid := arose || snan })

/-- R181: the order of two values that are no NaNs: -1, 0 or 1. -0 and +0 compare equal. -/
def Val.order (x y : Val) : Int :=
  match x, y with
  | .inf s, .inf t => if s == t then 0 else if s then -1 else 1
  | .inf s, _ => if s then -1 else 1
  | _, .inf t => if t then 1 else -1
  | .fin s1 m1 e1, .fin s2 m2 e2 =>
    let (a, b, _) := alignPair s1 m1 e1 s2 m2 e2
    if a < b then -1 else if a = b then 0 else 1
  | _, _ => 0

/-! ## The correctly rounded functions (R184) -/

/-- Integer square root, by bits from `2^k` down. -/
def isqrtFrom : Nat → Nat → Nat → Nat
  | 0, _, r => r
  | k + 1, n, r =>
    let c := r + 2 ^ k
    isqrtFrom k n (if c * c ≤ n then c else r)

/-- The largest `r` with `r * r ≤ n`. -/
def isqrt (n : Nat) : Nat := isqrtFrom (Nat.log2 n / 2 + 1) n 0

/-- A magnitude with a sticky bit below it: the exact value lies strictly between `man` and `man + 1` units when
`sticky`, and is folded into one more bit. -/
def withSticky (man : Nat) (exp : Int) (sticky : Bool) : Nat × Int :=
  (2 * man + (if sticky then 1 else 0), exp - 1)

/-- `1 / (man * 2^exp)` to 80 bits with a sticky bit. -/
def recipMag (man : Nat) (exp : Int) : Nat × Int :=
  let k := Nat.log2 man + 80
  withSticky (2 ^ k / man) (-(k : Int) - exp) (decide (2 ^ k % man ≠ 0))

/-- The square root of `man * 2^exp` to 80 bits with a sticky bit. -/
def sqrtMag (man : Nat) (exp : Int) : Nat × Int :=
  let odd := decide (exp % 2 ≠ 0)
  let m := (if odd then 2 * man else man) * 2 ^ 160
  let e := (if odd then exp - 1 else exp) - 160
  let r := isqrt m
  withSticky r (e / 2) (decide (r * r ≠ m))

/-- The reciprocal square root of `man * 2^exp` to about 80 bits with a sticky bit. -/
def rsqrtMag (man : Nat) (exp : Int) : Nat × Int :=
  let odd := decide (exp % 2 ≠ 0)
  let m := if odd then 2 * man else man
  let e := if odd then exp - 1 else exp
  let k := Nat.log2 m + 80
  let n := 2 ^ (2 * k)
  let r := isqrt (n / m)
  withSticky r (-(k : Int) - e / 2) (decide (r * r * m ≠ n))

/-- Fixed-point fraction bits of the two transcendental functions (log entry 7). -/
def fracBits : Nat := 256

/-- `ln 2` in units of `2^-fracBits`, by the series of `1 / (k * 2^k)`. -/
def ln2Series : Nat → Nat → Nat
  | 0, acc => acc
  | k + 1, acc => ln2Series k (acc + 2 ^ (fracBits + 32) / ((k + 1) * 2 ^ (k + 1)))

/-- `ln 2` with 32 guard bits below the fraction. -/
def ln2Fixed : Nat := ln2Series 300 0 / 2 ^ 32

/-- The exponential series of `t` (in units of `2^-fracBits`): the terms from `k` on, `fuel` of them. -/
def expSeries : Nat → Nat → Nat → Nat → Nat → Nat
  | 0, _, _, _, acc => acc
  | fuel + 1, t, k, term, acc =>
    let next := term * t / 2 ^ fracBits / k
    expSeries fuel t (k + 1) next (acc + next)

/-- `2^f` for `0 ≤ f < 1`, `f` and the result in units of `2^-fracBits`. -/
def exp2Frac (f : Nat) : Nat :=
  let t := f * ln2Fixed / 2 ^ fracBits
  expSeries 80 t 1 (2 ^ fracBits) (2 ^ fracBits)

/-- The bits of `log2 y` after the point, `y` in `[1, 2)` with 512 fraction bits: by squaring. -/
def log2Bits : Nat → Nat → Nat → Nat
  | 0, _, acc => acc
  | n + 1, y, acc =>
    let y2 := y * y / 2 ^ 512
    if 2 ^ 513 ≤ y2 then log2Bits n (y2 / 2) (2 * acc + 1) else log2Bits n y2 (2 * acc)

/-- Whether a number is a power of two. -/
def isPow2 (n : Nat) : Bool := n != 0 && 2 ^ Nat.log2 n == n

/-- The five functions of R184. -/
inductive VFn where
  | recip | sqrt | rsqrt | exp2 | log2
  deriving DecidableEq, Repr

/-- Rounding of a positive magnitude to FP32 by RNE, subnormals kept. -/
def fp32Of (neg : Bool) (p : Nat × Int) : Nat × Flags := roundFinite .fp32 .rne false .infinity neg p.1 p.2

/-- `vx.exp2` of a finite non-zero value. -/
def exp2Fin (neg : Bool) (man : Nat) (exp : Int) : Nat × Flags :=
  let isInt := roundAt .rtz man exp 0
  if !isInt.inexact then
    let n : Int := if neg then -(isInt.q : Int) else (isInt.q : Int)
    if 128 ≤ n then (infinityBits .fp32, { overflow := true, inexact := true })
    else if n < -151 then (0, { underflow := true, inexact := true })
    else fp32Of false (1, n)
  else if 8 ≤ (Nat.log2 man : Int) + exp then
    if neg then (0, { underflow := true, inexact := true })
    else (infinityBits .fp32, { overflow := true, inexact := true })
  else
    -- |x| < 256: the integer part below x and the fraction, in units of 2^-fracBits, never an integer
    let fixed := roundAt .rtz man exp (-(fracBits : Int))
    let v : Int := if neg then -(fixed.q : Int) - (if fixed.inexact then 1 else 0) else (fixed.q : Int)
    let n := v / ((2 ^ fracBits : Nat) : Int)
    let f := (v % ((2 ^ fracBits : Nat) : Int)).toNat
    fp32Of false (withSticky (exp2Frac f) (n - (fracBits : Int)) true)

/-- `vx.log2` of a finite positive value. -/
def log2Fin (man : Nat) (exp : Int) : Nat × Flags :=
  let l := Nat.log2 man
  let n : Int := (l : Int) + exp
  if isPow2 man then
    if n == 0 then (0, Flags.none) else fp32Of (decide (n < 0)) (n.natAbs, 0)
  else
    let y := man * 2 ^ 512 / 2 ^ l
    let frac := log2Bits 160 y 0
    let v : Int := n * ((2 ^ 160 : Nat) : Int) + (frac : Int)
    -- the exact value lies strictly between v and v + 1 units of 2^-160
    if v < 0 then fp32Of true (withSticky ((-v).toNat - 1) (-160) true)
    else fp32Of false (withSticky v.toNat (-160) true)

/-- R184 and Table 5.8 on one FP32 lane. -/
def evalFn (fn : VFn) (bits : Nat) : Nat × Flags :=
  match decodeFloat .fp32 bits, fn with
  | .nan s, _ => (canonicalNan .fp32, { invalid := s })
  | .inf s, .recip => (signBit .fp32 s, Flags.none)
  | .inf false, .sqrt => (infinityBits .fp32, Flags.none)
  | .inf false, .rsqrt => (0, Flags.none)
  | .inf false, .exp2 => (infinityBits .fp32, Flags.none)
  | .inf true, .exp2 => (0, Flags.none)
  | .inf false, .log2 => (infinityBits .fp32, Flags.none)
  | .inf true, _ => (canonicalNan .fp32, { invalid := true })
  | .fin s m e, fn =>
    if m == 0 then
      match fn with
      | .recip => (signBit .fp32 s + infinityBits .fp32, { divZero := true })
      | .sqrt => (signBit .fp32 s, Flags.none)
      | .rsqrt => (infinityBits .fp32, { divZero := true })
      | .exp2 => (0x3F800000, Flags.none)
      | .log2 => (signBit .fp32 true + infinityBits .fp32, { divZero := true })
    else
      match fn with
      | .recip => fp32Of s (recipMag m e)
      | .sqrt => if s then (canonicalNan .fp32, { invalid := true }) else fp32Of false (sqrtMag m e)
      | .rsqrt => if s then (canonicalNan .fp32, { invalid := true }) else fp32Of false (rsqrtMag m e)
      | .exp2 => exp2Fin s m e
      | .log2 => if s then (canonicalNan .fp32, { invalid := true }) else log2Fin m e

/-! ## Block scaling (R168 to R173) -/

/-- R168: the value exponent of an E8M0 scale; `none` for the NaN scale 0xFF. -/
def scaleExp (x : Nat) : Option Int := if x == 0xFF then none else some ((x : Int) - 127)

/-- R169: the exponent offset of a scaled integer element. -/
def scaledIntExp : Format → Int
  | .int8 => -6
  | .int4 => -2
  | _ => 0

/-- R171: the value of an element of an MX block before its scale. -/
def mxElem (f : Format) (bits : Nat) : Val :=
  if f.isInt then
    match Val.ofInt (signedOf f.width bits) with
    | .fin s m e => .fin s m (e + scaledIntExp f)
    | v => v
  else decodeFloat f bits

/-- R202: an element times its scale, rounded once by RNE to FP32. -/
def dequantElem (f : Format) (scale bits : Nat) : Nat × Flags :=
  match scaleExp scale with
  | none => (canonicalNan .fp32, { invalid := true })
  | some se =>
    match mxElem f bits with
    | .fin s m e => roundFinite .fp32 .rne false .infinity s m (e + se)
    | v => toFloat .fp32 .rne false false v

/-- The exponent of the largest finite value of an element format (R173 step 3). -/
def emax : Format → Int
  | .e2m1 => 2 | .e2m3 => 2 | .e3m2 => 4 | .e4m3 => 8 | .e5m2 => 15
  | _ => 0

/-- The scale rules of R173. -/
inductive ScaleRule where
  | ocp | fit
  deriving DecidableEq, Repr

/-- The quantum exponent of an element format at a magnitude, for a scaled integer its fixed step. -/
def elemQuantum (f : Format) (man : Nat) (exp : Int) : Int :=
  if f.isInt then scaledIntExp f else quantumAt f man exp

/-- R173 step 4: the trial of rule FIT, whether `man * 2^exp` rounds past the largest finite (positive) value. -/
def fitExceeds (f : Format) (mode : RMode) (man : Nat) (exp : Int) : Bool :=
  let qe := elemQuantum f man exp
  let r := roundAt (match mode with | .rtz => .rtz | _ => .rne) man exp qe
  let q :=
    match mode with
    | .sr _ => let t := roundAt .rtz man exp qe
               if t.inexact then t.q + 1 else t.q
    | _ => r.q
  if f.isInt then decide (2 ^ (f.width - 1) - 1 < q) else decide (largestFinite f < packMagnitude f q qe)

/-- R173 step 6: one element of a block whose scale exponent is `e`. -/
def quantElem (f : Format) (mode : RMode) (e : Int) (v : Val) : Nat × Flags :=
  match v with
  | .fin s m x =>
    if f.isInt then
      let r := roundAt mode m (x - e) (scaledIntExp f)
      let i : Int := if s then -(r.q : Int) else (r.q : Int)
      let hi : Int := (2 ^ (f.width - 1) : Nat) - 1
      let lo : Int := -((2 ^ (f.width - 1) : Nat) : Int)
      if hi < i then (wrapTo f.width hi, { inexact := true })
      else if i < lo then (wrapTo f.width lo, { inexact := true })
      else (wrapTo f.width i, { inexact := r.inexact })
    else if m == 0 then (signBit f s, Flags.none)
    else
      let r := roundAt mode m (x - e) (quantumAt f m (x - e))
      let mag := packMagnitude f r.q r.qe
      if largestFinite f < mag then (signBit f s + largestFinite f, { inexact := true })
      else (signBit f s + mag, { inexact := r.inexact,
                                 underflow := isTiny f mode m (x - e) && r.inexact })
  | _ => (0, Flags.none)

/-- The larger of two magnitudes. -/
def maxMag (a b : Nat × Int) : Nat × Int :=
  if Val.order (.fin false a.1 a.2) (.fin false b.1 b.2) < 0 then b else a

/-- The largest magnitude of a block. -/
def amaxOf (vs : List Val) : Nat × Int :=
  vs.foldl (fun acc v => match v with | .fin _ m e => maxMag acc (m, e) | _ => acc) (0, 0)

/-- R173: a block quantised to an element format: the scale byte, the elements and the flags. `modes` gives each
element's rounding (SR draws a word for each, R203). -/
def quantBlock (f : Format) (rule : ScaleRule) (modes : List RMode) (vs : List Val) : Nat × List Nat × Flags :=
  if vs.any Val.isNan then (0xFF, vs.map (fun _ => 0), { invalid := true })
  else if vs.any Val.isInf then (0xFF, vs.map (fun _ => 0), { overflow := true })
  else
    let a := amaxOf vs
    if a.1 == 0 then
      (0x7F, vs.map (fun v => if f.isInt then 0 else signBit f v.neg), Flags.none)
    else
      let e0 := (Nat.log2 a.1 : Int) + a.2 - emax f
      let mode0 := modes.headD .rne
      let e1 := match rule with
        | .ocp => e0
        | .fit => if fitExceeds f mode0 a.1 (a.2 - e0) then e0 + 1 else e0
      let e := max (-127) (min 127 e1)
      let rs := (vs.zip modes).map (fun vm => quantElem f vm.2 e vm.1)
      ((e + 127).toNat, rs.map Prod.fst, rs.foldl (fun acc r => acc.or r.2) Flags.none)

/-! ## The counter-based generator (13, R384) and little-endian fields -/

/-- `n` bits of a number from bit `lo` on. -/
def bitsAt (v lo n : Nat) : Nat := v / 2 ^ lo % 2 ^ n

end Sys2Proof.Machine
end

