-- ==== Sys2Proof/Machine/Store.lean ====
section
/-! DEFINITION. Sparse storage: a list of key and value pairs with strictly rising keys, in which no listed value is
the default of the storage. Equal contents are then equal lists. -/

namespace Sys2Proof.Machine

/-- The value stored under a key, if one is listed. -/
def look {α : Type} : Map α → Nat → Option α
  | [], _ => none
  | (k', v) :: m, k => if k' = k then some v else look m k

/-- The value under a key, `d` where none is listed. -/
def getD {α : Type} (d : α) (m : Map α) (k : Nat) : α := (look m k).getD d

/-- The storage without a key. -/
def drop {α : Type} : Map α → Nat → Map α
  | [], _ => []
  | (k', v) :: m, k => if k' = k then drop m k else (k', v) :: drop m k

/-- The storage with a key listed at its place. -/
def insertAt {α : Type} : Map α → Nat → α → Map α
  | [], k, v => [(k, v)]
  | (k', v') :: m, k, v =>
    if k < k' then (k, v) :: (k', v') :: m
    else if k' = k then (k, v) :: m
    else (k', v') :: insertAt m k v

/-- A write: the default is stored by removing the key, so the storage stays canonical. -/
def putD {α : Type} [DecidableEq α] (d : α) (m : Map α) (k : Nat) (v : α) : Map α :=
  if v = d then drop m k else insertAt m k v

/-- The storage changed under one key. -/
def modD {α : Type} [DecidableEq α] (d : α) (m : Map α) (k : Nat) (f : α → α) : Map α :=
  putD d m k (f (getD d m k))

/-- Every key of the first list is below every key that follows it, and no value is the default. -/
def sortedFrom {α : Type} [DecidableEq α] (d : α) : Nat → Map α → Bool
  | _, [] => true
  | lo, (k, v) :: m => decide (lo ≤ k) && decide (v ≠ d) && sortedFrom d (k + 1) m

/-- The canonical form of a storage. -/
def canonical {α : Type} [DecidableEq α] (d : α) (m : Map α) : Bool := sortedFrom d 0 m

/-- The storage with every key of a range removed. -/
def clearRange {α : Type} (m : Map α) (lo hi : Nat) : Map α :=
  m.filter (fun kv => decide (kv.1 < lo) || decide (hi ≤ kv.1))

/-- Bits `[lo + n - 1 : lo]` of a 64-bit word as a number. -/
def field (v : BitVec 64) (lo n : Nat) : Nat := v.toNat / 2 ^ lo % 2 ^ n

/-- Bit `i` of a 64-bit word. -/
def bitOf (v : BitVec 64) (i : Nat) : Bool := field v i 1 == 1

/-- A 64-bit word with `n` bits at `lo` replaced. -/
def setField (v : BitVec 64) (lo n : Nat) (x : Nat) : BitVec 64 :=
  BitVec.ofNat 64 (v.toNat - field v lo n * 2 ^ lo + (x % 2 ^ n) * 2 ^ lo)

/-- Numbers `lo` to `lo + n - 1`. -/
def rangeFrom (lo n : Nat) : List Nat := (List.range n).map (lo + ·)

/-- The bytes of a number, least significant first. -/
def bytesLE : Nat → Nat → List (BitVec 8)
  | 0, _ => []
  | n + 1, v => BitVec.ofNat 8 v :: bytesLE n (v / 256)

/-- The number whose bytes these are, least significant first. -/
def natLE : List (BitVec 8) → Nat
  | [] => 0
  | b :: bs => b.toNat + 256 * natLE bs

/-- A list cut into pieces of `n`, `fuel` pieces at most. -/
def piecesOf {α : Type} (n : Nat) : Nat → List α → List (List α)
  | 0, _ => []
  | fuel + 1, l => if l.isEmpty then [] else l.take n :: piecesOf n fuel (l.drop n)

/-- The list with its element at an index changed. -/
def modifyAt {α : Type} (l : List α) (i : Nat) (f : α → α) : List α :=
  match l, i with
  | [], _ => []
  | x :: xs, 0 => f x :: xs
  | x :: xs, i + 1 => x :: modifyAt xs i f

end Sys2Proof.Machine
end

