-- ==== Sys2Proof/Machine/TileState.lean ====
section
/-! DEFINITION. The state of one tile: control core, local memory, matrix unit, vector engine, queue engine, pose engine
and router (03 to 09, 13, 20). -/

namespace Sys2Proof.Machine

/-- A general register: value, data mark and poison (03, R97). -/
structure GReg where
  val : BitVec 64 := 0
  mark : Bool := false
  poison : Bool := false
  deriving DecidableEq, Repr

/-- What the check bits of a stored word say (03, R111 to R113): good, a single-bit error (the value held here is the
corrected one), or uncorrectable. -/
inductive Ecc where
  | good | single | multi
  deriving DecidableEq, Repr

/-- A word of local memory or of the pose store: value, the two copies of its poison bit, and its check bits
(03, R111). -/
structure MWord where
  val : BitVec 64 := 0
  p0 : Bool := false
  p1 : Bool := false
  ecc : Ecc := .good
  deriving DecidableEq, Repr

/-- A word with its poison, as it moves through the tile. -/
structure PWord where
  val : BitVec 64 := 0
  poison : Bool := false
  deriving DecidableEq, Repr

/-- A vector register: 512 bits and a poison tag per byte (06, R190). -/
structure VReg where
  bits : BitVec 512 := 0
  poison : BitVec 64 := 0
  deriving DecidableEq, Repr

/-- A mask register: 64 bits and a poison tag per bit (06, R190). -/
structure MReg where
  bits : BitVec 64 := 0
  poison : BitVec 64 := 0
  deriving DecidableEq, Repr

/-- An accumulator entry: FP32 bits and its poison tag (04, R137). -/
structure AccEntry where
  bits : BitVec 32 := 0
  poison : Bool := false
  deriving DecidableEq, Repr

/-- A stored row of an A operand: whether it contributes (R136), its 32 stored elements, its scale bytes in K order,
the metadata index of each stored element, and its poison (04, R133, R160). -/
structure ARow where
  valid : Bool
  elems : List Nat
  scales : List Nat
  idx : List Nat
  poison : Bool
  deriving DecidableEq, Repr

/-- A loaded A buffer (04, R137): shape, format, sparse factor s (1, 2 or 4), stored elements per scale (0 for none),
rows, and whole-buffer poison. -/
structure ABuf where
  mv : Bool
  fmt : Format
  s : Nat
  group : Nat
  rows : List ARow
  poison : Bool
  deriving DecidableEq, Repr

/-- A stored column of a B operand. -/
structure BCol where
  elems : List Nat
  scales : List Nat
  poison : Bool
  deriving DecidableEq, Repr

/-- A loaded B buffer (04, R135): shape, format, span, k_valid, K positions per scale (0 for none), columns, and
whole-buffer poison. -/
structure BBuf where
  mv : Bool
  fmt : Format
  span : Nat
  kValid : Nat
  group : Nat
  cols : List BCol
  poison : Bool
  deriving DecidableEq, Repr

/-- A queued matrix instruction with its operands read at issue (04, R139). -/
inductive MxOp where
  | lda (buf : Bool) (quarter : Nat) (mv : Bool) (fmt : Format) (a0 a1 : BitVec 64)
  | ldb (buf : Bool) (mv : Bool) (fmt : Format) (a : BitVec 64)
  | ldat (buf : Bool) (mv sparse : Bool) (fmt : Format) (a : BitVec 64)
  | mma (mv : Bool) (bank : Nat) (abuf bbuf : Bool)
  | zero (bank : Nat)
  | sta (bank : Nat) (fmt : Format) (a : BitVec 64)
  deriving DecidableEq, Repr

/-- An entry of the matrix unit's queue: the instruction, its address, its place in the issue order of the tile, and
whether the array has started it (04, R140, R142). `index` is the operation's index i of R155; `bad` says that an
address operand was poisoned. -/
structure MxEntry where
  op : MxOp
  pc : BitVec 18
  seq : Nat
  running : Bool
  index : Nat
  bad : Bool
  deriving DecidableEq, Repr

/-- The vector instructions (06, Table 6.4; 13). -/
inductive VxKind where
  | ld | st | lds | sts | ldx | stx | splat | mov | setvl | acc
  | maskLogic (op : MaskOp) | mnot | mfromg | mfirst
  | cvt | ldw | stn | dequant (b16 : Bool) | quant (bf16 b16 fit : Bool)
  | arith (op : ArithOp) | minmax (isMax : Bool) | sign (op : SignOp) | logic (op : LaneLogic)
  | shift (op : ShiftOp) | rsum | compare (op : CmpOp) | sel | function (op : FnOp)
  | perm | shuf | pack | unpack | pack2of4 (one : Bool) | expand (one : Bool)
  | any | all | redg | lane | mtog
  | tally | bandedit | jw | qsig | popcnt | geom | dgauss
  deriving DecidableEq, Repr

/-- An entry of the vector engine's queue: instruction, fields, the g operands read at issue (06, R196), address and
issue order, VX_SR_BASE and VX_SR_PASS as they stand at issue (06, R203); `lane` is the next lane of a vx.tally that waits for outbound entries (13, R390). -/
structure VxEntry where
  kind : VxKind
  f : VFields
  g1 : GReg
  g2 : GReg
  pc : BitVec 18
  seq : Nat
  srBase : BitVec 64 := 0
  srPass : BitVec 32 := 0
  lane : Nat := 0
  deriving DecidableEq, Repr

/-- A g register that an issued vector instruction will write (06, R196). -/
structure GPending where
  reg : BitVec 5
  seq : Nat
  deriving DecidableEq, Repr

/-- A message or PAD entry held by a queue (07, R218, R228): first slot, slots covered, PAD or message, and, for a tally
message, the sender and outbound entry still owed an answer (13, R391). -/
structure QItem where
  slot : Nat
  slots : Nat
  isPad : Bool
  owed : Option (Nat × Nat) := none
  deriving DecidableEq, Repr

/-- A sender on a retry list (07, R230): its tile, and the number of its outbound entry. -/
structure RetryEntry where
  tile : Nat
  ref : Nat
  deriving DecidableEq, Repr

/-- A queue: its map entry in force, head, tail, occupancy, contents, retry list, and whether it is closed to arrivals
by a pose load (07, R216, R218, R230; 08, R268). -/
structure Queue where
  entry : BitVec 64 := 0
  head : Nat := 0
  tail : Nat := 0
  occ : Nat := 0
  items : List QItem := []
  retry : List RetryEntry := []
  closed : Bool := false
  deriving DecidableEq, Repr

/-- Where an outbound entry stands (07, R226 to R230): waiting to be sent, sent and not yet answered, or refused, and
then on the destination's retry list or not. -/
inductive OutState where
  | waiting | sent | refused (listed : Bool)
  deriving DecidableEq, Repr

/-- An outbound entry: number, destination word, message words, length, and who sent it (07, R226, R231; 13, R390). -/
structure OutEntry where
  ref : Nat
  dest : BitVec 64
  long : Bool
  words : List PWord
  state : OutState
  trySend : Bool
  tally : Bool
  deriving DecidableEq, Repr

/-- A tile sync object (07, R239, R246). -/
structure SyncObj where
  value : BitVec 32 := 0
  target : BitVec 32 := 0
  waiting : Bool := false
  lastX : BitVec 10 := 0x3FE
  lastY : BitVec 10 := 0x3FE
  lastCount : BitVec 64 := 0
  deriving DecidableEq, Repr

/-- What the core waits for (07, R226, R231, R234, R236, R242). -/
inductive CoreWait where
  | none
  | sendFull (dest : BitVec 64) (long : Bool) (image : BitVec 64)
  | trySend (rd : BitVec 5) (ref : Nat)
  | recv (q : Nat) (rd rd2 : BitVec 5) (release : Bool)
  | select (mask : BitVec 64) (rd : BitVec 5)
  | sync (obj : Nat)
  | remoteSync (level : Nat) (word : BitVec 64)
  | reply (rd : BitVec 5) (isRead : Bool) (word : BitVec 64)
  deriving DecidableEq, Repr

/-- An outstanding remote operation (03, R121 to R125). -/
structure RemoteOp where
  ref : Nat
  isGet : Bool
  loc : Nat
  len : Nat
  addr : BitVec 64
  signal : Option (BitVec 4)
  left : Nat
  deriving DecidableEq, Repr

/-- The states of a pose slot (08, R253). -/
inductive SlotState where
  | empty | resident | inForce
  deriving DecidableEq, Repr

/-- A pending switch: its slot, whether a pace entry asked for it (08, R261), and whether that entry belongs to the next stride
(02, R88). -/
structure PendingSwitch where
  slot : Nat
  fromPace : Bool
  ahead : Bool := false
  deriving DecidableEq, Repr

/-- A pose load at a tile (08, R265, R268): slot, FORCE, source space and offset, the member's rank in the group,
the completion barrier (a region barrier object of the tile's region), and whether its entry belongs to the next stride (02, R88). -/
structure PoseLoadReq where
  slot : Nat
  force : Bool
  near : Bool
  source : Nat
  rank : Nat
  barrier : Nat
  ahead : Bool := false
  deriving DecidableEq, Repr

/-- An accepted pose load with the descriptor it read, and the messages its FORCE has discarded (08, R267). -/
structure PoseLoadRun where
  req : PoseLoadReq
  words : List PWord
  discarded : Nat := 0
  deriving DecidableEq, Repr

/-- A GET merge entry (09, R307): the 64-byte half (by its offset), the copy read, and GETs served. -/
structure MergeEntry where
  half : Nat
  words : List PWord
  served : Nat
  deriving DecidableEq, Repr

/-- A gather leaf entry of a router (09, R309). -/
structure LeafEntry where
  tree : Nat
  node : BitVec 32
  input : Nat
  fp : Bool
  flits : Nat
  opened : Nat
  deriving DecidableEq, Repr

/-- A gather node slot of a router (09, R308 to R311). `bufs` are the input buffers. -/
structure NodeSlot where
  tree : Nat
  paddock : Nat
  fp : Bool
  flits : Nat
  inputs : Nat
  parentInput : Nat
  parent : BitVec 32
  rootSync : Nat
  bufs : Map (List PWord)
  bad : Bool
  deriving DecidableEq, Repr

/-- A queued source burst (09, R304): source offset, destination offset, flits, completion signal, and whether its flits are being
sent. -/
structure SrcBurst where
  src : Nat
  dest : Nat
  flits : Nat
  signal : Option (BitVec 4)
  sent : Bool := false
  deriving DecidableEq, Repr

/-- What the region controller loads into the tile at the stride open of a TALLY_RUN (13, R389). -/
structure TallyCtx where
  decl : Nat
  base : Nat
  sampler : Nat
  p1 : Nat
  p2 : Nat
  k0 : BitVec 32
  k1 : BitVec 32
  deriving DecidableEq, Repr

/-- The operations of Table 9.2. -/
inductive PacketOp where
  | msg | msgAnswer | retryNotice | get | getData | put | putAck | signal | wake | gather | nack | reserved
  deriving DecidableEq, Repr

/-- Where a packet stands: in the router of a logical tile, having entered by a port (0 to 3, as `Dir`) or by injection
(4); ejected there; or at the frame, which it left or entered by a stirrup. -/
inductive PacketPos where
  | router (k : Nat) (inPort : Nat) (escape : Bool)
  | ejected (k : Nat) (inPort : Nat)
  | frame
  deriving DecidableEq, Repr

/-- The model's own record of the exchange a packet belongs to (log entry 12): the request's number, the requester's
local offset, the bytes asked for, and for a message whether its sender never retries (in the answer: whether the sender
is on the retry list), and for a request to an object's controller what it asks (1 a wait, 2 s.trywait, 3 s.read; 07, R621;
log entry 28). -/
structure PacketTag where
  ref : Nat := 0
  loc : Nat := 0
  bytes : Nat := 0
  flag : Bool := false
  ask : Nat := 0
  deriving DecidableEq, Repr

/-- A packet (09, R286, Table 9.1). `queue` is the destination queue of a message, the stirrup side of a frame packet;
`taken` counts the choice entries of a put that the remount engine has processed (10, R335). -/
structure Packet where
  op : PacketOp
  operand : BitVec 64
  srcX : Nat
  srcY : Nat
  destX : Nat
  destY : Nat
  frame : Bool
  queue : Nat
  paddock : Nat
  length : Nat
  poison : Bool
  epoch : Bool
  data : List PWord
  tag : PacketTag
  pos : PacketPos
  replays : Nat
  taken : Nat := 0
  deriving DecidableEq, Repr

/-- The tile. Registers and stores not listed hold their reset values. -/
structure Tile where
  -- control core (03)
  regs : Map GReg := []
  pc : BitVec 18 := 0
  service : Bool := true
  parked : Bool := true
  wait : CoreWait := .none
  protTop : BitVec 6 := 0
  fcValid : Bool := false
  fcCount : BitVec 16 := 0
  fcMode : Bool := false
  fcUnit : BitVec 8 := 0
  fcCause : BitVec 8 := 0
  fcPc : BitVec 18 := 0
  fcAddr : BitVec 64 := 0
  ceCount : BitVec 32 := 0
  ceLast : BitVec 15 := 0
  instret : BitVec 64 := 0
  seq : Nat := 0
  gPending : List GPending := []
  fetchBuf : Map (List PWord) := []
  -- local memory and pose store (03, 08)
  mem : Map MWord := []
  scrubLine : Nat := 0
  ceFound : List Nat := []
  poseMem : Map MWord := []
  -- remote engine (03)
  remote : List RemoteOp := []
  nextRef : Nat := 0
  -- matrix unit (04)
  aBufs : Map (Option ABuf) := []
  bBufs : Map (Option BBuf) := []
  banks : Map AccEntry := []
  mxQueue : List MxEntry := []
  plumbMode : BitVec 64 := 0
  satMode : Bool := false
  mxFlags : Flags := {}
  opIndex : BitVec 32 := 0
  plumbLast : BitVec 64 := 0
  plumbCount : BitVec 16 := 0
  -- vector engine (06, 13)
  vregs : Map VReg := []
  mregs : Map MReg := []
  vl : Nat := 0
  vxQueue : List VxEntry := []
  shape : Bool := false
  vxFlags : Flags := {}
  srBase : BitVec 64 := 0
  srPass : BitVec 32 := 0
  srKey : BitVec 64 := 0
  tally : Option TallyCtx := none
  -- queue engine (07)
  queues : Map Queue := []
  outbound : List OutEntry := []
  selectLast : BitVec 5 := 0x1F
  selectRotate : Bool := false
  waitBeats : BitVec 16 := 0
  sendBeats : BitVec 16 := 0x200
  syncs : Map SyncObj := []
  stopped : Bool := false
  stuckAt : Option (Nat × BitVec 64) := none
  -- pose engine (08)
  slots : Map SlotState := []
  inForce : Option Nat := none
  pendingSwitch : Option PendingSwitch := none
  ended : Bool := false
  loadRun : Option PoseLoadRun := none
  loadQueue : List PoseLoadReq := []
  -- router (09)
  deadPorts : BitVec 4 := 0
  detourA : Map (BitVec 64) := []
  detourB : Map (BitVec 64) := []
  merges : List MergeEntry := []
  leaves : List LeafEntry := []
  nodes : Map (Option NodeSlot) := []
  srcBursts : Map (List SrcBurst) := []
  taps : Map (BitVec 64) := []
  -- counters (20)
  counters : Map (BitVec 64) := []
  cntIdx : BitVec 10 := 0
  thSel : BitVec 6 := 0
  thresholds : Map (BitVec 64) := []
  cntPsel : BitVec 8 := 0
  -- the tile's error line and its injection port
  raised : List Report := []
  inject : List Packet := []
  deriving DecidableEq, Repr

/-- Tile reset (03, R97, R109, R118; 04, R137; 06, R190; 07, R249; 08, R253): the tile is parked, in SERVICE mode. -/
def Tile.reset : Tile := {}

end Sys2Proof.Machine
end

