-- ==== Sys2Proof/Machine/FrameState.lean ====
section
/-! DEFINITION. The state outside the tiles: regions, paddocks, pace, mesh traffic, frame, host interface, collectors
(01, 02, 07, 09 to 12, 14 to 21). -/

namespace Sys2Proof.Machine

/-- The region states of Table 1.2 (01, R28). -/
inductive RegionState where
  | off | active | transit | gated | service | isolated | lost
  deriving DecidableEq, Repr

/-- The 3-bit code of Table 1.2. -/
def RegionState.code : RegionState → Nat
  | .off => 0 | .active => 1 | .transit => 2 | .gated => 3 | .service => 4 | .isolated => 5 | .lost => 6

/-- A region barrier or wafer object (07, R239, R243, R244, R246). `mode` is 0 unused, 1 STRIDE, 2 ACCUMULATE. -/
structure BarrierObj where
  mode : Nat := 0
  step : Nat := 0
  value : BitVec 32 := 0
  target : BitVec 32 := 0
  waiters : List Nat := []
  lastX : BitVec 10 := 0x3FE
  lastY : BitVec 10 := 0x3FE
  lastCount : BitVec 64 := 0
  deriving DecidableEq, Repr

/-- A pace table entry (02, R68). -/
structure PaceEntry where
  offset : Int
  action : Nat
  target : Nat
  arg : BitVec 64
  deriving DecidableEq, Repr

/-- A region: state, owner, clock step, injection epoch, contact tile, barrier objects, the pace unit's store,
directory, entries waiting to issue, gather opens
issued and waiting (09, R309), and deadlines of the current beat, the barrier objects of refused pose loads (08, R269), the
digest of the write packets its tiles issued in the stride (18, R541), and the region's power and heat: `planShares` are the
shares in force since the last ledger period (15, R459; 01, 02, 07, 09, 15). -/
structure Region where
  state : RegionState := .off
  owner : Nat := 0
  step : Nat := 0
  epoch : Bool := false
  contact : Option Nat := none
  barriers : Map BarrierObj := []
  marked : Map BarrierObj := []
  dir : Map (BitVec 64) := []
  store : Map PaceEntry := []
  due : List PaceEntry := []
  opens : List PaceEntry := []
  deadlines : List Nat := []
  controllerFailed : Bool := false
  refusedLoads : List Nat := []
  digest : BitVec 64 := 0
  -- power and heat (15)
  phases : Nat := 0
  efuse : Bool := false
  tempC : Nat := 0
  derate : Nat := 0
  throttle : List Nat := []
  latencyUj : Int := 0
  normalUj : Int := 0
  backgroundUj : Int := 0
  periodUj : Int × Int × Int := (0, 0, 0)
  planShares : Nat × Nat × Nat := (70, 20, 10)
  capW : Nat := 0
  factors : Map (Nat × Nat) := []
  unitEnergy : Map (BitVec 64) := []
  deriving DecidableEq, Repr

/-- A run of tally strides (13, R389): the context its strides load, whether its first stride clears, its release-key slot,
and its descriptor. -/
structure TallyRun where
  ctx : TallyCtx
  clear : Bool
  slot : Nat
  desc : Nat
  deriving DecidableEq, Repr

/-- What opened a stride (02, R60; 11, R352; 13, R389). -/
inductive StrideKind where
  | stride | tally (run : TallyRun) | decode (session : Nat)
  deriving DecidableEq, Repr

/-- A pending stride (02, R61): its table, what opens it, the descriptor it completes, the key of its strides, the
strides left of its run, and whether it is the first of its run. -/
structure PendingStride where
  table : Nat
  kind : StrideKind
  desc : Option Nat
  key : BitVec 64
  left : Nat
  first : Bool := true
  deriving DecidableEq, Repr

/-- Where the deadlines of a beat stand (02, R76, R77): not yet tested, passed, or the boundary held. -/
inductive BeatTest where
  | untested | passed | held
  deriving DecidableEq, Repr

/-- The open stride of a paddock (02): what it runs, the rule in force for its overruns, its deadline test, whether the
beat is a held one, whether a FAULT or another replay waits and how many replays of overruns it had, whether it was
abandoned, the beat of its oldest unresolved overrun and whether that was on a barrier with a refused load (08, R269), the plumb replays and suspects
(16, R498), whether the close report is sent (R89), and the digest mismatches (18, R542). -/
structure OpenStride where
  table : Nat
  kind : StrideKind
  desc : Option Nat
  key : BitVec 64
  left : Nat
  first : Bool := true
  policyFault : Bool := false
  stretchMax : Nat := 0x400
  test : BeatTest := .untested
  inHeld : Bool := false
  faulted : Bool := false
  replayDue : Bool := false
  overrunReplays : Nat := 0
  stopped : Bool := false
  reconf : Option (Nat × Bool) := none
  plumbReplays : Nat := 0
  suspects : List Nat := []
  closeSent : Bool := false
  mismatches : Nat := 0
  deriving DecidableEq, Repr

/-- The wafer objects of a paddock (07, R244): how many, the numbers of the frame's 16 allotted, and the objects. -/
structure WaferUse where
  count : Nat := 0
  nums : List Nat := []
  objs : Map BarrierObj := []
  marked : Map BarrierObj := []
  deriving DecidableEq, Repr

/-- A section of a loaded image (14, R438): its type, the region it serves, its number, and its bytes. -/
structure Section where
  kind : Nat
  region : Nat
  place : Nat
  bytes : List (BitVec 8)
  deriving DecidableEq, Repr

/-- A loaded image (14, R437, R438; 12, R372): its header and sections, its digest, the near-tier share offset and the
length of its bytes, and the paddock it is shared from. -/
structure Image where
  header : List (BitVec 8)
  sections : List Section
  digest : BitVec 256
  base : Nat
  length : Nat
  shared : Option Nat
  deriving DecidableEq, Repr

/-- A remote channel of an image and its traffic (18, R553, R554): its declaration; outbound, the messages in flight
(sender, outbound entry) and the next channel sequence number; inbound, the next number to inject and the messages held. -/
structure Channel where
  id : Nat
  inbound : Bool
  twin : Bool
  engine : Nat
  dest : BitVec 64
  credit : Nat
  inFlight : List (Nat × Nat) := []
  nextOut : Nat := 0
  expect : Nat := 0
  held : Map (List PWord) := []
  deriving DecidableEq, Repr

/-- The destination word an outbound channel serves. -/
def Channel.outDest (c : Channel) : Option (BitVec 64) := if c.inbound then none else some c.dest

/-- A frame of a link (18, R530, Table 18.1): link sequence number, type, destination engine, class, channel, paddock,
channel sequence number, the poisoned flits, and the payload. In an ACK or a NAK the sequence number is the one
acknowledged. -/
structure LinkOut where
  seq : Nat
  kind : Nat
  dest : Nat := 0
  cls : Nat := 0
  channel : Nat := 0
  paddock : Nat := 0
  chseq : Nat := 0
  poison : Nat := 0
  body : List (BitVec 8) := []
  deriving DecidableEq, Repr

/-- A fabric port or a yoke group (18, R528, R549 to R552, Table 18.10). `state`: 0 DOWN, 1 TRAINING, 2 UP, 3 DISABLED. -/
structure PortLink where
  enable : Bool := true
  state : Nat := 0
  sparesUsed : Nat := 0
  peer : Nat := 0
  retries : Nat := 0
  nextSeq : Nat := 0
  expect : Nat := 0
  unacked : List LinkOut := []
  halted : Bool := false
  deriving DecidableEq, Repr

/-- The yoke as a whole (18, R531, R536, Tables 18.4, 18.9): declared down, heartbeats arriving, an attachment in force, its
mode and mask, the failure reason, the yoke gone down while paired; the attach in progress with its descriptor, the twin's
answer, and the next granule of each copy; takeovers, completions carried, the paddock last taken, and
the twin's serial. -/
structure Yoke where
  down : Bool := true
  alive : Bool := false
  attached : Bool := false
  mode : Nat := 0
  mask : BitVec 32 := 0
  attachFail : Nat := 0
  degraded : Bool := false
  attachDesc : Option Nat := none
  heard : Option AttachMsg := none
  detachDesc : Option Nat := none
  copying : Bool := false
  copyAt : Nat := 0
  takeovers : Nat := 0
  carried : Nat := 0
  lastTaken : Nat := 0
  twinSerial : BitVec 48 := 0
  deriving DecidableEq, Repr

/-- The states of a rein (09, R302, R303; R285). -/
inductive ReinState where
  | closed | opening | ready | closing | broken
  deriving DecidableEq, Repr

/-- A rein of an image's rein list (09, R300, Table 9.4): each segment's hops, turn and tap bit. `opened` orders the opens
(R302); `shifts` says of a tile of its path which tile's router it passes instead, where a flip has moved the tiles of an open rein (09, R299). -/
structure Rein where
  id : Nat
  frameSource : Bool
  frameSink : Bool
  x : Nat
  y : Nat
  dir : Nat
  stirrup : Nat
  segs : List (Nat × Nat × Bool)
  state : ReinState := .closed
  opened : Nat := 0
  shifts : List (Nat × Nat) := []
  deriving DecidableEq, Repr

/-- A burst on a rein (09, R304 to R306): its words, two to a flit, and which flit goes to which tap next. `lane` names
the group, slot, lane and content number of a remount burst (10, R337, R338); `replays` counts those of its flit on the link
before that tap (R284). -/
structure ReinBurst where
  paddock : Nat
  rein : Nat
  dest : Nat
  words : List PWord
  flit : Nat := 0
  tap : Nat := 0
  lane : Option (Nat × Nat × Nat × Nat) := none
  replays : Nat := 0
  deriving DecidableEq, Repr

/-- A gather node record (09, Table 9.6). -/
structure TreeNode where
  place : BitVec 32
  inputs : Nat
  parentInput : Nat
  parent : BitVec 32
  rootSync : Nat
  deriving DecidableEq, Repr

/-- A gather leaf record (09, R308). -/
structure TreeLeaf where
  x : Nat
  y : Nat
  node : BitVec 32
  input : Nat
  deriving DecidableEq, Repr

/-- A gather tree (09, R308). -/
structure Tree where
  id : Nat
  nodes : List TreeNode
  leaves : List TreeLeaf
  deriving DecidableEq, Repr

/-- A tile group's part in one region (08, R250): rectangles (x0, y0, x1, y1) and the completion barrier. -/
structure GroupPart where
  id : Nat
  region : Nat
  rects : List (Nat × Nat × Nat × Nat)
  barrier : Nat
  deriving DecidableEq, Repr

/-- A tally declaration (13, Table 13.2). -/
structure TallyDecl where
  group : Nat
  queue : Nat
  enable : Bool
  cpo : Nat
  table : Nat
  prot : Nat
  shadow : Nat
  deriving DecidableEq, Repr

/-- What the device sends to the outside (log entry 16): an MSI-X message, a link frame, an aperture read's data and its
EP mark, replies on DOE, PLDM and the test access port, a secured reply, a completion as an Unsupported Request (14, R415), and a
pulse on PACE_SYNC_OUT. -/
inductive Out where
  | msix (vector : Nat)
  | frame (link : Nat) (f : LinkOut)
  | aperture (data : List (BitVec 8)) (ep : Bool)
  | doe (data : List (BitVec 8))
  | spdm (data : List (BitVec 8))
  | pldm (data : List (BitVec 8))
  | tdo (bits : List Bool)
  | unsupported
  | syncPulse
  deriving DecidableEq, Repr

/-- A lane of an expert slot (10, Table 10.3). -/
structure RemountLane where
  rein : Nat
  stack : Nat
  order : Nat
  sync : Nat
  dest : Nat
  deriving DecidableEq, Repr

/-- An expert slot group (10, R332): slots, lanes of a slot, granules of a lane, and the lanes, slot by slot. -/
structure RemountGroup where
  slots : Nat
  perSlot : Nat
  granules : Nat
  lanes : List RemountLane
  deriving DecidableEq, Repr

/-- A layer record with its offset table (10, R331). -/
structure RemountLayer where
  group : Nat
  experts : Nat
  granules : Nat
  offsets : List Nat
  deriving DecidableEq, Repr

/-- What an expert slot holds (10, R335 to R339): layer and expert, stamp, pin, whether its fetch has begun, whether a
prediction started it, whether poison reached it, the number of this content, and for each lane the bursts sent, the bursts acknowledged and the
signals owed. -/
structure RemountSlot where
  layer : Nat
  expert : Nat
  stamp : Nat
  pinned : Bool
  begun : Bool
  predicted : Bool
  poisoned : Bool
  content : Nat
  sent : List Nat
  acked : List Nat
  owed : List Nat
  deriving DecidableEq, Repr

/-- The remount engine of a paddock (10, R331 to R344): layers, groups, slots (key 16 × group + slot), the choice and
placement entries of the window (key 64 × layer + rank), layers armed for the open stride and for the next, the choices
made before the last mark, the history of strides, the next stamp and the next content number, the choices whose binding pinned its
slot (R340), and of each stack the lane last served (R337). -/
structure Remount where
  layers : Map RemountLayer := []
  groups : Map RemountGroup := []
  slots : Map (Option RemountSlot) := []
  choices : Map Nat := []
  placements : Map Nat := []
  armed : List Nat := []
  armedNext : List Nat := []
  marked : Map Nat := []
  history : List (List (Nat × Nat)) := []
  clock : Nat := 0
  contents : Nat := 0
  pinners : List Nat := []
  served : Map Nat := []
  deriving DecidableEq, Repr

/-- A ring pair (14, R420 to R426, Table 14.16; 12, R372): its register words, its device-side state, the doorbell
record last read, the records written so far modulo the ring, those that the host has not passed, and its three chains. -/
structure Ring where
  sq : BitVec 64 := 4
  cq : BitVec 64 := 4
  db : BitVec 64 := 0
  enable : Bool := false
  vector : Nat := 0
  paddock : Nat := 0
  error : Bool := false
  phase : Bool := true
  sequence : Nat := 0
  cqTail : Nat := 0
  sqHead : Nat := 0
  sqTail : Nat := 0
  cqHead : Nat := 0
  unread : Nat := 0
  chainIn : BitVec 256 := 0
  chainSeed : BitVec 256 := 0
  chainOut : BitVec 256 := 0
  deriving DecidableEq, Repr

/-- A chain record (12, R372, R373): its kind and payload. -/
structure ChainRec where
  kind : Nat
  payload : List (BitVec 8)
  deriving DecidableEq, Repr

/-- The work of a decode step: kind (0 prefill, 1 plain, 2 outrider), session, depth, prompt tokens, the logits that the
maquette yields for each draft in order, and whether a prefill chooses a token (11, R354 to R364). -/
structure DecodeWork where
  kind : Nat
  session : Nat
  k : Nat
  prompt : List (BitVec 32)
  maquette : List (List (BitVec 32))
  last : Bool
  deriving DecidableEq, Repr

/-- A consumed descriptor (14, R427 to R433): its number in the order of consumption, ring, bytes with extensions, the
status its work ended with, its result information, its chain records, its result slot, its closing pace count, whether
its work has begun, whether its strides held beats or were replayed, its decode work, the host bytes forwarded with it by the
twin (18, R534), whether its seal is written and whether its completion record is, whether it adds no chain record (12, R378),
and whether a link reset has discarded its completion record (R413). -/
structure Desc where
  id : Nat
  ring : Nat
  paddock : Nat
  bytes : List (BitVec 8)
  status : Option Nat := none
  result : BitVec 64 := 0
  records : List ChainRec := []
  slot : Option Nat := none
  count : Option (BitVec 64) := none
  started : Bool := false
  stretched : Bool := false
  replayed : Bool := false
  decode : Option DecodeWork := none
  staged : Option (List (Nat × Bool)) := none
  sealed : Bool := false
  completed : Bool := false
  quiet : Bool := false
  mute : Bool := false
  deriving DecidableEq, Repr

/-- A result slot (14, Table 14.12): state 0 EMPTY, 1 PENDING, 2 FINAL, 3 RELEASED. -/
structure ResultSlot where
  state : Nat := 0
  status : Nat := 0
  ring : Nat := 0
  sequence : Nat := 0
  length : Nat := 0
  tag : BitVec 32 := 0
  pace : BitVec 64 := 0
  deriving DecidableEq, Repr

/-- A decode session (11, R352, R353): its fields, its sequence of tokens, the new tokens committed, and whether it has
finished. -/
structure Session where
  seed : BitVec 64
  sample : Bool
  c : BitVec 32
  k : Nat
  stops : List Nat
  maxNew : Nat
  limit : Nat
  tokens : List (BitVec 32) := []
  made : Nat := 0
  finished : Bool := false
  deriving DecidableEq, Repr

/-- A fault record (16, Table 16.4): the report, the record number, the pace count, and the flags byte. -/
structure Record where
  report : Report
  seq : BitVec 32
  pace : BitVec 64
  flags : Nat
  deriving DecidableEq, Repr

/-- A collector (16, R483, R484, Tables 16.14, 16.15): the first-error record and its control word's fields, and the
history queue. -/
structure Collector where
  first : Option Record := none
  valid : Bool := false
  count : Nat := 0
  classOr : BitVec 7 := 0
  hist : Map Record := []
  next : Nat := 0
  overwritten : BitVec 32 := 0
  seq : BitVec 32 := 0
  deriving DecidableEq, Repr

/-- A patina map entry (17, R506). -/
structure PatinaEntry where
  kind : Nat
  unit : Nat
  place : BitVec 32
  pace : BitVec 64
  deriving DecidableEq, Repr

/-- The cast map (17, R505), fixed at manufacture: what failed factory test. Tiles by physical column and row; links and bypass
paths by tile and port; shift chains by field and physical row; tier sites; lanes by port, 20 for the yoke. -/
structure CastMap where
  tiles : List (Nat × Nat) := []
  links : List (Nat × Nat × Nat) := []
  bypasses : List (Nat × Nat × Nat) := []
  chains : List (Nat × Nat) := []
  sites : List (Bool × Nat) := []
  lanes : List (Nat × Nat) := []
  deriving DecidableEq, Repr

/-- A get or put of a tile that a link carries to a peer, until its answer (18, R555). -/
structure PeerWait where
  link : Nat
  packet : Packet
  deriving DecidableEq, Repr

/-- A tile removed from service whose repair waits (17, R511, R517): its logical position, the column of its segment that it
stands on, and whether the flip in progress carries its repair. -/
structure Repair where
  tile : Nat
  col : Nat
  flipping : Bool := false
  deriving DecidableEq, Repr

/-- A durable checkpoint of a paddock (14, Table 14.9; 12, R374; log entry 59): the chains of its ring pairs in ascending
ring id, the local memories of its tiles, its barrier and wafer objects, and its sessions. -/
structure Checkpoint where
  chains : List (BitVec 256 × BitVec 256 × BitVec 256)
  tiles : Map (Map MWord)
  barriers : Map (Map BarrierObj)
  wafer : Map BarrierObj
  sessions : Map Session
  deriving DecidableEq, Repr

/-- The seal state of a paddock (12, R376 to R380): enable, slots and base, sequence, the flags of the next seal, the span
start, the held beats of the span, and the counts since creation. -/
structure SealState where
  base : BitVec 64 := 0
  enable : Bool := false
  log2 : Nat := 0
  sequence : BitVec 32 := 0
  unsealedIn : Bool := false
  unsealedOut : Bool := false
  replayed : Bool := false
  restored : Bool := false
  takeover : Bool := false
  stretched : Bool := false
  spanStart : BitVec 64 := 0
  held : Nat := 0
  replays : Nat := 0
  restores : Nat := 0
  takeovers : Nat := 0
  deriving DecidableEq, Repr

/-- A paired paddock's exchange with the twin (18, R533 to R547): whether the pair has joined, its own proposal (stride, m,
step), the twin's (stride, m), the twin's close report (stride, held beats, FAULT, digest), the last MARK received, the forwarded descriptors that the primary has not completed, the ring and
entry that this primary has forwarded, whether the paddock's pace is stopped with tiles parked, whether a detach waits for
the boundary, whether a takeover is due, and the chains of the primary's ring pairs as the yoke carries them, by ring id (12,
R374). -/
structure TwinPad where
  joined : Bool := false
  proposal : Option (Nat × Nat × Nat) := none
  twinM : Option (Nat × Nat) := none
  close : Option (Nat × Nat × Bool × BitVec 64) := none
  marked : BitVec 64 := 0
  forwarded : List Nat := []
  head : Option (Nat × Nat) := none
  stopped : Bool := false
  detaching : Bool := false
  takeoverDue : Bool := false
  chains : Map Ring := []
  deriving DecidableEq, Repr

/-- A paddock (01, R42; 02, R91; 07, R244; 09; 10; 11; 12; 14, R421, R620). Id 0 is the device. -/
structure Paddock where
  live : Bool := false
  rx0 : Nat := 0
  ry0 : Nat := 0
  w : Nat := 0
  h : Nat := 0
  nearUnits : List Nat := []
  farUnits : List Nat := []
  hostWins : List (Nat × Nat × Bool × Bool) := []
  counterUser : Bool := false
  paceCount : BitVec 64 := 0
  started : Bool := false
  m : Nat := 4
  mStep : Nat := 0
  mShared : Bool := false
  paceSrc : Nat := 0
  policyFault : Bool := false
  stretchMax : Nat := 0x400
  mMin : Nat := 4
  ckptLast : BitVec 64 := 0
  overrunTotal : BitVec 32 := 0
  strideHeld : Nat := 0
  current : Option OpenStride := none
  next : Option PendingStride := none
  lastRun : Option PendingStride := none
  digest : BitVec 64 := 0
  image : Option Image := none
  wafer : WaferUse := {}
  channels : List Channel := []
  reins : List Rein := []
  trees : List Tree := []
  groups : List GroupPart := []
  tallies : Map TallyDecl := []
  mirrors : List (Nat × Nat × Nat) := []
  window : Option Nat := none
  remount : Remount := {}
  keyless : Bool := false
  nearKey : BitVec 512 := 0
  farKey : BitVec 512 := 0
  seals : SealState := {}
  winNear : Nat := 0
  slotLog : Nat := 16
  slots : Map ResultSlot := []
  resultSeq : Nat := 0
  latency : Nat := 70
  normal : Nat := 20
  background : Nat := 10
  factorLatency : Nat := 0x20
  factorNormal : Nat := 0x20
  factorBackground : Nat := 0x28
  kept : List (Nat × Nat) := []
  ended : Option Nat := none
  sessions : Map Session := []
  pulse : Bool := false
  ahead : Option Nat := none
  twin : TwinPad := {}
  primary : Bool := true
  run : Option TallyRun := none
  checkpoints : Map Checkpoint := []
  excluded : Option Nat := none
  replaceDue : Option Nat := none
  replacements : Nat := 0
  credits : Nat := 0
  relKeys : Map (BitVec 256) := []
  eraseDue : List Nat := []
  pairMode : Nat := 0
  deriving DecidableEq, Repr

/-- What a firmware bank holds (19, R559, R563): the image it left manufacture with, whose bytes are free, nothing, or an image
written to it. -/
inductive Bank where
  | shipped | empty | written (image : List (BitVec 8))
  deriving DecidableEq, Repr

/-- The security chiplet (19, Table 19.1, R576, R577, Table 19.10): the revocation bits, the anti-rollback steps blown, the
banks, the preferred and the booted one (`true` for B), recovery, the owner key, what block 8 measures since ready (R569), the owner secrets that are set, the secure
sessions with whether each is owner-authenticated and the next session number, the IDE stream keys, the nonce, the token
window, the attempts, the last refusal, the signer, the scope and the signer key hash of the token in force, and the paddock
that SEC_RELKEY selects. -/
structure Security where
  revoked : BitVec 4 := 0
  steps : Nat := 0
  bankA : Bank := .shipped
  bankB : Bank := .shipped
  preferred : Bool := false
  booted : Option Bool := none
  recovery : Bool := false
  owner : Option (List (BitVec 8)) := none
  keyState : List (BitVec 8) := []
  secrets : Map (List (BitVec 8)) := []
  sessions : Map Bool := []
  nextSession : Nat := 1
  ideKeys : Map (BitVec 256) := []
  nonce : BitVec 256 := 0
  window : Map (BitVec 8) := []
  attempts : BitVec 32 := 0
  lastFail : Nat := 0
  signer : Nat := 0
  scope : BitVec 64 := 0
  signerHash : BitVec 256 := 0
  relSelect : Nat := 0
  serviceNear : BitVec 512 := 0
  serviceFar : BitVec 512 := 0
  deriving DecidableEq, Repr

/-- Chassis monitoring (20, R594, R595): the thresholds (key 2 × sensor, plus 1 for an upper one), those crossed now, the last
state reported of each state sensor, the events that wait, and the inlet temperature last read. -/
structure Pldm where
  thresholds : Map Int := []
  crossed : List Nat := []
  states : Map Nat := []
  events : List (Nat × Int) := []
  inlet : Nat := 0
  deriving DecidableEq, Repr

/-- The test access port (19, R580): its bypass bit, and whether EXTEST drives the pins. -/
structure Tap where
  bypass : Bool := false
  extest : Bool := false
  deriving DecidableEq, Repr

/-- A 64-byte ECC granule of a tier (10, R324, R325): its plaintext, poison and check symbols, and of its tier unit's image
keys and its logical unit's rebuilds how many went before its last whole write (R321, R346). -/
structure Granule where
  bits : BitVec 512 := 0
  poison : Bool := false
  ecc : Ecc := .good
  gen : Nat := 0
  era : Nat := 0
  deriving DecidableEq, Repr

/-- NT_MIGRATE and FT_MIGRATE (10, R345, Table 10.7). -/
structure Migration where
  logical : Nat
  toSite : Nat
  fromSite : Nat
  rows : Nat
  deriving DecidableEq, Repr

/-- A tier (10): sites of its logical units, failed units, the running migration, spare sites in use, ECC granules by
tier granule number, tier units mapped read-only by a shared image, granules locked by a heal, where the patrol
scrubber stands, when its pass began and whether that pass has overrun its period (15, R466), the image keys of shared tier units and how many each unit has lost (R321), the rebuilds of a logical unit on its
spare (R346; key 32 × tier unit + unit), the reference counts of its latest errors (R345), and the sites powered down. -/
structure Tier where
  sites : List Nat
  failed : List Nat := []
  migration : Option Migration := none
  sparesUsed : List Nat := []
  sparesFailed : List Nat := []
  granules : Map Granule := []
  shared : Map Nat := []
  heals : List Nat := []
  scrubAt : Nat := 0
  passStart : BitVec 64 := 0
  passLate : Bool := false
  imageKeys : Map (BitVec 512) := []
  rekeyed : Map Nat := []
  rebuilt : Map Nat := []
  ceTimes : Map (List (BitVec 64)) := []
  ueTimes : Map (List (BitVec 64)) := []
  downSites : List Nat := []
  deriving DecidableEq, Repr

/-- The near tier as the module ships (10, R316). -/
def Tier.near : Tier := { sites := (List.range 24).map (fun n => if n < 12 then n else n + 1) }

/-- The far tier as the module ships (10, R316). -/
def Tier.far : Tier := { sites := (List.range 16).map (fun n => if n < 8 then n else n + 1) }

end Sys2Proof.Machine
end

