-- ==== Sys2Proof/Machine/State.lean ====
section
/-! DEFINITION. The state of the engine, plain data, and the state right after reset. -/

namespace Sys2Proof.Machine

/-- The reasons a step can stop with a fault. The engine has none: every error of its own is a report, a tile fault or
a status that it records in its state. -/
inductive Fault where
  /-- Raised by no command: the block keeps running after every error the specification describes. Safe. -/
  | stopped
  deriving DecidableEq, Repr

/-- The reasons a command is not taken. -/
inductive Refusal where
  /-- The command has no meaning in the model; raised only by an arm of the dispatch. Safe: nothing is claimed. -/
  | notModelled (mnemonic : String)
  deriving DecidableEq, Repr

/-- The state. `pending` is the queue of commands that wait, first in, first out; `free` is the model's own counter for
values the specification leaves open (log entry 5). `segMap` is the version in force of the logical-to-physical map and
`segIdle` the idle one (09, R297); `merged` the tiles that count as holes inside merged rectangles (09, R296); `flipQueue` the
table changes that wait for the flip in progress (09, R298). `tileCe` holds when the local memory at a physical place last
corrected words and `retireDue` the places of worn tiles that await retirement (17, R515); `scanAdvised` is what the last scan
found (17, R509); `eventUnread` counts the records of the event ring that the host has not passed (14, R443). -/
structure State where
  pending : List Instr := []
  free : Nat := 0
  tiles : Map Tile := []
  regions : Map Region := []
  paddocks : Map Paddock := []
  holes : List Nat := []
  rowMap : Map (List Nat) := []
  segMap : Map (List (Option Nat)) := []
  segIdle : Map (List (Option Nat)) := []
  merged : List Nat := []
  flipQueue : List (List (Nat × List (BitVec 64))) := []
  net : List Packet := []
  near : Tier := Tier.near
  far : Tier := Tier.far
  deadStirrups : List Nat := []
  stirrups : List Nat := List.range 38
  flip : Bool := false
  epoch : Bool := false
  raised : List Report := []
  halted : Bool := false
  bursts : List ReinBurst := []
  paceStatus : BitVec 64 := 0
  refCount : BitVec 64 := 0
  regs : Map (BitVec 64) := []
  cntWin : Map (BitVec 64) := []
  rings : Map Ring := []
  descs : List Desc := []
  nextDesc : Nat := 0
  collectors : Map Collector := []
  fcCtrl : BitVec 64 := 0x7E00
  haltCause : Nat := 0
  pathFaults : Nat := 0
  ceForwarded : Map Nat := []
  msix : Map (BitVec 64) := []
  msixPending : List Nat := []
  eventEnable : Bool := false
  eventOverflow : Bool := false
  eventVector : Nat := 0
  eventHead : Nat := 0
  eventTail : Nat := 0
  eventUnread : Nat := 0
  eventPhase : Bool := true
  eventLost : Nat := 0
  patina : List PatinaEntry := []
  patinaSeq : Nat := 0
  patinaDue : List PatinaEntry := []
  cast : CastMap := {}
  castOnly : Bool := false
  tileCe : Map (List (BitVec 64)) := []
  retireDue : List (BitVec 32) := []
  scanAdvised : Bool := false
  repairs : List Repair := []
  repairsDone : Nat := 0
  holesNew : Nat := 0
  hotPairs : List Nat := []
  feedA : Bool := false
  feedB : Bool := false
  converters : Nat := 14
  coolantCap : Nat := 29000
  coolantFlow : Nat := 50
  coolantDerate : Bool := false
  pwrGood : Bool := false
  released : Bool := false
  bootStep : Nat := 0
  bootFailed : Bool := false
  scanHoles : Nat := 0
  ready : Bool := false
  debugOpen : Bool := false
  d3hot : Bool := false
  hostMem : Map (BitVec 8) := []
  hostPoison : List Nat := []
  out : List Out := []
  ports : Map PortLink := []
  yoke : Yoke := {}
  peerWaits : List PeerWait := []
  sec : Security := {}
  pldm : Pldm := {}
  tap : Tap := {}
  bwSeq : Nat := 0
  bw : Map Nat := []
  fbRoute : Map (BitVec 64) := []
  fbWindows : Map (BitVec 64) := []
  deriving DecidableEq, Repr

/-- The machine right after reset: before power-up. -/
def State.reset : State := {}

end Sys2Proof.Machine
end

