-- ==== Sys2Proof/Machine/Ops.lean ====
section
/-! DEFINITION. The named operations over tiles, registers, local memory and reports that the meanings share
(01, 03, 16). -/

namespace Sys2Proof.Machine

/-! ## Outcomes -/

/-- A command that finds no occasion in the state is turned away: nothing changes (log entry 1). -/
def turnedAway (s : State) : Host.Outcome State Fault Refusal := .next s

/-! ## Tiles and regions -/

/-- The tile of a number. -/
def State.tile (s : State) (k : Nat) : Tile := getD Tile.reset s.tiles k

/-- The state with a tile replaced. -/
def State.setTile (s : State) (k : Nat) (t : Tile) : State := { s with tiles := putD Tile.reset s.tiles k t }

/-- The state with a tile changed. -/
def State.onTile (s : State) (k : Nat) (f : Tile → Tile) : State := s.setTile k (f (s.tile k))

/-- Logical column of a tile (01, R22). -/
def tileX (k : Nat) : Nat := k % 840

/-- Logical row of a tile (01, R22). -/
def tileY (k : Nat) : Nat := k / 840

/-- The number of the tile at a logical position. -/
def tileAt (x y : Nat) : Nat := y * 840 + x

/-- A place word of a tree: the tile of its low 20 bits (09, Table 9.6). -/
def placeTile (v : BitVec 32) : Nat := tileAt (v.toNat % 1024) (v.toNat / 1024 % 1024)

/-- R31: whether a pair names a tile. -/
def onGrid (x y : Nat) : Bool := decide (x ≤ 839) && decide (y ≤ 545)

/-- The region of a logical position: `r = 4 * fy + fx / 3` (01, R26). -/
def regionAt (x y : Nat) : Nat := 4 * (y / 78) + (x / 70) / 3

/-- The region of a tile. -/
def regionOfTile (k : Nat) : Nat := regionAt (tileX k) (tileY k)

/-- The region record of a number. -/
def State.region (s : State) (r : Nat) : Region := getD {} s.regions r

/-- The state with a region replaced. -/
def State.setRegion (s : State) (r : Nat) (g : Region) : State := { s with regions := putD {} s.regions r g }

/-- The state with a region changed. -/
def State.onRegion (s : State) (r : Nat) (f : Region → Region) : State := s.setRegion r (f (s.region r))

/-- The paddock record of an id. -/
def State.paddock (s : State) (p : Nat) : Paddock := getD {} s.paddocks p

/-- The state with a paddock replaced. -/
def State.setPaddock (s : State) (p : Nat) (d : Paddock) : State := { s with paddocks := putD {} s.paddocks p d }

/-- The state with a paddock changed. -/
def State.onPaddock (s : State) (p : Nat) (f : Paddock → Paddock) : State := s.setPaddock p (f (s.paddock p))

/-- The owner of a tile's region; 0 for none (01, R42). -/
def State.ownerOf (s : State) (k : Nat) : Nat := (s.region (regionOfTile k)).owner

/-- Whether the tiles of a region are clocked: ACTIVE or SERVICE (01, Table 1.2), and the module is not in halt
(16, R493). -/
def State.clocked (s : State) (r : Nat) : Bool :=
  !s.halted && (match (s.region r).state with | .active | .service => true | _ => false)

/-- Whether the routers of a region are clocked (01, Table 1.2). -/
def State.routed (s : State) (r : Nat) : Bool :=
  !s.halted && (match (s.region r).state with | .active | .service | .transit => true | _ => false)

/-- Whether a logical position holds a tile: no hole, nor a tile that counts as one (01, R32; 09, R296). -/
def State.present (s : State) (k : Nat) : Bool := decide (k < 458640) && !s.holes.contains k && !s.merged.contains k

/-- Whether a tile stands in the logical grid: no hole, and its region neither ISOLATED, LOST nor OFF (01, R32). -/
def State.standing (s : State) (k : Nat) : Bool :=
  s.present k && (match (s.region (regionOfTile k)).state with | .isolated | .lost | .off => false | _ => true)

/-- Whether the state of a tile can be reached: it is no hole, and its region holds its state under a region controller in
service (01, R45; 14, R416). -/
def State.reachable (s : State) (k : Nat) : Bool :=
  let g := s.region (regionOfTile k)
  s.present k && (match g.state with | .isolated => !g.controllerFailed | .lost | .off => false | _ => true)

/-- One of up to 1,024 values that a step leaves open (log entry 5). -/
def State.freshAt (s : State) (n : Nat) : BitVec 64 := Config.freeValue (1024 * s.free + n)

/-- A fresh value the specification leaves open (log entry 5). -/
def State.fresh (s : State) : BitVec 64 := s.freshAt 0

/-- The counter of the free values advanced. -/
def State.bump (s : State) : State := { s with free := s.free + 1 }

/-- Something sent to the outside (log entry 16). -/
def State.emit (s : State) (o : Out) : State := { s with out := s.out ++ [o] }

/-! ## Reports (16) -/

/-- Class bits of Table 16.1. -/
def clsCE : BitVec 7 := 0x01
def clsUE : BitVec 7 := 0x02
def clsRegion : BitVec 7 := 0x04
def clsWafer : BitVec 7 := 0x08
def clsSDC : BitVec 7 := 0x10
def clsInfra : BitVec 7 := 0x20
def clsColl : BitVec 7 := 0x40
def clsNote : BitVec 7 := 0

/-- PACE_TILE_COUNT (03, R110). -/
def State.paceOf (s : State) (k : Nat) : BitVec 64 := (s.paddock (s.ownerOf k)).paceCount

/-- A report of a tile (03, R128; 16, R475, R481). -/
def State.tileReport (s : State) (k : Nat) (source code : Nat) (cls : BitVec 7) (addr : BitVec 64) (synd : BitVec 16) :
    Report :=
  { source := BitVec.ofNat 16 source, code := BitVec.ofNat 16 code, cls := cls, paddock := s.ownerOf k,
    x := BitVec.ofNat 10 (tileX k), y := BitVec.ofNat 10 (tileY k), addr := addr, synd := synd,
    service := (s.tile k).service, poison := false, pace := s.paceOf k }

/-- A report of a source that is no tile. -/
def frameReport (source code : Nat) (cls : BitVec 7) (paddock : Nat) (addr : BitVec 64) : Report :=
  { source := BitVec.ofNat 16 source, code := BitVec.ofNat 16 code, cls := cls, paddock := paddock,
    x := 0x3FF, y := 0x3FF, addr := addr, synd := 0, service := false, poison := false }

/-- A report raised by a source that is no tile: it waits for its collector, with the pace count of its paddock. -/
def State.raise (s : State) (r : Report) : State :=
  { s with raised := s.raised ++ [{ r with pace := (s.paddock r.paddock).paceCount }] }

/-- A report raised by a tile: it waits for the field collector. -/
def Tile.raise (t : Tile) (r : Report) : Tile := { t with raised := t.raised ++ [r] }

/-- A note of a tile (16, R482). -/
def State.tileNote (s : State) (k : Nat) (code : Nat) (addr : BitVec 64) : Report :=
  s.tileReport k 0x0006 code clsNote addr (BitVec.ofNat 16 (addr.toNat / 2 ^ 48))

/-- The codes of the notes of Table 16.5. -/
def noteCodes : List Nat := [0x0201, 0x0202, 0x0400, 0x0504, 0x0510] ++ (List.range 15).map (fun i => 0x0600 + i) ++ [0xFFFF]

/-- The code of a note for which Table 16.5 names none: one of those it has (16, R482; log entry 76). -/
def State.openNote (s : State) (n : Nat) : Nat := noteCodes.getD ((s.freshAt n).toNat % noteCodes.length) 0x0600

/-! ## General registers (03, R97, R106) -/

/-- A read of a general register; g0 reads zero, unmarked and unpoisoned. -/
def Tile.reg (t : Tile) (r : BitVec 5) : GReg := if r = 0 then {} else getD {} t.regs r.toNat

/-- A write of a general register; a write of g0 has no effect. A poisoned value is zero (R119). A later write takes the
place of the result of a vector instruction issued before it and not yet returned. -/
def Tile.setReg (t : Tile) (r : BitVec 5) (g : GReg) : Tile :=
  if r = 0 then t
  else { t with
    regs := putD {} t.regs r.toNat (if g.poison then { g with val := 0 } else g)
    gPending := t.gPending.filter (fun p => p.reg != r) }

/-! ## Counters (20, R582, R586, R587) -/

/-- A counter word after `n` events: 48 bits, the wrap bit sticky. -/
def countUp (w : BitVec 64) (n : Nat) : BitVec 64 :=
  let c := field w 0 48 + n
  BitVec.ofNat 64 (c % 2 ^ 48 + (if bitOf w 63 || decide (2 ^ 48 ≤ c) then 2 ^ 63 else 0))

/-- Fixed counter `i` of the tile (Table 20.2) counts `n` events. -/
def Tile.count (t : Tile) (i n : Nat) : Tile :=
  if n = 0 then t else { t with counters := modD 0 t.counters i (fun w => countUp w n) }

/-- Indexed counter `i` of the tile (Table 20.3) counts `n` events; it is held above the fixed ones. -/
def Tile.countIdx (t : Tile) (i n : Nat) : Tile := t.count (0x400 + i) n

/-- A counter of the counter read window (Table 20.4), by its word number in the window, counts `n` events. -/
def State.countWin (s : State) (key n : Nat) : State :=
  if n = 0 then s else { s with cntWin := modD 0 s.cntWin key (fun w => countUp w n) }

/-- Word `i` of a paddock's counter block counts `n` events. -/
def State.cntPaddock (s : State) (p i n : Nat) : State := s.countWin (0x100 * p + i) n

/-- Word `i` of a region's counter block counts `n` events. -/
def State.cntRegion (s : State) (r i n : Nat) : State := s.countWin (0x2000 + 0x100 * r + i) n

/-- Bytes of the bandwidth window in progress, by the word of their gauge (20, R590). -/
def State.addBw (s : State) (key n : Nat) : State := if n = 0 then s else { s with bw := putD 0 s.bw key (getD 0 s.bw key + n) }

/-- Word `i` of a tier unit's counter block counts `n` events; the bytes read and written (words 0 and 1) also in its
bandwidth gauges (words 7 and 8). -/
def State.cntUnit (s : State) (far : Bool) (u i n : Nat) : State :=
  let base := (if far then 0x5000 else 0x4000) + 0x80 * u
  (if i ≤ 1 then s.addBw (base + 7 + i) n else s).countWin (base + i) n

/-- Word `i` of a link's counter block counts `n` events. -/
def State.cntPort (s : State) (l i n : Nat) : State := s.countWin (0x6000 + 0x80 * l + i) n

/-- Word `i` of a ring pair's counter block counts `n` events. -/
def State.cntRing (s : State) (r i n : Nat) : State := s.countWin (0x7000 + 8 * r + i) n

/-- Word `i` of the frame's counter block counts `n` events. -/
def State.cntFrame (s : State) (i n : Nat) : State := s.countWin (0x8000 + i) n

/-- A gauge word (20, R583): the sequence of the window over a value of 48 bits. -/
def State.gauge (s : State) (v : Int) : BitVec 64 := BitVec.ofNat 64 ((v % 2 ^ 48).toNat + s.bwSeq % 2 ^ 16 * 2 ^ 48)

/-- A counter word of free count and wrap bit (log entry 37). -/
def freeCounter (v : BitVec 64) : BitVec 64 := v &&& 0x8000FFFFFFFFFFFF

/-- The words of the window whose counts depend on time or on the lanes, which no state holds: credit waits of a paddock,
throttle cycles of a region, corrections of a port's code. -/
def freeWord (key : Nat) : Bool :=
  if key < 0x2000 then decide (32 ≤ key % 0x100) && decide (key % 0x100 < 64) && decide (key < 0x1D00)
  else if key < 0x4000 then key % 0x100 == 6 && decide (key < 0x2000 + 0x100 * 28)
  else decide (0x6000 ≤ key) && decide (key < 0x6000 + 0x80 * 30) && key % 0x80 == 4

/-- `n` bytes of a descriptor as a number. -/
def descNat (b : List (BitVec 8)) (off n : Nat) : Nat := natLE ((b.drop off).take n)

/-- A number of `n` bytes of a descriptor. -/
def Desc.nat (d : Desc) (off n : Nat) : Nat := descNat d.bytes off n

/-- The opcode. -/
def Desc.opcode (d : Desc) : Nat := d.nat 0 2

/-- The flags byte. -/
def Desc.flags (d : Desc) : Nat := d.nat 2 1

/-- Flag bit 2 of a descriptor, seal (14, Table 14.7). -/
def Desc.isSealed (d : Desc) : Bool := d.flags / 4 % 2 == 1

/-- Whether a descriptor's seal is still to be written (12, R377). -/
def State.sealDue (s : State) (d : Desc) : Bool :=
  d.isSealed && !d.sealed && d.ring != 0 && (s.paddock d.paddock).seals.enable && (s.paddock d.paddock).primary

/-- A word of the window as it is read; signing_queue is the sealed descriptors whose seal is still to come. -/
def State.counterWord (s : State) (key : Nat) : BitVec 64 :=
  if key < 0x1D00 ∧ key % 0x100 = 5 then
    s.gauge ((s.descs.filter (fun d => d.paddock == key / 0x100 && d.status.isSome && s.sealDue d)).length)
  else if freeWord key then freeCounter s.fresh
  else getD 0 s.cntWin key

/-! ## Local memory (03, R111 to R117) -/

/-- What a read of a stored word returns: corrected, or poisoned with value zero (R111 to R113). -/
def MWord.read (m : MWord) : PWord :=
  if m.p0 || m.p1 || m.ecc == .multi then { val := 0, poison := true } else { val := m.val, poison := false }

/-- The stored form of a word (R114). -/
def MWord.ofP (w : PWord) : MWord :=
  if w.poison then { val := 0, p0 := true, p1 := true, ecc := .good } else { val := w.val }

/-- A word of local memory as read. -/
def Tile.word (t : Tile) (i : Nat) : PWord := (getD {} t.mem i).read

/-- What a read does to the word's store and to the error registers: a single-bit error is counted and reported as CE
(R112), an uncorrectable one is written back poisoned and reported (R113). -/
def State.touch (s : State) (k : Nat) (t : Tile) (i : Nat) : Tile :=
  match (getD {} t.mem i).ecc with
  | .good => t
  | .single =>
    { t with
      ceCount := if t.ceCount = 0xFFFFFFFF then t.ceCount else t.ceCount + 1
      ceLast := BitVec.ofNat 15 i
      ceFound := if t.ceFound.contains i then t.ceFound else t.ceFound ++ [i]
      raised := t.raised ++
        [s.tileReport k 0x1000 0x0100 clsCE (BitVec.ofNat 64 (8 * i)) (BitVec.ofNat 16 (s.fresh.toNat % 256))] }
  | .multi =>
    { t with
      mem := putD {} t.mem i { val := 0, p0 := true, p1 := true, ecc := .good }
      raised := t.raised ++
        [s.tileReport k 0x1000 0x0101 clsUE (BitVec.ofNat 64 (8 * i)) (BitVec.ofNat 16 (s.fresh.toNat % 256))] }

/-- The tile after reads of several words. -/
def State.touchAll (s : State) (k : Nat) (t : Tile) (is : List Nat) : Tile := is.foldl (s.touch k) t

/-- A write to any byte of a 64-byte half closes its GET merge entry (09, R307). -/
def Tile.closeMerge (t : Tile) (i : Nat) : Tile :=
  if t.merges.isEmpty then t else { t with merges := t.merges.filter (fun m => m.half != i / 8) }

/-- A write of all 8 bytes of a word (R114); a line of the fetch buffer that it writes is read again (log entry 144). -/
def Tile.putWord (t : Tile) (i : Nat) (w : PWord) : Tile :=
  let t := t.closeMerge i
  { t with mem := putD {} t.mem i (MWord.ofP w)
           fetchBuf := drop t.fetchBuf (i / 16)
           ceFound := t.ceFound.filter (· != i) }

/-- The bytes of `new` where the mask has a bit, of `old` elsewhere. -/
def mergeBytes (old new : BitVec 64) (mask : Nat) : BitVec 64 :=
  BitVec.ofNat 64 (natLE ((List.range 8).map (fun j =>
    if mask / 2 ^ j % 2 = 1 then BitVec.ofNat 8 (field new (8 * j) 8) else BitVec.ofNat 8 (field old (8 * j) 8))))

/-- A write of the bytes of a word that the 8-bit mask names (R114). An error that the merge finds in the old word is neither counted
nor reported (log entry 145). -/
def Tile.putBytes (t : Tile) (i : Nat) (mask : Nat) (w : PWord) : Tile :=
  if mask % 256 = 0 then t
  else if mask % 256 = 255 then t.putWord i w
  else
    let old := t.word i
    t.putWord i { val := mergeBytes old.val w.val mask, poison := old.poison || w.poison }

/-- Words of local memory from a word index on. -/
def Tile.words (t : Tile) (i n : Nat) : List PWord := (List.range n).map (fun j => t.word (i + j))

/-- Full words written from a word index on. -/
def Tile.putWords (t : Tile) (i : Nat) : List PWord → Tile
  | [] => t
  | w :: ws => (t.putWord i w).putWords (i + 1) ws

/-- A byte of local memory, and whether its word is poisoned. -/
def Tile.byteAt (t : Tile) (off : Nat) : Nat × Bool :=
  let w := t.word (off / 8)
  (field w.val (8 * (off % 8)) 8, w.poison)

/-- `n` bytes from an offset as a little-endian number; poisoned when any word read is. -/
def Tile.bytesAt (t : Tile) (off n : Nat) : Nat × Bool :=
  ((List.range n).foldr (fun j acc => (t.byteAt (off + j)).1 + 256 * acc) 0,
   (List.range n).any (fun j => (t.byteAt (off + j)).2))

/-- The word indices that `n` bytes from an offset touch. -/
def wordsTouched (off n : Nat) : List Nat :=
  if n = 0 then [] else rangeFrom (off / 8) ((off + n - 1) / 8 - off / 8 + 1)

/-- Bytes written from an offset on, each with its poison, word by word (R114). -/
def Tile.putByteList (t : Tile) (off : Nat) (bs : List (Nat × Bool)) : Tile :=
  (wordsTouched off bs.length).foldl (fun t i =>
    let part := (List.range 8).map (fun j =>
      if off ≤ 8 * i + j then (bs[8 * i + j - off]?).map (fun b => (j, b.1, b.2)) else none)
    let mask := part.foldl (fun m o => match o with | some (j, _, _) => m + 2 ^ j | none => m) 0
    let val := part.foldl (fun v o => match o with | some (j, b, _) => v + (b % 256) * 2 ^ (8 * j) | none => v) 0
    let poison := part.any (fun o => match o with | some (_, _, p) => p | none => false)
    t.putBytes i mask { val := BitVec.ofNat 64 val, poison := poison }) t

/-- The first offset that PROGRAM mode does not protect (03, R96, Table 3.10). -/
def Tile.protEnd (t : Tile) : Nat := t.protTop.toNat * 4096

/-- Whether a write of `n` bytes from an offset enters the protected area in PROGRAM mode (R115). -/
def Tile.protects (t : Tile) (off n : Nat) : Bool := !t.service && decide (0 < n) && decide (off < t.protEnd)

/-- The end of local memory (03, R111). -/
def memEnd : Nat := 0x30000

/-! ## Tile faults (03, R127, R128) -/

/-- A report of a tile fault. -/
def State.faultReport (s : State) (k : Nat) (t : Tile) (unit cause : Nat) (pc : BitVec 18) (addr : BitVec 64) : Report :=
  { s.tileReport k unit cause clsUE addr (BitVec.ofNat 16 (pc.toNat / 4)) with
    service := t.service
    poison := cause == 0x0B || cause == 0x0C }

/-- TILE_FAULT (R127): the first fault is recorded, a later one counted; the core parks; the field collector gets a
report either way (R128). -/
def State.tileFault (s : State) (k : Nat) (t : Tile) (unit cause : Nat) (pc : BitVec 18) (addr : BitVec 64) : Tile :=
  let t1 : Tile :=
    if t.fcValid then { t with fcCount := if t.fcCount = 0xFFFF then t.fcCount else t.fcCount + 1 }
    else { t with
      fcValid := true
      fcMode := t.service
      fcUnit := BitVec.ofNat 8 unit
      fcCause := BitVec.ofNat 8 cause
      fcPc := pc
      fcAddr := addr }
  { t1 with parked := true, wait := .none, raised := t1.raised ++ [s.faultReport k t unit cause pc addr] }

/-- The lowest code of the causes that apply, listed in rising order (R127). -/
def lowestCause : List (Bool × Nat) → Option Nat
  | [] => none
  | (b, c) :: l => if b then some c else lowestCause l

/-! ## Issue of an instruction (03, R93, R96, R127) -/

/-- What an instruction does at issue: it retires, or it retires and continues elsewhere, or it faults, or the core waits
in it, or it cannot issue yet. -/
inductive Issued where
  | retire (t : Tile)
  | jump (t : Tile) (target : BitVec 18)
  | fault (unit cause : Nat) (addr : BitVec 64)
  | hold (t : Tile)
  | stall

/-- The tile after an instruction retires and the core continues at an address (R96, Table 3.13). -/
def Tile.retireTo (t : Tile) (pc : BitVec 18) : Tile := { t with pc := pc, instret := t.instret + 1 }

/-- The next instruction's address. -/
def Tile.nextPc (t : Tile) : BitVec 18 := t.pc + 4

/-- Whether the core of a tile can issue: present, clocked, neither parked nor waiting nor at the end of its
activation. -/
def State.canIssue (s : State) (k : Nat) : Bool :=
  let t := s.tile k
  s.present k && s.clocked (regionOfTile k) && !t.parked && t.wait == .none && !t.ended

/-- The 16 words of a 128-byte line, as the fetch buffer or local memory holds them (R96). -/
def Tile.fetchLine (t : Tile) (l : Nat) : List PWord := (look t.fetchBuf l).getD (t.words (16 * l) 16)

/-- The lines that a fetch needs: that of the program counter, and ahead of it the next one where the core may fetch from it
(R96). -/
def Tile.fetchLines (t : Tile) : List Nat :=
  let l := t.pc.toNat / 128
  let next := 128 * (l + 1)
  if next < memEnd ∧ (t.service ∨ next < t.protEnd) then [l, l + 1] else [l]

/-- The word of local memory that holds the instruction at the program counter. -/
def Tile.fetchWord (t : Tile) : PWord := (t.fetchLine (t.pc.toNat / 128)).getD (t.pc.toNat / 8 % 16) {}

/-- The instruction word at the program counter. -/
def Tile.insnWord (t : Tile) : BitVec 32 := t.fetchWord.val.extractLsb' (8 * (t.pc.toNat % 8)) 32

/-- R96, R120: the fault of the fetch at the program counter, if it has one; FC_TILE_ADDR of either is zero (log entry 146). -/
def Tile.fetchCause (t : Tile) : Option Nat :=
  let off := t.pc.toNat
  if memEnd ≤ off then some 0x05
  else if !t.service && decide (t.protEnd ≤ off) then some 0x05
  else if t.fetchWord.poison then some 0x0B
  else none

/-- A line read into the fetch buffer, as any read of local memory reads it (R112, R113). -/
def State.fillLine (s : State) (k : Nat) (t : Tile) (l : Nat) : Tile :=
  if (look t.fetchBuf l).isSome then t
  else
    let ws := t.words (16 * l) 16
    let t := s.touchAll k t (rangeFrom (16 * l) 16)
    { t with fetchBuf := insertAt t.fetchBuf l ws }

/-- The tile after the fetch at its program counter: the two-line buffer holds its line and the next (R96); a fetch outside local
memory or the mode's range reads nothing. -/
def State.fetch (s : State) (k : Nat) (t : Tile) : Tile :=
  if t.fetchCause = some 0x05 then t
  else
    let ls := t.fetchLines
    let t := ls.foldl (s.fillLine k) t
    { t with fetchBuf := t.fetchBuf.filter (fun kv => ls.contains kv.1) }

/-- An instruction `i` of the core at its issue: the word at the program counter is its word (R98 to R100). It waits for the g
registers it reads that a vector instruction is still to write (06, R196). -/
def issue (k : TileIx) (i : Instr) (reads : List (BitVec 5)) (s : State) (body : Tile → Issued) :
    Host.Outcome State Fault Refusal :=
  let t0 := s.tile k
  if !s.canIssue k then turnedAway s
  else
    match t0.fetchCause with
    | some c => .next (s.setTile k (s.tileFault k (s.fetch k t0) 0 c t0.pc 0)).bump
    | none =>
      if i.tileWord ≠ some t0.insnWord then turnedAway s
      else if t0.gPending.any (fun p => reads.contains p.reg) then turnedAway s
      else
        let t := s.fetch k t0
        match body t with
        | .retire t' => .next (s.setTile k (t'.retireTo t.nextPc)).bump
        | .jump t' target => .next (s.setTile k (t'.retireTo target)).bump
        | .fault unit cause addr => .next (s.setTile k (s.tileFault k t unit cause t.pc addr)).bump
        | .hold t' => .next (s.setTile k t').bump
        | .stall => turnedAway s

/-- A step of one of a tile's engines: it acts while the tile is present and clocked. -/
def engine (k : TileIx) (s : State) (body : Tile → Option Tile) : Host.Outcome State Fault Refusal :=
  if s.present k && s.clocked (regionOfTile k) then
    match body (s.tile k) with
    | some t => .next (s.setTile k t).bump
    | none => turnedAway s
  else turnedAway s

/-- A wait of the core ends: the instruction retires (07, R234, R242). -/
def Tile.endWait (t : Tile) : Tile := { t with wait := .none, pc := t.pc + 4, instret := t.instret + 1 }

/-! ## Physical positions and the patina map (17, R506, R508) -/

/-- The physical row of a tile in its field, and the physical columns of its row segment (R508). -/
def State.physRow (s : State) (k : Nat) : Nat :=
  (getD (List.range 78) s.rowMap (tileX k / 70 + 12 * (tileY k / 78))).getD (tileY k % 78) 0

/-- The number of a tile's row segment in the segment map. -/
def State.segOf (s : State) (k : Nat) : Nat := (tileX k / 70 + 12 * (tileY k / 78)) * 80 + s.physRow k

/-- The physical columns of the logical columns of a segment, as shipped: 1 to 70. -/
def shippedCols : List (Option Nat) := (List.range 70).map (fun c => some (c + 1))

/-- The physical columns of a tile's segment on which its tiles stand: from the request of a flip on, those of the version that
it brings into force (17, Table 17.2, steps 3 to 5). -/
def State.colsOf (s : State) (k : Nat) : List (Option Nat) := getD shippedCols (if s.flip then s.segIdle else s.segMap) (s.segOf k)

/-- The physical position of a tile, column and row within the wafer. -/
def State.physOf (s : State) (k : Nat) : Nat × Nat :=
  let col := ((s.colsOf k).getD (tileX k % 70) none).getD 0
  (72 * (tileX k / 70) + col, 80 * (tileY k / 78) + s.physRow k)

/-- The position field of a tile's patina entry. -/
def State.tilePlace (s : State) (k : Nat) : BitVec 32 := BitVec.ofNat 32 ((s.physOf k).1 + (s.physOf k).2 * 2 ^ 16)

/-- A patina entry that frame firmware is still to write. -/
def State.duePatina (s : State) (kind unit : Nat) (place : BitVec 32) : State :=
  { s with patinaDue := s.patinaDue ++ [{ kind := kind, unit := unit, place := place, pace := 0 }] }

/-- A patina entry of a tile that is due. -/
def State.dueTile (s : State) (kind k : Nat) : State :=
  s.duePatina kind (tileX k / 70 + 12 * (tileY k / 78)) (s.tilePlace k)

end Sys2Proof.Machine
end

