-- ==== Sys2Proof/Machine/Flags.lean ====
section
/-! DEFINITION. The exception flag registers MX_FLAGS and VX_FLAGS (04, R162; 05, R183; 06, R206, R215). -/

namespace Sys2Proof.Machine

/-- MX_FLAGS as read (Table 4.8): 0 invalid, 1 overflow, 2 flush, 3 inexact. -/
def mxFlagsWord (f : Flags) : BitVec 64 :=
  BitVec.ofNat 64 ((if f.invalid then 1 else 0) + (if f.overflow then 2 else 0) + (if f.underflow then 4 else 0)
    + (if f.inexact then 8 else 0))

/-- VX_FLAGS as read (Table 6.7): 0 invalid, 1 div_zero, 2 overflow, 3 underflow, 4 inexact. -/
def vxFlagsWord (f : Flags) : BitVec 64 :=
  BitVec.ofNat 64 ((if f.invalid then 1 else 0) + (if f.divZero then 2 else 0) + (if f.overflow then 4 else 0)
    + (if f.underflow then 8 else 0) + (if f.inexact then 16 else 0))

/-- MX_FLAGS after a write of ones clears bits (RW1C). -/
def mxFlagsClear (f : Flags) (v : BitVec 64) : Flags :=
  { f with
    invalid := f.invalid && !bitOf v 0
    overflow := f.overflow && !bitOf v 1
    underflow := f.underflow && !bitOf v 2
    inexact := f.inexact && !bitOf v 3 }

/-- VX_FLAGS after a write of ones clears bits (RW1C). -/
def vxFlagsClear (f : Flags) (v : BitVec 64) : Flags :=
  { invalid := f.invalid && !bitOf v 0
    divZero := f.divZero && !bitOf v 1
    overflow := f.overflow && !bitOf v 2
    underflow := f.underflow && !bitOf v 3
    inexact := f.inexact && !bitOf v 4 }

/-- Flags raised by the lanes of a vector instruction accumulate (R206). -/
def Tile.raiseVx (t : Tile) (f : Flags) : Tile := { t with vxFlags := t.vxFlags.or f }

/-- Flags raised by a matrix operation accumulate (R148). -/
def Tile.raiseMx (t : Tile) (f : Flags) : Tile := { t with mxFlags := t.mxFlags.or f }

end Sys2Proof.Machine
end

