-- ==== Sys2Proof/Machine/Operands.lean ====
section
/-! DEFINITION. Operand forms: immediates, register operands with their marks and poison, local and device addresses
(01, R47 to R50; 03, R98, R107, R116, R120). -/

namespace Sys2Proof.Machine

/-- The sign-extended 16-bit immediate. -/
def sextImm (imm : BitVec 16) : BitVec 64 := imm.signExtend 64

/-- The zero-extended 16-bit immediate. -/
def zextImm (imm : BitVec 16) : BitVec 64 := imm.setWidth 64

/-- A branch target: the branch's own address plus the immediate times 4, modulo 2^18 (R102). -/
def branchTarget (pc : BitVec 18) (imm : BitVec 16) : BitVec 18 := pc + imm.signExtend 18 * 4

/-- A result computed from registers: marked when a source is, poisoned when a source is (R106, R119). -/
def resultOf (v : BitVec 64) (srcs : List GReg) : GReg :=
  { val := v, mark := srcs.any (·.mark), poison := srcs.any (·.poison) }

/-- Whether a marked operand faults: only in PROGRAM mode (R107). -/
def Tile.markFault (t : Tile) (gs : List GReg) : Bool := !t.service && gs.any (·.mark)

/-- Whether an operand is poisoned (R120). -/
def anyPoison (gs : List GReg) : Bool := gs.any (·.poison)

/-- The address of a local access: `g[base] + sext(imm)` over 64 bits (R100, R116). -/
def localAddr (base : GReg) (imm : BitVec 16) : BitVec 64 := base.val + sextImm imm

/-- The checks of a local load or store in rising cause order: alignment, range, protected area of a store, and a
poisoned address (R115, R116, R120, R127). -/
def Tile.localCause (t : Tile) (base : GReg) (addr : BitVec 64) (n : Nat) (isStore : Bool) : Option Nat :=
  lowestCause [(addr.toNat % n != 0, 0x03), (decide (memEnd ≤ addr.toNat), 0x04),
    (isStore && t.protects addr.toNat n, 0x06), (base.poison, 0x0C)]

/-! ## Device addresses (01, R47 to R49) -/

/-- The space selector. -/
def selectorOf (a : BitVec 64) : Nat := field a 60 4

/-- Logical row of a tile-local address (Table 1.8). -/
def addrY (a : BitVec 64) : Nat := field a 40 10

/-- Logical column of a tile-local address (Table 1.8). -/
def addrX (a : BitVec 64) : Nat := field a 30 10

/-- Offset of a tile-local address (Table 1.8). -/
def addrOff (a : BitVec 64) : Nat := field a 0 18

/-- The device address of a local offset of a tile. -/
def tileAddr (x y off : Nat) : BitVec 64 := BitVec.ofNat 64 (y * 2 ^ 40 + x * 2 ^ 30 + off)

/-- Where a remote operation or a message comes from. -/
structure Access where
  tile : Nat
  service : Bool
  isPut : Bool
  isMsg : Bool
  addr : BitVec 64
  len : Nat

/-- A tile-local address of R49: reserved bits, a tile that exists, in the issuing paddock, and an area the mode
admits (R121, R254, Table 3.5). -/
def State.tileAddrError (s : State) (a : Access) : Bool :=
  let x := addrX a.addr
  let y := addrY a.addr
  let k := tileAt x y
  let off := addrOff a.addr
  let last := off + a.len
  field a.addr 50 10 != 0 || field a.addr 18 12 != 0 || !onGrid x y || !s.present k
    || s.ownerOf k != s.ownerOf a.tile
    || !(decide (last ≤ memEnd)
        || (a.service && !a.isPut && decide (memEnd ≤ off) && decide (last ≤ 0x32000))
        || (a.service && decide (0x38000 ≤ off) && decide (last ≤ 0x39000)))

/-- A tier address of R49 and R319: reserved bits and the share size. -/
def State.tierAddrError (s : State) (a : Access) (far : Bool) : Bool :=
  let p := s.paddock (s.ownerOf a.tile)
  let units := if far then p.farUnits.length else p.nearUnits.length
  field a.addr 48 12 != 0 || decide (units * 2 ^ 30 < field a.addr 0 48 + a.len)

/-- A host address of R49 and R620: inside a window in force of the issuing paddock; SERVICE-mode tiles of no paddock
are not bound. -/
def State.hostAddrError (s : State) (a : Access) : Bool :=
  let h := field a.addr 0 60
  !(a.service && s.ownerOf a.tile == 0) && !(s.paddock (s.ownerOf a.tile)).hostWins.any (fun w =>
    decide (w.1 ≤ h) && decide (h + a.len ≤ w.1 + w.2.1) && (if a.isPut then w.2.2.2 else w.2.2.1))

/-- An outbound window that covers a range of a peer's share (18, R555, Table 18.9). -/
def windowCovers (w : BitVec 64) (inbound isPut far twin : Bool) (engine paddock : Nat) (off len : Nat) : Bool :=
  bitOf w 63 && bitOf w 62 == inbound && (!isPut || bitOf w 61) && bitOf w 60 == far && bitOf w 59 == twin
    && (twin || field w 53 6 == engine) && field w 48 5 == paddock
    && decide (field w 0 12 * 2 ^ 30 ≤ off) && decide (off + len ≤ (field w 0 12 + field w 24 12) * 2 ^ 30)

/-- A twin or fabric address of R49 and R555. -/
def State.peerAddrError (s : State) (a : Access) (twin : Bool) : Bool :=
  let inner := if twin then field a.addr 56 4 else field a.addr 50 4
  let p := s.ownerOf a.tile
  let engine := if twin then 0 else field a.addr 54 6
  (inner != 1 && inner != 2)
    || (twin && (field a.addr 50 6 != 0 || (s.paddock p).pairMode != 3))
    || !(List.range 32).any (fun k =>
        windowCovers (getD 0 s.fbWindows k) false a.isPut (inner == 2) twin engine p (field a.addr 0 50) a.len)

/-- R49: whether an access by r.get or r.put is an address error. -/
def State.addrError (s : State) (a : Access) : Bool :=
  match selectorOf a.addr with
  | 0 => s.tileAddrError a
  | 1 => s.tierAddrError a false
  | 2 => s.tierAddrError a true
  | 4 => s.hostAddrError a
  | 5 => s.peerAddrError a true
  | 6 => s.peerAddrError a false
  | 15 => !a.service || field a.addr 32 28 != 0
  | _ => true

end Sys2Proof.Machine
end

