-- ==== Sys2Proof/WellFormed.lean ====
section
/-! DEFINITION. Which operands are inside a command's row. Most operands are bounded by their types; these checks are
what the types do not say. No sender can send a command that fails them, and its meaning turns it away. -/

namespace Sys2Proof

/-- The event codes that a source may report (16, Table 16.5). -/
def Report.listed (r : Report) : Bool :=
  let c := r.code.toNat
  decide (r.paddock ≤ 28)
    && (decide (r.source.toNat / 4096 ≠ 3 ∧ r.source.toNat / 4096 ≠ 4) || decide (r.source.toNat % 4096 < 28))
    && ((r.x == 0x3FF && r.y == 0x3FF) || (decide (r.x.toNat < 840) && decide (r.y.toNat < 546)))
    && (decide (c ≤ 0xFF) || [0x100, 0x101, 0x102, 0x103, 0x200, 0x201, 0x202, 0x300, 0x301, 0x302, 0x303, 0x400].contains c
      || decide (0x500 ≤ c ∧ c ≤ 0x510) || decide (0x600 ≤ c ∧ c ≤ 0x60E) || decide (0x700 ≤ c ∧ c ≤ 0x703) || c == 0x800)

/-- Whether the operands of a command are inside its row. -/
def Instr.wellFormed : Instr → Bool
  | .reservedMajorOpcode _ w => reservedWord w
  | .bar2Write offset data => decide (offset + data.length ≤ 2 ^ 34)
  | .patinaWrite e => decide (1 ≤ e.toNat % 2 ^ 16 ∧ e.toNat % 2 ^ 16 ≤ 10)
  | .ledgerPeriod temps => temps.length == 31 || temps.length == 59
  | .remoteChannelMsg _ channel chseq words => decide (channel < 32 ∧ chseq < 2 ^ 16) && (words.length == 2 || words.length == 4)
  | .errorReport (some r) => r.listed
  | _ => true

end Sys2Proof
end

