-- ==== Sys2Proof/Machine/CoreIsa.lean ====
section
/-! DEFINITION. The control core's arithmetic, branches, local loads and stores, sys.brk, illegal words, fetch faults,
and the local memory's own steps (03). -/

namespace Sys2Proof.Machine

/-- The number of leading zeros of a 64-bit word (Table 3.4). -/
def leadingZeros (a : BitVec 64) : Nat := if a.toNat = 0 then 64 else 63 - Nat.log2 a.toNat

/-- The number of trailing zeros, looking from bit `i` on. -/
def trailingZerosFrom : Nat → Nat → BitVec 64 → Nat
  | 0, i, _ => i
  | n + 1, i, a => if bitOf a i then i else trailingZerosFrom n (i + 1) a

/-- The number of trailing zeros of a 64-bit word, 64 for zero (Table 3.4). -/
def trailingZeros (a : BitVec 64) : Nat := trailingZerosFrom 64 0 a

/-- The number of set bits among the low `n` bits. -/
def popCount : Nat → Nat → Nat
  | 0, _ => 0
  | n + 1, v => v % 2 + popCount n (v / 2)

/-- The bytes of a word in reverse order. -/
def byteSwap (a : BitVec 64) : BitVec 64 := BitVec.ofNat 64 (natLE (bytesLE 8 a.toNat).reverse)

/-- A truth value as a register value. -/
def ofBool (b : Bool) : BitVec 64 := if b then 1 else 0

/-- The high 64 bits of an exact product. -/
def highOf (p : Int) : BitVec 64 := BitVec.ofInt 64 (p / (2 ^ 64 : Int))

/-- Signed division, rounded toward zero; by zero the quotient is zero, and -2^63 by -1 wraps (R101). -/
def divSigned (a b : BitVec 64) : BitVec 64 :=
  if b = 0 then 0 else BitVec.ofInt 64 (a.toInt.tdiv b.toInt)

/-- Signed remainder with the sign of `a`; by zero it is `a` (R101). -/
def modSigned (a b : BitVec 64) : BitVec 64 :=
  if b = 0 then a else BitVec.ofInt 64 (a.toInt.tmod b.toInt)

/-- The base register ALU (R101, Table 3.4): the result of a func code, `none` for a reserved one. -/
def aluResult (func : Nat) (a b : BitVec 64) : Option (BitVec 64) :=
  let n := b.toNat % 64
  match func with
  | 0x000 => some (a + b)
  | 0x001 => some (a - b)
  | 0x002 => some (a &&& b)
  | 0x003 => some (a ||| b)
  | 0x004 => some (a ^^^ b)
  | 0x005 => some (a <<< n)
  | 0x006 => some (a >>> n)
  | 0x007 => some (a.sshiftRight n)
  | 0x008 => some (ofBool (a.slt b))
  | 0x009 => some (ofBool (a.ult b))
  | 0x00A => some (if a.slt b then a else b)
  | 0x00B => some (if a.slt b then b else a)
  | 0x00C => some (if a.ult b then a else b)
  | 0x00D => some (if a.ult b then b else a)
  | 0x00E => some (a.rotateRight n)
  | 0x010 => some (a * b)
  | 0x011 => some (highOf (a.toInt * b.toInt))
  | 0x012 => some (highOf (a.toInt * b.toNat))
  | 0x013 => some (highOf (a.toNat * b.toInt))
  | 0x014 => some (highOf (a.toNat * b.toNat))
  | 0x018 => some (divSigned a b)
  | 0x019 => some (if b = 0 then 0 else a / b)
  | 0x01A => some (modSigned a b)
  | 0x01B => some (if b = 0 then a else a % b)
  | 0x020 => some (BitVec.ofNat 64 (leadingZeros a))
  | 0x021 => some (BitVec.ofNat 64 (trailingZeros a))
  | 0x022 => some (BitVec.ofNat 64 (popCount 64 a.toNat))
  | 0x023 => some (byteSwap a)
  | _ => none

/-- The func codes of Table 3.4 marked "rs2 zero". -/
def aluUnary (func : Nat) : Bool := func == 0x020 || func == 0x021 || func == 0x022 || func == 0x023

/-- R101: a base register ALU instruction. -/
def execBaseRegisterAlu (k : TileIx) (rd rs1 rs2 : BitVec 5) (func : BitVec 11) (s : State) :
    Host.Outcome State Fault Refusal :=
  issue k (.baseRegisterAlu k rd rs1 rs2 func) [rs1, rs2] s (fun t =>
    let a := t.reg rs1
    let b := t.reg rs2
    match aluResult func.toNat a.val b.val with
    | none => .fault 0 0x01 0
    | some v =>
      if aluUnary func.toNat && rs2 != 0 then .fault 0 0x01 0
      else .retire (t.setReg rd (resultOf v [a, b])))

/-- R100: g.addi. -/
def execGAddi (k : TileIx) (rd rs1 : BitVec 5) (imm : BitVec 16) (s : State) : Host.Outcome State Fault Refusal :=
  issue k (.gAddi k rd rs1 imm) [rs1] s (fun t =>
    let a := t.reg rs1
    .retire (t.setReg rd (resultOf (a.val + sextImm imm) [a])))

/-- R100: g.andi, g.ori, g.xori. -/
def execGLogicImm (k : TileIx) (op : LogicImm) (rd rs1 : BitVec 5) (imm : BitVec 16) (s : State) :
    Host.Outcome State Fault Refusal :=
  issue k (.gLogicImm k op rd rs1 imm) [rs1] s (fun t =>
    let a := t.reg rs1
    let b := zextImm imm
    let v := match op with | .andi => a.val &&& b | .ori => a.val ||| b | .xori => a.val ^^^ b
    .retire (t.setReg rd (resultOf v [a])))

/-- R100: g.shi; imm[7:6] the kind, imm[5:0] the amount, imm[15:8] zero. -/
def execGShi (k : TileIx) (rd rs1 : BitVec 5) (imm : BitVec 16) (s : State) : Host.Outcome State Fault Refusal :=
  issue k (.gShi k rd rs1 imm) [rs1] s (fun t =>
    let a := t.reg rs1
    let n := imm.toNat % 64
    if imm.toNat / 256 ≠ 0 then .fault 0 0x01 0
    else
      let v := match imm.toNat / 64 % 4 with
        | 0 => a.val <<< n
        | 1 => a.val >>> n
        | 2 => a.val.sshiftRight n
        | _ => a.val.rotateRight n
      .retire (t.setReg rd (resultOf v [a])))

/-- R100: g.lhi. -/
def execGLhi (k : TileIx) (rd rs1 : BitVec 5) (imm : BitVec 16) (s : State) : Host.Outcome State Fault Refusal :=
  issue k (.gLhi k rd rs1 imm) [rs1] s (fun t =>
    let a := t.reg rs1
    .retire (t.setReg rd (resultOf (a.val + (sextImm imm <<< 16)) [a])))

/-- R100: g.lti, g.ltui. -/
def execGLti (k : TileIx) (signed : Bool) (rd rs1 : BitVec 5) (imm : BitVec 16) (s : State) :
    Host.Outcome State Fault Refusal :=
  issue k (.gLti k signed rd rs1 imm) [rs1] s (fun t =>
    let a := t.reg rs1
    let v := ofBool (if signed then a.val.slt (sextImm imm) else a.val.ult (sextImm imm))
    .retire (t.setReg rd (resultOf v [a])))

/-- The condition of a branch on its two operands (R102). -/
def branchTaken (op : BrOp) (a b : BitVec 64) : Bool :=
  match op with
  | .eq => a == b
  | .ne => a != b
  | .lt => a.slt b
  | .ge => !a.slt b
  | .ltu => a.ult b
  | .geu => !a.ult b

/-- R102, R107, R120: a conditional branch compares g[25:21] with g[rs1]. -/
def execBranch (k : TileIx) (op : BrOp) (rd rs1 : BitVec 5) (imm : BitVec 16) (s : State) :
    Host.Outcome State Fault Refusal :=
  issue k (.branch k op rd rs1 imm) [rd, rs1] s (fun t =>
    let a := t.reg rd
    let b := t.reg rs1
    match lowestCause [(t.markFault [a, b], 0x07), (anyPoison [a, b], 0x0C)] with
    | some c => .fault 0 c 0
    | none =>
      if branchTaken op a.val b.val then .jump t (branchTarget t.pc imm) else .retire t)

/-- R102: j.link; rs1 zero. -/
def execJLink (k : TileIx) (rd rs1 : BitVec 5) (imm : BitVec 16) (s : State) : Host.Outcome State Fault Refusal :=
  issue k (.jLink k rd rs1 imm) [] s (fun t =>
    if rs1 ≠ 0 then .fault 0 0x01 0
    else .jump (t.setReg rd { val := t.nextPc.setWidth 64 }) (branchTarget t.pc imm))

/-- R102: j.reg; the target is g[rs1] + sext(imm) * 4, modulo 2^18. -/
def execJReg (k : TileIx) (rd rs1 : BitVec 5) (imm : BitVec 16) (s : State) : Host.Outcome State Fault Refusal :=
  issue k (.jReg k rd rs1 imm) [rs1] s (fun t =>
    let a := t.reg rs1
    let target := a.val + sextImm imm * 4
    match lowestCause [(target.toNat % 4 != 0, 0x03), (t.markFault [a], 0x07), (anyPoison [a], 0x0C)] with
    | some c => .fault 0 c (if c = 0x03 then target else 0)
    | none => .jump (t.setReg rd { val := t.nextPc.setWidth 64 }) (target.setWidth 18))

/-- Bytes of a load. -/
def loadSize : LdOp → Nat
  | .ld64 => 8 | .ld32s => 4 | .ld32u => 4 | .ld16s => 2 | .ld16u => 2 | .ld8s => 1 | .ld8u => 1

/-- Whether a load sign-extends. -/
def loadSigned : LdOp → Bool
  | .ld32s => true | .ld16s => true | .ld8s => true | _ => false

/-- Bytes of a store. -/
def storeSize : StOp → Nat
  | .st64 => 8 | .st32 => 4 | .st16 => 2 | .st8 => 1

/-- The value of `n` bytes, extended. -/
def extendValue (signed : Bool) (n v : Nat) : BitVec 64 :=
  if signed then BitVec.ofInt 64 (signedOf (8 * n) v) else BitVec.ofNat 64 v

/-- Whether a queued matrix or vector instruction, issued earlier, may touch the 128-byte line of an offset (R94). The
lines of a queued access are taken as its largest extent (log entry 10). -/
def mxExtent : MxOp → List (Nat × Nat)
  | .lda _ _ mv _ a0 a1 => (a0.toNat, a0.toNat + 4424) :: (if mv then [(a1.toNat, a1.toNat + 4424)] else [])
  | .ldb _ _ _ a => [(a.toNat, a.toNat + 4168)]
  | .ldat _ _ _ _ _ => [(0, memEnd)]
  | .mma _ _ _ _ => []
  | .zero _ => []
  | .sta _ _ a => [(a.toNat, a.toNat + 256)]

/-- The extent of a queued vector instruction's memory access. -/
def vxExtent (e : VxEntry) : List (Nat × Nat) :=
  match e.kind with
  | .ld | .st => [(e.g1.val.toNat, e.g1.val.toNat + 64)]
  | .lds | .sts | .ldx | .stx => [(0, memEnd)]
  | .ldw | .stn => [(e.g1.val.toNat, e.g1.val.toNat + 64 * 4)]
  | .dequant _ => [(e.g1.val.toNat, e.g1.val.toNat + 32), (e.g2.val.toNat, e.g2.val.toNat + 1)]
  | .quant _ _ _ => [(e.g1.val.toNat, e.g1.val.toNat + 32), (e.g2.val.toNat, e.g2.val.toNat + 2)]
  | _ => []

/-- Whether a byte range and an extent touch one 128-byte line. -/
def linesMeet (lo n : Nat) (e : Nat × Nat) : Bool :=
  decide (0 < n) && decide (lo / 128 ≤ (e.2 - 1) / 128) && decide (e.1 / 128 ≤ (lo + n - 1) / 128)

/-- R94: whether an access to `n` bytes at an offset must wait for an access issued before place `seq` of the issue
order. -/
def Tile.mustWait (t : Tile) (seq lo n : Nat) : Bool :=
  t.mxQueue.any (fun e => decide (e.seq < seq) && (mxExtent e.op).any (linesMeet lo n))
    || t.vxQueue.any (fun e => decide (e.seq < seq) && (vxExtent e).any (linesMeet lo n))

/-- R100, R106, R116, R119: a local load. Its faults and those of a store have unit 0 (log entry 147). -/
def execLd (k : TileIx) (op : LdOp) (rd rs1 : BitVec 5) (imm : BitVec 16) (s : State) :
    Host.Outcome State Fault Refusal :=
  issue k (.ld k op rd rs1 imm) [rs1] s (fun t =>
    let a := t.reg rs1
    let addr := localAddr a imm
    match t.localCause a addr (loadSize op) false with
    | some c => .fault 0 c addr
    | none =>
      if t.mustWait t.seq addr.toNat (loadSize op) then .stall
      else
        let off := addr.toNat
        let v := t.bytesAt off (loadSize op)
        let t := s.touch k t (off / 8)
        .retire (t.setReg rd { val := extendValue (loadSigned op) (loadSize op) v.1
                               mark := decide (t.protEnd ≤ off)
                               poison := v.2 }))

/-- R100, R114 to R116: a local store. -/
def execSt (k : TileIx) (op : StOp) (rd rs1 : BitVec 5) (imm : BitVec 16) (s : State) :
    Host.Outcome State Fault Refusal :=
  issue k (.st k op rd rs1 imm) [rd, rs1] s (fun t =>
    let a := t.reg rs1
    let d := t.reg rd
    let addr := localAddr a imm
    match t.localCause a addr (storeSize op) true with
    | some c => .fault 0 c addr
    | none =>
      if t.mustWait t.seq addr.toNat (storeSize op) then .stall
      else
        let off := addr.toNat
        let w : PWord := { val := d.val <<< (8 * (off % 8)), poison := d.poison }
        .retire (t.putBytes (off / 8) ((2 ^ (storeSize op) - 1) * 2 ^ (off % 8)) w))

/-- R100: sys.brk parks the core in SERVICE mode and is ILLEGAL_INSTR in PROGRAM mode. -/
def execSysBrk (k : TileIx) (rd rs1 rs2 : BitVec 5) (func : BitVec 11) (s : State) : Host.Outcome State Fault Refusal :=
  issue k (.sysBrk k rd rs1 rs2 func) [] s (fun t =>
    if rd ≠ 0 ∨ rs1 ≠ 0 ∨ rs2 ≠ 0 ∨ func ≠ 0 ∨ !t.service then .fault 0 0x01 0
    else .retire { t with parked := true })

/-- R99: an issued word with a reserved major opcode, or a reserved sub-op of a group, raises ILLEGAL_INSTR. -/
def execReservedMajorOpcode (k : TileIx) (w : BitVec 32) (s : State) : Host.Outcome State Fault Refusal :=
  if !reservedWord w then turnedAway s else issue k (.reservedMajorOpcode k w) [] s (fun _ => .fault 0 0x01 0)

/-- R96, R120: a fetch that faults, before any instruction decodes. -/
def execFetchFault (k : TileIx) (s : State) : Host.Outcome State Fault Refusal :=
  if ((s.tile k).fetchCause).isNone then turnedAway s
  else issue k (tileInstr k false (s.tile k).insnWord) [] s (fun _ => .stall)

/-- R127, Table 3.11: FC_TILE_CAUSE.valid cleared: count is cleared and the record re-armed; the core stays as it is. -/
def Tile.clearCause (t : Tile) : Tile := { t with fcValid := false, fcCount := 0 }

/-- FC_TILE_CAUSE_CLEAR: a write of one to FC_TILE_CAUSE.valid through the tile control register window (R48, R129). -/
def execFcTileCauseClear (k : TileIx) (s : State) : Host.Outcome State Fault Refusal :=
  if s.present k then .next (s.onTile k Tile.clearCause) else turnedAway s

/-- R112: the corrected word is written back, unless a write came first. -/
def execCeWriteback (k : TileIx) (w : Nat) (s : State) : Host.Outcome State Fault Refusal :=
  engine k s (fun t =>
    if t.ceFound.contains w then
      some { t with
        ceFound := t.ceFound.filter (· != w)
        mem := modD {} t.mem w (fun m => { m with ecc := .good }) }
    else none)

/-- R117: one line is scrubbed, as a read of its words corrects and poisons. -/
def execMemScrub (k : TileIx) (s : State) : Host.Outcome State Fault Refusal :=
  engine k s (fun t =>
    let t' := s.touchAll k t (rangeFrom (16 * t.scrubLine) 16)
    some { t' with scrubLine := (t.scrubLine + 1) % 1536 })

end Sys2Proof.Machine
end

