-- ==== Sys2Proof/Machine/Matrix.lean ====
section
/-! DEFINITION. The matrix unit: issue of its instructions, the loader, the array, plumb checks (04). -/

namespace Sys2Proof.Machine

/-! ## Issue (R139, R140) -/

/-- Entries that wait in the unit queue: those the array has not started (R140, Table 4.9). -/
def Tile.mxQueued (t : Tile) : Nat := (t.mxQueue.filter (fun e => !e.running)).length

/-- An instruction handed to the matrix unit: a ninth waits at issue. -/
def Tile.enqueueMx (t : Tile) (op : MxOp) (bad : Bool) : Tile :=
  { t with mxQueue := t.mxQueue ++ [{ op := op, pc := t.pc, seq := t.seq, running := false, index := 0, bad := bad }]
           seq := t.seq + 1 }

/-- The issue of a matrix instruction: a field its definition forbids, and a place in the queue (R99, R139). A poisoned
address is the unit's to find (R161). -/
def mxIssue (k : TileIx) (i : Instr) (reads : List (BitVec 5)) (s : State) (bad : Bool) (op : Tile → Option MxOp) :
    Host.Outcome State Fault Refusal :=
  issue k i reads s (fun t =>
    if bad then .fault 0 0x01 0
    else match op t with
      | none => .fault 0 0x01 0
      | some o =>
        if 8 ≤ t.mxQueued then .stall
        else .retire (t.enqueueMx o (anyPoison (reads.map t.reg))))

/-- The format of a load: a matrix operand (R139). -/
def loadFormat (c : BitVec 4) : Option Format :=
  (Format.ofCode c).bind (fun f => if f.isMatrix then some f else none)

/-- The target of mx.sta (R139). -/
def staFormat (c : BitVec 4) : Option Format :=
  match Format.ofCode c with
  | some .fp32 => some .fp32
  | some .bf16 => some .bf16
  | some .fp16 => some .fp16
  | some .e4m3 => some .e4m3
  | some .e5m2 => some .e5m2
  | _ => none

/-- Bit `i` of a 5-bit field. -/
def b5 (v : BitVec 5) (i : Nat) : Bool := v.toNat / 2 ^ i % 2 == 1

/-- mx.lda, mx.lda.v (Table 4.4). -/
def execMxLda (k : TileIx) (f : VFields) (s : State) : Host.Outcome State Fault Refusal :=
  let mv := f.mask.toNat % 2 == 1
  let bad := f.mask.toNat / 2 != 0 || f.vd.toNat / 8 != 0 || (mv && f.vd.toNat / 2 != 0) || (!mv && f.vs2 != 0)
  mxIssue k (.mxLda k f) (if mv then [f.vs1, f.vs2] else [f.vs1]) s bad (fun t =>
    (loadFormat f.fmt).map (fun fmt =>
      .lda (b5 f.vd 0) (f.vd.toNat / 2 % 4) mv fmt (t.reg f.vs1).val (t.reg f.vs2).val))

/-- mx.ldb, mx.ldb.v (Table 4.4). -/
def execMxLdb (k : TileIx) (f : VFields) (s : State) : Host.Outcome State Fault Refusal :=
  let bad := f.mask.toNat / 2 != 0 || f.vd.toNat / 2 != 0 || f.vs2 != 0
  mxIssue k (.mxLdb k f) [f.vs1] s bad (fun t =>
    (loadFormat f.fmt).map (fun fmt => .ldb (b5 f.vd 0) (f.mask.toNat % 2 == 1) fmt (t.reg f.vs1).val))

/-- mx.ldat in its four forms (Table 4.4, R153). -/
def execMxLdat (k : TileIx) (f : VFields) (s : State) : Host.Outcome State Fault Refusal :=
  let bad := f.mask.toNat / 4 != 0 || f.vd.toNat / 2 != 0 || f.vs2 != 0
  mxIssue k (.mxLdat k f) [f.vs1] s bad (fun t =>
    (loadFormat f.fmt).map (fun fmt =>
      .ldat (b5 f.vd 0) (f.mask.toNat % 2 == 1) (f.mask.toNat / 2 % 2 == 1) fmt (t.reg f.vs1).val))

/-- The fields of mx.mma and mx.mmv that must be zero (Table 4.4). -/
def badCompute (f : VFields) : Bool :=
  f.vd.toNat / 4 != 0 || f.vs1.toNat / 2 != 0 || f.vs2.toNat / 2 != 0 || f.fmt != 0 || f.mask != 0

/-- mx.mma (R130). -/
def execMxMma (k : TileIx) (f : VFields) (s : State) : Host.Outcome State Fault Refusal :=
  mxIssue k (.mxMma k f) [] s (badCompute f) (fun _ => some (.mma false (f.vd.toNat % 4) (b5 f.vs1 0) (b5 f.vs2 0)))

/-- mx.mmv (R130). -/
def execMxMmv (k : TileIx) (f : VFields) (s : State) : Host.Outcome State Fault Refusal :=
  mxIssue k (.mxMmv k f) [] s (badCompute f) (fun _ => some (.mma true (f.vd.toNat % 4) (b5 f.vs1 0) (b5 f.vs2 0)))

/-- mx.zero (R143). -/
def execMxZero (k : TileIx) (f : VFields) (s : State) : Host.Outcome State Fault Refusal :=
  let bad := f.vd.toNat / 4 != 0 || f.vs1 != 0 || f.vs2 != 0 || f.fmt != 0 || f.mask != 0
  mxIssue k (.mxZero k f) [] s bad (fun _ => some (.zero (f.vd.toNat % 4)))

/-- mx.sta (R144). -/
def execMxSta (k : TileIx) (f : VFields) (s : State) : Host.Outcome State Fault Refusal :=
  let bad := f.vd.toNat / 4 != 0 || f.vs2 != 0 || f.mask != 0
  mxIssue k (.mxSta k f) [f.vs1] s bad (fun t =>
    (staFormat f.fmt).map (fun fmt => .sta (f.vd.toNat % 4) fmt (t.reg f.vs1).val))

/-- mx.wait (R142): the core waits at it until every earlier matrix instruction has completed. -/
def execMxWait (k : TileIx) (f : VFields) (s : State) : Host.Outcome State Fault Refusal :=
  issue k (.mxWait k f) [] s (fun t =>
    if f.vd != 0 || f.vs1 != 0 || f.vs2 != 0 || f.fmt != 0 || f.mask != 0 then .fault 0 0x01 0
    else if t.mxQueue.isEmpty then .retire t else .stall)

/-! ## Weight blocks and B images (R133 to R136) -/

/-- A block's header as the loader takes it (Table 4.3). -/
structure BlockHead where
  s : Nat
  group : Nat
  rowsValid : Nat
  transposable : Bool
  deriving DecidableEq, Repr

/-- R146: whether a format supports the sparse factor of a mode code. -/
def modeSupported (f : Format) (mode : Nat) : Bool :=
  match mode with
  | 0 => true
  | 1 => f != .fp32
  | 2 => f == .e2m1 || f == .e4m3 || f == .e5m2
  | _ => false

/-- R134: a weight block header, `none` where mx.lda raises MX_HEADER. -/
def parseHead (h : BitVec 64) (fmt : Format) : Option BlockHead :=
  let rows := field h 16 7
  let sc := field h 8 2
  let mode := field h 4 2
  if field h 23 41 != 0 || field h 10 6 != 0 || field h 7 1 != 0 then none
  else if Format.ofCode (BitVec.ofNat 4 (field h 0 4)) != some fmt then none
  else if rows == 0 || decide (32 < rows) then none
  else if sc == 3 || (fmt.isWide && sc != 0) then none
  else if !modeSupported fmt mode then none
  else some { s := 2 ^ mode, group := if sc == 0 then 0 else if sc == 1 then 32 else 16
              rowsValid := rows, transposable := bitOf h 6 }

/-- R160: a block whose header is poisoned is taken as dense with no scale. -/
def poisonedHead : BlockHead := { s := 1, group := 0, rowsValid := 32, transposable := false }

/-- Bytes of the scale section (Table 4.2). -/
def BlockHead.scaleBytes (h : BlockHead) : Nat := if h.group = 0 then 0 else 32 * (32 / h.group)

/-- Bytes of the metadata section (Table 4.2). -/
def BlockHead.metaBytes (h : BlockHead) : Nat := if h.s = 1 then 0 else 256

/-- Bytes of a block (Table 4.2). -/
def BlockHead.size (h : BlockHead) (fmt : Format) : Nat :=
  8 + h.scaleBytes + h.metaBytes + 128 * fmt.width

/-- A packed array of `n` elements of `w` bits from a byte offset (R165). -/
def Tile.packed (t : Tile) (off w n : Nat) : List Nat :=
  let v := (t.bytesAt off ((n * w + 7) / 8)).1
  (List.range n).map (fun j => v / 2 ^ (j * w) % 2 ^ w)

/-- Row `r` of a block (R133, R136, R160): the row, and whether a scale or metadata word read for it is poisoned. -/
def Tile.blockRow (t : Tile) (base : Nat) (h : BlockHead) (fmt : Format) (r : Nat) : ARow × Bool :=
  let nsc := if h.group = 0 then 0 else 32 / h.group
  let sc := (List.range nsc).map (fun i => t.byteAt (base + 8 + r * nsc + i))
  let mo := base + 8 + h.scaleBytes + 8 * r
  let mw := if h.s = 1 then ({} : PWord) else t.word (mo / 8)
  let eo := base + 8 + h.scaleBytes + h.metaBytes + 4 * fmt.width * r
  let bytes := 4 * fmt.width
  ({ valid := decide (r < h.rowsValid)
     elems := t.packed eo fmt.width 32
     scales := sc.map Prod.fst
     idx := if h.s = 1 then [] else (List.range 32).map (fun j => field mw.val (2 * j) 2)
     poison := (t.bytesAt eo bytes).2 },
   sc.any Prod.snd || mw.poison)

/-- The word indices a block load touches (header, scales, metadata and elements of its rows). -/
def blockWords (base : Nat) (h : BlockHead) (fmt : Format) (r0 n : Nat) : List Nat :=
  let nsc := if h.group = 0 then 0 else 32 / h.group
  [base / 8] ++ wordsTouched (base + 8 + r0 * nsc) (n * nsc)
    ++ (if h.s = 1 then [] else wordsTouched (base + 8 + h.scaleBytes + 8 * r0) (8 * n))
    ++ wordsTouched (base + 8 + h.scaleBytes + h.metaBytes + 4 * fmt.width * r0) (4 * fmt.width * n)

/-- What a load does: a fault of the unit (cause and address), or the tile with the buffer loaded. -/
inductive MxRun where
  | fault (cause : Nat) (addr : BitVec 64)
  | done (t : Tile)

/-- The address checks of a block or image (R133, R161). -/
def baseCause (a : BitVec 64) (n align : Nat) : Option Nat :=
  lowestCause [(a.toNat % align != 0, 0x03), (decide (memEnd < a.toNat + n), 0x04)]

/-- The addresses an operation names, each with the bytes read or written there first and its alignment. -/
def MxOp.addresses (o : MxOp) : List (BitVec 64 × Nat × Nat) :=
  match o with
  | .lda _ _ mv _ a0 a1 => if mv then [(a0, 8, 8), (a1, 8, 8)] else [(a0, 8, 8)]
  | .ldb _ _ _ a => [(a, 8, 8)]
  | .ldat _ _ _ _ a => [(a, 16, 8)]
  | .sta _ fmt a => [(a, 8 * fmt.width, fmt.width / 8)]
  | _ => []

/-- The fault of an operation with a poisoned address: its consumption, unless a lower cause applies (R127, R161). -/
def MxOp.poisonFault (o : MxOp) : MxRun :=
  match o.addresses.findSome? (fun x => (baseCause x.1 x.2.1 x.2.2).map (fun c => (c, x.1))) with
  | some (c, a) => .fault c a
  | none => .fault 0x0C ((o.addresses.map Prod.fst).headD 0)

/-- mx.lda and mx.lda.v at the loader (R133, R134, R152, R160). -/
def runLda (s : State) (k : Nat) (t : Tile) (buf : Bool) (quarter : Nat) (mv : Bool) (fmt : Format) (a0 a1 : BitVec 64) :
    MxRun :=
  let bases := if mv then [a0, a1] else [a0]
  match bases.findSome? (fun a => (baseCause a 8 8).map (fun c => (c, a))) with
  | some (c, a) => .fault c a
  | none =>
    let words := bases.map (fun a => t.word (a.toNat / 8))
    let anyBad := words.any (·.poison)
    let heads := words.map (fun w => if anyBad then some poisonedHead else parseHead w.val fmt)
    if heads.any Option.isNone then .fault 0x20 a0
    else
      let hs := heads.map (fun h => h.getD poisonedHead)
      match (bases.zip hs).findSome? (fun ah => (baseCause ah.1 (ah.2.size fmt) 8).map (fun c => (c, ah.1))) with
      | some (c, a) => .fault c a
      | none =>
        let h0 := hs.headD poisonedHead
        if hs.any (fun h => h.s != h0.s || h.group != h0.group) then .fault 0x24 a1
        else
          let r0 := if mv then 0 else 8 * quarter
          let n := if mv then 32 else 8
          let parts := (bases.zip hs).map (fun ah =>
            (List.range n).map (fun i => t.blockRow ah.1.toNat ah.2 fmt (r0 + i)))
          let rows := parts.flatten
          let touched := ((bases.zip hs).map (fun ah => blockWords ah.1.toNat ah.2 fmt r0 n)).flatten
          let b : ABuf :=
            { mv := mv, fmt := fmt, s := h0.s, group := h0.group, rows := rows.map Prod.fst
              poison := anyBad || rows.any Prod.snd }
          let t := s.touchAll k t touched
          .done { t with aBufs := putD none t.aBufs (if buf then 1 else 0) (some b) }

/-- A B image header (R135): span, k_valid, cols_valid, scale group; `none` for MX_HEADER. -/
def parseBHead (h : BitVec 64) (mv : Bool) (fmt : Format) : Option (Nat × Nat × Nat × Nat) :=
  let cols := field h 24 4
  let kv := field h 16 8
  let sc := field h 8 2
  let sp := field h 4 2
  let span := 32 * 2 ^ sp
  if field h 28 36 != 0 || field h 10 6 != 0 || field h 6 2 != 0 || sc == 3 || sp == 3 then none
  else if Format.ofCode (BitVec.ofNat 4 (field h 0 4)) != some fmt then none
  else if cols == 0 || decide ((if mv then 1 else 8) < cols) then none
  else if decide (span < kv) then none
  else if fmt.isWide && sc != 0 then none
  else some (span, kv, cols, if sc == 0 then 0 else if sc == 1 then 32 else 16)

/-- mx.ldb at the loader (R135, R160). -/
def runLdb (s : State) (k : Nat) (t : Tile) (buf : Bool) (mv : Bool) (fmt : Format) (a : BitVec 64) : MxRun :=
  match baseCause a 8 8 with
  | some c => .fault c a
  | none =>
    let hw := t.word (a.toNat / 8)
    let head := if hw.poison then some (32, 32, (if mv then 1 else 8), 0) else parseBHead hw.val mv fmt
    match head with
    | none => .fault 0x20 a
    | some (span, kv, cols, group) =>
      let nsc := if group = 0 then 0 else span / group
      let scBytes := (cols * nsc + 7) / 8 * 8
      let colBytes := span * fmt.width / 8
      let size := 8 + scBytes + cols * colBytes
      match baseCause a size 8 with
      | some c => .fault c a
      | none =>
        let base := a.toNat
        let scaleBad := (t.bytesAt (base + 8) (cols * nsc)).2
        let colOf := fun j =>
          ({ elems := t.packed (base + 8 + scBytes + j * colBytes) fmt.width span
             scales := (List.range nsc).map (fun i => (t.byteAt (base + 8 + j * nsc + i)).1)
             poison := (t.bytesAt (base + 8 + scBytes + j * colBytes) colBytes).2 } : BCol)
        let b : BBuf :=
          { mv := mv, fmt := fmt, span := span, kValid := kv, group := group
            cols := (List.range cols).map colOf, poison := hw.poison || scaleBad }
        let t := s.touchAll k t (wordsTouched base size)
        .done { t with bBufs := putD none t.bBufs (if buf then 1 else 0) (some b) }

/-! ## Transposed loads (R153, R154) -/

/-- The transpose descriptor. -/
structure TDesc where
  base : Nat
  pitch : Nat
  perRow : Nat
  r0 : Nat
  k0 : Nat

/-- An element of W by its row and logical column within one block: kept or pruned (R150, R154). -/
def keptAt (row : ARow) (s col : Nat) : Option Nat :=
  if !row.valid then none
  else if s = 1 then row.elems[col]?
  else
    let g := col / 4
    let j := (List.range 2).find? (fun j => row.idx.getD (2 * g + j) 0 == col % 4)
    j.bind (fun j => row.elems[2 * g + j]?)

/-- The kept positions of one group of the transpose, two of them (R154): positions, elements, and whether any was
dropped. -/
def pickTwo (col : List (Option Nat)) : List (Nat × Nat) × Bool :=
  let kept := (List.range 4).filterMap (fun i => (col.getD i none).map (fun v => (i, v)))
  let two := kept.take 2
  let free := (List.range 4).filter (fun i => !two.any (fun p => p.1 == i))
  (two ++ (free.take (2 - two.length)).map (fun i => (i, 0)), decide (2 < kept.length))

/-- mx.ldat at the loader (R153, R154, R160). A block base that is no multiple of 8 is a misaligned address of the unit's
own (R133, R161); a pitch of zero or no multiple of 8 raises MX_TDESC (log entry 149). -/
def runLdat (s : State) (k : Nat) (t : Tile) (buf mv sparse : Bool) (fmt : Format) (a : BitVec 64) : MxRun :=
  match baseCause a 16 8 with
  | some c => .fault c a
  | none =>
    let w0 := t.word (a.toNat / 8)
    let w1 := t.word (a.toNat / 8 + 1)
    if w0.poison || w1.poison then .fault 0x0C a
    else if fmt != .bf16 && fmt != .fp16 then .fault 0x20 a
    else
      let d : TDesc :=
        { base := field w0.val 0 18, pitch := field w0.val 32 16, perRow := field w0.val 48 16
          r0 := field w1.val 0 32, k0 := field w1.val 32 32 }
      let n := if mv then 64 else 8
      let span := if sparse then 64 else 32
      let fallback : BlockHead := { s := if sparse then 2 else 1, group := 0, rowsValid := 32, transposable := true }
      let headAt := fun base =>
        let w := t.word (base / 8)
        if w.poison then some fallback else parseHead w.val fmt
      let width :=
        if sparse then 64
        else match headAt d.base with | some h => 32 * h.s | none => 32
      let j0 := d.r0 / width
      let nj := (d.r0 + n - 1) / width - j0 + 1
      let i0 := d.k0 / 32
      let ni := span / 32
      let blocks := ((List.range ni).map (fun i => (List.range nj).map (fun j =>
        (i, j, d.base + ((i0 + i) * d.perRow + j0 + j) * d.pitch)))).flatten
      let outside := blocks.any (fun b =>
        decide (memEnd < b.2.2 + 8) ||
          (match headAt b.2.2 with | some h => decide (memEnd < b.2.2 + h.size fmt) | none => false))
      let badDesc := field w0.val 18 14 != 0 || d.pitch == 0 || d.pitch % 8 != 0 || d.r0 % 8 != 0 || d.k0 % 32 != 0
        || outside
      let badHead := blocks.any (fun b => decide (b.2.2 + 8 ≤ memEnd) && (headAt b.2.2).isNone)
      let notTrans := sparse && blocks.any (fun b =>
        match headAt b.2.2 with | some h => h.s != 2 || !h.transposable | none => false)
      match lowestCause [(d.base % 8 != 0, 0x03), (badHead && !badDesc, 0x20), (notTrans && !badDesc, 0x25),
          (badDesc, 0x26)] with
      | some c => .fault c (if c = 0x03 then BitVec.ofNat 64 d.base else a)
      | none =>
        let loaded := blocks.map (fun b =>
          let h := (headAt b.2.2).getD fallback
          (b.1, b.2.1, h, (List.range 32).map (fun r => t.blockRow b.2.2 h fmt r), b.2.2))
        let elemAt := fun (kk r : Nat) =>
          let col := d.r0 + r
          match loaded.find? (fun l => l.1 == kk / 32 && l.2.1 == col / width - j0) with
          | none => none
          | some l => ((l.2.2.2.1)[kk % 32]?).bind (fun row => keptAt row.1 l.2.2.1.s (col % width))
        let poison := loaded.any (fun l =>
          (t.word (l.2.2.2.2 / 8)).poison || l.2.2.2.1.any (fun r => r.2 || r.1.poison))
        let groups := fun r => (List.range 16).map (fun g =>
          pickTwo ((List.range 4).map (fun i => elemAt (4 * g + i) r)))
        let rowOf := fun r =>
          if sparse then
            let ps := (groups r).map Prod.fst |>.flatten
            ({ valid := true, elems := ps.map Prod.snd, scales := [], idx := ps.map Prod.fst, poison := false } : ARow)
          else
            { valid := true, elems := (List.range 32).map (fun kk => (elemAt kk r).getD 0), scales := [], idx := []
              poison := false }
        let dropped := if sparse then
            ((List.range n).map (fun r => ((groups r).filter Prod.snd).length)).sum else 0
        let b : ABuf := { mv := mv, fmt := fmt, s := if sparse then 2 else 1, group := 0
                          rows := (List.range n).map rowOf, poison := poison }
        let touched := [a.toNat / 8, a.toNat / 8 + 1]
          ++ (loaded.map (fun l => blockWords l.2.2.2.2 l.2.2.1 fmt 0 32)).flatten
        let t := (s.touchAll k t touched).count 4 dropped
        .done { t with aBufs := putD none t.aBufs (if buf then 1 else 0) (some b) }

/-! ## mx.sta (R144) -/

/-- Number of an entry of a bank in the accumulator storage. -/
def bankKey (bank e : Nat) : Nat := 64 * bank + e

/-- An accumulator entry. -/
def Tile.acc (t : Tile) (bank e : Nat) : AccEntry := getD {} t.banks (bankKey bank e)

/-- The conversion of mx.sta by Table 5.6 (R144, R176): MX_FLAGS.flush is set where a tiny result is flushed, not where
it is kept as a subnormal (Table 4.8, R183). -/
def staConvert (fmt : Format) (e4m3Nan : Bool) (bits : Nat) : Nat × Flags :=
  let flush := fmt == .bf16 || fmt == .fp32
  let (v, f) := toFloat fmt .rne flush e4m3Nan (decodeFloat .fp32 bits)
  (v, { f with underflow := f.underflow && flush })

/-- mx.sta at the loader: 64 entries packed in entry order; a write into the protected area is discarded and
recorded. -/
def runSta (s : State) (k : Nat) (t : Tile) (bank : Nat) (fmt : Format) (a : BitVec 64) : MxRun :=
  let eb := fmt.width / 8
  match baseCause a (64 * eb) eb with
  | some c => .fault c a
  | none =>
    let es := (List.range 64).map (fun e => t.acc bank e)
    let cs := es.map (fun e => (staConvert fmt t.satMode e.bits.toNat, e.poison))
    let flags := (cs.filter (fun c => !c.2)).foldl (fun acc c => acc.or c.1.2) Flags.none
    let bytes := (cs.map (fun c => (List.range eb).map (fun j => (c.1.1 / 2 ^ (8 * j) % 256, c.2)))).flatten
    if t.protects a.toNat (64 * eb) then .done (t.raise (s.tileReport k 0x0004 0x0600 clsNote a 0))
    else .done ((t.putByteList a.toNat bytes).raiseMx flags)

/-! ## The loader (R140, R141) -/

/-- Whether an operation is the loader's. -/
def MxOp.isLoad : MxOp → Bool
  | .mma _ _ _ _ => false
  | .zero _ => false
  | _ => true

/-- Whether an operation reads an A or B buffer. -/
def MxOp.readsBuf (o : MxOp) (isA buf : Bool) : Bool :=
  match o with
  | .mma _ _ x y => if isA then x == buf else y == buf
  | _ => false

/-- Whether an operation loads an A or B buffer. -/
def MxOp.loadsBuf (o : MxOp) (isA buf : Bool) : Bool :=
  match o with
  | .lda b _ _ _ _ _ => isA && b == buf
  | .ldat b _ _ _ _ => isA && b == buf
  | .ldb b _ _ _ => !isA && b == buf
  | _ => false

/-- Whether an operation updates a bank. -/
def MxOp.updates (o : MxOp) (bank : Nat) : Bool :=
  match o with
  | .mma _ b _ _ => b == bank
  | .zero b => b == bank
  | _ => false

/-- The queue before and from the first entry that satisfies a test. -/
def splitQueue (p : MxEntry → Bool) (q : List MxEntry) : List MxEntry × List MxEntry :=
  (q.takeWhile (fun e => !p e), q.dropWhile (fun e => !p e))

/-- The interlocks of a load or mx.sta against the entries issued before it, and against earlier vector accesses to its
lines (R94, R140). -/
def Tile.loadReady (t : Tile) (before : List MxEntry) (e : MxEntry) : Bool :=
  let bufOk := match e.op with
    | .lda b _ _ _ _ _ => !before.any (fun x => x.op.readsBuf true b)
    | .ldat b _ _ _ _ => !before.any (fun x => x.op.readsBuf true b)
    | .ldb b _ _ _ => !before.any (fun x => x.op.readsBuf false b)
    | .sta bank _ _ => !before.any (fun x => x.op.updates bank)
    | _ => false
  bufOk && !t.vxQueue.any (fun v => decide (v.seq < e.seq) &&
    (mxExtent e.op).any (fun x => (vxExtent v).any (fun y => linesMeet x.1 (x.2 - x.1) y)))

/-- A fault of the matrix unit (R161): the entries behind the faulting one are discarded, an array operation that was issued after
it and already runs among them (log entry 161), and the core parks. -/
def State.mxFault (s : State) (k : Nat) (t : Tile) (before : List MxEntry) (e : MxEntry) (cause : Nat)
    (addr : BitVec 64) : Tile :=
  s.tileFault k { t with mxQueue := before } 4 cause e.pc addr

/-- MX_LOAD_RUN: the loader runs the load or mx.sta at the head of its order. -/
def execMxLoadRun (k : TileIx) (s : State) : Host.Outcome State Fault Refusal :=
  engine k s (fun t =>
    let (before, rest) := splitQueue (fun e => e.op.isLoad) t.mxQueue
    match rest with
    | [] => none
    | e :: after =>
      if !t.loadReady before e then none
      else
        let r := if e.bad then e.op.poisonFault else match e.op with
          | .lda b q mv fmt a0 a1 => runLda s k t b q mv fmt a0 a1
          | .ldb b mv fmt a => runLdb s k t b mv fmt a
          | .ldat b mv sp fmt a => runLdat s k t b mv sp fmt a
          | .sta bank fmt a => runSta s k t bank fmt a
          | _ => .done t
        match r with
        | .fault c a => some (s.mxFault k t before e c a)
        | .done t' => some { t' with mxQueue := before ++ after })

/-! ## The array (R142, R143) -/

/-- R132: whether two formats pair. -/
def formatsPair (a b : Format) : Bool :=
  (a.isNarrowFloat && b.isNarrowFloat) || (a.isNarrowInt && b.isNarrowInt) || (a.isWide && a == b)

/-- The checks of a compute operation at its start, in rising cause order (R132, R143). -/
def Tile.computeCause (t : Tile) (mv abuf bbuf : Bool) : Option Nat :=
  match getD none t.aBufs (if abuf then 1 else 0), getD none t.bBufs (if bbuf then 1 else 0) with
  | some a, some b =>
    lowestCause [(a.mv != mv || b.mv != mv || b.span != 32 * a.s, 0x22), (!formatsPair a.fmt b.fmt, 0x23)]
  | _, _ => some 0x21

/-- MX_COMPUTE_START: the array starts its next operation. -/
def execMxComputeStart (k : TileIx) (s : State) : Host.Outcome State Fault Refusal :=
  engine k s (fun t =>
    if t.mxQueue.any (·.running) then none
    else
      let (before, rest) := splitQueue (fun e => !e.op.isLoad) t.mxQueue
      match rest with
      | [] => none
      | e :: after =>
        match e.op with
        | .mma mv _ x y =>
          if before.any (fun b => b.op.loadsBuf true x || b.op.loadsBuf false y) then none
          else match t.computeCause mv x y with
            | some c => some (s.mxFault k t before e c 0)
            | none =>
              some { t with
                mxQueue := before ++ { e with running := true, index := t.opIndex.toNat } :: after
                opIndex := t.opIndex + 1 }
        | _ => some { t with mxQueue := before ++ { e with running := true } :: after })

/-! ## Exact arithmetic (R145 to R148) -/

/-- The value of an element, with the offset of a scaled integer where its image has scales (R169). -/
def elemVal (f : Format) (group : Nat) (bits : Nat) : Val :=
  if group = 0 then decodeElem f bits else mxElem f bits

/-- R147: FP32 and BF16 subnormals are taken as zero on the matrix path. -/
def wideInput (f : Format) (bits : Nat) : Val :=
  match decodeFloat f bits with
  | .fin s m e => if f != .fp16 && m < 2 ^ f.params.m then .fin s 0 0 else .fin s m e
  | v => v

/-- The logical K position of stored element `j` (R150). -/
def logicalK (s : Nat) (idx : List Nat) (j : Nat) : Nat :=
  match s with
  | 1 => j
  | 2 => 4 * (j / 2) + idx.getD j 0
  | _ => 4 * j + idx.getD j 0

/-- A B element at a logical row: zero at and beyond k_valid (R136). -/
def BBuf.elem (b : BBuf) (c : BCol) (kk : Nat) : Nat := if b.kValid ≤ kk then 0 else c.elems.getD kk 0

/-- The B scale byte at a logical row; a block wholly beyond k_valid is ignored (R136). -/
def BBuf.scale (b : BBuf) (c : BCol) (kk : Nat) : Nat :=
  if b.group = 0 then 0x7F
  else if b.kValid ≤ kk / b.group * b.group then 0x7F
  else c.scales.getD (kk / b.group) 0x7F

/-- The A scale byte of stored element `j`. -/
def ABuf.scale (a : ABuf) (r : ARow) (j : Nat) : Nat :=
  if a.group = 0 then 0x7F else r.scales.getD (j / a.group) 0x7F

/-- A rounding of the matrix path to FP32: nearest even, tiny results flushed (R148). -/
def round32 (v : Val) : Nat × Flags :=
  match v with
  | .nan _ => (canonicalNan .fp32, Flags.none)
  | .inf s => (signBit .fp32 s + infinityBits .fp32, Flags.none)
  | .fin s m e => roundFinite .fp32 .rne true .infinity s m e

/-- A rounded sum of two FP32 values on the matrix path. -/
def add32 (x y : Nat) : Nat × Flags :=
  let (v, arose) := (decodeFloat .fp32 x).add (decodeFloat .fp32 y)
  let (r, f) := round32 v
  (r, f.or { invalid := arose })

/-- The exact result of a scale group from its products (R145, R148): the value before scaling, and whether a NaN arose
from operands that are none. -/
def groupSum (ps : List (Val × Bool)) : Val × Bool :=
  let arose := ps.any Prod.snd
  let vs := ps.map Prod.fst
  let pos := vs.any (fun v => v == .inf false)
  let neg := vs.any (fun v => v == .inf true)
  if vs.any Val.isNan then (.nan false, arose)
  else if pos && neg then (.nan false, true)
  else if pos then (.inf false, false)
  else if neg then (.inf true, false)
  else
    let sum := vs.foldl (fun (acc : Val) v => (acc.add v).1) (.fin true 0 0)
    (match sum with | .fin _ 0 _ => .fin (vs.all Val.neg) 0 0 | v => v, false)

/-- A value scaled by a power of two. -/
def scaleBy (v : Val) (e : Int) : Val :=
  match v with
  | .fin s m x => .fin s m (x + e)
  | v => v

/-- The length in stored elements of a scale group (R145): the A scales and the B scales bound it by position. -/
def groupLen (a : ABuf) (b : BBuf) : Nat :=
  let ga := if a.group = 0 then 32 else a.group
  let gb := if b.group = 0 then 32 else b.group / a.s
  min ga (max 1 gb)

/-- A product of a narrow operation (R145): an integer product of zero carries no sign (R148, R170). -/
def narrowProduct (a : ABuf) (b : BBuf) (r : ARow) (c : BCol) (j : Nat) : Val × Bool :=
  let p := (elemVal a.fmt a.group (r.elems.getD j 0)).mul (elemVal b.fmt b.group (b.elem c (logicalK a.s r.idx j)))
  match p with
  | (.fin s 0 e, arose) => (.fin (s && !a.fmt.isInt) 0 e, arose)
  | p => p

/-- One output entry of a narrow operation (R145, R148). -/
def narrowEntry (a : ABuf) (b : BBuf) (r : ARow) (c : BCol) (acc : Nat) : Nat × Flags :=
  let len := groupLen a b
  (List.range (32 / len)).foldl (fun st g =>
    let js := rangeFrom (g * len) len
    let ps := js.map (fun j => narrowProduct a b r c j)
    let sa := a.scale r (g * len)
    let sb := b.scale c (g * len * a.s)
    let (sum, arose) := groupSum ps
    let (v, f1) := match scaleExp sa, scaleExp sb with
      | some ea, some eb => round32 (scaleBy sum (ea + eb))
      | _, _ => (canonicalNan .fp32, Flags.none)
    let (acc', f2) := add32 st.1 v
    (acc', ((st.2.or f1).or f2).or { invalid := arose })) (acc, Flags.none)

/-- One level of the fixed tree (R147). -/
def treeLevel : List Nat → List Nat × Flags
  | x :: y :: l =>
    let (v, f) := add32 x y
    let (l', f') := treeLevel l
    (v :: l', f.or f')
  | l => (l, Flags.none)

/-- The fixed tree over `2^n` values (R147). -/
def treeSum : Nat → List Nat → Nat × Flags
  | 0, l => (l.headD 0, Flags.none)
  | n + 1, l =>
    let (l', f) := treeLevel l
    let (v, f') := treeSum n l'
    (v, f.or f')

/-- The FP32 products of a wide operation in stored-element order (R147). -/
def wideProducts (a : ABuf) (b : BBuf) (r : ARow) (c : BCol) : List (Nat × Flags) :=
  (List.range 32).map (fun j =>
    let x := wideInput a.fmt (r.elems.getD j 0)
    let y := wideInput b.fmt (b.elem c (logicalK a.s r.idx j))
    let (p, arose) := x.mul y
    let (v, f) := round32 p
    (v, f.or { invalid := arose || x.isSnan || y.isSnan }))

/-- One output entry of a wide operation (R147). -/
def wideEntry (a : ABuf) (b : BBuf) (r : ARow) (c : BCol) (acc : Nat) : Nat × Flags :=
  let ps := wideProducts a b r c
  let f0 := ps.foldl (fun f p => f.or p.2) Flags.none
  let (v, f1) := treeSum 5 (ps.map Prod.fst)
  let (acc', f2) := add32 acc v
  (acc', (f0.or f1).or f2)

/-- One output entry of an operation. -/
def outEntry (a : ABuf) (b : BBuf) (r : ARow) (c : BCol) (acc : Nat) : Nat × Flags :=
  if a.fmt.isWide then wideEntry a b r c acc else narrowEntry a b r c acc

/-- The entries an operation writes (R136, R137, R160): entry number, row and column. -/
def outPlaces (a : ABuf) (b : BBuf) : List (Nat × ARow × BCol) :=
  ((List.range a.rows.length).map (fun i =>
    match a.rows[i]? with
    | none => []
    | some r =>
      if !r.valid then []
      else (List.range b.cols.length).filterMap (fun j =>
        (b.cols[j]?).map (fun c => (if a.mv then i else 8 * i + j, r, c))))).flatten

/-! ## Plumb checks (R155 to R159) -/

/-- R155: whether the operation of index `i` is checked under a mode word. -/
def plumbSelected (mode : BitVec 64) (i : Nat) : Bool :=
  match field mode 0 2 with
  | 1 => i % 2 ^ field mode 4 4 == field mode 8 10
  | 2 => true
  | _ => false

/-- R131, Table 4.1: array cycles of an operation. -/
def arrayCycles (fa fb : Format) (mv checked : Bool) : Nat :=
  let w := max fa.width fb.width
  let base := if w ≤ 4 then 32 else if w ≤ 8 then 64 else if w ≤ 16 then 128 else 512
  if checked && !mv then base / 8 * 9 else base

/-- The places of an operation's rows that contribute (R136), and of its columns. -/
def liveRows (a : ABuf) : List (Nat × ARow) := ((List.range a.rows.length).zip a.rows).filter (fun x => x.2.valid)

/-- The columns of a B operand with their numbers. -/
def liveCols (b : BBuf) : List (Nat × BCol) := (List.range b.cols.length).zip b.cols

/-- The exact sum of a list of values (R156). -/
def exactSum (vs : List Val) : Val := vs.foldl (fun acc v => (acc.add v).1) (.fin false 0 0)

/-- The failing group and lines of a comparison: in MM mode the lowest failing row and column, in MV mode neither
(R159, Table 4.10). -/
def missOf (mv : Bool) (g : Nat) (rows cols : List Nat) : Option PlumbMiss :=
  if rows.isEmpty && cols.isEmpty then none
  else some {
    group := BitVec.ofNat 4 g
    row := if mv then 0x7F else BitVec.ofNat 7 (rows.headD 0x7F)
    col := if mv then 0xF else BitVec.ofNat 4 (cols.headD 0xF) }

/-- R156 for one scale group: S and T are exact sums of the elements at each logical position, P the exact block sums, and
each identity is an exact equality. In MV mode the one column's identity is the only one. -/
def exactMiss (a : ABuf) (b : BBuf) (g : Nat) : Option PlumbMiss :=
  let len := groupLen a b
  let js := rangeFrom (g * len) len
  let ks := rangeFrom (g * len * a.s) (len * a.s)
  let rows := liveRows a
  let cols := liveCols b
  let av := fun (r : ARow) (j : Nat) => elemVal a.fmt a.group (r.elems.getD j 0)
  let bv := fun (c : BCol) (kk : Nat) => elemVal b.fmt b.group (b.elem c kk)
  let p := fun (r : ARow) (c : BCol) => exactSum (js.map (fun j => (narrowProduct a b r c j).1))
  let sOf := fun (kk : Nat) => exactSum (rows.map (fun r =>
    exactSum ((js.filter (fun j => logicalK a.s r.2.idx j == kk)).map (av r.2))))
  let tOf := fun (kk : Nat) => exactSum (cols.map (fun c => bv c.2 kk))
  let badRow := fun (r : ARow) =>
    (exactSum (cols.map (fun c => p r c.2))).order
      (exactSum (js.map (fun j => ((av r j).mul (tOf (logicalK a.s r.idx j))).1))) != 0
  let badCol := fun (c : BCol) =>
    (exactSum (rows.map (fun r => p r.2 c))).order (exactSum (ks.map (fun kk => ((sOf kk).mul (bv c kk)).1))) != 0
  missOf a.mv g (if a.mv then [] else (rows.filter (fun r => badRow r.2)).map Prod.fst)
    ((cols.filter (fun c => badCol c.2)).map Prod.fst)

/-- The exponent of the largest element of a list that is not zero (R157). -/
def topExp (vs : List Val) : Option Int :=
  vs.foldl (fun acc v => match v with
    | .fin _ m e => if m = 0 then acc else some (match acc with
      | none => (Nat.log2 m : Int) + e
      | some x => max x ((Nat.log2 m : Int) + e))
    | _ => acc) none

/-- τ of an identity over the elements that enter it (R157): zero where all elements of one side are zero, and otherwise
rounded upward in FP32. -/
def tolerance (mv : Bool) (as_ bs : List Val) : Val :=
  let n := if mv then 64 else 8
  match topExp as_, topExp bs with
  | some ea, some eb =>
    let c := (32 + n + 2) * n * 32
    let x := ea + eb + 2 - 24
    if x < -149 then .fin false ((c + (2 ^ (-149 - x).toNat - 1)) / 2 ^ (-149 - x).toNat) (-149) else .fin false c x
  | _, _ => .fin false 0 0

/-- Whether a tolerance lies beyond FP32's range (R158). -/
def tooWide (tau : Val) : Bool := decide (0 < tau.order (.fin false (2 ^ 24 - 1) 104))

/-- The test of an identity: |left − right| ≤ τ, of FP32 values (R157). -/
def withinTau (left right : Nat) (tau : Val) : Bool :=
  match ((decodeFloat .fp32 left).add (decodeFloat .fp32 right).negate).1 with
  | .fin _ m e => decide (Val.order (.fin false m e) tau ≤ 0)
  | _ => false

/-- The FP32 value of an operand element (R147). -/
def wideBits (f : Format) (bits : Nat) : Nat := (round32 (wideInput f bits)).1

/-- The FP32 products of two lists of FP32 values and whether one of them lies outside FP32's range (R147, R158). -/
def productsOf (xs ys : List Nat) : List Nat × Bool :=
  let ps := (xs.zip ys).map (fun z =>
    round32 ((decodeFloat .fp32 z.1).mul (decodeFloat .fp32 z.2)).1)
  (ps.map Prod.fst, ps.any (fun p => p.2.overflow || p.2.underflow || (decodeFloat .fp32 p.1).isNan
    || (decodeFloat .fp32 p.1).isInf))

/-- One identity of a wide operation: its two sides, its tolerance, and whether a checksum product is outside FP32's
range. -/
structure WideLine where
  at_ : Nat
  left : Nat
  right : Nat
  tau : Val
  outside : Bool
  deriving DecidableEq, Repr

/-- The FP32 sum in index order of a list (R157). -/
def sumInOrder (vs : List Nat) : Nat := (vs.drop 1).foldl (fun acc v => (add32 acc v).1) (vs.headD 0)

/-- The identities of a wide operation, of its rows and of its columns (R157): S and T are formed by the fixed tree over
the rows and the columns, the left sides from the operation's tree results, and the right sides by the tree over the
checksum products. A column's identity runs over the 32·s logical positions (log entry 150). -/
def wideLines (a : ABuf) (b : BBuf) : List WideLine × List WideLine :=
  let rows := liveRows a
  let cols := liveCols b
  let ks := List.range (32 * a.s)
  let aAt := fun (r : ARow) (kk : Nat) => sumInOrder (((List.range 32).filter (fun j =>
    logicalK a.s r.idx j == kk)).map (fun j => wideBits a.fmt (r.elems.getD j 0)))
  let bAt := fun (c : BCol) (kk : Nat) => wideBits b.fmt (b.elem c kk)
  let sums := ks.map (fun kk => (treeSum (if a.mv then 6 else 3) ((List.range (if a.mv then 64 else 8)).map (fun i =>
    match rows.find? (fun r => r.1 == i) with | some r => aAt r.2 kk | none => 0))).1)
  let tees := ks.map (fun kk => (treeSum 3 ((List.range 8).map (fun j =>
    match cols.find? (fun c => c.1 == j) with | some c => bAt c.2 kk | none => 0))).1)
  let p := fun (r : ARow) (c : BCol) => (treeSum 5 ((wideProducts a b r c).map Prod.fst)).1
  let aVals := fun (r : ARow) => r.elems.map (wideInput a.fmt)
  let bVals := fun (c : BCol) => ks.map (fun kk => wideInput b.fmt (b.elem c kk))
  let rowLine := fun (r : Nat × ARow) =>
    let (ps, out) := productsOf ((List.range 32).map (fun j => wideBits a.fmt (r.2.elems.getD j 0)))
      ((List.range 32).map (fun j => tees.getD (logicalK a.s r.2.idx j) 0))
    ({ at_ := r.1, left := sumInOrder (cols.map (fun c => p r.2 c.2)), right := (treeSum 5 ps).1,
       tau := tolerance a.mv (aVals r.2) ((cols.map (fun c => bVals c.2)).flatten), outside := out } : WideLine)
  let colLine := fun (c : Nat × BCol) =>
    let (ps, out) := productsOf sums (ks.map (bAt c.2))
    ({ at_ := c.1, left := sumInOrder (rows.map (fun r => p r.2 c.2)),
       right := (treeSum (if a.s = 1 then 5 else if a.s = 2 then 6 else 7) ps).1,
       tau := tolerance a.mv ((rows.map (fun r => aVals r.2)).flatten) (bVals c.2), outside := out } : WideLine)
  (if a.mv then [] else rows.map rowLine, cols.map colLine)

/-- R158: whether the operation is not compared: a NaN or infinite operand, a product outside FP32's range, a scale of
0xFF, a tolerance that overflows, or a poisoned operand. -/
def plumbSkips (a : ABuf) (b : BBuf) : Bool :=
  let rows := (liveRows a).map Prod.snd
  let va := (rows.map (fun r => r.elems.map (elemVal a.fmt a.group))).flatten
  let vb := (b.cols.map (fun c => (List.range b.span).map (fun kk => elemVal b.fmt b.group (b.elem c kk)))).flatten
  let special := fun v => Val.isNan v || Val.isInf v
  let poisoned := a.poison || b.poison || rows.any (·.poison) || b.cols.any (·.poison)
  let badScale := rows.any (fun r => r.scales.contains 0xFF)
    || b.cols.any (fun c => (List.range b.span).any (fun kk => b.scale c kk == 0xFF))
  let beyond := a.fmt.isWide && rows.any (fun r => b.cols.any (fun c =>
    (wideProducts a b r c).any (fun q => q.2.overflow || q.2.underflow)))
  let lines := wideLines a b
  va.any special || vb.any special || poisoned || badScale || beyond
    || (a.fmt.isWide && (lines.1 ++ lines.2).any (fun l => l.outside || tooWide l.tau))

/-- The mismatch that the comparisons of an operation find (R156, R157): the lowest-numbered failing scale group (R159). -/
def plumbCompare (a : ABuf) (b : BBuf) : Option PlumbMiss :=
  if a.fmt.isWide then
    let lines := wideLines a b
    let bad := fun (ls : List WideLine) => (ls.filter (fun l => !withinTau l.left l.right l.tau)).map (·.at_)
    missOf a.mv 0 (bad lines.1) (bad lines.2)
  else (List.range (32 / groupLen a b)).findSome? (exactMiss a b)

/-- Whether a mismatch names a scale group, a row and a column of the operation. -/
def missNames (a : ABuf) (b : BBuf) (m : PlumbMiss) : Bool :=
  let groups := if a.fmt.isWide then 1 else 32 / groupLen a b
  decide (m.group.toNat < groups)
    && (if a.mv then m.row == 0x7F && m.col == 0xF
      else (m.row == 0x7F || (liveRows a).any (fun r => r.1 == m.row.toNat))
        && (m.col == 0xF || decide (m.col.toNat < b.cols.length)))

/-- What a checked operation reports (R156 to R159): a mismatch of its comparisons, or one that a failing adder, lane or
residue check brings (`miss`, a failure of the hardware, log entry 151); of two, the one of the lower group. -/
def plumbOutcome (a : ABuf) (b : BBuf) (miss : Option PlumbMiss) : Option PlumbMiss :=
  match plumbCompare a b, miss.filter (missNames a b) with
  | some x, some m => if m.group.toNat < x.group.toNat then some m else some x
  | some x, none => some x
  | none, m => m

/-- The fields of MX_PLUMB_LAST below its count (Table 4.10): group, column, row, shape, bank and pc. -/
def plumbWord (pc : BitVec 18) (bank : Nat) (mv : Bool) (m : PlumbMiss) : BitVec 44 :=
  BitVec.ofNat 44 (m.group.toNat + m.col.toNat * 2 ^ 12 + (if mv then 0x7F else m.row.toNat) * 2 ^ 16
    + (if mv then 2 ^ 23 else 0) + bank * 2 ^ 24 + pc.toNat * 2 ^ 26)

/-- MX_PLUMB_LAST after a mismatch (Table 4.10): the record is written while its valid bit is clear; count rises. -/
def Tile.recordPlumb (t : Tile) (w : BitVec 44) : Tile :=
  { t with
    plumbLast := if bitOf t.plumbLast 63 then t.plumbLast else BitVec.ofNat 64 (w.toNat + 2 ^ 63)
    plumbCount := if t.plumbCount = 0xFFFF then t.plumbCount else t.plumbCount + 1 }

/-- The bank after an operation: each written entry, its flags and its poison (R145, R160). -/
def Tile.applyOp (t : Tile) (bank : Nat) (a : ABuf) (b : BBuf) : Tile :=
  (outPlaces a b).foldl (fun t p =>
    let old := t.acc bank p.1
    let bad := a.poison || b.poison || p.2.1.poison || p.2.2.poison || old.poison
    let (v, f) := outEntry a b p.2.1 p.2.2 old.bits.toNat
    { (t.raiseMx f) with banks := putD {} t.banks (bankKey bank p.1) { bits := BitVec.ofNat 32 v, poison := bad } }) t

/-- MX_COMPUTE_DONE: the running operation updates its bank and its plumb check resolves. -/
def execMxComputeDone (k : TileIx) (miss : Option PlumbMiss) (s : State) : Host.Outcome State Fault Refusal :=
  engine k s (fun t =>
    let (before, rest) := splitQueue (·.running) t.mxQueue
    match rest with
    | [] => none
    | e :: after =>
      let staOf := fun (b : MxEntry) (bank : Nat) => match b.op with | .sta x _ _ => x == bank | _ => false
      let held := fun (bank : Nat) => before.any (fun b => staOf b bank) || t.vxQueue.any (fun v =>
        decide (v.seq < e.seq) && v.kind == .acc && v.f.vs1.toNat % 4 == bank)
      match e.op with
      | .zero bank =>
        if held bank then none
        else some { (t.count 1 1) with
          mxQueue := before ++ after
          banks := clearRange t.banks (64 * bank) (64 * bank + 64) }
      | .mma mv bank x y =>
        if held bank then none
        else match getD none t.aBufs (if x then 1 else 0), getD none t.bBufs (if y then 1 else 0) with
          | some a, some b =>
            let selected := plumbSelected t.plumbMode e.index
            let skips := selected && plumbSkips a b
            let t1 := t.applyOp bank a b
            let t2 := ((t1.count 0 1).count 1 (arrayCycles a.fmt b.fmt mv selected))
            let t3 := (t2.count 2 (if selected && !skips then 1 else 0)).count 3 (if skips then 1 else 0)
            let t4 := match if selected && !skips then plumbOutcome a b miss else none with
              | some m =>
                let w := plumbWord e.pc bank mv m
                (t3.recordPlumb w).raise { s.tileReport k 0x0004 0x0200 clsSDC 0 0 with detail := w }
              | none => t3
            some { t4 with mxQueue := before ++ after }
          | _, _ => some { t with mxQueue := before ++ after }
      | _ => none)

end Sys2Proof.Machine
end

