-- ==== Sys2Proof/Machine/Groups.lean ====
section
/-! DEFINITION. Tile groups and tally windows (08, R250; 13, R387). -/

namespace Sys2Proof.Machine

/-- The rectangles of a group over every region of the paddock. -/
def Paddock.groupRects (d : Paddock) (id : Nat) : List (Nat × Nat × Nat × Nat) :=
  ((d.groups.filter (fun g => g.id == id)).map GroupPart.rects).flatten

/-- Whether a rectangle (x0, y0, x1, y1) holds a logical position. -/
def rectHolds (r : Nat × Nat × Nat × Nat) (x y : Nat) : Bool :=
  decide (r.1 ≤ x) && decide (x ≤ r.2.2.1) && decide (r.2.1 ≤ y) && decide (y ≤ r.2.2.2)

/-- Numbers from `a` to `b`. -/
def span (a b : Nat) : List Nat := rangeFrom a (b + 1 - a)

/-- The least of a list of numbers, 0 for none. -/
def leastOf (l : List Nat) : Nat := match l with | [] => 0 | a :: l => l.foldl min a

/-- The members of a set of rectangles in rank order: by logical y, then x (R250). -/
def rectTiles (rs : List (Nat × Nat × Nat × Nat)) : List Nat :=
  if rs.isEmpty then []
  else
    let x0 := leastOf (rs.map (·.1))
    let y0 := leastOf (rs.map (·.2.1))
    let x1 := (rs.map (·.2.2.1)).foldl max 0
    let y1 := (rs.map (·.2.2.2)).foldl max 0
    ((span y0 y1).map (fun y => ((span x0 x1).filter (fun x => rs.any (fun r => rectHolds r x y))).map (fun x =>
      tileAt x y))).flatten

/-- The members of a group in rank order. -/
def Paddock.groupTiles (d : Paddock) (id : Nat) : List Nat := rectTiles (d.groupRects id)

/-- A member's rank in its group. -/
def Paddock.groupRank (d : Paddock) (id k : Nat) : Nat := (d.groupTiles id).idxOf k

/-- Whether a tile is a member. -/
def Paddock.inGroup (d : Paddock) (id k : Nat) : Bool :=
  (d.groupRects id).any (fun r => rectHolds r (tileX k) (tileY k))

/-- A paddock's tally declaration; `none` where it is not enabled (R387). -/
def Paddock.tallyDecl (d : Paddock) (i : Nat) : Option TallyDecl :=
  match look d.tallies i with
  | some t => if t.enable then some t else none
  | none => none

/-- The cells of a declaration's window, W (R387). -/
def Paddock.windowCells (d : Paddock) (t : TallyDecl) : Nat := t.cpo * (d.groupTiles t.group).length

/-- The tally queue of a tile in a run: the one of the declaration in force, at its owners (R391). -/
def State.tallyQueue (s : State) (k : Nat) (t : Tile) : Option Nat :=
  t.tally.bind (fun ctx =>
    let d := s.paddock (s.ownerOf k)
    (d.tallyDecl ctx.decl).bind (fun decl => if d.inGroup decl.group k then some decl.queue else none))

end Sys2Proof.Machine
end

