-- ==== Sys2Proof/Machine/Packets.lean ====
section
/-! DEFINITION. Packets: their classes, stirrups and edge routers, injection by a tile or by the frame, and the answers
to a discarded packet (01, R34, R35; 09, R285 to R288; 10, R322). -/

namespace Sys2Proof.Machine

/-- The class of an op (Table 9.2): 0 request, 1 response, 2 message, 3 gathering. -/
def PacketOp.cls : PacketOp → Nat
  | .msg => 2 | .msgAnswer => 1 | .retryNotice => 1 | .get => 0 | .getData => 1 | .put => 0 | .putAck => 1
  | .signal => 2 | .wake => 1 | .gather => 3 | .nack => 1 | .reserved => 0

/-- Whether a packet's length is in its op's range (Table 9.2, R286). -/
def Packet.lengthOk (p : Packet) : Bool :=
  match p.op with
  | .msg => p.length == 1 || p.length == 2
  | .get => decide (1 ≤ p.length) && decide (p.length ≤ 16)
  | .getData => decide (1 ≤ p.length) && decide (p.length ≤ 16)
  | .put => decide (1 ≤ p.length) && decide (p.length ≤ 16)
  | .gather => decide (1 ≤ p.length) && decide (p.length ≤ 4)
  | .reserved => false
  | _ => p.length == 0

/-! ## Stirrups: 0 to 11 N, 12 to 23 S, 24 to 30 W, 31 to 37 E (Table 9.4) -/

/-- The region of a stirrup's field (R34). -/
def stirrupRegion (st : Nat) : Nat :=
  if st < 12 then st / 3 else if st < 24 then 24 + (st - 12) / 3 else if st < 31 then 4 * (st - 24) else 4 * (st - 31) + 3

/-- A stirrup's place on the frame ring, clockwise from N0 (log entry 24). -/
def stirrupRing (st : Nat) : Nat :=
  if st < 12 then st else if st < 24 then 30 - (st - 12) else if st < 31 then 37 - (st - 24) else 12 + (st - 31)

/-- The distance of two stirrups on the frame ring. -/
def ringDistance (a b : Nat) : Nat :=
  let d := if stirrupRing a ≤ stirrupRing b then stirrupRing b - stirrupRing a else stirrupRing a - stirrupRing b
  min d (38 - d)

/-- R35: whether a stirrup's region is usable. -/
def State.stirrupUsable (s : State) (st : Nat) : Bool :=
  !s.deadStirrups.contains st &&
    (match (s.region (stirrupRegion st)).state with | .active | .transit | .service => true | _ => false)

/-- R35: the stirrup that carries the traffic of an agent of a home stirrup: the home while it is usable, else the
nearest usable one, the lower number on a tie. -/
def State.nearestStirrup (s : State) (home : Nat) : Nat :=
  if s.stirrupUsable home then home
  else
    (List.range 38).foldl (fun best st =>
      if s.stirrupUsable st && (!s.stirrupUsable best || decide (ringDistance home st < ringDistance home best)) then st
      else best) home

/-- Frame firmware writes the stirrup map (R322): at a table flip, and where a paddock's regions or a stirrup change their state
(log entry 152). -/
def State.installStirrups (s : State) : State := { s with stirrups := (List.range 38).map s.nearestStirrup }

/-- The stirrup that carries the traffic of a home stirrup, by the map in force (R288, R322). -/
def State.stirrupFor (s : State) (home : Nat) : Nat := s.stirrups.getD home home

/-- The home stirrup of a near-tier site (R322). -/
def nearSiteStirrup (site : Nat) : Nat :=
  if site < 12 then site else if site = 12 then 11 else if site < 25 then 12 + (site - 13) else 12

/-- The home stirrup of a far-tier site (Table 10.2). -/
def farSiteStirrup (site : Nat) : Nat :=
  let w := [0, 0, 1, 2, 3, 3, 4, 5, 6]
  if site < 9 then 24 + w.getD site 0 else 31 + w.getD (site - 9) 0

/-- The home stirrup of a logical stack or device (R322). -/
def State.unitStirrup (s : State) (far : Bool) (unit : Nat) : Nat :=
  if far then farSiteStirrup (s.far.sites.getD unit 0) else nearSiteStirrup (s.near.sites.getD unit 0)

/-- The home stirrup of the frame controller, E3 (R621); the host chiplet is taken to home there too (log entry 26). -/
def controllerStirrup : Nat := 34

/-- The home stirrup of a yoke group or fabric port (18, R529): ports 0 to 9 and yoke groups west, ports 10 to 19 east. -/
def portStirrup (port : Nat) : Nat := if port < 10 then 24 + 7 * port / 10 else 31 + 7 * (port - 10) / 10

/-- R288: the edge router through which a tile reaches a stirrup, and the side code. -/
def edgeRouter (st x y : Nat) : (Nat × Nat) × Nat :=
  if st < 12 then ((70 * st + x % 70, 0), 0)
  else if st < 24 then ((70 * (st - 12) + x % 70, 545), 2)
  else if st < 31 then ((0, 78 * (st - 24) + y % 78), 3)
  else ((839, 78 * (st - 31) + y % 78), 1)

/-- The numbers of the links that are up among fabric ports of a mask, or the yoke groups 20 to 29. -/
def State.upPorts (s : State) (mask : Nat → Bool) : List Nat :=
  (List.range 30).filter (fun n => mask n && (getD {} s.ports n).state == 2)

/-- R551: the port that reaches the engine of a peer address: the `i`-th up port, modulo their count. The twin is
reached by the yoke groups in the same way (log entry 26). -/
def State.portFor (s : State) (addr : BitVec 64) (i : Nat) : Option Nat :=
  let ups := if selectorOf addr = 5 then s.upPorts (fun n => decide (20 ≤ n))
    else s.upPorts (fun n => decide (n < 20) && bitOf (getD 0 s.fbRoute (field addr 54 6)) n)
  if ups.isEmpty then none else ups[i % ups.length]?

/-- The home stirrup of a link: fabric ports as R529 gives them, yoke groups as west ports. -/
def linkStirrup (n : Nat) : Nat := portStirrup (if n < 20 then n else n - 20)

/-- The home stirrup through which a peer address is reached; that of the first link while none is up. -/
def State.peerHome (s : State) (addr : BitVec 64) (i : Nat) : Nat :=
  match s.portFor addr i with
  | some n => linkStirrup n
  | none => linkStirrup (if selectorOf addr = 5 then 20 else 0)

/-- R50, R317, R318: the home stirrup of the frame agent that a device address names. -/
def State.agentStirrup (s : State) (addr : BitVec 64) : Nat :=
  match selectorOf addr with
  | 1 => s.unitStirrup false (field addr 0 48 / 4096 % 24)
  | 2 => s.unitStirrup true (field addr 0 48 / 4096 % 16)
  | 5 => s.peerHome addr (field addr 12 38)
  | 6 => s.peerHome addr (field addr 12 38)
  | _ => controllerStirrup

/-! ## Injection -/

/-- A packet of a tile (R287): paddock tag, epoch and source are the router's. -/
def State.packetOf (s : State) (k : Nat) (op : PacketOp) (operand : BitVec 64) (dest : Nat × Nat) : Packet :=
  { op := op, operand := operand, srcX := tileX k, srcY := tileY k, destX := dest.1, destY := dest.2, frame := false,
    queue := 0, paddock := s.ownerOf k, length := 0, poison := false,
    epoch := (s.region (regionOfTile k)).epoch, data := [], tag := {}, pos := .router k 4 false, replays := 0 }

/-- A packet of a tile bound for a stirrup (R288). -/
def State.packetToFrame (s : State) (k : Nat) (op : PacketOp) (operand : BitVec 64) (home : Nat) : Packet :=
  let (d, side) := edgeRouter (s.stirrupFor home) (tileX k) (tileY k)
  { s.packetOf k op operand d with frame := true, queue := side }

/-- A packet of a tile to the device address it names (R286, R288). -/
def State.packetFor (s : State) (k : Nat) (op : PacketOp) (addr : BitVec 64) : Packet :=
  if selectorOf addr = 0 then s.packetOf k op addr (addrX addr, addrY addr)
  else s.packetToFrame k op addr (s.agentStirrup addr)

/-- A packet injected by a tile's router. -/
def Tile.send (t : Tile) (p : Packet) : Tile := { t with inject := t.inject ++ [p] }

/-- A packet the frame injects for a tile through a stirrup (R288): it enters at the edge router on the tile's line. -/
def State.framePacket (s : State) (home : Nat) (op : PacketOp) (operand : BitVec 64) (x y paddock : Nat) : Packet :=
  let (e, side) := edgeRouter (s.stirrupFor home) x y
  { op := op, operand := operand, srcX := 0x3FF, srcY := 0x3FF, destX := x, destY := y, frame := false, queue := 0,
    paddock := paddock, length := 0, poison := false, epoch := (s.region (regionAt x y)).epoch, data := [], tag := {},
    pos := .router (tileAt e.1 e.2) side false, replays := 0 }

/-- A packet put on the mesh. -/
def State.launch (s : State) (p : Packet) : State := { s with net := s.net ++ [p] }

/-! ## The answers to a discarded packet (R285, R293) -/

/-- The data flits of a message's, get's or put's words. -/
def flitsOf (bytes : Nat) : Nat := (bytes + 15) / 16

/-- The answer that a discarding router gives: a NACK for a GET or a PUT, an ADDRESS answer for a MSG. It enters at the
discarding router with the epoch of its region, and under the tag of the packet, since another would not reach its injector
(R287; log entry 135). The answer to a message that the frame injected for a remote channel goes to its link's stirrup. -/
def State.discardAnswer (s : State) (k : Nat) (p : Packet) : Option Packet :=
  let back : Packet := { s.packetOf k .nack p.operand (p.srcX, p.srcY) with paddock := p.paddock, tag := p.tag }
  if p.srcX = 0x3FF then
    (if p.op = .msg then some { s.packetToFrame k .msgAnswer 3 (linkStirrup p.tag.ref) with paddock := p.paddock, tag := p.tag } else none)
  else match p.op with
    | .get => some back
    | .put => some back
    | .msg => some { back with op := .msgAnswer, operand := 3 }
    | _ => none

/-- The note of a discarded packet: the tag is the report's paddock, the source and destination lie in the address
(R285, R293; log entry 49). -/
def State.discardNote (s : State) (k : Nat) (p : Packet) (code : Nat) : Report :=
  { s.tileNote k code (BitVec.ofNat 64 (p.srcY * 2 ^ 40 + p.srcX * 2 ^ 30 + p.destY * 2 ^ 10 + p.destX)) with
    paddock := p.paddock }

/-- A discard recorded by the field collector with its answer on the way (R285, R293). -/
def State.discardPacket (s : State) (k : Nat) (p : Packet) (code : Nat) : State :=
  let s := s.onTile k (fun t => t.raise (s.discardNote k p code))
  match s.discardAnswer k p with
  | some a => s.launch a
  | none => s

end Sys2Proof.Machine
end

