-- ==== Sys2Proof/Machine/QueueOps.lean ====
section
/-! DEFINITION. Queue rings, messages and sync objects: the operations that the instructions and the events share
(07, R216 to R246). -/

namespace Sys2Proof.Machine

/-! ## Queue map entries (Table 7.1) -/

def qEnabled (e : BitVec 64) : Bool := bitOf e 63
def qCredit (e : BitVec 64) : Nat := field e 48 13
def qPriority (e : BitVec 64) : Nat := field e 40 3
def qShared (e : BitVec 64) : Bool := bitOf e 36
def qTag (e : BitVec 64) : Nat := field e 32 4
def qSize (e : BitVec 64) : Nat := field e 16 13
def qBase (e : BitVec 64) : Nat := 16 * field e 0 14

/-- A queue of the tile. -/
def Tile.queue (t : Tile) (q : Nat) : Queue := getD {} t.queues q

/-- The tile with a queue replaced. -/
def Tile.setQueue (t : Tile) (q : Nat) (x : Queue) : Tile := { t with queues := putD {} t.queues q x }

/-- Messages held: PAD entries are not counted (R234). -/
def Queue.messages (x : Queue) : Nat := (x.items.filter (fun i => !i.isPad)).length

/-- The head message: PAD entries never stand at the head (R234). -/
def Queue.headItem (x : Queue) : Option QItem := x.items.head?

/-- The local word index of word `w` of a slot. -/
def ringWord (x : Queue) (slot w : Nat) : Nat := qBase x.entry / 8 + 2 * slot + w

/-! ## Poses in force, steer rules (Tables 8.1, 8.8) -/

/-- A word of the descriptor in a slot of the pose store. -/
def Tile.descWord (t : Tile) (slot w : Nat) : BitVec 64 := (getD {} t.poseMem (64 * slot + w)).read.val

/-- The steer rules of the pose in force. -/
def Tile.steerRules (t : Tile) : List (BitVec 64) :=
  match t.inForce with
  | none => []
  | some p => (List.range (min 8 (field (t.descWord p 0) 40 8))).map (fun i => t.descWord p (36 + i))

/-- A destination word of the pose in force. -/
def Tile.destination (t : Tile) (i : Nat) : BitVec 64 :=
  match t.inForce with
  | none => 0
  | some p => t.descWord p (44 + i)

/-- R276: whether an enabled rule of the pose in force binds a queue. -/
def Tile.steered (t : Tile) (q : Nat) : Bool :=
  t.steerRules.any (fun r => bitOf r 63 && (field r 0 5 == q || field r 5 5 == q))

/-- The checks of a q instruction that names a queue, in rising cause order (R219, R276). -/
def Tile.queueCause (t : Tile) (q : Nat) (steerOk : Bool) : Option Nat :=
  let e := (t.queue q).entry
  lowestCause [(qEnabled e && !qShared e && t.inForce != some (qTag e), 0x60), (!qEnabled e, 0x61),
    (!steerOk && t.steered q, 0x72)]

/-! ## Sync objects (R239 to R246) -/

/-- A tile sync object. -/
def Tile.sync (t : Tile) (i : Nat) : SyncObj := getD {} t.syncs i

/-- R240: whether a value has reached a target. -/
def reached (value target : BitVec 32) : Bool := decide ((value - target).toNat < 2 ^ 31)

/-- A signal applied to a tile object, with its last signaller; a core that still waits for it goes on when the target is
reached (R240 to R242, R246), while one that has parked meanwhile only leaves the object's waiters. -/
def Tile.applySignal (t : Tile) (i : Nat) (amount : BitVec 32) (x y : Nat) (count : BitVec 64) : Tile :=
  let o := t.sync i
  let o : SyncObj := { o with value := o.value + amount, lastX := BitVec.ofNat 10 x, lastY := BitVec.ofNat 10 y,
                              lastCount := count }
  if o.waiting && reached o.value o.target then
    { (if t.wait = .sync i then t.endWait else t) with syncs := putD {} t.syncs i { o with waiting := false } }
  else { t with syncs := putD {} t.syncs i o }

/-- A signal of the tile to its own object (R123, R240). -/
def State.ownSignal (s : State) (k : Nat) (t : Tile) (i : Nat) (amount : BitVec 32) : Tile :=
  t.applySignal i amount (tileX k) (tileY k) (s.paceOf k)

/-! ## Message words -/

/-- One poison bit goes with a flit: both words of a poisoned flit are poisoned (R284; log entry 27). -/
def flitPoison : List PWord → List PWord
  | a :: b :: l =>
    if a.poison || b.poison then { poison := true } :: { poison := true } :: flitPoison l else a :: b :: flitPoison l
  | [a] => [if a.poison then { poison := true } else a]
  | [] => []

/-- Word 1 of a message as the receiving engine writes it (R220): its own ring_flags. -/
def withRingFlags (w : PWord) (flags : Nat) : PWord :=
  if w.poison then w else { val := BitVec.ofNat 64 (field w.val 0 48 + flags * 2 ^ 48) }

/-! ## The outbound buffer (R226, R231) -/

/-- A message image placed in a free outbound entry. -/
def Tile.addOutbound (t : Tile) (dest : BitVec 64) (long : Bool) (words : List PWord) (trySend tally : Bool) : Tile :=
  { t with
    outbound := t.outbound ++ [{ ref := t.nextRef, dest := dest, long := long, words := words, state := .waiting,
                                 trySend := trySend, tally := tally }]
    nextRef := t.nextRef + 1 }

/-- The words of an image of 2 or 4 words at a local offset, and the tile after they are read. -/
def State.readImage (s : State) (k : Nat) (t : Tile) (off : Nat) (long : Bool) : List PWord × Tile :=
  let n := if long then 4 else 2
  (t.words (off / 8) n, s.touchAll k t (rangeFrom (off / 8) n))

/-- A core that waits in q.send goes on when an entry is free (R226). -/
def State.fillOutbound (s : State) (k : Nat) (t : Tile) : Tile :=
  match t.wait with
  | .sendFull dest long image =>
    if t.outbound.length < 8 then
      let (ws, t) := s.readImage k t image.toNat long
      (t.addOutbound dest long ws false false).endWait
    else t
  | _ => t

/-- The outbound entry of a number, with its place. -/
def Tile.outEntry (t : Tile) (ref : Nat) : Option OutEntry := t.outbound.find? (fun e => e.ref == ref)

/-- An entry leaves the buffer: accepted, discarded, or a q.trysend answered (R226, R231). -/
def State.freeOutbound (s : State) (k : Nat) (t : Tile) (ref : Nat) : Tile :=
  s.fillOutbound k { t with outbound := t.outbound.filter (fun e => e.ref != ref) }

/-- A q.trysend that waits for its answer takes its status (Table 7.4). -/
def Tile.answerTry (t : Tile) (ref status : Nat) : Tile :=
  match t.wait with
  | .trySend rd r => if r = ref then (t.setReg rd { val := BitVec.ofNat 64 status }).endWait else t
  | _ => t

/-- An answer of status 0 ACCEPTED, 1 FULL or 3 ADDRESS reaches the sender's entry (R226, R229 to R231). -/
def State.takeAnswer (s : State) (k : Nat) (t : Tile) (ref status : Nat) (listed : Bool) : Tile :=
  match t.outEntry ref with
  | none => t
  | some e =>
    if status = 1 && !e.trySend then
      { t with outbound := t.outbound.map (fun x => if x.ref = ref then { x with state := .refused listed } else x) }
    else
      let t := if status = 0 then t.count 9 1 else t
      s.freeOutbound k (t.answerTry ref status) ref

/-- A retry notice reaches the sender's refused entry: it may be sent again (R230). -/
def Tile.retryEntry (t : Tile) (ref : Nat) : Tile :=
  { t with outbound := t.outbound.map (fun x => if x.ref = ref then { x with state := .waiting } else x) }

/-! ## Release (R218, R230, R234) -/

/-- A retry notice to the oldest entry of the retry list. -/
def State.sendNotice (s : State) (k : Nat) (t : Tile) (q : Nat) : Tile :=
  match (t.queue q).retry with
  | [] => t
  | e :: rest =>
    let t := (t.setQueue q { t.queue q with retry := rest }).count 12 1
    if e.tile = k then t.retryEntry e.ref
    else
      t.send { s.packetOf k .retryNotice (BitVec.ofNat 64 q) (tileX e.tile, tileY e.tile) with tag := { ref := e.ref } }

/-- The queue after its head entry, and a PAD behind it, is freed; an empty queue starts again at slot 0 (R218, R234). -/
def Queue.dropHead (x : Queue) : Queue :=
  match x.items with
  | [] => x
  | i :: rest =>
    let (freed, rest) := match rest with
      | p :: more => if p.isPad then (i.slots + p.slots, more) else (i.slots, rest)
      | [] => (i.slots, [])
    let occ := x.occ - freed
    if occ = 0 then { x with items := rest, occ := 0, head := 0, tail := 0 }
    else { x with items := rest, occ := occ, head := match rest with | n :: _ => n.slot | [] => x.tail }

/-- The head message of a queue is released, and a notice goes out when one is due. -/
def State.release (s : State) (k : Nat) (t : Tile) (q : Nat) : Tile :=
  s.sendNotice k (t.setQueue q (t.queue q).dropHead) q

/-! ## Receiving (R225, R234, R236) -/

/-- The results of q.recv and q.peek: address, then length, then the release of a q.recv. The length comes last, so it
stays where both name one register (R225). -/
def State.receive (s : State) (k : Nat) (t : Tile) (q : Nat) (rd rd2 : BitVec 5) (rel : Bool) : Tile :=
  match (t.queue q).headItem with
  | none => t
  | some i =>
    let w0 := ringWord (t.queue q) i.slot 0
    let a := t.word w0
    let l := t.word (w0 + 1)
    let t := s.touchAll k t [w0, w0 + 1]
    let t := t.setReg rd { val := a.val, poison := a.poison }
    let t := t.setReg rd2 { val := BitVec.ofNat 64 (field l.val 0 32), poison := l.poison }
    if rel then s.release k t q else t

/-- The queues of a mask that hold a message. -/
def Tile.readyQueues (t : Tile) (mask : BitVec 64) : List Nat :=
  (List.range 32).filter (fun q => bitOf mask q && (t.queue q).headItem.isSome)

/-- The choice of q.select among the non-empty queues (R236). -/
def Tile.choose (t : Tile) (ready : List Nat) : Option Nat :=
  if t.selectRotate then
    match ready.find? (fun q => decide (t.selectLast.toNat < q)) with
    | some q => some q
    | none => ready.head?
  else
    ready.foldl (fun best q => match best with
      | none => some q
      | some b => if qPriority (t.queue q).entry < qPriority (t.queue b).entry then some q else some b) none

/-- q.select answers when a selected queue holds a message. -/
def Tile.selectNow (t : Tile) (mask : BitVec 64) (rd : BitVec 5) : Option Tile :=
  (t.choose (t.readyQueues mask)).map (fun q =>
    { t.setReg rd { val := BitVec.ofNat 64 q } with selectLast := BitVec.ofNat 5 q })

/-- A message became visible in a queue: a core that waits for it goes on (R234, R236). -/
def State.wakeQueue (s : State) (k : Nat) (t : Tile) (q : Nat) : Tile :=
  match t.wait with
  | .recv q' rd rd2 rel => if q' = q then (s.receive k t q rd rd2 rel).endWait else t
  | .select mask rd =>
    match t.selectNow mask rd with
    | some t => t.endWait
    | none => t
  | _ => t

/-! ## Arrival of a message (R220, R228 to R230) -/

/-- What the receiving engine answers; a tally message is answered when it has been applied (13, R391). -/
inductive MsgResult where
  | accepted | applied | refused (listed : Bool) | discarded
  deriving DecidableEq, Repr

/-- The slots at which a message of `m` slots goes, and whether a PAD goes before it; `none` where it is refused
(R228). -/
def Queue.place (x : Queue) (m : Nat) : Option (Nat × Bool) :=
  let size := qSize x.entry
  let credit := qCredit x.entry
  if x.tail + m ≤ size then (if x.occ + m ≤ credit then some (x.tail, false) else none)
  else if x.occ + (size - x.tail) + m ≤ credit then some (0, true)
  else none

/-- Ring words written by the queue engine: discarded and recorded where they would enter the protected area (R115). -/
def State.ringWrite (s : State) (k : Nat) (t : Tile) (w : Nat) (words : List PWord) : Tile :=
  if t.protects (8 * w) (8 * words.length) then
    t.raise (s.tileReport k 0x0003 0x0600 clsNote (BitVec.ofNat 64 (8 * w)) 0)
  else t.putWords w words

/-- The sender of a message on the retry list. -/
def Queue.list (x : Queue) (sender : Nat) (ref : Nat) : Queue × Bool :=
  if x.retry.length < 4 then ({ x with retry := x.retry ++ [{ tile := sender, ref := ref }] }, true) else (x, false)

/-- A message of 2 or 4 words arrives for a queue. `never` marks a sender that does not retry (R231). -/
def State.arrive (s : State) (k : Nat) (t : Tile) (q : Nat) (words : List PWord) (sender ref : Nat) (never : Bool) :
    Tile × MsgResult :=
  let x := t.queue q
  let m := words.length / 2
  if !qEnabled x.entry then
    ((t.count 10 1).raise
      (s.tileReport k 0x0003 0x0608 clsNote (tileAddr (tileX sender) (tileY sender) q) 0), .discarded)
  else
    match (if x.closed then none else x.place m) with
    | none =>
      let (x', listed) := if never then (x, false) else x.list sender ref
      ((t.setQueue q x').countIdx (4 * q + 3) 1, .refused listed)
    | some (slot, pad) =>
      let size := qSize x.entry
      let padSlots := if pad then size - x.tail else 0
      let t := if pad then
          -- the PAD's address and tag are free (log entry 33)
          (s.ringWrite k t (ringWord x x.tail 0)
            [{ val := s.fresh }, { val := BitVec.ofNat 64 (padSlots + field s.fresh 0 16 * 2 ^ 32 + 2 * 2 ^ 48) }]).count 11 1
        else t
      let body := match words with
        | a :: b :: rest => a :: withRingFlags b (if m = 2 then 1 else 0) :: rest
        | l => l
      let t := s.ringWrite k t (ringWord x slot 0) body
      let tally := s.tallyQueue k t == some q
      let items := x.items ++ (if pad then [{ slot := x.tail, slots := padSlots, isPad := true }] else [])
        ++ [{ slot := slot, slots := m, isPad := false, owed := if tally then some (sender, ref) else none }]
      let x' := { x with items := items, occ := x.occ + padSlots + m, tail := (slot + m) % size,
                         head := if x.items.isEmpty then (if pad then 0 else slot) else x.head }
      (s.wakeQueue k ((t.setQueue q x').countIdx (4 * q + 2) 1) q, if tally then .applied else .accepted)

end Sys2Proof.Machine
end

