-- ==== Sys2Proof/Machine/Reins.lean ====
section
/-! DEFINITION. Reins: their paths, links and taps; the source engine of a tile; gather leaves (09, R300 to R311). -/

namespace Sys2Proof.Machine

/-! ## Paths -/

/-- The neighbour of a logical position in a direction (0 N, 1 E, 2 S, 3 W), `none` off the grid. -/
def neighbour (k dir : Nat) : Option Nat :=
  let x := tileX k
  let y := tileY k
  match dir with
  | 0 => if y = 0 then none else some (tileAt x (y - 1))
  | 1 => if x = 839 then none else some (tileAt (x + 1) y)
  | 2 => if y = 545 then none else some (tileAt x (y + 1))
  | _ => if x = 0 then none else some (tileAt (x - 1) y)

/-- The port opposite to a direction. -/
def opposite (dir : Nat) : Nat := (dir + 2) % 4

/-- The direction after a turn code: 1 left, 2 right (Table 9.4). -/
def turned (dir turn : Nat) : Nat := if turn = 1 then (dir + 3) % 4 else if turn = 2 then (dir + 1) % 4 else dir

/-- A hop of a rein: the router it leaves and its direction, the router it reaches, whether that router taps. -/
structure Hop where
  source : Nat
  dir : Nat
  dest : Nat
  tap : Bool
  deriving DecidableEq, Repr

/-- The hops of one segment. -/
def segmentHops : Nat → Nat → Nat → Bool → List Hop × Option Nat
  | 0, k, _, _ => ([], some k)
  | n + 1, k, dir, tap =>
    match neighbour k dir with
    | none => ([], none)
    | some k' =>
      let (hs, last) := segmentHops n k' dir tap
      ({ source := k, dir := dir, dest := k', tap := tap } :: hs, last)

/-- The hops of a list of segments; `none` where the path leaves the grid. -/
def pathHops : List (Nat × Nat × Bool) → Nat → Nat → Option (List Hop)
  | [], _, _ => some []
  | (hops, turn, tap) :: rest, k, dir =>
    match segmentHops hops k dir tap with
    | (_, none) => none
    | (hs, some k') => (pathHops rest k' (turned dir turn)).map (hs ++ ·)

/-- The tile whose router carries a rein at a tile of its path (R299). -/
def Rein.routerAt (r : Rein) (k : Nat) : Nat := ((r.shifts.find? (fun x => x.1 == k)).map Prod.snd).getD k

/-- The hops of a rein, the sink tapping unless the rein has a frame sink (R300). -/
def Rein.hops (r : Rein) : List Hop :=
  match pathHops r.segs (tileAt r.x r.y) r.dir with
  | none => []
  | some hs =>
    let hs := if r.shifts.isEmpty then hs else hs.map (fun h => { h with source := r.routerAt h.source, dest := r.routerAt h.dest })
    match hs.reverse with
    | [] => []
    | h :: rest => ({ h with tap := h.tap || !r.frameSink } :: rest).reverse

/-- The links a rein reserves: router and direction of each hop. -/
def Rein.links (r : Rein) : List (Nat × Nat) := r.hops.map (fun h => (h.source, h.dir))

/-- The taps of a rein: router and arrival port, in path order. -/
def Rein.taps (r : Rein) : List (Nat × Nat) := (r.hops.filter (·.tap)).map (fun h => (h.dest, opposite h.dir))

/-- A paddock's rein. -/
def State.rein (s : State) (p id : Nat) : Option Rein := (s.paddock p).reins.find? (fun r => r.id == id)

/-- A rein's state changed. -/
def State.setRein (s : State) (p id : Nat) (st : ReinState) : State :=
  s.onPaddock p (fun d => { d with reins := d.reins.map (fun r => if r.id = id then
    { r with state := st, shifts := if st = .closed || st = .broken then [] else r.shifts } else r) })

/-- The order in which reins were opened: each takes the number after the highest of the paddock. -/
def State.stampRein (s : State) (p id : Nat) : State :=
  s.onPaddock p (fun d =>
    let n := (d.reins.map Rein.opened).foldl max 0 + 1
    { d with reins := d.reins.map (fun r => if r.id = id then { r with opened := n } else r) })

/-- Whether a burst is queued at the source tile of a rein and not yet being sent. -/
def State.reinQueued (s : State) (r : Rein) : Bool :=
  !r.frameSource && (getD [] (s.tile (tileAt r.x r.y)).srcBursts r.dir).any (fun b => !b.sent)

/-- The links that a rein holds (R302, R303): while it is being closed, with no burst queued, those that the last flit of its last
burst has passed are released. -/
def State.heldLinks (s : State) (p : Nat) (r : Rein) : List (Nat × Nat) :=
  match r.state with
  | .closed => []
  | .closing =>
    if s.reinQueued r then r.links
    else match s.bursts.filter (fun b => b.paddock == p && b.rein == r.id) with
      | [] => []
      | [b] =>
        if 2 * (b.flit + 1) < b.words.length || b.tap = 0 then r.links
        else match r.taps[b.tap - 1]? with
          | some (k, _) => r.links.drop (r.hops.findIdx (fun h => h.dest == k) + 1)
          | none => r.links
      | _ => r.links
  | _ => r.links

/-- The rein of the tile's paddock that starts at the tile through a port and is ready or being closed. -/
def State.sourceRein (s : State) (k port : Nat) (closingToo : Bool) : Option Rein :=
  (s.paddock (s.ownerOf k)).reins.find? (fun r =>
    !r.frameSource && tileAt r.x r.y == k && r.dir == port && (r.state == .ready || (closingToo && r.state == .closing)))

/-! ## The pose in force and the circuit ports (Table 8.2) -/

/-- port_use of the pose in force. -/
def Tile.portUse (t : Tile) : BitVec 64 :=
  match t.inForce with
  | none => 0
  | some p => t.descWord p 1

/-- Whether the pose in force sources data on a circuit port. -/
def Tile.sources (t : Tile) (port : Nat) : Bool := bitOf t.portUse (4 + port)

/-- Whether the pose in force sinks data on a circuit port. -/
def Tile.sinks (t : Tile) (port : Nat) : Bool := bitOf t.portUse port

/-- The tap channel of an arrival port (R305): 0 for north and east. -/
def Tile.tapChannel (t : Tile) (port : Nat) : Nat :=
  if port = 2 then field t.portUse 8 4 else if port = 3 then field t.portUse 12 4 else 0

/-! ## RT_SRC and RT_GSEND (R304, R310) -/

/-- What the write of a router command register does. -/
inductive RtWrite where
  | done (t : Tile)
  | fault (cause : Nat) (addr : BitVec 64)
  | full

/-- The flits of an RT_SRC command: 0 encodes 4,096. -/
def srcFlits (v : BitVec 64) : Nat := if field v 29 13 = 0 then 4096 else field v 29 13

/-- A write of RT_SRC: a burst queued on its port, or a fault of the router (R304). A length above 4,096 is taken as out
of range (log entry 35). -/
def State.writeRtSrc (s : State) (k : Nat) (t : Tile) (v : BitVec 64) : RtWrite :=
  let port := field v 62 2
  let src := field v 0 18
  let dest := field v 42 18
  let flits := srcFlits v
  match lowestCause [(decide (src % 16 ≠ 0) || decide (dest % 16 ≠ 0), 0x03),
      (!t.sources port || (s.sourceRein k port false).isNone, 0x82),
      (decide (memEnd < src + 16 * flits) || decide (4096 < flits), 0x83)] with
  | some c => .fault c (BitVec.ofNat 64 src)
  | none =>
    let q := getD [] t.srcBursts port
    if 4 ≤ q.length then .full
    else
      let b : SrcBurst := { src := src, dest := dest, flits := flits,
                            signal := if bitOf v 24 then some (BitVec.ofNat 4 (field v 25 4)) else none }
      .done { t with srcBursts := putD [] t.srcBursts port (q ++ [b]) }

/-- The leaf entry of a tree at a tile. -/
def Tile.leaf (t : Tile) (tree : Nat) : Option LeafEntry := t.leaves.find? (fun l => l.tree == tree)

/-- A write of RT_GSEND: the contribution goes to the leaf's node, or a fault of the router (R310). -/
def State.writeRtGsend (s : State) (k : Nat) (t : Tile) (v : BitVec 64) : RtWrite :=
  let src := field v 0 18
  let tree := field v 18 10
  let leaf := t.leaf tree
  let flits := (leaf.map LeafEntry.flits).getD 1
  match lowestCause [(decide (src % 16 ≠ 0), 0x03), (decide (memEnd < src + 16 * flits), 0x83), (leaf.isNone, 0x84)] with
  | some c => .fault c (BitVec.ofNat 64 src)
  | none =>
    match leaf with
    | none => .full
    | some l =>
      let node := l.node.toNat
      let words := t.words (src / 8) (2 * flits)
      let p := s.packetOf k .gather (BitVec.ofNat 64 (tree + node / 2 ^ 20 % 8 * 2 ^ 10 + l.input * 2 ^ 13))
        (node % 1024, node / 1024 % 1024)
      let t := s.touchAll k t (rangeFrom (src / 8) (2 * flits))
      let t := t.send { p with length := flits, data := flitPoison words }
      .done (if bitOf v 36 then s.ownSignal k t (field v 32 4) 1 else t)

end Sys2Proof.Machine
end

