-- ==== Sys2Proof/Machine/Csr.lean ====
section
/-! DEFINITION. The control and status registers of a tile, the c instructions and the writes of RT_SRC and RT_GSEND
(03, R108 to R110; 04, R162; 06, R215; 07, R249; 09, R315; 20, R586 to R593). -/

namespace Sys2Proof.Machine

/-! ## Counters -/

/-- Fixed counters that count cycles, which this model does not time: their value is free (log entry 37). -/
def cycleCounter (i : Nat) : Bool := i == 7 || i == 13 || i == 14 || i == 15 || i == 23

/-- Indexed counters that count cycles or slot-cycles. -/
def cycleIndex (i : Nat) : Bool :=
  if i < 0x80 then i % 4 == 0 || i % 4 == 1
  else if i < 0x100 then true
  else if i < 0x120 then i % 4 != 3
  else if i < 0x160 then i % 4 != 3
  else if i < 0x1A0 then i % 16 == 4 || i % 16 == 6 || (decide (7 ≤ i % 16) && decide (i % 16 ≤ 12))
  else false

/-- Indices that Table 20.3 names. -/
def namedIndex (i : Nat) : Bool :=
  if i < 0x160 then true else if i < 0x1A0 then decide (i % 16 ≤ 12) else decide (i ≤ 0x1A7)

/-- A fixed counter as read. -/
def State.fixedCounter (s : State) (t : Tile) (i : Nat) : BitVec 64 :=
  if cycleCounter i then freeCounter s.fresh else getD 0 t.counters i

/-- The bandwidth gauges of a router port, words 11 and 12 (R590). -/
def portGauge (i : Nat) : Bool := decide (0x160 ≤ i) && decide (i < 0x1A0) && (i % 16 == 11 || i % 16 == 12)

/-- A bandwidth gauge of a tile: the flits of the last window under its sequence. -/
def State.tileGauge (s : State) (t : Tile) (i : Nat) : BitVec 64 :=
  setField (getD 0 t.counters (0x802 + 4 * ((i - 0x160) / 16) + (i % 16 - 11))) 48 16 s.bwSeq

/-- The indexed counter as read. -/
def State.indexedCounter (s : State) (t : Tile) (i : Nat) : BitVec 64 :=
  if !namedIndex i then 0
  else if portGauge i then s.tileGauge t i
  else if cycleIndex i then freeCounter s.fresh else getD 0 t.counters (0x400 + i)

/-! ## Reads -/

/-- PD_TILE_MODE.state (Table 3.9). -/
def Tile.stateCode (t : Tile) : Nat := if t.parked then 2 else if t.wait != .none || t.ended then 1 else 0

/-- ID_TILE (Table 3.8). -/
def State.idTile (s : State) (k : Nat) (hidePhys : Bool) : BitVec 64 :=
  let x := tileX k
  let y := tileY k
  let phys := if hidePhys then 0 else (s.physOf k).1 * 2 ^ 40 + (s.physOf k).2 * 2 ^ 50
  BitVec.ofNat 64 (x + y * 2 ^ 16 + (x / 70) * 2 ^ 28 + (y / 78) * 2 ^ 32 + regionAt x y * 2 ^ 35 + phys)

/-- QE_Qn_STATE (Table 7.10). -/
def Queue.stateWord (x : Queue) : BitVec 64 :=
  BitVec.ofNat 64 (x.head + x.tail * 2 ^ 16 + x.messages * 2 ^ 32 + x.occ * 2 ^ 48 + (if qEnabled x.entry then 2 ^ 63 else 0))

/-- QE_SYNCn_LAST (Table 7.12). -/
def SyncObj.lastWord (o : SyncObj) : BitVec 64 :=
  BitVec.ofNat 64 (field o.lastCount 0 20 + field o.lastCount 20 24 * 2 ^ 20 + o.lastX.toNat * 2 ^ 44 + o.lastY.toNat * 2 ^ 54)

/-- MX_STATUS (Table 4.9). -/
def Tile.mxStatus (t : Tile) : BitVec 64 :=
  let v := fun (b : Bool) (n : Nat) => if b then 2 ^ n else 0
  let pending := t.mxQueue.any (fun e => e.running && (match e.op with
    | .mma _ _ _ _ => plumbSelected t.plumbMode e.index | _ => false))
  BitVec.ofNat 64 (t.opIndex.toNat * 2 ^ 32 + min 8 t.mxQueued * 2 ^ 8 + v pending 4
    + v (getD none t.bBufs 1).isSome 3 + v (getD none t.bBufs 0).isSome 2
    + v (getD none t.aBufs 1).isSome 1 + v (getD none t.aBufs 0).isSome 0)

/-- RT_STATUS (Table 9.13). -/
def State.rtStatus (s : State) (k : Nat) (t : Tile) : BitVec 64 :=
  let r := regionOfTile k
  let queued := (List.range 4).foldl (fun n p => n + (getD [] t.srcBursts p).length) 0
  let p := s.ownerOf k
  let regions := ((List.range 28).filter (fun r => (s.region r).owner == p)).length
  BitVec.ofNat 64 (queued * 2 ^ 20 + t.deadPorts.toNat * 2 ^ 16 + (if p ≠ 0 ∧ regions ≤ 4 then 2 ^ 8 else 0)
    + (if (s.region r).epoch then 1 else 0))

/-- The bits of the general registers' marks or poison. -/
def Tile.regBits (t : Tile) (f : GReg → Bool) : Nat :=
  (List.range 32).foldl (fun n i => if f (t.reg (BitVec.ofNat 5 i)) then n + 2 ^ i else n) 0

/-- A CSR's value (`none`: the number is reserved or not defined, R108). `hide` is set for the core's own c instructions
in PROGRAM mode: fields that read zero there do. -/
def State.csrRead (s : State) (k : Nat) (t : Tile) (n : Nat) (hide : Bool) : Option (BitVec 64) :=
  let user := bitOf (getD 0 s.regs ((0x441100 + 8 * s.ownerOf k) / 8)) 0
  let hidden := fun (v : BitVec 64) => if hide then 0 else v
  let counted := fun (v : BitVec 64) => if hide && !user then 0 else v
  if n = 0x000 then some (s.idTile k hide)
  else if n = 0x002 then
    some (BitVec.ofNat 64 ((if t.service then 1 else 0) + t.stateCode * 2 ^ 4 + s.ownerOf k * 2 ^ 8))
  else if n = 0x003 then some (t.protTop.setWidth 64)
  else if n = 0x008 then some (counted (s.paceOf k))
  else if n = 0x010 then
    some (BitVec.ofNat 64 (t.fcCause.toNat + t.fcUnit.toNat * 2 ^ 16 + (if t.fcMode then 2 ^ 30 else 0)
      + (if t.fcValid then 2 ^ 31 else 0) + t.fcCount.toNat * 2 ^ 32))
  else if n = 0x011 then some (t.fcPc.setWidth 64)
  else if n = 0x012 then some t.fcAddr
  else if n = 0x013 then some (BitVec.ofNat 64 (t.ceCount.toNat + t.ceLast.toNat * 2 ^ 32))
  else if 0x040 ≤ n ∧ n < 0x060 then some (t.queue (n - 0x040)).stateWord
  else if n = 0x060 then some (BitVec.ofNat 64 ((if t.selectRotate then 1 else 0) + t.selectLast.toNat * 2 ^ 8))
  else if n = 0x061 then some (BitVec.ofNat 64 (t.sendBeats.toNat + t.waitBeats.toNat * 2 ^ 16))
  else if n = 0x062 then
    let refused := (t.outbound.filter (fun e => match e.state with | .refused _ => true | _ => false)).length
    some (hidden (BitVec.ofNat 64 (t.outbound.length + refused * 2 ^ 8)))
  else if 0x080 ≤ n ∧ n < 0x090 then
    let o := t.sync (n - 0x080)
    some (BitVec.ofNat 64 (o.value.toNat + o.target.toNat * 2 ^ 32))
  else if 0x090 ≤ n ∧ n < 0x0A0 then some (hidden (t.sync (n - 0x090)).lastWord)
  else if n = 0x0C0 then some t.plumbMode
  else if n = 0x0C1 then some (if t.satMode then 1 else 0)
  else if n = 0x0C2 then some (hidden (mxFlagsWord t.mxFlags))
  else if n = 0x0C3 then some (hidden t.mxStatus)
  else if n = 0x0C4 then some (hidden (setField t.plumbLast 44 16 t.plumbCount.toNat))
  else if n = 0x0E0 then some (hidden (vxFlagsWord t.vxFlags))
  else if n = 0x0E1 then
    some (BitVec.ofNat 64 (t.vl + (if t.shape then 2 ^ 8 else 0) + (if hide then 0 else min 8 t.vxQueue.length * 2 ^ 12)))
  else if n = 0x0E2 then some t.srBase
  else if n = 0x0E3 then some (t.srPass.setWidth 64)
  else if 0x100 ≤ n ∧ n < 0x118 then some (counted (s.fixedCounter t (n - 0x100)))
  else if n = 0x118 then some (counted (t.cntIdx.setWidth 64))
  else if n = 0x119 then some (counted (s.indexedCounter t t.cntIdx.toNat))
  else if n = 0x11A then some (counted (t.thSel.setWidth 64))
  else if n = 0x11B then some (counted (getD 0 t.thresholds t.thSel.toNat))
  else if n = 0x13E then some (counted (t.cntPsel.setWidth 64))
  else if n = 0x13F then some (counted (s.counterWord (0x100 * s.ownerOf k + t.cntPsel.toNat)))
  else if 0x140 ≤ n ∧ n < 0x150 then some (getD 0 t.taps (n - 0x140))
  else if n = 0x150 ∨ n = 0x151 then some 0
  else if n = 0x152 then some (hidden (s.rtStatus k t))
  else if n = 0x200 then some (counted s.fresh)
  else if n = 0x201 then some (counted t.instret)
  else if n = 0x202 then
    some (hidden (BitVec.ofNat 64 (t.regBits GReg.mark + t.regBits GReg.poison * 2 ^ 32)))
  else none

/-- R106: the CSRs whose value is marked. -/
def csrMarked (n : Nat) : Bool :=
  n == 0x008 || (decide (0x100 ≤ n) && decide (n < 0x140)) || n == 0x200 || n == 0x201

/-! ## Writes -/

/-- A tap channel register's defined fields (Table 9.10). -/
def tapFields (v : BitVec 64) : BitVec 64 :=
  BitVec.ofNat 64 (field v 0 11 + field v 32 11 * 2 ^ 32 + field v 47 5 * 2 ^ 47 + field v 63 1 * 2 ^ 63)

/-- A threshold register's defined fields (R589). -/
def thresholdFields (v : BitVec 64) : BitVec 64 :=
  BitVec.ofNat 64 ((List.range 4).foldl (fun n t => n + field v (16 * t) 13 * 2 ^ (16 * t)) 0)

/-- A counter word whose wrap bit is cleared. -/
def clearWrap (w : BitVec 64) : BitVec 64 := setField w 63 1 0

/-- A CSR written with a value; the registers Table 0.6 makes read-only are unchanged, and a write of PD_TILE_MODE or PD_PROT_TOP is
recorded (R104). `hide` as in `csrRead`;
`xchg` is set for c.xchg and for a window write, which clear wrap bits (R587). -/
def State.csrWrite (s : State) (k : Nat) (t : Tile) (n : Nat) (v : BitVec 64) (hide xchg : Bool) : RtWrite :=
  if n = 0x010 then .done (if bitOf v 31 then t.clearCause else t)
  else if n = 0x060 then .done { t with selectRotate := bitOf v 0 }
  else if n = 0x061 then .done { t with sendBeats := BitVec.ofNat 16 (field v 0 16), waitBeats := BitVec.ofNat 16 (field v 16 16) }
  else if n = 0x0C1 then .done { t with satMode := bitOf v 0 }
  else if n = 0x0C2 then .done (if hide then t else { t with mxFlags := mxFlagsClear t.mxFlags v })
  else if n = 0x0C4 then
    .done (if hide || !bitOf v 63 then t else { t with plumbLast := setField t.plumbLast 63 1 0 })
  else if n = 0x0E0 then .done (if hide then t else { t with vxFlags := vxFlagsClear t.vxFlags v })
  else if n = 0x0E2 then .done { t with srBase := v }
  else if n = 0x0E3 then .done { t with srPass := v.setWidth 32 }
  else if 0x100 ≤ n ∧ n < 0x118 then
    .done (if xchg && !hide && v = 0x8000000000000000 then { t with counters := modD 0 t.counters (n - 0x100) clearWrap } else t)
  else if n = 0x118 then .done { t with cntIdx := v.setWidth 10 }
  else if n = 0x119 then
    .done (if xchg && !hide then { t with counters := modD 0 t.counters (0x400 + t.cntIdx.toNat) clearWrap } else t)
  else if n = 0x11A then .done { t with thSel := v.setWidth 6 }
  else if n = 0x11B then
    .done (if t.thSel.toNat < 36 then { t with thresholds := putD 0 t.thresholds t.thSel.toNat (thresholdFields v) } else t)
  else if n = 0x13E then .done { t with cntPsel := v.setWidth 8 }
  else if 0x140 ≤ n ∧ n < 0x150 then .done { t with taps := putD 0 t.taps (n - 0x140) (tapFields v) }
  else if n = 0x002 ∨ n = 0x003 then .done (t.raise (s.tileNote k 0x0600 (BitVec.ofNat 64 n)))
  else if n = 0x150 then s.writeRtSrc k t v
  else if n = 0x151 then s.writeRtGsend k t v
  else .done t

/-! ## The c instructions (R100, R106, R108, R120, R310, R315) -/

/-- The CSRs whose written value must be unmarked. -/
def csrCounts (n : Nat) : Bool := decide (0x140 ≤ n) && decide (n ≤ 0x151)

/-- The result of a CSR read in rd. -/
def csrResult (n : Nat) (v : BitVec 64) : GReg := { val := v, mark := csrMarked n }

/-- c.rd. -/
def execCRd (k : TileIx) (rd rs1 : BitVec 5) (imm : BitVec 16) (s : State) : Host.Outcome State Fault Refusal :=
  issue k (.cRd k rd rs1 imm) [] s (fun t =>
    let n := imm.toNat % 4096
    if rs1 ≠ 0 ∨ imm.toNat / 4096 ≠ 0 then .fault 0 0x01 0
    else match s.csrRead k t n (!t.service) with
      | none => .fault 0 0x02 0
      | some v => .retire (t.setReg rd (csrResult n v)))

/-- c.xchg, c.set and c.clr: rd takes the old value, then the CSR a value computed from it and g[rs1]. -/
def csrUpdate (k : TileIx) (i : Instr) (rd rs1 : BitVec 5) (imm : BitVec 16) (xchg : Bool) (f : BitVec 64 → BitVec 64 → BitVec 64)
    (s : State) : Host.Outcome State Fault Refusal :=
  issue k i [rs1] s (fun t =>
    let n := imm.toNat % 4096
    let g := t.reg rs1
    if imm.toNat / 4096 ≠ 0 then .fault 0 0x01 0
    else match s.csrRead k t n (!t.service) with
      | none => .fault 0 0x02 0
      | some old =>
        match lowestCause [(csrCounts n && t.markFault [g], 0x08), (g.poison, 0x0C)] with
        | some c => .fault 0 c 0
        | none =>
          match s.csrWrite k t n (f old g.val) (!t.service) xchg with
          | .done t => .retire (t.setReg rd (csrResult n old))
          | .fault c a => .fault 6 c a
          | .full => .stall)

/-- c.xchg. -/
def execCXchg (k : TileIx) (rd rs1 : BitVec 5) (imm : BitVec 16) (s : State) : Host.Outcome State Fault Refusal :=
  csrUpdate k (.cXchg k rd rs1 imm) rd rs1 imm true (fun _ g => g) s

/-- c.set. -/
def execCSet (k : TileIx) (rd rs1 : BitVec 5) (imm : BitVec 16) (s : State) : Host.Outcome State Fault Refusal :=
  csrUpdate k (.cSet k rd rs1 imm) rd rs1 imm false (fun old g => old ||| g) s

/-- c.clr. -/
def execCClr (k : TileIx) (rd rs1 : BitVec 5) (imm : BitVec 16) (s : State) : Host.Outcome State Fault Refusal :=
  csrUpdate k (.cClr k rd rs1 imm) rd rs1 imm false (fun old g => old &&& ~~~g) s

/-- A write of a router command register: its effect, a router fault of the tile, or no room yet. -/
def rtWrite (k : TileIx) (s : State) (w : Tile → RtWrite) : Host.Outcome State Fault Refusal :=
  engine k s (fun t =>
    match w t with
    | .done t => some t
    | .fault c a => some (s.tileFault k t 6 c t.pc a)
    | .full => none)

/-- RT_SRC_WRITE (R304). -/
def execRtSrcWrite (k : TileIx) (v : BitVec 64) (s : State) : Host.Outcome State Fault Refusal :=
  rtWrite k s (fun t => s.writeRtSrc k t v)

/-- RT_GSEND_WRITE (R310). -/
def execRtGsendWrite (k : TileIx) (v : BitVec 64) (s : State) : Host.Outcome State Fault Refusal :=
  rtWrite k s (fun t => s.writeRtGsend k t v)

end Sys2Proof.Machine
end

