-- ==== Sys2Proof/Machine/Codes.lean ====
section
/-! DEFINITION. The codes the engine computes over bytes: SHA-256 (12, 14; FIPS 180-4, log entry 15), CRC-32C (08, R255;
18, R530), CRC-64 of ECMA-182 (18, R541), and the counter-based generator (13, R384). -/

namespace Sys2Proof.Machine

/-! ## SHA-256 -/

/-- The integer cube root bit by bit, for the round constants. -/
def icbrtFrom : Nat → Nat → Nat → Nat
  | 0, r, _ => r
  | b + 1, r, n => let r' := r + 2 ^ b; if r' * r' * r' ≤ n then icbrtFrom b r' n else icbrtFrom b r n

/-- The first 64 primes. -/
def shaPrimes : List Nat :=
  [2, 3, 5, 7, 11, 13, 17, 19, 23, 29, 31, 37, 41, 43, 47, 53, 59, 61, 67, 71, 73, 79, 83, 89, 97, 101, 103, 107, 109,
   113, 127, 131] ++
  [137, 139, 149, 151, 157, 163, 167, 173, 179, 181, 191, 193, 197, 199, 211, 223, 227, 229, 233, 239, 241, 251, 257,
   263, 269, 271, 277, 281, 283, 293, 307, 311]

/-- Round constants: the first 32 fraction bits of the cube roots of the primes. -/
def shaK : List (BitVec 32) := shaPrimes.map (fun p => BitVec.ofNat 32 (icbrtFrom 36 0 (p * 2 ^ 96)))

/-- Initial hash: the first 32 fraction bits of the square roots of the first 8 primes. -/
def shaInit : List (BitVec 32) := (shaPrimes.take 8).map (fun p => BitVec.ofNat 32 (isqrt (p * 2 ^ 64)))

/-- The message padded to blocks of 64 bytes. -/
def shaPad (bs : List (BitVec 8)) : List (BitVec 8) :=
  let n := bs.length
  bs ++ 0x80#8 :: List.replicate ((119 - n % 64) % 64) 0 ++ (bytesLE 8 (8 * n)).reverse

/-- Big-endian words. -/
def wordsBE : List (BitVec 8) → List (BitVec 32)
  | a :: b :: c :: d :: l =>
    BitVec.ofNat 32 (a.toNat * 2 ^ 24 + b.toNat * 2 ^ 16 + c.toNat * 2 ^ 8 + d.toNat) :: wordsBE l
  | _ => []

/-- The next message schedule word, from the sixteen before it, latest first. -/
def shaNext (w : List (BitVec 32)) : BitVec 32 :=
  let s0 := fun (x : BitVec 32) => x.rotateRight 7 ^^^ x.rotateRight 18 ^^^ (x >>> 3)
  let s1 := fun (x : BitVec 32) => x.rotateRight 17 ^^^ x.rotateRight 19 ^^^ (x >>> 10)
  s1 (w.getD 1 0) + w.getD 6 0 + s0 (w.getD 14 0) + w.getD 15 0

/-- The message schedule, latest first. -/
def shaSchedule : Nat → List (BitVec 32) → List (BitVec 32)
  | 0, w => w
  | n + 1, w => shaSchedule n (shaNext w :: w)

/-- One round. -/
def shaRound (h : List (BitVec 32)) (kw : BitVec 32) : List (BitVec 32) :=
  match h with
  | [a, b, c, d, e, f, g, x] =>
    let t1 := x + (e.rotateRight 6 ^^^ e.rotateRight 11 ^^^ e.rotateRight 25) + ((e &&& f) ^^^ (~~~e &&& g)) + kw
    let t2 := (a.rotateRight 2 ^^^ a.rotateRight 13 ^^^ a.rotateRight 22) + ((a &&& b) ^^^ (a &&& c) ^^^ (b &&& c))
    [t1 + t2, a, b, c, d + t1, e, f, g]
  | l => l

/-- One block. -/
def shaBlock (h : List (BitVec 32)) (block : List (BitVec 8)) : List (BitVec 32) :=
  let ws := (shaSchedule 48 (wordsBE block).reverse).reverse
  let kws := (ws.zip shaK).map (fun p => p.1 + p.2)
  (h.zip (kws.foldl shaRound h)).map (fun p => p.1 + p.2)

/-- SHA-256: 32 bytes. -/
def sha256 (bs : List (BitVec 8)) : List (BitVec 8) :=
  let p := shaPad bs
  let h := (piecesOf 64 (p.length / 64 + 1) p).foldl shaBlock shaInit
  (h.map (fun w => (bytesLE 4 w.toNat).reverse)).flatten

/-- A digest as a number, first byte least significant. -/
def digestNat (bs : List (BitVec 8)) : BitVec 256 := BitVec.ofNat 256 (natLE bs)

/-! ## CRCs -/

/-- One byte into a reflected CRC of width `w`. -/
def crcByte (poly : Nat) (crc : Nat) (b : BitVec 8) : Nat :=
  (List.range 8).foldl (fun c _ => if c % 2 = 1 then (c / 2) ^^^ poly else c / 2) (crc ^^^ b.toNat)

/-- A function of a number that is evaluated first: `strictly n f` is `f n`. -/
def strictly {α : Type} (n : Nat) (f : Nat → α) : α := match n with | 0 => f 0 | m + 1 => f (m + 1)

/-- A reflected CRC over bytes, computed as it goes. -/
def crcFold (poly : Nat) : Nat → List (BitVec 8) → Nat
  | c, [] => c
  | c, b :: bs => strictly (crcByte poly c b) (fun d => crcFold poly d bs)

/-- CRC-32C: Castagnoli, reflected, initial value and final XOR all ones. -/
def crc32c (bs : List (BitVec 8)) : Nat := (crcFold 0x82F63B78 0xFFFFFFFF bs) ^^^ 0xFFFFFFFF

/-- CRC-64 of ECMA-182, reflected, initial value and final XOR all ones. -/
def crc64 (bs : List (BitVec 8)) : Nat := (crcFold 0xC96C5795D7870F42 0xFFFFFFFFFFFFFFFF bs) ^^^ 0xFFFFFFFFFFFFFFFF

/-! ## The generator (13, R384) -/

/-- One round of the generator. -/
def genRound (k0 k1 : BitVec 32) (x : List (BitVec 32)) (i : Nat) : List (BitVec 32) :=
  match x with
  | [x0, x1, x2, x3] =>
    let x0 := x0 + x1 + (if i % 2 = 0 then k0 else k1)
    let x3 := (x3 ^^^ x0).rotateLeft 16
    let x2 := x2 + x3
    let x1 := (x1 ^^^ x2).rotateLeft 12
    let x0 := x0 + x1
    let x3 := (x3 ^^^ x0).rotateLeft 8
    let x2 := x2 + x3 + BitVec.ofNat 32 i
    let x1 := (x1 ^^^ x2).rotateLeft 7
    [x0, x1, x2, x3]
  | l => l

/-- The output block of the generator: four words. -/
def generator (k0 k1 : BitVec 32) (a b c d : BitVec 32) : List (BitVec 32) :=
  let x := (List.range 10).foldl (genRound k0 k1) [a, b, c, d]
  (x.zip [a, b, c, d]).map (fun p => p.1 + p.2)

/-- Word `n` of the stream of a use: block `n / 4`, word `n mod 4` (R385). -/
def streamWord (k0 k1 a b d : BitVec 32) (n : Nat) : BitVec 32 :=
  (generator k0 k1 a b (BitVec.ofNat 32 (n / 4)) d).getD (n % 4) 0

end Sys2Proof.Machine
end

