-- ==== Sys2Proof/Machine/Forward.lean ====
section
/-! DEFINITION. Sending on a link with its retry buffer, control messages and forwards to the twin (18, R530 to R535,
R549). -/

namespace Sys2Proof.Machine

/-- A link: 0 to 19 the fabric ports, 20 to 29 the yoke groups. -/
def State.link (s : State) (n : Nat) : PortLink := getD {} s.ports n

/-- A link replaced. -/
def State.setLink (s : State) (n : Nat) (x : PortLink) : State := { s with ports := putD {} s.ports n x }

/-- Frames that a link's retry buffer holds (R549). -/
def retryFrames : Nat := 512

/-- The bytes of a frame with a payload of `n` bytes: header, whole flits and CRC (R530). -/
def frameBytes (n : Nat) : Nat := 20 + 16 * ((n + 15) / 16)

/-- A frame goes out on a link and is counted. -/
def State.putFrame (s : State) (n : Nat) (f : LinkOut) : State :=
  ((s.emit (.frame n f)).cntPort n 0 1).addBw (0x6000 + 0x80 * n + 6) (frameBytes f.body.length)

/-- A frame with a payload of `len` bytes was received and taken. -/
def State.tookFrame (s : State) (n len : Nat) : State := (s.cntPort n 1 1).addBw (0x6000 + 0x80 * n + 7) (frameBytes len)

/-- A sequenced frame sent on a link; with the retry buffer full it waits behind it (log entry 75). -/
def State.linkSend (s : State) (n : Nat) (f : LinkOut) : State :=
  let x := s.link n
  let f := { f with seq := x.nextSeq }
  let s := s.setLink n { x with nextSeq := (x.nextSeq + 1) % 4096, unacked := x.unacked ++ [f] }
  if x.unacked.length < retryFrames then s.putFrame n f else s

/-- A yoke group that is up. -/
def State.yokeGroup (s : State) : Option Nat :=
  if s.yoke.down then none else (rangeFrom 20 10).find? (fun n => (s.link n).state == 2)

/-- A control message sent over the yoke (Table 18.2). -/
def State.yokeSend (s : State) (kind p : Nat) (body : List (BitVec 8)) : State :=
  match s.yokeGroup with
  | none => s
  | some n => s.linkSend n { seq := 0, kind := kind, paddock := p, body := body }

/-- The poison bits of a payload of bytes, one to a flit of 16. -/
def flitBits (bs : List (Nat × Bool)) : Nat :=
  (List.range ((bs.length + 15) / 16)).foldl (fun n i => if ((bs.drop (16 * i)).take 16).any Prod.snd then n + 2 ^ i else n) 0

/-- A FORWARD to the twin, in frames of at most 256 bytes behind a flit with its kind and address (log entry 96). -/
def State.forward (s : State) (p kind addr : Nat) (bs : List (Nat × Bool)) : State :=
  match s.yokeGroup with
  | none => s
  | some n =>
    let head := fun (a : Nat) => bytesLE 8 a ++ bytesLE 1 kind ++ List.replicate 7 0
    let pieces := if bs.isEmpty then [[]] else piecesOf 256 (bs.length / 256 + 1) bs
    ((List.range pieces.length).zip pieces).foldl (fun s x =>
      s.linkSend n { seq := 0, kind := 0x17, paddock := p, poison := 2 * flitBits x.2
                     body := head (addr + 256 * x.1) ++ x.2.map (fun b => BitVec.ofNat 8 b.1) }) (s.cntPort n 5 bs.length)

/-- Whether tier writes of a paddock are forwarded: in STANDBY, and during an attach copy in both modes (R535, R537). -/
def State.forwardsWrites (s : State) (p : Nat) : Bool :=
  let d := s.paddock p
  !s.yoke.down && d.primary && (d.pairMode == 1 || d.pairMode == 2)
    && ((d.pairMode == 2 && d.twin.joined) || (s.yoke.attachDesc.isSome && !d.twin.joined))

/-- Whether a paddock's pace is shared with the twin (R89, R543). -/
def State.shared (s : State) (p : Nat) : Bool :=
  ((s.paddock p).pairMode == 1 || (s.paddock p).pairMode == 2) && (s.paddock p).twin.joined && !s.yoke.down

/-- Whether a FORWARD of a paddock still waits for its acknowledgement (R534). -/
def State.forwardWaits (s : State) (p : Nat) : Bool :=
  s.ports.any (fun kv => decide (20 ≤ kv.1) && kv.2.unacked.any (fun f => f.kind == 0x17 && f.paddock == p))

/-- The links that could carry a frame of a link: yoke groups, or the ports of the engine's route (R551). -/
def State.otherLinks (s : State) (n : Nat) (f : LinkOut) : List Nat :=
  let all := if 20 ≤ n then rangeFrom 20 10
    else (List.range 20).filter (fun m => bitOf (getD 0 s.fbRoute f.dest) m)
  all.filter (fun m => m != n && (s.link m).state == 2)

/-- A link goes down: frames not yet acknowledged are sent on another that reaches the same engine (R528, R550). -/
def State.linkDown (s : State) (n : Nat) : State :=
  let x := s.link n
  x.unacked.foldl (fun s f => match s.otherLinks n f with
    | m :: _ => s.linkSend m f
    | [] => s.setLink n { s.link n with unacked := (s.link n).unacked ++ [f] }) (s.setLink n { x with state := 0, unacked := [] })

end Sys2Proof.Machine
end

