-- ==== Sys2Proof/Machine/TierOps.lean ====
section
/-! DEFINITION. The memory tiers: interleaving, shares, ECC granules, poison, read-only ranges (10, R316 to R330). -/

namespace Sys2Proof.Machine

/-- The near or the far tier. -/
def State.tier (s : State) (far : Bool) : Tier := if far then s.far else s.near

/-- The state with a tier replaced. -/
def State.setTier (s : State) (far : Bool) (t : Tier) : State := if far then { s with far := t } else { s with near := t }

/-- Logical stacks or devices of a tier (R316). -/
def unitCount (far : Bool) : Nat := if far then 16 else 24

/-- The logical unit of a tier address (R317). -/
def unitOf (far : Bool) (a : Nat) : Nat := a / 4096 % unitCount far

/-- The source id of a tier's logical unit (Table 16.2). -/
def tierSource (far : Bool) (unit : Nat) : Nat := (if far then 0x9000 else 0x8000) + unit

/-- The share units of a paddock. -/
def Paddock.units (d : Paddock) (far : Bool) : List Nat := if far then d.farUnits else d.nearUnits

/-- The tier address of a share offset (R319); `none` beyond the share. -/
def Paddock.shareAddr (d : Paddock) (far : Bool) (off : Nat) : Option Nat :=
  ((d.units far)[off / 2 ^ 30]?).map (fun u => u * 2 ^ 30 + off % 2 ^ 30)

/-- The paddock that holds a tier unit first in order of id, and its share unit. -/
def State.unitOwner (s : State) (far : Bool) (d : Nat) : Option (Nat × Nat) :=
  ((rangeFrom 1 28).find? (fun p => ((s.paddock p).units far).contains d)).map (fun p =>
    (p, ((s.paddock p).units far).idxOf d))

/-- A range of 4 KiB granules that an image mirrors: the other copy's share offset (R329). -/
def Paddock.mirrorOff (d : Paddock) (far : Bool) (off : Nat) : Option Nat :=
  d.mirrors.findSome? (fun m =>
    let (a, b) := if far then (m.2.1, m.1) else (m.1, m.2.1)
    if a ≤ off ∧ off < a + m.2.2 then some (b + (off - a)) else none)

/-- The tier address of the other copy of a mirrored granule. -/
def State.mirrorOf (s : State) (far : Bool) (a : Nat) : Option Nat :=
  (s.unitOwner far (a / 2 ^ 30)).bind (fun pu =>
    let d := s.paddock pu.1
    (d.mirrorOff far (pu.2 * 2 ^ 30 + a % 2 ^ 30)).bind (fun off => d.shareAddr (!far) off))

/-- The granule number of a tier address. -/
def granuleOf (a : Nat) : Nat := a / 64

/-- A granule of a tier. -/
def Tier.granule (t : Tier) (g : Nat) : Granule := getD {} t.granules g

/-- The tier with a granule replaced. -/
def Tier.setGranule (t : Tier) (g : Nat) (x : Granule) : Tier := { t with granules := putD {} t.granules g x }

/-- The rebuilds of a granule's logical unit since its tier unit was filled with zero (R320, R346). -/
def Tier.eraOf (t : Tier) (far : Bool) (g : Nat) : Nat := getD 0 t.rebuilt (32 * (g / 2 ^ 24) + unitOf far (64 * g))

/-- Whether a granule reads as poisoned: marked, uncorrectable, on a failed unit, or on a unit rebuilt since it was written
(R325, R346). -/
def State.granuleBad (s : State) (far : Bool) (g : Nat) : Bool :=
  let t := s.tier far
  let x := t.granule g
  let unit := unitOf far (64 * g)
  x.poison || x.ecc == .multi || t.failed.contains unit || x.era != t.eraOf far g

/-- A granule with its plaintext, written whole under the keys in force. -/
def Tier.whole (t : Tier) (far : Bool) (g : Nat) (bits : BitVec 512) : Granule :=
  { bits := bits, gen := getD 0 t.rekeyed (g / 2 ^ 24), era := t.eraOf far g }

/-! ## Keys (R321, R326) -/

/-- The XTS tweak of the data unit at a tier address. -/
def xtsTweak (far : Bool) (a : Nat) : BitVec 128 := BitVec.ofNat 128 (a / 64 + (if far then 2 ^ 60 else 0))

/-- A key of AES-256-XTS from the chiplet's random generator. -/
def State.randomKey (s : State) (n : Nat) : BitVec 512 :=
  BitVec.ofNat 512 ((List.range 8).foldl (fun v i => v + (s.freshAt (n + i)).toNat * 2 ^ (64 * i)) 0)

/-- The key in force for a paddock at a tier unit: an image key where it has one, else the paddock's; paddock 0 has a pair of its
own. -/
def State.keyOf (s : State) (p : Nat) (far : Bool) (d : Nat) : BitVec 512 :=
  match look (s.tier far).imageKeys d with
  | some k => k
  | none =>
    if p = 0 then (if far then s.sec.serviceFar else s.sec.serviceNear)
    else if far then (s.paddock p).farKey else (s.paddock p).nearKey

/-- What a paddock's controllers decrypt a granule to: its plaintext, unless the key that encrypted it is gone. -/
def State.plainBits (s : State) (p : Nat) (far : Bool) (g : Nat) : BitVec 512 :=
  let t := s.tier far
  let x := t.granule g
  if (s.paddock p).keyless || x.gen != getD 0 t.rekeyed (g / 2 ^ 24) then
    Config.otherKey (s.keyOf p far (g / 2 ^ 24)) (xtsTweak far (64 * g)) x.bits
  else x.bits

/-- The image key of a tier unit is erased: what it encrypted is lost (R321). -/
def Tier.loseKey (t : Tier) (d : Nat) : Tier :=
  match look t.imageKeys d with
  | none => t
  | some _ => { t with imageKeys := drop t.imageKeys d, rekeyed := modD 0 t.rekeyed d (· + 1) }

/-! ## Errors (R324, R325, R345) -/

/-- The latest of a list of reference counts with one more. -/
def latest (n : Nat) (l : List (BitVec 64)) (now : BitVec 64) : List (BitVec 64) := (l ++ [now]).drop (l.length + 1 - n)

/-- A corrected error of a unit at the present reference count. -/
def State.noteCe (s : State) (far : Bool) (unit : Nat) : State :=
  let t := s.tier far
  s.setTier far { t with ceTimes := modD [] t.ceTimes unit (fun l => latest 4097 l s.refCount) }

/-- An uncorrectable error of a unit at the present reference count. -/
def State.noteUe (s : State) (far : Bool) (unit : Nat) : State :=
  let t := s.tier far
  s.setTier far { t with ueTimes := modD [] t.ueTimes unit (fun l => latest 3 l s.refCount) }

/-- What an uncorrectable error does to a granule: it is locked for healing where it is mirrored and marked poisoned elsewhere
(R325, R330). -/
def State.uncorrectable (s : State) (far : Bool) (g : Nat) : State :=
  let s := s.noteUe far (unitOf far (64 * g))
  let t := s.tier far
  if (s.mirrorOf far (64 * g)).isSome then
    if t.heals.contains g then s
    else s.setTier far { t.setGranule g { t.granule g with ecc := .multi } with heals := t.heals ++ [g] }
  else s.setTier far (t.setGranule g { t.whole far g 0 with poison := true })

/-- What a read of a granule does (R324, R325, R330): a single error is corrected and reported; an uncorrectable one is
reported, and the granule is locked for healing where it is mirrored and marked poisoned elsewhere. -/
def State.touchGranule (s : State) (far : Bool) (g : Nat) : State :=
  let t := s.tier far
  let x := t.granule g
  let unit := unitOf far (64 * g)
  let owner := match s.unitOwner far (64 * g / 2 ^ 30) with | some pu => pu.1 | none => 0
  let report := fun code cls => frameReport (tierSource far unit) code cls owner (BitVec.ofNat 64 (64 * g))
  match x.ecc with
  | .good => s
  | .single =>
    (((s.setTier far (t.setGranule g { x with ecc := .good })).noteCe far unit).raise (report 0x0100 clsCE)).cntUnit far unit 3 1
  | .multi => ((s.uncorrectable far g).raise (report 0x0101 clsUE)).cntUnit far unit 4 1

/-- The granules that `n` bytes from a tier address touch. -/
def granulesIn (a n : Nat) : List Nat := if n = 0 then [] else rangeFrom (a / 64) ((a + n - 1) / 64 - a / 64 + 1)

/-- The tier granules of a share range. -/
def Paddock.shareGranules (d : Paddock) (far : Bool) (off n : Nat) : List Nat :=
  (granulesIn off n).filterMap (fun g => (d.shareAddr far (64 * g)).map granuleOf)

/-- The state after the granules of a share range are read. -/
def State.touchShare (s : State) (p : Nat) (far : Bool) (off n : Nat) : State :=
  ((s.paddock p).shareGranules far off n).foldl (fun s g => s.touchGranule far g) s

/-- Whether a granule lies in the row that a migration is copying (R345). -/
def Tier.rowBusy (t : Tier) (far : Bool) (g : Nat) : Bool :=
  match t.migration with
  | none => false
  | some m => unitOf far (64 * g) == m.logical && 64 * g / 4096 / unitCount far == m.rows

/-- Whether a granule of a share range is locked by a heal or lies in the row being copied to a spare site (R330, R345). -/
def State.shareLocked (s : State) (p : Nat) (far : Bool) (off n : Nat) : Bool :=
  let t := s.tier far
  (!t.heals.isEmpty || t.migration.isSome)
    && ((s.paddock p).shareGranules far off n).any (fun g => t.heals.contains g || t.rowBusy far g)

/-- A byte of a share, with the poison of its granule; zero beyond the share; free once the key that encrypted it is erased
(R321; 19, R578; log entry 103). -/
def State.shareByte (s : State) (p : Nat) (far : Bool) (off : Nat) : Nat × Bool :=
  match (s.paddock p).shareAddr far off with
  | none => (0, false)
  | some a =>
    let g := granuleOf a
    if s.granuleBad far g then (0, true)
    else ((s.plainBits p far g).toNat / 2 ^ (8 * (a % 64)) % 256, false)

/-- A patina entry of a tier unit: its position field (17, Table 17.1). -/
def tierPlace (far : Bool) (unit site : Nat) : BitVec 32 := BitVec.ofNat 32 ((if far then 1 else 0) + unit * 2 ^ 8 + site * 2 ^ 16)

/-- A tier unit's move to a spare site (kind 6) or failure (kind 7) is due for the patina map. -/
def State.dueUnit (s : State) (kind : Nat) (far : Bool) (unit site : Nat) : State := s.duePatina kind site (tierPlace far unit site)

/-- Bytes of a share. -/
def State.shareBytes (s : State) (p : Nat) (far : Bool) (off n : Nat) : List (Nat × Bool) :=
  (List.range n).map (fun i => s.shareByte p far (off + i))

/-- A word of 8 bytes, zero where any is poisoned. -/
def wordOf (bs : List (Nat × Bool)) : PWord :=
  if bs.any Prod.snd then { poison := true }
  else { val := BitVec.ofNat 64 (bs.foldr (fun b acc => b.1 + 256 * acc) 0) }

/-- Words of a share from an offset, a multiple of 8. -/
def State.shareWords (s : State) (p : Nat) (far : Bool) (off n : Nat) : List PWord :=
  (List.range n).map (fun i => wordOf (s.shareBytes p far (off + 8 * i) 8))

/-- A write of some bytes of a granule (R325): a write of all 64 bytes replaces it, a partial one leaves it poisoned
where it was, and a poisoned byte poisons it. A partial write over what no key decrypts leaves it so (log entry 103). -/
def Tier.writeGranule (t : Tier) (far : Bool) (g : Nat) (bad : Bool) (lo : Nat) (bs : List (Nat × Bool)) : Granule :=
  let x := t.granule g
  let full := lo = 0 ∧ 64 ≤ bs.length
  if bs.any Prod.snd || (!full && bad) then { t.whole far g 0 with poison := true }
  else
    let v := bs.foldr (fun b acc => b.1 % 256 + 256 * acc) 0
    let n := 8 * bs.length
    let old := x.bits.toNat
    let y := t.whole far g (BitVec.ofNat 512 (old % 2 ^ (8 * lo) + v * 2 ^ (8 * lo) + old / 2 ^ (8 * lo + n) * 2 ^ (8 * lo + n)))
    if full then y else { y with gen := x.gen }

/-- Bytes written at a tier address, granule by granule. -/
def State.writeTier (s : State) (far : Bool) (a : Nat) (bs : List (Nat × Bool)) : State :=
  (granulesIn a bs.length).foldl (fun s g =>
    let lo := if 64 * g < a then a - 64 * g else 0
    let from_ := if 64 * g < a then 0 else 64 * g - a
    let part := (bs.drop from_).take (64 - lo)
    let t := s.tier far
    s.setTier far (t.setGranule g (t.writeGranule far g (s.granuleBad far g) lo part))) s

/-- Whether a near-tier share offset lies in a result slot that is not PENDING (14, R445). -/
def Paddock.slotClosed (d : Paddock) (far : Bool) (off : Nat) : Bool :=
  !far && d.live && decide (d.winNear ≤ off) && decide (off < d.winNear + 2 ^ 29)
    && (getD {} d.slots ((off - d.winNear) / 2 ^ d.slotLog)).state != 1

/-- Whether a share offset lies in a range that takes no write: a shared unit, a mirrored range, or a result slot that is
not PENDING (R321, R329; 14, R445). -/
def State.readOnlyShare (s : State) (p : Nat) (far : Bool) (off : Nat) : Bool :=
  match (s.paddock p).shareAddr far off with
  | none => false
  | some a => (look (s.tier far).shared (a / 2 ^ 30)).isSome || ((s.paddock p).mirrorOff far off).isSome
      || (s.paddock p).slotClosed far off

/-- Bytes cut at 4 KiB boundaries: offset and bytes of each piece. -/
def granulePieces : Nat → Nat → List (Nat × Bool) → List (Nat × List (Nat × Bool))
  | 0, _, _ => []
  | fuel + 1, off, bs =>
    if bs.isEmpty then []
    else
      let n := 4096 - off % 4096
      (off, bs.take n) :: granulePieces fuel (off + n) (bs.drop n)

/-- Bytes written to a share in 4 KiB pieces: a piece in a read-only range is discarded and recorded, one beyond the share
dropped (R321, R323, R329); `each` also has its effect for a piece that is written. -/
def State.writePieces (s : State) (p : Nat) (far : Bool) (off : Nat) (bs : List (Nat × Bool))
    (each : State → Nat → List (Nat × Bool) → State) : State :=
  (granulePieces (bs.length / 4096 + 2) off bs).foldl (fun s piece =>
    match (s.paddock p).shareAddr far piece.1 with
    | none => s
    | some a =>
      if s.readOnlyShare p far piece.1 then
        s.raise (frameReport (tierSource far (unitOf far a)) 0x0600 clsNote p (BitVec.ofNat 64 a))
      else ((each s piece.1 piece.2).writeTier far a piece.2).cntUnit far (unitOf far a) 1 piece.2.length) s

/-- Bytes written to a share; in STANDBY what is written is forwarded (18, R535). -/
def State.writeShare (s : State) (p : Nat) (far : Bool) (off : Nat) (bs : List (Nat × Bool)) : State :=
  s.writePieces p far off bs (fun s o piece =>
    if s.forwardsWrites p && !piece.isEmpty then s.forward p (if far then 3 else 2) o piece else s)

/-- Words as bytes. -/
def bytesOfWords (ws : List PWord) : List (Nat × Bool) :=
  (ws.map (fun w => (List.range 8).map (fun j => (field w.val (8 * j) 8, w.poison)))).flatten

/-- A byte range cut at 4 KiB boundaries: offset and length of each piece. -/
def spans4k : Nat → Nat → Nat → List (Nat × Nat)
  | 0, _, _ => []
  | fuel + 1, off, n =>
    if n = 0 then []
    else
      let m := min n (4096 - off % 4096)
      (off, m) :: spans4k fuel (off + m) (n - m)

/-- The bytes read from a share counted at its units (20). -/
def State.countRead (s : State) (p : Nat) (far : Bool) (off n : Nat) : State :=
  (spans4k (n / 4096 + 2) off n).foldl (fun s x =>
    match (s.paddock p).shareAddr far x.1 with
    | none => s
    | some a => s.cntUnit far (unitOf far a) 0 x.2) s

end Sys2Proof.Machine
end

