-- ==== Sys2Proof/Machine/PaceOps.lean ====
section
/-! DEFINITION. The pace: regions of a paddock, pace counts, table directories and entries, and the end of a stride that
is abandoned (02, R53 to R91). -/

namespace Sys2Proof.Machine

/-! ## Regions of a paddock -/

/-- The regions a paddock owns. -/
def State.regionsOf (s : State) (p : Nat) : List Nat :=
  if p = 0 then [] else (List.range 28).filter (fun r => (s.region r).owner == p)

/-- A change of every region of a paddock. -/
def State.onRegionsOf (s : State) (p : Nat) (f : Region → Region) : State :=
  (s.regionsOf p).foldl (fun s r => s.onRegion r f) s

/-- The tiles of a region that a state lists or that are at reset: those listed. -/
def State.listedTiles (s : State) (p : Nat) : List Nat :=
  (s.tiles.map Prod.fst).filter (fun k => s.ownerOf k == p)

/-- A change of every tile of a paddock; `f` keeps a tile at reset as it is. -/
def State.onTilesOf (s : State) (p : Nat) (f : Nat → Tile → Tile) : State :=
  (s.listedTiles p).foldl (fun s k => s.onTile k (f k)) s

/-! ## Pace counts (R56) -/

/-- The beat of a pace count. -/
def beatOf (c : BitVec 64) : Nat := field c 0 20

/-- The stride number of a pace count. -/
def strideOf (c : BitVec 64) : Nat := field c 20 44

/-- A pace count. -/
def paceCountOf (stride beat : Nat) : BitVec 64 := BitVec.ofNat 64 (stride % 2 ^ 44 * 2 ^ 20 + beat % 2 ^ 20)

/-! ## Directories and tables (R67, R68) -/

/-- The directory entry of a table in a region. -/
def Region.dirEntry (g : Region) (table : Nat) : BitVec 64 := getD 0 g.dir table

/-- The length of a table in beats. -/
def dirLength (e : BitVec 64) : Nat := field e 25 21

/-- The entries of a table in a region, in order. -/
def Region.tableEntries (g : Region) (table : Nat) : List PaceEntry :=
  let e := g.dirEntry table
  (List.range (field e 12 13)).filterMap (fun i => look g.store (field e 0 12 + i))

/-- The regions whose pace units run a paddock's strides: its ACTIVE regions, but for the one that the fallback in force
leaves out (17, R519). -/
def State.paceRegions (s : State) (p : Nat) : List Nat :=
  (s.regionsOf p).filter (fun r => (s.region r).state == .active && (s.paddock p).excluded != some r)

/-- The directory entry of a table of a paddock: every region agrees on its length (R70). -/
def State.tableDir (s : State) (p table : Nat) : BitVec 64 :=
  match s.paceRegions p with
  | [] => 0
  | r :: _ => (s.region r).dirEntry table

/-- Whether a table is in use (R67). -/
def State.tableUsed (s : State) (p table : Nat) : Bool := field (s.tableDir p table) 12 13 != 0

/-- The stride length of a paddock's table. -/
def State.tableLength (s : State) (p table : Nat) : Nat := dirLength (s.tableDir p table)

/-! ## A stride abandoned (R82) -/

/-- What a region keeps of its entries where its paddock returns to a mark (R84, R88): those issued ahead, and those before the mark. -/
def Region.keepEntries (g : Region) (mark : Nat) : Region :=
  let keep := fun (e : PaceEntry) => decide (e.offset < (mark : Int))
  { g with due := g.due.filter keep, opens := g.opens.filter keep, deadlines := [] }

/-- The pace units of a paddock stop at the current beat and its open stride is abandoned; no overrun is reported.
Entries issued ahead stay due (R88), as do those before its mark that have not issued (R84; log entry 139). -/
def State.abandonStride (s : State) (p : Nat) : State :=
  match (s.paddock p).current with
  | none => s
  | some o =>
    (s.onPaddock p (fun d => { d with current := some { o with stopped := true } })).onRegionsOf p
      (fun g => g.keepEntries (beatOf (s.paddock p).ckptLast))

/-! ## Frame registers held as words (16, R14) -/

/-- A frame register by its BAR0 offset, with its reset value. -/
def State.frameReg (s : State) (off : Nat) (reset : BitVec 64) : BitVec 64 := getD reset s.regs (off / 8)

/-- A frame register replaced. -/
def State.setFrameReg (s : State) (off : Nat) (reset v : BitVec 64) : State :=
  { s with regs := putD reset s.regs (off / 8) v }

/-! ## Entries of a pace table at their issue (R71, R72, R77, R80) -/

/-- PACE_STATUS.ref_lost: beats and issues are held (R80). -/
def State.refLost (s : State) : Bool := bitOf s.paceStatus 0

/-- Whether the pace units of a paddock issue entries: a stride is open, not abandoned, not in a held beat, and the
reference is present. -/
def State.issues (s : State) (p : Nat) : Bool :=
  !s.halted && !s.refLost && (match (s.paddock p).current with
    | some o => !o.stopped && !o.inHeld && !o.faulted && !o.replayDue
    | none => false)

/-! ### Gather opens (09, R309) -/

/-- The place and slot of a gather node word (Table 9.6). -/
def nodeSlot (v : BitVec 32) : Nat := v.toNat / 2 ^ 20 % 8

/-- The nodes and leaves of a tree in a region. -/
def Tree.nodesIn (t : Tree) (r : Nat) : List TreeNode := t.nodes.filter (fun n => regionOfTile (placeTile n.place) == r)
def Tree.leavesIn (t : Tree) (r : Nat) : List TreeLeaf := t.leaves.filter (fun l => regionAt l.x l.y == r)

/-- Whether a round of a paddock's tree is under way: a node holds contributions, or a packet of the tree is on its way. -/
def State.roundOn (s : State) (p tree : Nat) : Bool :=
  let ours := fun (a : Packet) => a.op == .gather && a.paddock == p && field a.operand 0 10 == tree
  s.net.any ours || s.tiles.any (fun kv => kv.2.inject.any ours
    || kv.2.nodes.any (fun x => x.2.any (fun nd => nd.tree == tree && nd.paddock == p && !nd.bufs.isEmpty)))

/-- A slot armed for another tree in the middle of a round (R309). -/
def State.slotBusy (s : State) (tree : Nat) (n : TreeNode) : Bool :=
  match getD none (s.tile (placeTile n.place)).nodes (nodeSlot n.place) with
  | some nd => nd.tree != tree && s.roundOn nd.paddock nd.tree
  | none => false

/-- The leaf entry that a full router gives up: that of the tree opened earliest. -/
def Tile.oldestLeaf (t : Tile) : Option LeafEntry :=
  t.leaves.foldl (fun a l => match a with
    | some b => if l.opened < b.opened then some l else some b
    | none => some l) none

/-- A leaf router whose displaced tree still has a contribution queued for injection (R309). -/
def State.leafBusy (s : State) (tree : Nat) (l : TreeLeaf) : Bool :=
  let t := s.tile (tileAt l.x l.y)
  if t.leaves.any (fun x => x.tree == tree) || decide (t.leaves.length < 8) then false
  else match t.oldestLeaf with
    | some x => t.inject.any (fun p => p.op == .gather && field p.operand 0 10 == x.tree)
    | none => false

/-- Whether a gather open must wait in a region. -/
def State.openWaits (s : State) (t : Tree) (r : Nat) : Bool :=
  (t.nodesIn r).any (s.slotBusy t.id) || (t.leavesIn r).any (s.leafBusy t.id)

/-- Whether the effect of an issued entry must wait: a GATHER_OPEN of a tree that must. -/
def State.entryWaits (s : State) (r : Nat) (e : PaceEntry) : Bool :=
  e.action == 0x06 && ((s.paddock (s.region r).owner).trees.find? (fun t => t.id == e.target)).any (s.openWaits · r)

/-- A waiting gather open counts gather_open_wait at a router of its tree. -/
def State.countOpenWait (s : State) (r : Nat) (e : PaceEntry) : State :=
  match (s.paddock (s.region r).owner).trees.find? (fun t => t.id == e.target) with
  | none => s
  | some t =>
    let k := match t.nodesIn r, t.leavesIn r with
      | n :: _, _ => placeTile n.place
      | [], l :: _ => tileAt l.x l.y
      | [], [] => 0
    s.onTile k (fun t => t.countIdx 0x1A4 1)

/-! ### Issue -/

/-- An entry joins those of its region that are issued and whose effects wait in issue order (R72). -/
def State.queueEffect (s : State) (r : Nat) (e : PaceEntry) : State :=
  let s := if s.entryWaits r e then s.countOpenWait r e else s
  s.onRegion r (fun g => { g with opens := g.opens ++ [e] })

/-- The next due entry of a region issues (R71): its effect follows at once, or waits in issue order behind one that waits
(R72; log entry 74); NOP and DEADLINE change nothing that another entry's effect reads. -/
def issueNext (r : RegionIx) (mine : PaceEntry → Bool) (s : State) (body : Nat → PaceEntry → State → State) :
    Host.Outcome State Fault Refusal :=
  let g := s.region r
  match g.due with
  | [] => turnedAway s
  | e :: rest =>
    if mine e && s.issues g.owner then
      let s' := s.setRegion r { g with due := rest }
      if s.entryWaits r e || (!g.opens.isEmpty && e.action != 0x00 && e.action != 0x08) then .next (s'.queueEffect r e).bump
      else .next (body g.owner e s').bump
    else turnedAway s

/-- An entry of a region of the kind that `mine` names: the first of those whose effects wait takes effect where it need wait no
longer, or the next due one issues; `body` is its effect. -/
def issueEntry (r : RegionIx) (mine : PaceEntry → Bool) (s : State) (body : Nat → PaceEntry → State → State) :
    Host.Outcome State Fault Refusal :=
  let g := s.region r
  match g.opens with
  | [] => issueNext r mine s body
  | e :: rest =>
    if mine e && !s.halted && !s.entryWaits r e then .next (body g.owner e (s.setRegion r { g with opens := rest })).bump
    else issueNext r mine s body

/-- The entries of an action. -/
def PaceEntry.is (e : PaceEntry) (action : Nat) : Bool := e.action == action

end Sys2Proof.Machine
end

