-- ==== Sys2Proof/Machine/Queue.lean ====
section
/-! DEFINITION. The queue and sync instructions, sending, and the arrival of messages, answers, notices, signals and
wakes (07). -/

namespace Sys2Proof.Machine

/-! ## q instructions (Table 7.3) -/

/-- Bit `i` of the flags. -/
def qFlag (f : QFields) (i : Nat) : Bool := f.flags.toNat / 2 ^ i % 2 == 1

/-- The checks of q.send and q.trysend in rising cause order (R223, R225): image alignment and range, a marked
destination word, poison. -/
def Tile.sendCause (t : Tile) (image dest : GReg) (long : Bool) : Option Nat :=
  let n := if long then 32 else 16
  lowestCause [(image.val.toNat % n != 0, 0x03), (decide (memEnd < image.val.toNat + n), 0x04),
    (t.markFault [dest], 0x09), (anyPoison [image, dest], 0x0C)]

/-- The address a send fault records. -/
def sendFaultAddr (c : Nat) (image dest : GReg) : BitVec 64 := if c = 0x09 then dest.val else image.val

/-- q.send (R226): the image goes to a free outbound entry, or the core waits. Its faults, those of a marked or poisoned operand
too, name the queue engine, unit 3 (R248; log entry 160). -/
def execQSend (k : TileIx) (f : QFields) (s : State) : Host.Outcome State Fault Refusal :=
  issue k (.qSend k f) [f.rs1, f.qs] s (fun t =>
    let image := t.reg f.rs1
    let dest := t.reg f.qs
    let long := qFlag f 0
    if f.rd ≠ 0 ∨ f.flags.toNat / 2 ≠ 0 then .fault 0 0x01 0
    else match t.sendCause image dest long with
      | some c => .fault 3 c (sendFaultAddr c image dest)
      | none =>
        if t.mustWait t.seq image.val.toNat (if long then 32 else 16) then .stall
        else if 8 ≤ t.outbound.length then .hold { t with wait := .sendFull dest.val long image.val }
        else
          let (ws, t) := s.readImage k t image.val.toNat long
          .retire (t.addOutbound dest.val long ws false false))

/-- q.trysend (R231). -/
def execQTrysend (k : TileIx) (f : QFields) (s : State) : Host.Outcome State Fault Refusal :=
  issue k (.qTrysend k f) [f.rs1, f.qs] s (fun t =>
    let image := t.reg f.rs1
    let dest := t.reg f.qs
    let long := qFlag f 0
    if f.flags.toNat / 2 ≠ 0 then .fault 0 0x01 0
    else match t.sendCause image dest long with
      | some c => .fault 3 c (sendFaultAddr c image dest)
      | none =>
        if t.mustWait t.seq image.val.toNat (if long then 32 else 16) then .stall
        else if 8 ≤ t.outbound.length then .retire (t.setReg f.rd { val := 2 })
        else
          let (ws, t) := s.readImage k t image.val.toNat long
          .hold { t.addOutbound dest.val long ws true false with wait := .trySend f.rd t.nextRef })

/-- The issue of an instruction that names a queue (R219, R223, R276). -/
def queueIssue (k : TileIx) (i : Instr) (q : Nat) (bad steerOk : Bool) (s : State) (body : Tile → Issued) :
    Host.Outcome State Fault Refusal :=
  issue k i [] s (fun t =>
    if bad then .fault 0 0x01 0
    else match t.queueCause q steerOk with
      | some c => .fault 3 c 0
      | none => body t)

/-- q.recv (R234): the head message's address and length, and its release. -/
def execQRecv (k : TileIx) (f : QFields) (s : State) : Host.Outcome State Fault Refusal :=
  queueIssue k (.qRecv k f) f.qs.toNat (f.flags != 0) false s (fun t =>
    if (t.queue f.qs.toNat).headItem.isNone then .hold { t with wait := .recv f.qs.toNat f.rd f.rs1 true }
    else .retire (s.receive k t f.qs.toNat f.rd f.rs1 true))

/-- q.peek (R234). -/
def execQPeek (k : TileIx) (f : QFields) (s : State) : Host.Outcome State Fault Refusal :=
  queueIssue k (.qPeek k f) f.qs.toNat (f.flags != 0) false s (fun t =>
    if (t.queue f.qs.toNat).headItem.isNone then .hold { t with wait := .recv f.qs.toNat f.rd f.rs1 false }
    else .retire (s.receive k t f.qs.toNat f.rd f.rs1 false))

/-- q.pop (R234, R235). -/
def execQPop (k : TileIx) (f : QFields) (s : State) : Host.Outcome State Fault Refusal :=
  queueIssue k (.qPop k f) f.qs.toNat (f.rd != 0 || f.rs1 != 0 || f.flags != 0) false s (fun t =>
    if (t.queue f.qs.toNat).headItem.isNone then .fault 3 0x62 0
    else .retire (s.release k t f.qs.toNat))

/-- q.word (R235): marked; words 2 and 3 of a short message read zero. -/
def execQWord (k : TileIx) (f : QFields) (s : State) : Host.Outcome State Fault Refusal :=
  queueIssue k (.qWord k f) f.qs.toNat (f.rs1 != 0 || decide (4 ≤ f.flags.toNat)) false s (fun t =>
    match (t.queue f.qs.toNat).headItem with
    | none => .fault 3 0x62 0
    | some i =>
      if 2 * i.slots ≤ f.flags.toNat then .retire (t.setReg f.rd { val := 0, mark := true })
      else
        let w := ringWord (t.queue f.qs.toNat) i.slot f.flags.toNat
        let v := t.word w
        .retire ((s.touch k t w).setReg f.rd { val := v.val, mark := true, poison := v.poison }))

/-- The checks of q.select, in rising cause order (R219, R225, R236, R276). -/
def Tile.selectCause (t : Tile) (m : GReg) : Option Nat :=
  let named := (List.range 32).filter (bitOf m.val)
  let causeIs := fun c q => t.queueCause q false == some c
  lowestCause [(t.markFault [m], 0x08), (m.poison, 0x0C), (named.any (causeIs 0x60), 0x60),
    (named.any (causeIs 0x61), 0x61), (m.val.toNat == 0 || decide (2 ^ 32 ≤ m.val.toNat), 0x63),
    (named.any (causeIs 0x72), 0x72)]

/-- q.select (R236). -/
def execQSelect (k : TileIx) (f : QFields) (s : State) : Host.Outcome State Fault Refusal :=
  issue k (.qSelect k f) [f.rs1] s (fun t =>
    let m := t.reg f.rs1
    if f.qs ≠ 0 ∨ f.flags ≠ 0 then .fault 0 0x01 0
    else match t.selectCause m with
      | some c => .fault 3 c 0
      | none =>
        match t.selectNow m.val f.rd with
        | some t => .retire t
        | none => .hold { t with wait := .select m.val f.rd })

/-- q.count (R223). -/
def execQCount (k : TileIx) (f : QFields) (s : State) : Host.Outcome State Fault Refusal :=
  queueIssue k (.qCount k f) f.qs.toNat (f.rs1 != 0 || f.flags != 0) true s (fun t =>
    .retire (t.setReg f.rd { val := BitVec.ofNat 64 (t.queue f.qs.toNat).messages }))

/-! ## Controllers (R239, R242 to R244, R621) -/

/-- Table 1.1's contact: the logical tile through whose router a region controller is reached (R621). -/
def State.contactTile (s : State) (r : Nat) : Nat :=
  match (s.region r).contact with
  | some k => k
  | none => tileAt (210 * (r % 4) + 105) (78 * (r / 4) + 39)

/-- A controller's object: `region r` and object `i`, or a paddock's wafer object. -/
inductive ObjRef where
  | barrier (r i : Nat)
  | wafer (p i : Nat)
  deriving DecidableEq, Repr

/-- The object a reference names; `none` where it is unused or beyond the paddock's count (R243, R244). -/
def State.object (s : State) : ObjRef → Option BarrierObj
  | .barrier r i => let o := getD {} (s.region r).barriers i; if o.mode = 0 then none else some o
  | .wafer p i =>
    let w := (s.paddock p).wafer
    if i < w.count then some (getD {} w.objs i) else none

/-- The state with an object replaced. -/
def State.setObject (s : State) (o : ObjRef) (x : BarrierObj) : State :=
  match o with
  | .barrier r i => s.onRegion r (fun g => { g with barriers := putD {} g.barriers i x })
  | .wafer p i => s.onPaddock p (fun d => { d with wafer := { d.wafer with objs := putD {} d.wafer.objs i x } })

/-- Level and object number as a WAKE carries them (Table 9.2). -/
def ObjRef.operand : ObjRef → BitVec 64
  | .barrier _ i => BitVec.ofNat 64 (i + 2 * 64)
  | .wafer _ i => BitVec.ofNat 64 (i + 3 * 64)

/-- A WAKE or a reply with a value from an object's controller to a tile (R242, R621; log entry 28). -/
def State.sendWake (s : State) (o : ObjRef) (k : Nat) (value : Option (BitVec 64)) : State :=
  let data : List PWord := match value with | some v => [{ val := v }] | none => []
  match o with
  | .barrier r _ =>
    let p := s.packetOf (s.contactTile r) .wake o.operand (tileX k, tileY k)
    s.launch { p with data := data, paddock := s.ownerOf k }
  | .wafer _ _ =>
    s.launch { s.framePacket controllerStirrup .wake o.operand (tileX k) (tileY k) (s.ownerOf k) with data := data }

/-- A signal applied at a controller: every recorded waiter is woken when the target is reached (R240 to R242); a signal
to an unused object is discarded and recorded (R243, R244). -/
def State.signalObject (s : State) (o : ObjRef) (amount : BitVec 32) (x y : Nat) (p : Nat) : State :=
  match s.object o with
  | none => s.raise (frameReport (match o with | .barrier r _ => 0x3000 + r | .wafer _ _ => 0xE000) 0x0607 clsNote p o.operand)
  | some b =>
    let b := { b with value := b.value + amount, lastX := BitVec.ofNat 10 x, lastY := BitVec.ofNat 10 y,
                      lastCount := (s.paddock p).paceCount }
    if reached b.value b.target then
      b.waiters.foldl (fun s k => s.sendWake o k none) (s.setObject o { b with waiters := [] })
    else s.setObject o b

/-- A waiting tile is recorded, or woken at once (R242). -/
def State.waitObject (s : State) (o : ObjRef) (k : Nat) : State :=
  match s.object o with
  | none => s.raise (frameReport (match o with | .barrier r _ => 0x3000 + r | .wafer _ _ => 0xE000) 0x0607 clsNote
      (s.ownerOf k) o.operand)
  | some b =>
    if reached b.value b.target then s.sendWake o k none else s.setObject o { b with waiters := b.waiters ++ [k] }

/-- The reply to s.trywait or s.read (R242). -/
def State.readObject (s : State) (o : ObjRef) (k : Nat) (isRead : Bool) : State :=
  match s.object o with
  | none => s.raise (frameReport (match o with | .barrier r _ => 0x3000 + r | .wafer _ _ => 0xE000) 0x0607 clsNote
      (s.ownerOf k) o.operand)
  | some b =>
    s.sendWake o k (some (if isRead then b.value.setWidth 64 else if reached b.value b.target then 1 else 0))

/-! ## s instructions (Table 7.3, R223 to R225, R239) -/

/-- The level of an s instruction. -/
def qLevel (f : QFields) : Nat := f.flags.toNat % 4

/-- Whether an object word of a level is an error (R224). -/
def State.badObjectWord (s : State) (k : Nat) (level : Nat) (w : BitVec 64) : Bool :=
  match level with
  | 1 => decide (field w 60 4 ≠ 0) || decide (field w 50 10 ≠ 0) || decide (field w 4 26 ≠ 0)
  | 2 => decide (field w 13 51 ≠ 0) || decide (field w 6 2 ≠ 0) || decide (28 ≤ field w 8 5)
      || (s.region (field w 8 5)).owner != s.ownerOf k || s.ownerOf k == 0
  | _ => decide (field w 4 60 ≠ 0)

/-- The checks of s.wait, s.signal, s.trywait and s.read in rising cause order. -/
def State.syncCause (s : State) (k : Nat) (t : Tile) (f : QFields) (word : GReg) (noLevel1 : Bool)
    (counts : List GReg) : Option Nat :=
  let far := (qLevel f) != 0
  lowestCause [(t.markFault counts, 0x08), (far && t.markFault [word], 0x09),
    ((far && word.poison) || anyPoison counts, 0x0C), (noLevel1 && (qLevel f) == 1, 0x64),
    ((!far && decide (15 < f.qs.toNat)) || (far && s.badObjectWord k (qLevel f) word.val), 0x65)]

/-- Fields that are zero: [20:16] at level 0, [15:11] at the others, and the flags above the level (R223). -/
def qSyncBad (f : QFields) : Bool :=
  decide (4 ≤ f.flags.toNat) || (if qLevel f = 0 then f.rs1 != 0 else f.qs != 0)

/-- The SIGNAL packet of s.signal at levels 1 to 3 (Table 9.2, R621). -/
def State.signalPacket (s : State) (k : Nat) (level : Nat) (w : BitVec 64) (amount : BitVec 32) : Packet :=
  let obj := field w 0 (if level = 2 then 6 else 4)
  let operand := BitVec.ofNat 64 (amount.toNat + obj * 2 ^ 32 + level * 2 ^ 38)
  match level with
  | 1 => s.packetOf k .signal operand (field w 30 10, field w 40 10)
  | 2 =>
    let c := s.contactTile (field w 8 5)
    s.packetOf k .signal operand (tileX c, tileY c)
  | _ => s.packetToFrame k .signal operand controllerStirrup

/-- The object an object word names at level 2 or 3. -/
def State.objOf (s : State) (k : Nat) (level : Nat) (w : BitVec 64) : ObjRef :=
  if level = 2 then .barrier (field w 8 5) (field w 0 6) else .wafer (s.ownerOf k) (field w 0 4)

/-- The request of s.wait, s.trywait or s.read to an object's controller: it travels as a signal of that level does (R621; log
entry 28). -/
def State.askPacket (s : State) (k : Nat) (level : Nat) (w : BitVec 64) (ask : Nat) : Packet :=
  let p := s.signalPacket k level w 0
  { p with tag := { p.tag with ask := ask } }

/-- s.wait (R242): at level 0 on the tile's own object, above it by a request to the controller (R621). -/
def execSWait (k : TileIx) (f : QFields) (s : State) : Host.Outcome State Fault Refusal :=
  issue k (.sWait k f) [f.rs1] s (fun t =>
    let w := t.reg f.rs1
    if f.rd ≠ 0 ∨ qSyncBad f then .fault 0 0x01 0
    else match s.syncCause k t f w true [] with
      | some c => .fault 3 c w.val
      | none =>
        if qLevel f = 0 then
          let o := t.sync f.qs.toNat
          if reached o.value o.target then .retire t
          else .hold { t with syncs := putD {} t.syncs f.qs.toNat { o with waiting := true }
                              wait := .sync f.qs.toNat }
        else .hold { (t.send (s.askPacket k (qLevel f) w.val 1)) with wait := .remoteSync (qLevel f) w.val })

/-- s.signal (R240): an amount added to an object. A tile outside the issuer's paddock is an address error (R49; log
entry 32). -/
def execSSignal (k : TileIx) (f : QFields) (s : State) : Host.Outcome State Fault Refusal :=
  issue k (.sSignal k f) [f.rd, f.rs1] s (fun t =>
    let w := t.reg f.rs1
    let a := t.reg f.rd
    if qSyncBad f then .fault 0 0x01 0
    else match s.syncCause k t f w false [a] with
      | some c => .fault 3 c w.val
      | none =>
        let amount := a.val.setWidth 32
        if qLevel f = 0 then .retire (s.ownSignal k t f.qs.toNat amount)
        else
          let x := field w.val 30 10
          let y := field w.val 40 10
          let stray := (qLevel f) = 1 ∧ (!onGrid x y || !s.present (tileAt x y) || s.ownerOf (tileAt x y) != s.ownerOf k)
          if stray then .retire (t.raise (s.tileNote k 0x060B w.val))
          else .retire (t.send (s.signalPacket k (qLevel f) w.val amount)))

/-- s.set (R240): value and target of an own object. -/
def execSSet (k : TileIx) (f : QFields) (s : State) : Host.Outcome State Fault Refusal :=
  issue k (.sSet k f) [f.rd, f.rs1] s (fun t =>
    let v := t.reg f.rd
    let g := t.reg f.rs1
    if f.flags ≠ 0 then .fault 0 0x01 0
    else match lowestCause [(t.markFault [v, g], 0x08), (anyPoison [v, g], 0x0C), (decide (15 < f.qs.toNat), 0x65)] with
      | some c => .fault 3 c 0
      | none =>
        let o := t.sync f.qs.toNat
        .retire { t with
          syncs := putD {} t.syncs f.qs.toNat { o with value := v.val.setWidth 32, target := g.val.setWidth 32 } })

/-- s.trywait and s.read (R242): at once at level 0, by a reply at levels 2 and 3. -/
def syncQuery (k : TileIx) (i : Instr) (f : QFields) (isRead : Bool) (s : State) : Host.Outcome State Fault Refusal :=
  issue k i [f.rs1] s (fun t =>
    let w := t.reg f.rs1
    if qSyncBad f then .fault 0 0x01 0
    else match s.syncCause k t f w true [] with
      | some c => .fault 3 c w.val
      | none =>
        if qLevel f = 0 then
          let o := t.sync f.qs.toNat
          let v : BitVec 64 := if isRead then o.value.setWidth 64 else if reached o.value o.target then 1 else 0
          .retire (t.setReg f.rd { val := v })
        else .hold { (t.send (s.askPacket k (qLevel f) w.val (if isRead then 3 else 2))) with wait := .reply f.rd isRead w.val })

/-- s.trywait. -/
def execSTrywait (k : TileIx) (f : QFields) (s : State) : Host.Outcome State Fault Refusal := syncQuery k (.sTrywait k f) f false s

/-- s.read. -/
def execSRead (k : TileIx) (f : QFields) (s : State) : Host.Outcome State Fault Refusal := syncQuery k (.sRead k f) f true s

/-! ## Sending (R224, R227, R229, R232) -/

/-- Whether a queue destination word is an address error (R224, R229). Selectors 5 and 6 name declared remote queues
(R280, R553). -/
def State.destError (s : State) (k : Nat) (w : BitVec 64) : Bool :=
  match selectorOf w with
  | 0 =>
    let x := field w 30 10
    let y := field w 40 10
    decide (field w 50 10 ≠ 0) || decide (field w 5 25 ≠ 0) || !onGrid x y || !s.present (tileAt x y)
      || s.ownerOf (tileAt x y) != s.ownerOf k
  | 5 => !(s.paddock (s.ownerOf k)).channels.any (fun c => c.outDest == some w)
  | 6 => !(s.paddock (s.ownerOf k)).channels.any (fun c => c.outDest == some w)
  | _ => true

/-- The outbound channel of a paddock that serves a destination word (R553). -/
def State.channelOf (s : State) (p : Nat) (w : BitVec 64) : Option Channel :=
  (s.paddock p).channels.find? (fun c => c.outDest == some w)

/-- A paddock's channel replaced, by its id and direction. -/
def Paddock.setChannel (d : Paddock) (c : Channel) : Paddock :=
  { d with channels := d.channels.map (fun x => if x.id = c.id ∧ x.inbound = c.inbound then c else x) }

/-- Whether an entry may leave: a message of a remote channel needs a credit (R554). -/
def State.hasCredit (s : State) (k : Nat) (e : OutEntry) : Bool :=
  match s.channelOf (s.ownerOf k) e.dest with
  | some c => selectorOf e.dest == 0 || decide (c.inFlight.length < c.credit)
  | none => true

/-- The engine of a remote destination has sent HALTED (R552). -/
def State.peerHalted (s : State) (w : BitVec 64) : Bool :=
  selectorOf w == 6 && bitOf (getD 0 s.fbRoute (field w 54 6)) 63

/-- The message packet of an entry; for a remote queue it goes to the link's stirrup, and `loc` holds the channel. -/
def State.msgPacket (s : State) (k : Nat) (e : OutEntry) : Packet :=
  let p := if selectorOf e.dest = 0 then
      { s.packetOf k .msg 0 (field e.dest 30 10, field e.dest 40 10) with queue := field e.dest 0 5 }
    else
      let c := ((s.channelOf (s.ownerOf k) e.dest).map Channel.id).getD 0
      { s.packetToFrame k .msg 0 (s.peerHome e.dest c) with tag := { loc := c } }
  { p with length := e.words.length / 2, data := flitPoison e.words,
           tag := { p.tag with ref := e.ref, flag := e.trySend } }

/-- An outbound entry is sent: to the tile's own queue without the router (R232), into the mesh, or refused as an address
error (R229) or answered ADDRESS where the peer engine has halted (R552). -/
def State.sendEntry (s : State) (k : Nat) (t : Tile) (e : OutEntry) : Tile :=
  if s.destError k e.dest then
    s.takeAnswer k (t.raise (s.tileNote k 0x060B e.dest)) e.ref 3 false
  else if s.peerHalted e.dest then s.takeAnswer k t e.ref 3 false
  else
    let t := { t with outbound := t.outbound.map (fun x => if x.ref = e.ref then { x with state := .sent } else x) }
    if selectorOf e.dest = 0 ∧ tileAt (field e.dest 30 10) (field e.dest 40 10) = k then
      match s.arrive k t (field e.dest 0 5) e.words k e.ref e.trySend with
      | (t, .accepted) => s.takeAnswer k t e.ref 0 false
      | (t, .applied) => t
      | (t, .refused listed) => s.takeAnswer k t e.ref 1 listed
      | (t, .discarded) => s.takeAnswer k t e.ref 3 false
    else t.send (s.msgPacket k e)

/-- An entry sent and, where it is a remote channel's, its credit taken. -/
def State.sendAndCredit (s : State) (k : Nat) (e : OutEntry) : State :=
  let s' := s.setTile k (s.sendEntry k (s.tile k) e)
  match s.channelOf (s.ownerOf k) e.dest with
  | some c =>
    if selectorOf e.dest = 0 || s.destError k e.dest || s.peerHalted e.dest then s'
    else s'.onPaddock (s.ownerOf k) (fun d => d.setChannel { c with inFlight := c.inFlight ++ [(k, e.ref)] })
  | none => s'

/-- Whether an entry stands behind an earlier one to the same destination queue (R227). -/
def behindSame : List OutEntry → OutEntry → Bool
  | [], _ => false
  | x :: xs, e => if x.ref = e.ref then false else x.dest == e.dest || behindSame xs e

/-- OUTBOUND_SEND: an entry leaves once every earlier message to its queue has been accepted or discarded (R227). -/
def execOutboundSend (k : TileIx) (entry : Nat) (s : State) : Host.Outcome State Fault Refusal :=
  let t := s.tile k
  if !(s.present k && s.clocked (regionOfTile k)) || t.stopped then turnedAway s
  else match t.outbound[entry]? with
    | none => turnedAway s
    | some e =>
      if e.state = .waiting && !behindSame t.outbound e && s.hasCredit k e then .next (s.sendAndCredit k e).bump
      else turnedAway s

/-- MSG_RESEND_TIMEOUT: a refused entry that no retry list holds is sent again (R230). -/
def execMsgResendTimeout (k : TileIx) (entry : Nat) (s : State) : Host.Outcome State Fault Refusal :=
  let t := s.tile k
  if !(s.present k && s.clocked (regionOfTile k)) || t.stopped then turnedAway s
  else match t.outbound[entry]? with
    | none => turnedAway s
    | some e => if e.state = .refused false then .next (s.sendAndCredit k e).bump else turnedAway s

/-- SYNC_STUCK (R238): an outbound entry, or the core's wait, is beyond its limit; the object of a wait is stuck (R247). -/
def execSyncStuck (k : TileIx) (entry : Option Nat) (s : State) : Host.Outcome State Fault Refusal :=
  engine k s (fun t =>
    let stuck := fun (addr : BitVec 64) => some { s.tileFault k t 3 0x10 t.pc addr with stopped := true }
    let stuckIn := fun (level : Nat) (w : BitVec 64) =>
      some { s.tileFault k t 3 0x10 t.pc w with stopped := true, stuckAt := some (level, w) }
    match entry with
    | some n =>
      match t.outbound[n]? with
      | some e => if t.sendBeats = 0 then none else stuck e.dest
      | none => none
    | none =>
      if t.waitBeats = 0 then none
      else match t.wait with
        | .recv q _ _ _ => stuck (BitVec.ofNat 64 q)
        | .select _ _ => stuck s.fresh
        | .trySend _ r => match t.outEntry r with | some e => stuck e.dest | none => none
        | .sync i => stuckIn 0 (BitVec.ofNat 64 i)
        | .remoteSync level w => stuckIn level w
        | _ => none)

end Sys2Proof.Machine
end

