-- ==== Sys2Proof/Machine/Remote.lean ====
section
/-! DEFINITION. Remote put and get, and r.fence (03, R121 to R125; 09, R286; 10, R323). -/

namespace Sys2Proof.Machine

/-- The pieces of a remote operation: offset from its start and bytes, at most 256 each, and never across a 4 KiB boundary
of a tier or of host space (R125, R286, R323). -/
def remotePieces (cut : Bool) (addr : Nat) : Nat → Nat → Nat → List (Nat × Nat)
  | 0, _, _ => []
  | fuel + 1, at_, left =>
    if left = 0 then []
    else
      let room := if cut then 4096 - (addr + at_) % 4096 else 256
      let n := min left (min 256 room)
      (at_, n) :: remotePieces cut addr fuel (at_ + n) (left - n)

/-- The remote operations outstanding: at most 16 (R123). -/
def Tile.remoteFull (t : Tile) : Bool := decide (16 ≤ t.remote.length)

/-- The end of a remote operation: its signal, if one was asked for (R123). -/
def State.remoteDone (s : State) (k : Nat) (t : Tile) (sig : Option (BitVec 4)) : Tile :=
  match sig with
  | some i => s.ownSignal k t i.toNat 1
  | none => t

/-- Check 1 of R122: marked or poisoned operands, recorded with unit 0. -/
def Tile.remoteOperands (t : Tile) (loc addr len : GReg) : Option Nat :=
  lowestCause [(t.markFault [len], 0x08), (t.markFault [addr], 0x09), (anyPoison [loc, addr, len], 0x0C)]

/-- Checks 2 to 5 of R122, in order, recorded with unit 2; a length of zero passes them. A fault of the length involves no address
(log entry 148). -/
def Tile.remoteRange (t : Tile) (isGet : Bool) (loc addr len : Nat) : Option (Nat × Nat) :=
  if len = 0 then none
  else if 65536 < len then some (0x0D, 0)
  else if len % 8 ≠ 0 then some (0x03, 0)
  else if loc % 8 ≠ 0 then some (0x03, loc)
  else if addr % 8 ≠ 0 then some (0x03, addr)
  else if memEnd < loc + len then some (0x04, loc)
  else if isGet && t.protects loc len then some (0x06, loc)
  else none

/-- A remote operation's packets. -/
def State.remotePackets (s : State) (k : Nat) (t : Tile) (isGet : Bool) (ref loc : Nat) (addr : BitVec 64) (len : Nat) :
    List Packet :=
  (remotePieces (selectorOf addr != 0) addr.toNat (len / 8 + 1) 0 len).map (fun (o, n) =>
    let a := addr + BitVec.ofNat 64 o
    let p := s.packetFor k (if isGet then .get else .put) a
    { p with length := flitsOf n
             data := if isGet then [] else flitPoison (t.words ((loc + o) / 8) (n / 8))
             tag := { ref := ref, loc := loc + o, bytes := n } })

/-- The start of a remote operation: its packets leave in ascending address order; an address error is refused at once
(R49, R125). -/
def State.startRemote (s : State) (k : Nat) (t : Tile) (isGet : Bool) (loc : Nat) (addr : BitVec 64) (len : Nat)
    (sig : Option (BitVec 4)) : Tile :=
  let t := t.count 8 1
  if len = 0 then s.remoteDone k t sig
  else if s.addrError { tile := k, service := t.service, isPut := !isGet, isMsg := false, addr := addr, len := len } then
    let t := t.raise (s.tileNote k 0x060B addr)
    let t := if isGet then t.putWords (loc / 8) (List.replicate (len / 8) { poison := true }) else t
    s.remoteDone k t sig
  else
    let ps := s.remotePackets k t isGet t.nextRef loc addr len
    let t := if isGet then t else s.touchAll k t (rangeFrom (loc / 8) (len / 8))
    { t with
      inject := t.inject ++ ps
      remote := t.remote ++ [{ ref := t.nextRef, isGet := isGet, loc := loc, len := len, addr := addr, signal := sig,
                               left := len }]
      nextRef := t.nextRef + 1 }

/-- r.get and r.put (R121, R122): local offset in g[rd], device address in g[rs1], length in g[rs2]. -/
def remoteOp (k : TileIx) (i : Instr) (isGet : Bool) (rd rs1 rs2 : BitVec 5) (func : BitVec 11) (s : State) :
    Host.Outcome State Fault Refusal :=
  issue k i [rd, rs1, rs2] s (fun t =>
    let loc := t.reg rd
    let addr := t.reg rs1
    let len := t.reg rs2
    if func.toNat / 32 ≠ 0 then .fault 0 0x01 0
    else match t.remoteOperands loc addr len with
      | some c => .fault 0 c (if c = 0x09 then addr.val else 0)
      | none =>
        match t.remoteRange isGet loc.val.toNat addr.val.toNat len.val.toNat with
        | some (c, a) => .fault 2 c (BitVec.ofNat 64 a)
        | none =>
          if len.val ≠ 0 ∧ (t.remoteFull || t.mustWait t.seq loc.val.toNat len.val.toNat) then .stall
          else
            let sig := if func.toNat / 16 % 2 = 1 then some (func.setWidth 4) else none
            .retire (s.startRemote k t isGet loc.val.toNat addr.val len.val.toNat sig))

/-- r.get. -/
def execRGet (k : TileIx) (rd rs1 rs2 : BitVec 5) (func : BitVec 11) (s : State) : Host.Outcome State Fault Refusal :=
  remoteOp k (.rGet k rd rs1 rs2 func) true rd rs1 rs2 func s

/-- r.put. -/
def execRPut (k : TileIx) (rd rs1 rs2 : BitVec 5) (func : BitVec 11) (s : State) : Host.Outcome State Fault Refusal :=
  remoteOp k (.rPut k rd rs1 rs2 func) false rd rs1 rs2 func s

/-- Whether every outstanding remote operation of the tile has completed; a vx.tally message counts until its answer
(R123, R393). -/
def Tile.fenced (t : Tile) : Bool :=
  t.remote.isEmpty && !t.outbound.any (·.tally) && !t.vxQueue.any (fun e => e.kind == .tally)

/-- r.fence (R100, R123); all other fields zero. -/
def execRFence (k : TileIx) (rd rs1 rs2 : BitVec 5) (func : BitVec 11) (s : State) : Host.Outcome State Fault Refusal :=
  issue k (.rFence k rd rs1 rs2 func) [] s (fun t =>
    if rd ≠ 0 ∨ rs1 ≠ 0 ∨ rs2 ≠ 0 ∨ func ≠ 0 then .fault 0 0x01 0
    else if t.fenced then .retire t else .stall)

end Sys2Proof.Machine
end

