-- ==== Sys2Proof/Machine/Mesh.lean ====
section
/-! DEFINITION. The mesh: routing, isolation, dead ports, rein bursts and taps, gather nodes, and the packets that end at
a tile (09, R283 to R314). -/

namespace Sys2Proof.Machine

/-! ## Routing (R289, R295) -/

/-- Whether a detour entry matches a destination and an arrival port (Table 9.3). -/
def detourMatches (e : BitVec 64) (x y inPort : Nat) : Bool :=
  bitOf e 63 && decide (field e 0 10 ≤ x) && decide (x ≤ field e 10 10) && decide (field e 20 10 ≤ y)
    && decide (y ≤ field e 30 10) && bitOf e (40 + inPort)

/-- The output port and the escape bit that the table version of a packet's epoch gives it, if an entry matches. -/
def Tile.detour (t : Tile) (epoch : Bool) (x y inPort : Nat) : Option (Nat × Bool) :=
  ((List.range 32).map (getD 0 (if epoch then t.detourB else t.detourA))).findSome? (fun e =>
    if detourMatches e x y inPort then some (field e 60 2, bitOf e 62) else none)

/-- Dimension order, X first; `none` at the destination. -/
def dimensionOrder (k x y : Nat) : Option Nat :=
  if x < tileX k then some 3 else if tileX k < x then some 1
  else if y < tileY k then some 0 else if tileY k < y then some 2 else none

/-- The output port of a packet at a router and whether it takes the escape channel; `none` where it is ejected. -/
def State.output (s : State) (k inPort : Nat) (p : Packet) : Option (Nat × Bool) :=
  match (s.tile k).detour p.epoch p.destX p.destY inPort with
  | some o => some o
  | none => (dimensionOrder k p.destX p.destY).map (fun d => (d, false))

/-- Whether a port of a router is dead. -/
def Tile.deadPort (t : Tile) (d : Nat) : Bool := t.deadPorts.getLsbD d

/-- The flits of a packet, header included. -/
def Packet.flits (p : Packet) : Nat := 1 + (p.data.length + 1) / 2

/-- R294: whether a router may take a packet from a port. -/
def State.admitted (s : State) (k inPort : Nat) (escape : Bool) (p : Packet) : Bool :=
  match (if inPort < 4 then neighbour k inPort else none) with
  | none => true
  | some from_ =>
    regionOfTile from_ == regionOfTile k || p.paddock == s.ownerOf k || p.frame || decide (p.srcX = 0x3FF ∧ p.srcY = 0x3FF)
      || escape

/-- An isolation drop (R293). -/
def State.isolationDrop (s : State) (k : Nat) (p : Packet) : State :=
  (s.discardPacket k p 0x0601).onTile k (fun t => t.countIdx 0x1A0 1)

/-- Whether two packets stand in one of the five virtual channels of an input port, one for each class and the escape channel, or
one waits at the gathering channel of the other's port (R289, R292, R311). -/
def sameChannel (a b : Packet) : Bool :=
  match a.pos, b.pos with
  | .router k i e, .router k' i' e' => k == k' && i == i' && e == e' && (e || a.op.cls == b.op.cls)
  | .ejected k i, .ejected k' i' => k == k' && i == i' && a.op.cls == b.op.cls
  | .ejected k i, .router k' i' _ => a.op == .gather && b.op == .gather && k == k' && i == i'
  | _, _ => false

/-- Whether the channel that a packet would enter has a credit left for its header: fewer than the 8 flits of its buffer are
taken (R289; log entry 136). -/
def State.credit (s : State) (p : Packet) : Bool :=
  decide (((s.net.filter (fun a => sameChannel a p)).map Packet.flits).sum < 8)

/-- Whether a logical position holds a tile in the version of the maps that a packet's epoch names (R297): during a flip, a
position whose repair the flip carries holds one in the new version. -/
def State.presentFor (s : State) (p : Packet) (k : Nat) : Bool :=
  s.present k || (s.flip && p.epoch != s.epoch && s.repairs.any (fun x => x.flipping && x.tile == k)
    && ((s.colsOf k).getD (tileX k % 70) none).isSome)

/-- The tile that a packet reaches at its destination: the physical tile that its epoch's version of the maps names (R297), which
from the request of a flip on stands under the new version; `none` where that one is in use no more. -/
def State.landing (s : State) (p : Packet) (k : Nat) : Option Nat :=
  if !s.flip || p.epoch != s.epoch then some k
  else
    let col := (getD shippedCols s.segMap (s.segOf k)).getD (tileX k % 70) none
    (((s.colsOf k).findIdx? (fun c => c.isSome && c == col)).map (fun i => tileAt (tileX k / 70 * 70 + i) (tileY k)))

/-- What becomes of a packet at a router; `none` while the next router is not clocked or its channel has no credit. -/
def State.routeAt (s : State) (k inPort : Nat) (escape : Bool) (p : Packet) : Option State :=
  if p.op = .reserved ∨ !p.lengthOk then some (s.onTile k (fun t => t.raise (s.discardNote k p 0x060C)))
  else if !s.admitted k inPort escape p then some (s.isolationDrop k p)
  else match s.output k inPort p with
    | none =>
      if p.frame then some (s.launch { p with pos := .frame })
      else if p.paddock = s.ownerOf k then
        (match s.landing p k with
        | some j => some (s.launch { p with pos := .ejected j inPort })
        | none => some (s.discardPacket k p 0x060C))
      else some (s.isolationDrop k p)
    | some (d, esc) =>
      match neighbour k d with
      | none => some (s.discardPacket k p 0x060C)
      | some k' =>
        let on_ := { p with pos := .router k' (opposite d) esc, replays := 0 }
        if (s.tile k).deadPort d || !s.presentFor p k' then some (s.discardPacket k p 0x060C)
        else if !s.routed (regionOfTile k') || !s.credit on_ then none
        else
          let s := s.onTile k (fun t => t.countIdx (0x160 + 16 * d) p.flits)
          let s := s.onTile k' (fun t => t.countIdx (0x160 + 16 * opposite d + 1) p.flits)
          some (s.launch on_)

/-- Whether a packet in flight is the first of its channel. -/
def State.firstInChannel (s : State) (n : Nat) (p : Packet) : Bool := !(s.net.take n).any (fun a => sameChannel a p)

/-- The state without a packet in flight. -/
def State.takePacket (s : State) (n : Nat) : State := { s with net := s.net.eraseIdx n }

/-- A write packet of a paddock's tiles to tier shares, the result window or host space enters the stride digest
(18, R541). -/
def State.digestPacket (s : State) (p : Packet) : State :=
  if p.op = .put && p.frame && [1, 2, 4].contains (selectorOf p.operand) then
    let c := crc64 (bytesLE 8 p.operand.toNat ++ (bytesOfWords p.data).map (fun b => BitVec.ofNat 8 b.1))
    (s.onPaddock p.paddock (fun d => { d with digest := d.digest + BitVec.ofNat 64 c })).onRegion (regionAt p.srcX p.srcY)
      (fun g => { g with digest := g.digest + BitVec.ofNat 64 c })
  else s

/-- PACKET_ROUTE. -/
def execPacketRoute (r : PacketRef) (s : State) : Host.Outcome State Fault Refusal :=
  match r with
  | .injected k =>
    match (s.tile k).inject with
    | [] => turnedAway s
    | p :: rest =>
      if !(s.present k && s.routed (regionOfTile k)) then turnedAway s
      else
        let p := { p with paddock := s.ownerOf k, epoch := (s.region (regionOfTile k)).epoch }
        match (s.onTile k (fun t => { t with inject := rest })).routeAt k 4 false p with
        | some s' => .next (s'.digestPacket p).bump
        | none => turnedAway s
  | .inFlight n =>
    match s.net[n]? with
    | none => turnedAway s
    | some p =>
      match p.pos with
      | .router k i e =>
        if s.firstInChannel n p && s.routed (regionOfTile k) then
          match (s.takePacket n).routeAt k i e p with
          | some s' => .next s'.bump
          | none => turnedAway s
        else turnedAway s
      | _ => turnedAway s

/-! ## Dead ports (R284, R285) -/

/-- The source id of a router port (Table 16.2). -/
def portSource (d : Nat) : Nat := 0x1000 + 2 + d

/-- Whether a rein's path crosses a link in either direction. -/
def Rein.crosses (r : Rein) (k d k' : Nat) : Bool :=
  r.links.any (fun l => l == (k, d) || l == (k', opposite d))

/-- Reins that cross a link are broken, and the open strides of their paddocks abandoned. -/
def State.breakReins (s : State) (k d k' : Nat) : State :=
  (s.paddocks.map Prod.fst).foldl (fun s p =>
    let hit := (s.paddock p).reins.filter (fun r => r.crosses k d k')
    if hit.isEmpty then s
    else (hit.foldl (fun s r => s.setRein p r.id .broken) s).abandonStride p) s

/-- A router marks a port dead and reports the event. -/
def State.markDead (s : State) (k d : Nat) : State :=
  s.onTile k (fun t =>
    { t.raise (s.tileReport k (portSource d) 0x050A clsInfra (BitVec.ofNat 64 d) 0) with
      deadPorts := t.deadPorts ||| (1#4 <<< d) })

/-- A port becomes dead on both planes and in both directions. -/
def State.killPort (s : State) (k d : Nat) : State :=
  match neighbour k d with
  | none => s
  | some k' =>
    if (s.tile k).deadPort d then s else ((s.markDead k d).markDead k' (opposite d)).breakReins k d k'

/-- LINK_HEARTBEAT_TIMEOUT. -/
def execLinkHeartbeatTimeout (k : TileIx) (d : Dir) (s : State) : Host.Outcome State Fault Refusal :=
  let d := d.ctorIdx
  if s.present k && s.routed (regionOfTile k) && (neighbour k d).isSome && !(s.tile k).deadPort d then
    .next (s.killPort k d).bump
  else turnedAway s

/-- A CRC error of a flit on a link: the receiving router reports a CE event. -/
def State.crcEvent (s : State) (k port : Nat) : State :=
  s.onTile k (fun t =>
    t.raise (s.tileReport k (portSource port) 0x0100 clsCE (BitVec.ofNat 64 port) (BitVec.ofNat 16 (s.fresh.toNat % 256))))

/-- A flit of a packet that has come over a link: with a CRC error it is replayed, and after four failures in a row the port is
dead. -/
def packetFlit (n : Nat) (p : Packet) (crcError : Bool) (s : State) : Host.Outcome State Fault Refusal :=
  match p.pos with
  | .router k i e =>
    match (if i < 4 then neighbour k i else none) with
    | none => turnedAway s
    | some up =>
      if !s.routed (regionOfTile k) then turnedAway s
      else if !crcError then .next { s with net := modifyAt s.net n (fun p => { p with replays := 0 }) }.bump
      else
        let s := s.crcEvent k i
        if p.replays < 4 then
          let s := s.onTile up (fun t => t.countIdx (0x160 + 16 * opposite i + 5) 1)
          .next { s with net := modifyAt s.net n (fun p => { p with pos := .router k i e, replays := p.replays + 1 }) }.bump
        else .next (((s.takePacket n).killPort k i).discardPacket up p 0x060C).bump
  | _ => turnedAway s

/-- A flit of a burst on the link before its next tap, on the circuit plane, in the same manner: the rein breaks with the port. -/
def burstFlit (n : Nat) (b : ReinBurst) (crcError : Bool) (s : State) : Host.Outcome State Fault Refusal :=
  match (s.rein b.paddock b.rein).bind (fun r => r.taps[b.tap]?) with
  | none => turnedAway s
  | some (k, port) =>
    match neighbour k port with
    | none => turnedAway s
    | some up =>
      let again := fun (n' : Nat) (s : State) => { s with bursts := modifyAt s.bursts n (fun b => { b with replays := n' }) }
      if !s.routed (regionOfTile k) || (s.tile k).deadPort port then turnedAway s
      else if !crcError then .next (again 0 s).bump
      else
        let s := s.crcEvent k port
        if b.replays < 4 then .next (again (b.replays + 1) (s.onTile up (fun t => t.countIdx (0x160 + 16 * opposite port + 5) 1))).bump
        else .next (s.killPort k port).bump

/-- FLIT_RECEIVE (R284): a flit of packet `n` of those in flight, or, beyond them, of a burst on a rein. -/
def execFlitReceive (n : Nat) (crcError : Bool) (s : State) : Host.Outcome State Fault Refusal :=
  match s.net[n]?, s.bursts[n - s.net.length]? with
  | some p, _ => packetFlit n p crcError s
  | none, some b => burstFlit (n - s.net.length) b crcError s
  | none, none => turnedAway s

/-! ## Rein bursts (R303 to R306) -/

/-- Whether the link of a hop can carry data. -/
def State.hopLive (s : State) (h : Hop) : Bool := !(s.tile h.source).deadPort h.dir && s.present h.dest

/-- The hops of a path before the first that is dead. -/
def State.liveHops (s : State) : List Hop → List Hop
  | [] => []
  | h :: hs => if s.hopLive h then h :: s.liveHops hs else []

/-- The circuit flits of a burst counted along a path. -/
def State.countCircuit (s : State) (hs : List Hop) (n : Nat) : State :=
  hs.foldl (fun s h =>
    (s.onTile h.source (fun t => t.countIdx (0x160 + 16 * h.dir + 2) n)).onTile h.dest
      (fun t => t.countIdx (0x160 + 16 * opposite h.dir + 3) n)) s

/-- A rein that is being closed is closed once no burst is queued for it or in flight on it (R303). -/
def State.settleRein (s : State) (p id : Nat) : State :=
  match s.rein p id with
  | none => s
  | some r =>
    if r.state = .closing && !s.reinQueued r && !s.bursts.any (fun b => b.paddock == p && b.rein == id) then
      s.setRein p id .closed
    else s

/-- The flits of a burst that its next tap has not passed on. -/
def ReinBurst.flitsLeft (b : ReinBurst) : Nat := (b.words.length + 1) / 2 - b.flit

/-- The hops from the source of a rein to the tap at which its oldest burst stands. -/
def State.hopsFilled (s : State) (p : Nat) (r : Rein) : Nat :=
  match s.bursts.find? (fun b => b.paddock == p && b.rein == r.id) with
  | none => r.hops.length
  | some b => match r.taps[b.tap]? with
    | some (k, _) => r.hops.findIdx (fun h => h.dest == k) + 1
    | none => r.hops.length

/-- Whether the last flit of what a rein carries has left the source: each router between it and the oldest burst's next tap
holds a flit, and a held tap holds the rest back (R306; log entry 137). -/
def State.sourcePassed (s : State) (p : Nat) (r : Rein) : Bool :=
  decide (((s.bursts.filter (fun b => b.paddock == p && b.rein == r.id)).map ReinBurst.flitsLeft).sum ≤ s.hopsFilled p r)

/-- The burst that a source engine is sending leaves its port's queue when its last flit has left, and completes (R304). -/
def State.settleSource (s : State) (p : Nat) (r : Rein) : State :=
  let k := tileAt r.x r.y
  match getD [] (s.tile k).srcBursts r.dir with
  | b :: rest =>
    if r.frameSource || !b.sent || !s.sourcePassed p r then s
    else s.onTile k (fun t =>
      let t := { t with srcBursts := putD [] t.srcBursts r.dir rest }
      match b.signal with | some i => s.ownSignal k t i.toNat 1 | none => t)
  | [] => s

/-- A burst put on a rein: counted along its live links, and kept until its last tap has written it. -/
def State.putBurst (s : State) (r : Rein) (b : ReinBurst) : State :=
  let s := s.countCircuit (s.liveHops r.hops) (1 + (b.words.length + 1) / 2)
  if r.taps.isEmpty then s else { s with bursts := s.bursts ++ [b] }

/-- REIN_BURST_SEND: the source engine of a tile sends the burst at the head of a port's queue (R304), while the pose in force
sources the port (08, R256). -/
def execReinBurstSend (k : TileIx) (d : Dir) (s : State) : Host.Outcome State Fault Refusal :=
  let port := d.ctorIdx
  let t := s.tile k
  if !(s.present k && s.clocked (regionOfTile k)) || !t.sources port then turnedAway s
  else match getD [] t.srcBursts port, s.sourceRein k port true with
    | b :: rest, some r =>
      if b.sent then turnedAway s
      else
        let p := s.ownerOf k
        let words := flitPoison (t.words (b.src / 8) (2 * b.flits))
        let t := s.touchAll k t (rangeFrom (b.src / 8) (2 * b.flits))
        let t := { t with srcBursts := putD [] t.srcBursts port ({ b with sent := true } :: rest) }
        let s := (s.setTile k t).putBurst r { paddock := p, rein := r.id, dest := b.dest, words := words }
        .next ((s.settleSource p r).settleRein p r.id).bump
    | _, _ => turnedAway s

/-- The acknowledgement that the sink of a lane returns for a burst (10, R338). -/
def State.laneAck (s : State) (k : Nat) (r : Rein) (b : ReinBurst) (t : Tile) : Tile :=
  match b.lane with
  | none => t
  | some (group, slot, lane, content) =>
    t.send { s.packetToFrame k .putAck 0 r.stirrup with tag := { ref := 16 * group + slot, loc := lane, bytes := content } }

/-- One flit of a burst written at a tapping router (R305); a channel that reaches beyond local memory ends there (log entry
124). The writer that the record of a discarded write names is the tapping tile (03, R115; log entry 138). The signal follows the
last flit only where it has been written. -/
def State.tapWrite (s : State) (k port : Nat) (b : ReinBurst) (t : Tile) : Tile :=
  let tap := getD 0 t.taps (t.tapChannel port)
  let size := field tap 32 11
  let off := b.dest + 16 * b.flit
  let addr := 128 * field tap 0 11 + off
  let last := 2 * (b.flit + 1) ≥ b.words.length
  if !bitOf tap 63 || size == 0 then
    if b.flit = 0 then s.tileFault k t 6 0x81 t.pc (BitVec.ofNat 64 b.dest) else t
  else
    let beyond := decide (128 * size < off + 16) || decide (memEnd < addr + 16)
    let t :=
      if beyond then s.tileFault k t 6 0x80 t.pc (BitVec.ofNat 64 addr)
      else if t.protects addr 16 then t.raise (s.tileReport k 0x0006 0x0600 clsNote (BitVec.ofNat 64 addr) 0)
      else t.putWords (addr / 8) ((b.words.drop (2 * b.flit)).take 2)
    if last && !beyond && !t.protects addr 16 then
      let t := t.countIdx 0x1A6 1
      if bitOf tap 47 then s.ownSignal k t (field tap 48 4) 1 else t
    else t

/-- REIN_TAP_WRITE: the next flit of a burst is written at its next tap. A pose without the sink bit holds it (08, R256);
a dead link before the tap stops it. -/
def execReinTapWrite (n : Nat) (s : State) : Host.Outcome State Fault Refusal :=
  match s.bursts[n]? with
  | none => turnedAway s
  | some b =>
    match s.rein b.paddock b.rein with
    | none => turnedAway s
    | some r =>
      let earlier := (s.bursts.take n).any (fun a => a.paddock == b.paddock && a.rein == b.rein)
      match r.taps[b.tap]? with
      | none => turnedAway s
      | some (k, port) =>
        let t := s.tile k
        let reached := (s.liveHops r.hops).any (fun h => h.dest == k)
        if earlier || !reached || !s.clocked (regionOfTile k) || !t.sinks port then turnedAway s
        else
          let t := s.tapWrite k port b t
          let lastTap := b.tap + 1 ≥ r.taps.length
          let lastFlit := 2 * (b.flit + 1) ≥ b.words.length
          if lastTap && lastFlit then
            let s := s.setTile k (s.laneAck k r b t)
            .next ((({ s with bursts := s.bursts.eraseIdx n } : State).settleSource b.paddock r).settleRein b.paddock b.rein).bump
          else
            let b' := if lastTap then { b with tap := 0, flit := b.flit + 1 } else { b with tap := b.tap + 1 }
            let s := s.setTile k t
            .next (({ s with bursts := modifyAt s.bursts n (fun _ => { b' with replays := 0 }) } : State).settleSource b.paddock r).bump

/-! ## Packets that end at a tile -/

/-- A packet ejected at a tile, first of its channel, with the tile clocked: the body takes the packet off the mesh and
answers what becomes of it. -/
def ejected (n : Nat) (op : PacketOp) (s : State) (body : Nat → Packet → State → State) :
    Host.Outcome State Fault Refusal :=
  match s.net[n]? with
  | none => turnedAway s
  | some p =>
    match p.pos with
    | .ejected k _ =>
      if p.op = op && s.firstInChannel n p && s.routed (regionOfTile k) then .next (body k p (s.takePacket n)).bump
      else turnedAway s
    | _ => turnedAway s

/-- RETRY_NOTICE (07, R230). -/
def execRetryNotice (n : Nat) (s : State) : Host.Outcome State Fault Refusal :=
  ejected n .retryNotice s (fun k p s => s.onTile k (fun t => t.retryEntry p.tag.ref))

/-- Bytes of a remote operation have been moved, lost or acknowledged; the last of them completes it (03, R123). -/
def State.remoteProgress (s : State) (k : Nat) (t : Tile) (ref bytes : Nat) : Tile :=
  match t.remote.find? (fun o => o.ref == ref) with
  | none => t
  | some o =>
    if o.left ≤ bytes then s.remoteDone k { t with remote := t.remote.filter (fun x => x.ref != ref) } o.signal
    else { t with remote := t.remote.map (fun x => if x.ref = ref then { x with left := x.left - bytes } else x) }

/-- GET_DATA: the words reach local memory (R124). -/
def execGetData (n : Nat) (s : State) : Host.Outcome State Fault Refusal :=
  ejected n .getData s (fun k p s =>
    s.onTile k (fun t => s.remoteProgress k (t.putWords (p.tag.loc / 8) (p.data.take (p.tag.bytes / 8))) p.tag.ref p.tag.bytes))

/-- NACK: the words of a get are poisoned; a put is lost and recorded (R125, R285). -/
def execNack (n : Nat) (s : State) : Host.Outcome State Fault Refusal :=
  ejected n .nack s (fun k p s =>
    s.onTile k (fun t =>
      let isGet := (t.remote.find? (fun o => o.ref == p.tag.ref)).any RemoteOp.isGet
      let t := if isGet then t.putWords (p.tag.loc / 8) (List.replicate (p.tag.bytes / 8) { poison := true })
        else t.raise (s.tileNote k 0x060C p.operand)
      s.remoteProgress k t p.tag.ref p.tag.bytes))

/-- WAKE: the core's wait completes; a reply carries the value read (07, R242). -/
def execWake (n : Nat) (s : State) : Host.Outcome State Fault Refusal :=
  ejected n .wake s (fun k p s =>
    s.onTile k (fun t =>
      match t.wait, p.data with
      | .remoteSync level w, [] =>
        let obj := field w 0 (if level = 2 then 6 else 4)
        if p.operand = BitVec.ofNat 64 (obj + level * 64) then t.endWait else t
      | .reply rd _ _, v :: _ => (t.setReg rd { val := v.val, poison := v.poison }).endWait
      | _, _ => t))

/-- COALESCE_ENTRY_EXPIRE: the oldest merge entry of a router has been open for 16 cycles (R307). -/
def execCoalesceEntryExpire (k : TileIx) (s : State) : Host.Outcome State Fault Refusal :=
  engine k s (fun t => if t.merges.isEmpty then none else some { t with merges := t.merges.drop 1 })

/-! ## Gather nodes (R308 to R312) -/

/-- The sum of two FP32 lanes as the vector path adds them (R180, R182). -/
def addFp32 (a b : Nat) : Nat :=
  let x := decodeFloat .fp32 a
  let y := decodeFloat .fp32 b
  let (v, arose) := x.add y
  (arithResult .fp32 v arose (x.isSnan || y.isSnan)).1

/-- Two words added element by element; the flag says that an INT64 sum is out of range. -/
def gatherAdd (fp : Bool) (a b : PWord) : PWord × Bool :=
  if a.poison || b.poison then ({ poison := true }, false)
  else if fp then
    ({ val := BitVec.ofNat 64 (addFp32 (field a.val 0 32) (field b.val 0 32)
        + addFp32 (field a.val 32 32) (field b.val 32 32) * 2 ^ 32) }, false)
  else
    let sum := signedOf 64 a.val.toNat + signedOf 64 b.val.toNat
    if sum < -(2 ^ 63 : Int) ∨ (2 ^ 63 : Int) ≤ sum then ({ poison := true }, true) else ({ val := BitVec.ofInt 64 sum }, false)

/-- Two contributions added. -/
def gatherAddAll (fp : Bool) : List PWord → List PWord → List PWord × Bool
  | a :: l, b :: bs =>
    let (w, o) := gatherAdd fp a b
    let (ws, o') := gatherAddAll fp l bs
    (w :: ws, o || o')
  | _, _ => ([], false)

/-- The result of a round: the inputs in index order (R311). -/
def NodeSlot.combine (nd : NodeSlot) : List PWord × Bool :=
  if nd.bad then (List.replicate (2 * nd.flits) { poison := true }, false)
  else
    match (List.range nd.inputs).map (fun i => getD [] nd.bufs i) with
    | [] => ([], false)
    | a :: rest => rest.foldl (fun r b => let (ws, o) := gatherAddAll nd.fp r.1 b; (ws, r.2 || o)) (a, false)

/-- A round finished at a node of a tile: the result goes to the parent, or at the root to local memory (R311). -/
def State.gatherCombine (s : State) (k slot : Nat) (nd : NodeSlot) (t : Tile) : Tile :=
  let (ws, beyond) := nd.combine
  let t := { t with nodes := putD none t.nodes slot (some { nd with bufs := [], bad := false }) }
  let t := t.countIdx 0x1A7 1
  let t := if beyond then t.raise (s.tileReport k 0x0006 0x0604 clsNote (BitVec.ofNat 64 nd.tree) 0) else t
  if nd.parentInput = 0xFF then
    let off := field (nd.parent.setWidth 64) 0 18
    let t := if t.protects off (8 * ws.length) then
        t.raise (s.tileReport k 0x0006 0x0600 clsNote (BitVec.ofNat 64 off) 0)
      else t.putWords (off / 8) ws
    s.ownSignal k t nd.rootSync 1
  else
    let par := nd.parent.toNat
    let p := s.packetOf k .gather (BitVec.ofNat 64 (nd.tree + par / 2 ^ 20 % 8 * 2 ^ 10 + nd.parentInput * 2 ^ 13))
      (par % 1024, par / 1024 % 1024)
    t.send { p with length := nd.flits, data := flitPoison ws }

/-- A contribution that finds no armed slot is counted once and waits. -/
def gatherWaits (s : State) (n k : Nat) : State :=
  { s.onTile k (fun t => t.countIdx 0x1A5 1) with net := modifyAt s.net n (fun p => { p with taken := 1 }) }

/-- GATHER: a contribution reaches its node (R311). -/
def execGather (n : Nat) (s : State) : Host.Outcome State Fault Refusal :=
  match s.net[n]? with
  | none => turnedAway s
  | some p =>
    match p.pos with
    | .ejected k _ =>
      let t := s.tile k
      let tree := field p.operand 0 10
      let slot := field p.operand 10 3
      let input := field p.operand 13 2
      if p.op ≠ .gather || !s.firstInChannel n p || !s.routed (regionOfTile k) then turnedAway s
      else
        match (getD none t.nodes slot) with
        | none => if p.taken = 0 then .next (gatherWaits s n k).bump else turnedAway s
        | some nd =>
          if nd.tree ≠ tree then (if p.taken = 0 then .next (gatherWaits s n k).bump else turnedAway s)
          else if p.paddock ≠ nd.paddock then .next ((s.takePacket n).isolationDrop k p).bump
          else if (look nd.bufs input).isSome then turnedAway s
          else
            let short := p.length != nd.flits
            let t := if short then t.raise (s.tileReport k 0x0006 0x060D clsNote (BitVec.ofNat 64 tree) 0) else t
            let nd := { nd with bufs := insertAt nd.bufs input p.data, bad := nd.bad || short }
            let t := { t with nodes := putD none t.nodes slot (some nd) }
            let t := if (List.range nd.inputs).all (fun i => (look nd.bufs i).isSome) then s.gatherCombine k slot nd t else t
            .next ((s.takePacket n).setTile k t).bump
    | _ => turnedAway s
end Sys2Proof.Machine
end

