-- ==== Sys2Proof/Machine/Remount.lean ====
section
/-! DEFINITION. Remounts: choices, bindings, fetches, lanes, releases and the predictor (10, R331 to R344). -/

namespace Sys2Proof.Machine

/-! ## Slots, lanes and victims -/

/-- A slot's content; content that poison reached is invalid once unpinned (R338). -/
def Remount.slot (m : Remount) (g n : Nat) : Option RemountSlot :=
  match getD none m.slots (16 * g + n) with
  | some c => if c.poisoned && !c.pinned then none else some c
  | none => none

/-- The engine with a slot replaced. -/
def Remount.setSlot (m : Remount) (g n : Nat) (c : Option RemountSlot) : Remount :=
  { m with slots := putD none m.slots (16 * g + n) c }

/-- The slot of a group that holds an expert of a layer (R335, step 5). -/
def Remount.holder (m : Remount) (g slots layer expert : Nat) : Option Nat :=
  (List.range slots).find? (fun n => (m.slot g n).any (fun c => c.layer == layer && c.expert == expert))

/-- The victim of a group: the lowest empty slot, or else the unpinned slot with the oldest stamp (R335, step 6). -/
def Remount.victim (m : Remount) (g slots : Nat) : Option Nat :=
  match (List.range slots).find? (fun n => (m.slot g n).isNone) with
  | some n => some n
  | none =>
    (List.range slots).foldl (fun best n =>
      match m.slot g n with
      | some c =>
        if c.pinned then best
        else match best.bind (m.slot g) with
          | some b => if c.stamp < b.stamp then some n else best
          | none => some n
      | none => best) none

/-- The granules of a lane for an expert of `e` granules (R332). -/
def RemountLane.granulesOf (l : RemountLane) (gr e : Nat) : List Nat :=
  ((List.range gr).map (fun i => l.stack + 24 * (l.order * gr + i))).filter (fun j => decide (j < e))

/-- The lanes of a slot. -/
def RemountGroup.lanesOf (g : RemountGroup) (slot : Nat) : List RemountLane :=
  (g.lanes.drop (slot * g.perSlot)).take g.perSlot

/-- The granules that a lane of a slot carries for its content. -/
def Remount.laneGranules (m : Remount) (g slot lane : Nat) (c : RemountSlot) : List Nat :=
  match look m.groups g, look m.layers c.layer with
  | some gr, some l => (((gr.lanesOf slot)[lane]?).map (fun x => x.granulesOf gr.granules l.granules)).getD []
  | _, _ => []

/-- Whether a lane is complete for its content (R338). -/
def Remount.laneComplete (m : Remount) (g slot lane : Nat) (c : RemountSlot) : Bool :=
  c.acked.getD lane 0 == (m.laneGranules g slot lane c).length

/-- The paddock with its remount engine changed. -/
def Paddock.onRemount (d : Paddock) (f : Remount → Remount) : Paddock := { d with remount := f d.remount }

/-- The sink of a rein. -/
def Rein.sink (r : Rein) : Nat := match r.hops.reverse with | h :: _ => h.dest | [] => tileAt r.x r.y

/-- The signals that a lane owes are sent, one packet each (R338). -/
def State.sendLaneSignals (s : State) (p : Nat) (lane : RemountLane) : Nat → State
  | 0 => s
  | n + 1 =>
    match s.rein p lane.rein with
    | none => s
    | some r =>
      let k := r.sink
      let s := s.launch (s.framePacket r.stirrup .signal (BitVec.ofNat 64 (1 + lane.sync * 2 ^ 32 + 2 ^ 38)) (tileX k)
        (tileY k) p)
      s.sendLaneSignals p lane n

/-- Every lane of a slot that is complete sends the signals it owes. -/
def State.settleSlot (s : State) (p g slot : Nat) : State :=
  let m := (s.paddock p).remount
  match m.slot g slot, look m.groups g with
  | some c, some gr =>
    let lanes := gr.lanesOf slot
    let done := (List.range lanes.length).map (fun i => m.laneComplete g slot i c)
    let s := ((lanes.zip done).zip c.owed).foldl (fun s x => if x.1.2 then s.sendLaneSignals p x.1.1 x.2 else s) s
    let owed := (done.zip c.owed).map (fun x => if x.1 then 0 else x.2)
    s.onPaddock p (fun d => d.onRemount (fun m => m.setSlot g slot (some { c with owed := owed })))
  | _, _ => s

/-- A prediction that no choice claimed gives up its slot (20). -/
def State.countEvicted (s : State) (p g slot : Nat) : State :=
  match (s.paddock p).remount.slot g slot with
  | some c => if c.predicted then s.cntPaddock p 10 1 else s
  | none => s

/-- A fetch of an expert into a slot. -/
def State.startFetch (s : State) (p g slot layer expert : Nat) (pinned begun predicted : Bool) (owed : Nat) : State :=
  (s.countEvicted p g slot).onPaddock p (fun d => d.onRemount (fun m =>
    let n := ((look m.groups g).map RemountGroup.perSlot).getD 0
    let c : RemountSlot :=
      { layer := layer, expert := expert, stamp := m.clock, pinned := pinned, begun := begun, predicted := predicted,
        poisoned := false, content := m.contents, sent := List.replicate n 0, acked := List.replicate n 0,
        owed := List.replicate n owed }
    { m.setSlot g slot (some c) with clock := m.clock + 1, contents := m.contents + 1 }))

/-! ## Binding (R335) -/

/-- A note of the remount engine. -/
def State.remountNote (s : State) (p code : Nat) (addr : BitVec 64) : State :=
  s.raise (frameReport 0xE000 code clsNote p addr)

/-- A placement entry. -/
def Remount.place (m : Remount) (key v : Nat) : Remount := { m with placements := putD 0x8000 m.placements key v }

/-- A choice entry. -/
def Remount.choose (m : Remount) (key v : Nat) : Remount := { m with choices := putD 0 m.choices key v }

/-- The binding of a choice to a slot that is not pinned makes its pin (R340). -/
def Remount.pins (m : Remount) (g n key : Nat) : Remount :=
  if (m.slot g n).any (·.pinned) then m else { m with pinners := m.pinners ++ [key] }

/-- Whether a choice entry is valid. -/
def choiceValid (v : Nat) : Bool := v / 2 ^ 15 % 2 == 1

/-- The slot that the same expert of the layer is bound to at a lower rank (R335, step 4). -/
def Remount.boundLower (m : Remount) (layer rank expert : Nat) : Option Nat :=
  (List.range rank).findSome? (fun k =>
    let v := getD 0 m.choices (64 * layer + k)
    let pl := getD 0x8000 m.placements (64 * layer + k)
    if choiceValid v && v % 2 ^ 12 == expert && pl != 0x8000 then some pl else none)

/-- A choice entry is bound; `none` while no slot is empty or unpinned. -/
def State.bindChoice (s : State) (p key v : Nat) : Option State :=
  let m := (s.paddock p).remount
  let layer := key / 64
  let on := fun (s : State) (f : Remount → Remount) => s.onPaddock p (fun d => d.onRemount f)
  if choiceValid (getD 0 m.choices key) then some (s.remountNote p 0x0600 (BitVec.ofNat 64 (2 * key)))
  else if !choiceValid v then some (on s (fun m => (m.choose key v).place key 0x8000))
  else
    let expert := v % 2 ^ 12
    let count := ((look m.layers layer).map RemountLayer.experts).getD 0
    if count ≤ expert ∨ v / 2 ^ 12 % 8 ≠ 0 then
      some ((on s (fun m => (m.choose key v).place key 0x8000)).remountNote p 0x0605 (BitVec.ofNat 64 (v + key * 2 ^ 16)))
    else
      let g := ((look m.layers layer).map RemountLayer.group).getD 0
      match m.boundLower layer (key % 64) expert with
      | some n =>
        -- step 7 holds for this slot too; no second signal (log entry 48)
        some (on s (fun m =>
          { ((((m.pins g n key).choose key v).place key n).setSlot g n ((m.slot g n).map (fun c => { c with pinned := true, stamp := m.clock }))) with
            clock := m.clock + 1 }))
      | none =>
        let slots := ((look m.groups g).map RemountGroup.slots).getD 0
        match m.holder g slots layer expert with
        | some n =>
          let claimed := (m.slot g n).any RemountSlot.predicted
          let s := on s (fun m =>
            { ((((m.pins g n key).choose key v).place key n).setSlot g n ((m.slot g n).map (fun c =>
                { c with pinned := true, stamp := m.clock, predicted := false, owed := c.owed.map (· + 1) }))) with
              clock := m.clock + 1 })
          some (((s.cntPaddock p 7 1).cntPaddock p 9 (if claimed then 1 else 0)).settleSlot p g n)
        | none =>
          match m.victim g slots with
          | none => none
          | some n =>
            let s := on s (fun m => ((m.pins g n key).choose key v).place key n)
            some (((s.startFetch p g n layer expert true (m.armed.contains layer) false 1).cntPaddock p 8 1).settleSlot p
              g n)

/-- The share offset of an address in the remount window, from the window's start; `none` outside it (R334). -/
def Paddock.inWindow (d : Paddock) (addr : BitVec 64) : Option Nat :=
  if selectorOf addr ≠ 1 then none
  else match d.window with
    | some w => let off := field addr 0 48; if w ≤ off ∧ off < w + 0x10000 then some (off - w) else none
    | none => none

/-- A packet from a tile at the frame, first from its source to its agent in its class (R323; log entry 51). -/
def State.atFrame (s : State) (n : Nat) (op : PacketOp) (same : Packet → Packet → Bool) : Option Packet :=
  match s.net[n]? with
  | none => none
  | some p =>
    if p.pos == .frame && p.op == op && !(s.net.take n).any (fun a => a.pos == .frame && a.srcX == p.srcX
        && a.srcY == p.srcY && a.op.cls == p.op.cls && same a p) then some p
    else none

/-- Whether two requests go to one memory controller (R323) or to one area of the remount window. -/
def State.sameAgent (s : State) (a b : Packet) : Bool :=
  let key := fun (p : Packet) =>
    match (s.paddock p.paddock).inWindow p.operand with
    | some off => (0, if off < 0x8000 then 0 else 1, 0)
    | none => (1, selectorOf p.operand, match selectorOf p.operand with
        | 1 => field p.operand 0 48 / 4096 % 24
        | 2 => field p.operand 0 48 / 4096 % 16
        | _ => 0)
  key a == key b

/-- The answer of a frame agent to a tile's request. -/
def State.frameAnswer (s : State) (p : Packet) (op : PacketOp) (data : List PWord) : State :=
  s.launch { s.framePacket (s.agentStirrup p.operand) op p.operand p.srcX p.srcY p.paddock with
    data := data, length := flitsOf (8 * data.length), tag := p.tag }

/-- REMOUNT_BIND: the next choice entry of a put to the window; after the last, the put is acknowledged. `taken` is twice
the entries done, odd once a wait has been counted. -/
def execRemountBind (n : Nat) (s : State) : Host.Outcome State Fault Refusal :=
  match s.atFrame n .put s.sameAgent with
  | none => turnedAway s
  | some p =>
    match (s.paddock p.paddock).inWindow p.operand with
    | none => turnedAway s
    | some off =>
      if 0x4000 ≤ off then turnedAway s
      else
        let i := p.taken / 2
        let total := 4 * (p.data.length)
        let w := p.data.getD (i / 4) {}
        let s' : Option State :=
          if w.poison then
            -- a poisoned word is consumed once, and its entries are not bound
            if i % 4 = 0 then
              some (s.raise { frameReport 0xE000 0x0102 clsUE p.paddock (p.operand + BitVec.ofNat 64 (8 * (i / 4))) with
                poison := true })
            else some s
          else s.bindChoice p.paddock (off / 2 + i) (field w.val (16 * (i % 4)) 16)
        match s' with
        | none =>
          if p.taken % 2 = 1 then turnedAway s
          else .next { s.cntPaddock p.paddock 11 1 with
            net := modifyAt s.net n (fun p => { p with taken := p.taken + 1 }) }.bump
        | some s' =>
          if i + 1 < total then .next { s' with net := modifyAt s'.net n (fun p => { p with taken := 2 * (i + 1) }) }.bump
          else .next ((s'.takePacket n).frameAnswer p .putAck []).bump

/-- A slot unpinned by a release (R339). -/
def State.unpin (s : State) (p g slot : Nat) : State :=
  match getD none (s.paddock p).remount.slots (16 * g + slot) with
  | some c =>
    if c.pinned then
      s.onPaddock p (fun d => d.onRemount (fun m =>
        m.setSlot g slot (if c.poisoned then none else some { c with pinned := false })))
    else s.remountNote p 0x0600 (BitVec.ofNat 64 (0x8000 + 8 * g))
  | none => s.remountNote p 0x0600 (BitVec.ofNat 64 (0x8000 + 8 * g))

/-- SLOT_RELEASE: a put to release words. -/
def execSlotRelease (n : Nat) (s : State) : Host.Outcome State Fault Refusal :=
  match s.atFrame n .put s.sameAgent with
  | none => turnedAway s
  | some p =>
    match (s.paddock p.paddock).inWindow p.operand with
    | none => turnedAway s
    | some off =>
      if off < 0x8000 ∨ 0x8080 ≤ off then turnedAway s
      else
        let s' := ((List.range p.data.length).zip p.data).foldl (fun s (x : Nat × PWord) =>
          let g := (off - 0x8000) / 8 + x.1
          if 16 ≤ g || x.2.poison then s
          else ((List.range 16).filter (bitOf x.2.val)).foldl (fun s i => s.unpin p.paddock g i) s) (s.takePacket n)
        .next (s'.frameAnswer p .putAck []).bump

/-! ## Fetches (R337) -/

/-- A lane number: 16,384 for each group, 1,024 for each slot, then the lane of the slot. -/
def laneOf (lane : Nat) : Nat × Nat × Nat := (lane / 16384, lane / 1024 % 16, lane % 1024)

/-- The place of a lane in its stack's rounds: group, slot, order. -/
def laneTurn (g slot order : Nat) : Nat := (16 * g + slot) * 2 ^ 16 + order

/-- Whether a lane of a slot may send now: its fetch has begun, a granule of it is left, its rein is open, and the granule is not
locked (R336, R337, R302, R330). -/
def State.laneReady (s : State) (p g slot i : Nat) : Bool :=
  let m := (s.paddock p).remount
  match m.slot g slot, look m.groups g with
  | some c, some gr =>
    match (gr.lanesOf slot)[i]?, look m.layers c.layer with
    | some l, some layer =>
      match (l.granulesOf gr.granules layer.granules)[c.sent.getD i 0]?, s.rein p l.rein with
      | some j, some r =>
        c.begun && r.state == .ready && !s.shareLocked p false (layer.offsets.getD c.expert 0 + 4096 * j) 4096
      | _, _ => false
    | _, _ => false
  | _, _ => false

/-- The turns of the lanes of a stack that may send now. -/
def State.readyTurns (s : State) (p stack : Nat) : List Nat :=
  ((s.paddock p).remount.groups.map (fun kv =>
    ((List.range kv.2.slots).map (fun slot =>
      (((List.range kv.2.perSlot).zip (kv.2.lanesOf slot)).filter (fun x => x.2.stack == stack && s.laneReady p kv.1 slot x.1)).map
        (fun x => laneTurn kv.1 slot x.2.order))).flatten)).flatten

/-- Whether a lane is the one that its stack serves next: rounds of one granule a lane, in ascending (group, slot, order), among
the lanes that may send (R337; log entry 55). -/
def State.laneNext (s : State) (p stack turn : Nat) : Bool :=
  let last := getD 0 (s.paddock p).remount.served stack
  let ahead := fun (t : Nat) => if last ≤ t then t - last else t + 2 ^ 24 - last
  (s.readyTurns p stack).all (fun t => decide (ahead turn ≤ ahead t))

/-- REMOUNT_GRANULE_SEND: the next granule of a lane goes down its rein, in its turn. -/
def execRemountGranuleSend (p : PaddockId) (lane : Nat) (s : State) : Host.Outcome State Fault Refusal :=
  let (g, slot, i) := laneOf lane
  let m := (s.paddock p).remount
  match m.slot g slot, look m.groups g with
  | some c, some gr =>
    match (gr.lanesOf slot)[i]?, look m.layers c.layer with
    | some l, some layer =>
      let js := l.granulesOf gr.granules layer.granules
      let at_ := c.sent.getD i 0
      match js[at_]?, s.rein p l.rein with
      | some j, some r =>
        let off := layer.offsets.getD c.expert 0 + 4096 * j
        if !s.laneReady p g slot i || !s.laneNext p l.stack (laneTurn g slot l.order) then turnedAway s
        else
          let words := flitPoison (s.shareWords p false off 512)
          let s := (s.touchShare p false off 4096).countRead p false off 4096
          let s := match (s.paddock p).shareAddr false off with
            | some a => s.cntUnit false (unitOf false a) 2 1
            | none => s
          let s := s.onPaddock p (fun d => d.onRemount (fun m => { m with
            served := putD 0 m.served l.stack (laneTurn g slot l.order + 1) }))
          let s := s.onPaddock p (fun d => d.onRemount (fun m => m.setSlot g slot (some
            { c with sent := modifyAt c.sent i (· + 1), poisoned := c.poisoned || words.any PWord.poison })))
          .next (s.putBurst r { paddock := p, rein := r.id, dest := l.dest + 4096 * at_, words := words,
                                lane := some (g, slot, i, c.content) }).bump
      | _, _ => turnedAway s
    | _, _ => turnedAway s
  | _, _ => turnedAway s

/-- The acknowledgement of a lane's burst (R338). -/
def State.laneAcked (s : State) (p : Nat) (tag : PacketTag) : State :=
  let g := tag.ref / 16
  let slot := tag.ref % 16
  match getD none (s.paddock p).remount.slots (16 * g + slot) with
  | some c =>
    if c.content = tag.bytes then
      (s.onPaddock p (fun d => d.onRemount (fun m => m.setSlot g slot (some
        { c with acked := modifyAt c.acked tag.loc (· + 1) })))).settleSlot p g slot
    else s
  | none => s

/-! ## REMOUNT_ISSUE (R336, R342) -/

/-- The fetches of a layer that waited for its arming begin. -/
def Remount.beginLayer (m : Remount) (layer : Nat) : Remount :=
  { m with slots := m.slots.map (fun kv => (kv.1, kv.2.map (fun c => if c.layer = layer then { c with begun := true } else c))) }

/-- Every fetch of a binding begins: the stride closes (R336). -/
def Remount.beginAll (m : Remount) : Remount :=
  { m with slots := m.slots.map (fun kv => (kv.1, kv.2.map (fun c => { c with begun := true }))) }

/-- REMOUNT_ISSUE_DEMAND: the layer is armed; an entry issued ahead arms the next stride. -/
def execRemountIssueDemand (r : RegionIx) (s : State) : Host.Outcome State Fault Refusal :=
  issueEntry r (fun e => e.is 0x05 && !bitOf e.arg 62) s (fun p e s =>
    let layer := field e.arg 0 7
    if e.offset < 0 then s.onPaddock p (fun d => d.onRemount (fun m => { m with armedNext := m.armedNext ++ [layer] }))
    else s.onPaddock p (fun d => d.onRemount (fun m => { m.beginLayer layer with armed := m.armed ++ [layer] })))

/-- NT_REMOUNT_CTRL as its RW fields stand. -/
def State.remountCtrl (s : State) (p : Nat) : BitVec 64 := s.frameReg (0x00701000 + 0x40 * p) 0x14

/-- Experts of a layer by score, highest first and lower number on ties, each with at least 1 (R342). -/
def Remount.ranked (m : Remount) (layer count : Nat) : List Nat :=
  let score := fun e => (m.history.filter (fun h => h.contains (layer, e))).length
  ((List.range 16).map (fun i => (List.range count).filter (fun e => score e == 16 - i))).flatten

/-- REMOUNT_ISSUE_PREDICT: the predictor runs for the layer. -/
def execRemountIssuePredict (r : RegionIx) (s : State) : Host.Outcome State Fault Refusal :=
  issueEntry r (fun e => e.is 0x05 && bitOf e.arg 62) s (fun p e s =>
    let m := (s.paddock p).remount
    let layer := field e.arg 0 7
    let ctrl := s.remountCtrl p
    if !bitOf ctrl 4 then s
    else if m.history.length < 16 then s.cntPaddock p 6 1
    else match look m.layers layer with
      | none => s
      | some l =>
        let slots := ((look m.groups l.group).map RemountGroup.slots).getD 0
        ((m.ranked layer l.experts).take (field ctrl 0 4)).foldl (fun s x =>
          let m := (s.paddock p).remount
          if (m.holder l.group slots layer x).isSome then s
          else match m.victim l.group slots with
            | some n => s.startFetch p l.group n layer x false true true 0
            | none => s) s)

/-! ## Strides (R340, R342, R344) -/

/-- What a stride open does to the window and the arming. -/
def Remount.openStride (m : Remount) : Remount :=
  { m with choices := [], placements := [], marked := [], pinners := [], armed := m.armedNext, armedNext := [] }

/-- A checkpoint mark remembers the choices made so far (R340). -/
def Remount.mark (m : Remount) : Remount := { m with marked := m.choices }

/-- A replay takes back the choices made since the mark, with the pins they made. -/
def Remount.replay (m : Remount) : Remount :=
  let undo := m.choices.filter (fun kv => look m.marked kv.1 != some kv.2)
  let pins := (undo.filter (fun kv => m.pinners.contains kv.1)).filterMap (fun kv =>
    let pl := getD 0x8000 m.placements kv.1
    if pl = 0x8000 then none else (look m.layers (kv.1 / 64)).map (fun l => 16 * l.group + pl))
  { m with
    choices := m.choices.filter (fun kv => look m.marked kv.1 == some kv.2)
    pinners := m.pinners.filter (fun key => !undo.any (fun kv => kv.1 == key))
    placements := m.placements.filter (fun kv => look m.marked kv.1 == look m.choices kv.1)
    slots := m.slots.map (fun kv => (kv.1, if pins.contains kv.1 then kv.2.map (fun c => { c with pinned := false }) else kv.2)) }

/-- A stride close that is not abandoned: unarmed fetches begin, and the history takes the stride's choices. -/
def Remount.closeStride (m : Remount) : Remount :=
  let chosen := m.choices.filterMap (fun kv =>
    let e := kv.2 % 2 ^ 12
    if choiceValid kv.2 ∧ e < ((look m.layers (kv.1 / 64)).map RemountLayer.experts).getD 0 then some (kv.1 / 64, e) else none)
  let h := m.history ++ [chosen]
  { m.beginAll with history := h.drop (h.length - 16) }

end Sys2Proof.Machine
end

