-- ==== Sys2Proof/Machine/Tiers.lean ====
section
/-! DEFINITION. Healing, scrubbing, spare sites and the BAR4 aperture (10, R328 to R350). -/

namespace Sys2Proof.Machine

/-! ## Healing (R330) -/

/-- A granule replaced by the copy of it that reads correct, with the CE event that records the heal. -/
def State.healFrom (s : State) (far : Bool) (g : Nat) (copy : Granule) : State :=
  let unit := unitOf far (64 * g)
  let owner := match s.unitOwner far (64 * g / 2 ^ 30) with | some pu => pu.1 | none => 0
  ((s.setTier far ((s.tier far).setGranule g ((s.tier far).whole far g copy.bits))).raise
    (frameReport (tierSource far unit) 0x0103 clsCE owner (BitVec.ofNat 64 (64 * g)))).cntUnit far unit 5 1

/-- The correct copy of a mirrored granule, if there is one. -/
def State.goodCopy (s : State) (far : Bool) (g : Nat) : Option Granule :=
  (s.mirrorOf far (64 * g)).bind (fun a =>
    if s.granuleBad (!far) (granuleOf a) then none else some ((s.tier (!far)).granule (granuleOf a)))

/-- A granule found uncorrectable beside its copy stays poisoned (R330, step 4). -/
def State.poisonCopy (s : State) (far : Bool) (a : Nat) : State :=
  let g := granuleOf a
  if s.granuleBad far g then s
  else
    let unit := unitOf far a
    let owner := match s.unitOwner far (a / 2 ^ 30) with | some pu => pu.1 | none => 0
    (((s.noteUe far unit).setTier far (((s.noteUe far unit).tier far).setGranule g
      { (s.tier far).whole far g 0 with poison := true })).raise
      (frameReport (tierSource far unit) 0x0101 clsUE owner (BitVec.ofNat 64 (64 * g)))).cntUnit far unit 4 1

/-- TIER_HEAL_COMPLETE: the heal of a locked granule ends; `goodMirror` says that the other copy read correct. -/
def execTierHealComplete (far : Bool) (granule : Nat) (goodMirror : Bool) (s : State) :
    Host.Outcome State Fault Refusal :=
  let t := s.tier far
  if !t.heals.contains granule then turnedAway s
  else
    let s := s.setTier far { t with heals := t.heals.filter (· != granule) }
    match (if goodMirror then s.goodCopy far granule else none) with
    | some c => .next (s.healFrom far granule c).bump
    | none =>
      let s := s.setTier far ((s.tier far).setGranule granule { (s.tier far).whole far granule 0 with poison := true })
      .next (match s.mirrorOf far (64 * granule) with | some a => s.poisonCopy (!far) a | none => s).bump

/-! ## Scrubbing (R328) -/

/-- ECC granules of a tier. -/
def tierGranules (far : Bool) : Nat := (if far then 1536 else 2304) * 2 ^ 24

/-- NT_SCRUB_CTRL or FT_SCRUB_CTRL. -/
def State.scrubCtrl (s : State) (far : Bool) : BitVec 64 := s.frameReg (if far then 0x00780040 else 0x00700040) 0x118

/-- The reference periods of 100 MHz in an hour (02). -/
def hourPeriods : Nat := 360000000000

/-- Whether the patrol pass under way has just passed its period (15, R466). -/
def State.scrubOverrun (s : State) (far : Bool) : Bool :=
  let t := s.tier far
  t.scrubAt != 0 && !t.passLate && decide (field (s.scrubCtrl far) 0 8 * hourPeriods < (s.refCount - t.passStart).toNat)

/-- A pass that does not finish within its period posts an INFRA event, once, and carries on (15, R466). -/
def State.notePass (s : State) (far : Bool) : State :=
  let t := s.tier far
  if s.scrubOverrun far then
    (s.setTier far { t with passLate := true }).raise (frameReport (tierSource far (unitOf far (64 * t.scrubAt))) 0x050F clsInfra 0 0)
  else if t.scrubAt = 0 then s.setTier far { t with passStart := s.refCount, passLate := false }
  else s

/-- TIER_SCRUB: the patrol scrubber reads the next granule; the operands say whether its check symbols show an
uncorrectable or a corrected error. -/
def execTierScrub (far uncorrectable corrected : Bool) (s : State) : Host.Outcome State Fault Refusal :=
  let t := s.tier far
  let g := t.scrubAt
  if !bitOf (s.scrubCtrl far) 8 || t.heals.contains g || s.halted then turnedAway s
  else
    let s := s.notePass far
    let t := s.tier far
    let x := t.granule g
    let ecc : Ecc := if uncorrectable then .multi else if corrected then .single else x.ecc
    let x := if x.poison then x else { x with ecc := ecc }
    let s := s.setTier far { t.setGranule g x with scrubAt := (g + 1) % tierGranules far }
    .next ((s.touchGranule far g).cntUnit far (unitOf far (64 * g)) 6 1).bump

/-! ## Spare sites (R345, R346) -/

/-- The spare site of a site's edge. -/
def spareOf (far : Bool) (site : Nat) : Nat :=
  if far then (if site < 9 then 8 else 17) else if site < 13 then 12 else 25

/-- A day in reference periods of 100 MHz (02). -/
def dayPeriods : Nat := 8640000000000

/-- The errors of a list that lie within the last 24 hours. -/
def State.withinDay (s : State) (l : List (BitVec 64)) : Nat :=
  (l.filter (fun c => decide ((s.refCount - c).toNat < dayPeriods))).length

/-- Whether firmware migrates a unit (R345): more than 4,096 corrected errors or a third uncorrectable one in 24 hours, or a unit
that has failed while its spare is free (R346). A site that fails its health check at power-up moves there and then (21, R614).
Log entry 155. -/
def State.migrationDue (s : State) (far : Bool) (unit : Nat) : Bool :=
  let t := s.tier far
  t.failed.contains unit || decide (4096 < s.withinDay (getD [] t.ceTimes unit))
    || decide (3 ≤ s.withinDay (getD [] t.ueTimes unit))

/-- SITE_MIGRATION_START: the unit's migration to the spare of its edge begins; with the spare used up the unit has
failed and every granule of it reads as poisoned (R346). -/
def execSiteMigrationStart (far : Bool) (logical : Nat) (s : State) : Host.Outcome State Fault Refusal :=
  let t := s.tier far
  match t.sites[logical]? with
  | none => turnedAway s
  | some site =>
    let spare := spareOf far site
    if t.migration.isSome || !s.migrationDue far logical then turnedAway s
    else if t.sparesUsed.contains spare || t.sparesFailed.contains spare then
      if t.failed.contains logical then turnedAway s
      else .next ((s.setTier far { t with failed := t.failed ++ [logical] }).dueUnit 7 far logical site).bump
    else
      .next ((s.setTier far { t with
        migration := some { logical := logical, toSite := spare, fromSite := site, rows := 0 } }).raise
        (frameReport (tierSource far logical) 0x050B clsInfra 0 (BitVec.ofNat 64 spare))).bump

/-- The granules of a logical unit that images mirror. -/
def State.mirroredGranules (s : State) (far : Bool) (logical : Nat) : List Nat :=
  ((rangeFrom 1 28).map (fun p =>
    let d := s.paddock p
    ((d.mirrors.map (fun m => d.shareGranules far (if far then m.2.1 else m.1) m.2.2)).flatten).filter
      (fun g => unitOf far (64 * g) == logical))).flatten

/-- A unit that had failed is rebuilt on its spare (log entry 154): granules that are mirrored come from their other copy, and every other one
stays poisoned (R346). -/
def State.rebuildUnit (s : State) (far : Bool) (logical : Nat) : State :=
  let t := s.tier far
  let s := s.setTier far { t with failed := t.failed.filter (· != logical), rebuilt := (List.range (if far then 1536 else 2304)).foldl (fun m d =>
    modD 0 m (32 * d + logical) (· + 1)) t.rebuilt }
  (s.mirroredGranules far logical).foldl (fun s g => match s.goodCopy far g with | some c => s.healFrom far g c | none => s) s

/-- SITE_MIGRATION_COMPLETE: poisoned granules that are mirrored are healed on the way, the site map is switched and the old
site powered down. -/
def execSiteMigrationComplete (far : Bool) (s : State) : Host.Outcome State Fault Refusal :=
  let t := s.tier far
  match t.migration with
  | none => turnedAway s
  | some m =>
    let bad := (t.granules.map Prod.fst).filter (fun g => unitOf far (64 * g) == m.logical && s.granuleBad far g)
    let s := if t.failed.contains m.logical then s.rebuildUnit far m.logical
      else bad.foldl (fun s g => match s.goodCopy far g with | some c => s.healFrom far g c | none => s) s
    let t := s.tier far
    .next (((s.setTier far { t with
      sites := modifyAt t.sites m.logical (fun _ => m.toSite)
      sparesUsed := t.sparesUsed ++ [m.toSite]
      downSites := t.downSites ++ [m.fromSite]
      ceTimes := drop t.ceTimes m.logical
      ueTimes := drop t.ueTimes m.logical
      migration := none }).dueUnit 6 far m.logical m.toSite).raise
      (frameReport (tierSource far m.logical) 0x050C clsInfra 0 (BitVec.ofNat 64 m.toSite))).bump

/-! ## BAR4 (R347, R348) -/

/-- Where an aperture request goes: its paddock, tier and share offset; `none` where it misses. -/
def State.apertureTarget (s : State) (o len : Nat) : Option (Nat × Bool × Nat) :=
  let v := s.frameReg 0x00700080 0
  let p := field v 48 5
  let far := bitOf v 62
  let off := field v 0 12 * 2 ^ 30 + o
  let d := s.paddock p
  let inWindow := !far && (match d.window with
    | some w => decide (off < w + 0x10000) && decide (w < off + len)
    | none => false)
  if bitOf v 63 && d.live && decide (1 ≤ p) && decide (p ≤ 28) && !d.keyless
      && decide (off + len ≤ (d.units far).length * 2 ^ 30) && !inWindow then some (p, far, off)
  else none

/-- A miss is counted at the paddock the register names. -/
def State.apertureMiss (s : State) : State := s.cntPaddock (field (s.frameReg 0x00700080 0) 48 5) 12 1

/-- APERTURE_READ: data, or all ones with EP for poison and without it for a miss or in halt (16, R494); a locked granule waits
(R330). -/
def execApertureRead (offset : BitVec 36) (len : Nat) (s : State) : Host.Outcome State Fault Refusal :=
  let ones := List.replicate len (0xFF : BitVec 8)
  if s.halted then .next (s.emit (.aperture ones false)).bump
  else match s.apertureTarget offset.toNat len with
  | none => .next ((s.emit (.aperture ones false)).apertureMiss).bump
  | some (p, far, off) =>
    if s.shareLocked p far off len then turnedAway s
    else
      let bs := s.shareBytes p far off len
      let s := (s.touchShare p far off len).countRead p far off len
      if bs.any Prod.snd then
        let a := ((s.paddock p).shareAddr far off).getD 0
        .next ((s.emit (.aperture ones true)).raise
          (frameReport (tierSource far (unitOf far a)) 0x060E clsNote p (BitVec.ofNat 64 a))).bump
      else .next (s.emit (.aperture (bs.map (fun b => BitVec.ofNat 8 b.1)) false)).bump

/-- APERTURE_WRITE: the share takes the bytes, or the write is discarded and counted; in halt it is discarded (16, R494). -/
def execApertureWrite (offset : BitVec 36) (data : List Byte) (s : State) : Host.Outcome State Fault Refusal :=
  if s.halted then .next s.bump
  else match s.apertureTarget offset.toNat data.length with
  | none => .next s.apertureMiss.bump
  | some (p, far, off) =>
    if s.shareLocked p far off data.length then turnedAway s
    else
      .next ((s.writeShare p far off (data.map (fun b => (b.toNat, false)))).onPaddock p
        (fun d => { d with seals := { d.seals with unsealedIn := true } })).bump

end Sys2Proof.Machine
end

