-- ==== Sys2Proof/Machine/HostOps.lean ====
section
/-! DEFINITION. The host interface: host memory, rings, descriptors and their checks, result slots, chains, completion
records and MSI-X (14, R420 to R445; 12, R372, R373; 16, R486). -/

namespace Sys2Proof.Machine

/-! ## Host memory -/

/-- A byte of host memory and whether the host marks it poisoned (16, R495). -/
def State.hostByte (s : State) (a : Nat) : Nat × Bool := ((getD 0 s.hostMem a).toNat, s.hostPoison.contains a)

/-- Bytes of host memory. -/
def State.hostBytes (s : State) (a n : Nat) : List (Nat × Bool) := (List.range n).map (fun i => s.hostByte (a + i))

/-- Bytes of host memory as plain bytes. -/
def State.hostRead (s : State) (a n : Nat) : List (BitVec 8) := (List.range n).map (fun i => getD 0 s.hostMem (a + i))

/-- A number read from host memory. -/
def State.hostNat (s : State) (a n : Nat) : Nat := natLE (s.hostRead a n)

/-- Bytes written to host memory. -/
def State.hostWrite (s : State) (a : Nat) (bs : List (BitVec 8)) : State :=
  { s with
    hostMem := ((List.range bs.length).zip bs).foldl (fun m x => putD 0 m (a + x.1) x.2) s.hostMem
    hostPoison := s.hostPoison.filter (fun x => decide (x < a) || decide (a + bs.length ≤ x)) }

/-! ## Descriptors (Tables 14.7, 14.9) -/

/-- Extension entries. -/
def extensionsOf (b : List (BitVec 8)) : Nat := descNat b 2 1 / 8 % 4

/-- The bytes 8 to 63 that an opcode uses (Table 14.9). -/
def usedBytes (op : Nat) : List (Nat × Nat) :=
  match op with
  | 0x0002 => [(8, 4)]
  | 0x0010 => [(8, 1), (16, 24)]
  | 0x0011 => [(8, 1), (16, 24)]
  | 0x0020 => [(8, 2), (16, 24)]
  | 0x0030 => [(8, 1), (10, 4), (16, 20)]
  | 0x0032 => [(8, 40)]
  | 0x0033 => [(8, 4), (16, 48)]
  | 0x0034 => [(8, 1)]
  | 0x0040 => [(8, 25), (34, 10), (48, 12)]
  | 0x0050 => [(16, 16)]
  | 0x0051 => [(16, 8)]
  | 0x0060 => [(8, 2), (16, 11), (32, 12), (48, 16)]
  | 0x0061 => [(16, 16)]
  | 0x0070 => [(8, 4)]
  | 0x0100 => [(8, 9), (24, 40)]
  | 0x0102 => [(8, 3)]
  | 0x0110 => [(8, 1), (16, 4), (24, 8)]
  | 0x0120 => [(8, 1), (16, 16)]
  | 0x0121 => [(8, 1)]
  | 0x0130 => [(16, 16)]
  | _ => []

/-- Whether the bytes that an opcode does not use are zero. -/
def unusedZero (b : List (BitVec 8)) : Bool :=
  ((List.range 56).map (8 + ·)).all (fun i =>
    (usedBytes (descNat b 0 2)).any (fun u => decide (u.1 ≤ i) && decide (i < u.1 + u.2)) || b.getD i 0 == 0)

/-- The opcodes of Table 14.9. -/
def knownOpcodes : List Nat :=
  [0x0001, 0x0002, 0x0003, 0x0010, 0x0011, 0x0020, 0x0021, 0x0030, 0x0032, 0x0033, 0x0034, 0x0040, 0x0050, 0x0051, 0x0060,
   0x0061, 0x0070, 0x0100, 0x0101, 0x0102, 0x0110, 0x0111, 0x0120, 0x0121, 0x0130]

/-- Whether an opcode is admin-only. -/
def adminOpcode (op : Nat) : Bool := decide (0x0100 ≤ op)

/-- Whether a destination field is well formed (R427). -/
def destOk (v : Nat) : Bool := if v / 2 ^ 63 = 1 then v % 2 ^ 63 / 2 ^ 16 == 0 else decide (v < 2 ^ 60)

/-- The ranges of Table 14.9. -/
def rangesOk (b : List (BitVec 8)) : Bool :=
  let f := descNat b
  match f 0 2 with
  | 0x0010 => decide (f 8 1 ≤ 1) && decide (1 ≤ f 24 8) && decide (f 24 8 ≤ 2 ^ 36) && decide (f 32 8 < 2 ^ 60)
  | 0x0011 => decide (f 8 1 ≤ 1) && decide (1 ≤ f 24 8) && decide (f 24 8 ≤ 2 ^ 36) && destOk (f 32 8)
  | 0x0020 => decide (f 8 1 ≤ 2) && f 32 8 % 65536 == 0 && (f 8 1 == 1 || decide (f 24 8 < 2 ^ 60))
      && (f 8 1 == 2 || f 9 1 == 0)
  | 0x0030 => decide (f 8 1 < 16) && decide (1 ≤ f 10 4) && destOk (f 24 8)
  | 0x0032 => decide (f 8 1 < 64) && decide (f 9 1 ≤ 1) && decide (f 10 1 ≤ 8) && decide (f 11 1 ≤ 4)
  | 0x0033 => decide (f 8 1 < 64) && decide (f 9 1 ≤ 2) && decide (f 11 1 ≤ 1) && destOk (f 16 8) && decide (f 24 8 < 2 ^ 60)
      && (if f 9 1 = 0 then decide (1 ≤ f 10 1) && decide (f 10 1 ≤ 64) else f 10 1 == 0)
  | 0x0034 => decide (f 8 1 < 64)
  | 0x0040 => decide (f 8 1 < 16) && decide (f 9 1 ≤ 1) && decide (f 10 1 ≤ 2) && decide (f 11 1 ≤ 3)
      && decide (f 32 1 < 16) && decide (1 ≤ f 34 2) && destOk (f 48 8)
  | 0x0050 => f 16 8 % 4096 == 0
  | 0x0060 => decide (f 8 1 ≤ 2) && decide (f 9 1 ≤ 2) && decide (f 32 8 < 2 ^ 60) && destOk (f 48 8)
      && (f 9 1 != 0 || f 24 3 == 0) && (f 8 1 == 2 || f 56 8 == 0)
      && decide (1 ≤ f 40 4) && decide (f 40 4 ≤ 256)
  | 0x0061 => decide (f 16 8 < 2 ^ 60)
  | 0x0100 => decide (1 ≤ f 12 2) && decide (16 ≤ f 16 1) && decide (f 16 1 ≤ 29) && f 24 8 % 2 ^ 29 == 0 && f 32 1 % 2 == 0
  | 0x0102 => decide (f 8 1 + f 9 1 + f 10 1 ≤ 100)
  | 0x0110 => decide (f 8 1 ≤ 2) && f 16 4 % 2 == 0 && decide (f 16 4 < 2 ^ 29) && decide (f 24 8 < 2 ^ 48)
  | 0x0120 => decide (f 8 1 ≤ 1) && decide (f 24 8 < 2 ^ 60)
  | 0x0121 => decide (f 8 1 ≤ 1)
  | 0x0130 => decide (f 16 8 ≤ 4096) && decide (f 24 8 < 2 ^ 60)
  | _ => true

/-- R431: a descriptor that is refused as it is consumed. -/
def State.descBad (s : State) (n : Nat) (b : List (BitVec 8)) : Bool :=
  let op := descNat b 0 2
  let flags := descNat b 2 1
  !knownOpcodes.contains op || decide (32 ≤ flags) || !unusedZero b
    || (extensionsOf b != 0 && !(op == 0x0001 || op == 0x0033))
    || (n != 0 && (adminOpcode op || descNat b 3 1 != (getD {} s.rings n).paddock))
    || (n == 0 && flags / 4 % 2 == 1) || !rangesOk b

/-! ## Paddocks and their descriptors -/

/-- A descriptor by its number. -/
def State.desc (s : State) (id : Nat) : Option Desc := s.descs.find? (fun d => d.id == id)

/-- A descriptor changed. -/
def State.onDesc (s : State) (id : Nat) (f : Desc → Desc) : State :=
  { s with descs := s.descs.map (fun d => if d.id = id then f d else d) }

/-- A descriptor's work ends with a status and result information. -/
def State.finishDesc (s : State) (id status : Nat) (result : BitVec 64) : State :=
  s.onDesc id (fun d => match d.status with
    | some _ => d
    | none => { d with status := some status, result := result })

/-- A chain record added to a descriptor. -/
def State.chain (s : State) (id : Nat) (kind : Nat) (payload : List (BitVec 8)) : State :=
  s.onDesc id (fun d => { d with records := d.records ++ [{ kind := kind, payload := payload }] })

/-- The status codes of the OK family (R440). -/
def okStatus (st : Nat) : Bool := decide (st ≤ 2)

/-- The statuses of a completion that ends the paddock's job (R441). -/
def jobEnding (st : Nat) : Bool := decide (0x0100 ≤ st ∧ st ≤ 0x0102) || st == 0x0203

/-- The descriptors that may run in a paddock whose job has ended (R441). -/
def afterJobEnd (op : Nat) : Bool := [0x0001, 0x0002, 0x0003, 0x0011, 0x0061, 0x0070, 0x0060, 0x0021].contains op

/-- The opcodes that run one at a time per paddock (R430). -/
def serialOpcode (op : Nat) : Bool := [0x0030, 0x0032, 0x0033, 0x0034, 0x0040, 0x0020, 0x0021, 0x0050, 0x0051, 0x0060].contains op

/-- The opcodes that open strides. -/
def strideOpcode (op : Nat) : Bool := [0x0030, 0x0033, 0x0040].contains op

/-- KILL_JOB (16, R486): the tiles park, the stride is abandoned, and every consumed descriptor completes. -/
def State.killJob (s : State) (p status : Nat) : State :=
  if p = 0 || !(s.paddock p).live || (s.paddock p).ended.isSome then s
  else
    let s := (s.onTilesOf p (fun _ t => { t with parked := true, wait := .none })).onRegionsOf p
      (fun g => { g with due := [], opens := [], deadlines := [] })
    let s := (s.onPaddock p (fun d => { d with
      seals := if d.current.isSome then { d.seals with
          stretched := d.seals.stretched || decide (0 < d.strideHeld), held := d.seals.held + d.strideHeld } else d.seals
      ended := some status, current := none, next := none, pulse := false, run := none
      relKeys := d.eraseDue.foldl (fun m k => drop m k) d.relKeys, eraseDue := [] })).cntFrame 23 (s.paddock p).eraseDue.length
    { s with descs := s.descs.map (fun d =>
        if d.paddock = p ∧ d.status = none ∧ !adminOpcode d.opcode then { d with status := some status } else d) }

/-- A poison consumption at a frame egress (16, R496): recorded; the reaction ends the job. -/
def State.egress (s : State) (p source : Nat) (addr : BitVec 64) : State :=
  s.raise { frameReport source 0x0102 clsUE p addr with poison := true }

/-! ## Host bytes of a descriptor (18, R533, R534) -/

/-- Bytes that a descriptor reads from host memory: on the twin of the primary, those forwarded with it. -/
def State.hostFor (s : State) (d : Desc) (a n : Nat) : List (Nat × Bool) :=
  match d.staged with
  | some bs => bs.take n
  | none => s.hostBytes a n

/-- Whether the bytes that a forwarded descriptor reads are all here. -/
def Desc.hostReady (d : Desc) (n : Nat) : Bool := match d.staged with | some bs => decide (n ≤ bs.length) | none => true

/-- How many bytes a STAGE_IN or a LOAD_IMAGE reads from host memory. -/
def Desc.hostLength (d : Desc) : Nat :=
  match d.opcode with
  | 0x0010 => d.nat 24 8
  | 0x0020 => if d.nat 8 1 = 1 then 0 else d.nat 16 8
  | _ => 0

/-- Whether a descriptor of a shared paddock is the oldest whose host bytes are still to be forwarded (log entry 96). -/
def State.stagingTurn (s : State) (d : Desc) : Bool :=
  !s.shared d.paddock || s.descs.all (fun x => !(decide (x.id < d.id) && x.paddock == d.paddock && x.ring != 0 && x.status.isNone
    && decide (0 < x.hostLength)))

/-- The primary forwards the bytes that a descriptor reads from host memory. -/
def State.forwardStaged (s : State) (d : Desc) (bs : List (Nat × Bool)) : State :=
  if s.shared d.paddock && (s.paddock d.paddock).primary then s.forward d.paddock 1 0 bs else s

/-! ## Result slots (R444, R445) -/

/-- A result slot. -/
def Paddock.slot (d : Paddock) (k : Nat) : ResultSlot := getD {} d.slots k

/-- The header bytes of a slot (Table 14.12). -/
def ResultSlot.header (x : ResultSlot) : List (BitVec 8) :=
  bytesLE 4 x.state ++ bytesLE 2 x.status ++ bytesLE 2 x.ring ++ bytesLE 8 x.sequence ++ bytesLE 8 x.length
    ++ bytesLE 4 x.tag.toNat ++ bytesLE 4 0 ++ bytesLE 8 x.pace.toNat ++ List.replicate 24 0

/-- A slot replaced, with its header in the share. -/
def State.setSlot (s : State) (p k : Nat) (x : ResultSlot) : State :=
  let d := s.paddock p
  let s := s.setPaddock p { d with slots := putD {} d.slots k x }
  match d.shareAddr false (d.winNear + k * 2 ^ d.slotLog) with
  | some a => s.writeTier false a (x.header.map (fun b => (b.toNat, false)))
  | none => s

/-- The share offset of a slot's payload. -/
def Paddock.payload (d : Paddock) (k : Nat) : Nat := d.winNear + k * 2 ^ d.slotLog + 64

/-- The destination field and the result length of a descriptor, if its opcode has them. -/
def descDest (b : List (BitVec 8)) : Option (Nat × Nat) :=
  let f := descNat b
  match f 0 2 with
  | 0x0011 => some (f 32 8, f 24 8)
  | 0x0030 => some (f 24 8, f 32 4)
  | 0x0033 => some (f 16 8, 4 * 9)
  | 0x0040 => some (f 48 8, f 56 4)
  | 0x0060 => some (f 48 8, if f 8 1 = 0 then 0 else 16 * f 40 4)
  | _ => none

/-- The result slot that a descriptor names: `none` for a host destination, `some none` for one it may not take. -/
def State.destSlot (s : State) (p : Nat) (b : List (BitVec 8)) : Option (Option Nat) :=
  match descDest b with
  | none => none
  | some (v, len) =>
    if v / 2 ^ 63 = 0 then none
    else
      let d := s.paddock p
      let k := v % 2 ^ 16
      let st := (d.slot k).state
      if d.live ∧ k < 2 ^ (29 - d.slotLog) ∧ (st = 0 ∨ st = 3) ∧ len ≤ 2 ^ d.slotLog - 64 then some (some k) else some none

/-! ## Chains (12, R372, R373) -/

/-- The host address fields of an opcode, written as zero in a payload. -/
def hostFields (b : List (BitVec 8)) : List (Nat × Nat) :=
  match descNat b 0 2 with
  | 0x0010 => [(32, 8)]
  | 0x0011 => [(32, 8)]
  | 0x0020 => if descNat b 8 1 = 1 then [] else [(24, 8)]
  | 0x0030 => [(24, 8)]
  | 0x0033 => [(16, 16)]
  | 0x0040 => [(48, 8)]
  | _ => []

/-- Descriptor bytes 8 to 63 with the host addresses zero. -/
def chainBytes (b : List (BitVec 8)) : List (BitVec 8) :=
  ((List.range 56).map (8 + ·)).map (fun i =>
    if (hostFields b).any (fun u => decide (u.1 ≤ i) && decide (i < u.1 + u.2)) then 0 else b.getD i 0)

/-- The prompt tokens of a DECODE_STEP: inline ones where they fit, else those of the token source (14, R436). -/
def State.stepTokens (s : State) (b : List (BitVec 8)) (staged : Option (List (Nat × Bool))) : List (BitVec 32) :=
  let n := descNat b 10 1
  let word := fun (bs : List (BitVec 8)) i => BitVec.ofNat 32 (natLE ((bs.drop (4 * i)).take 4))
  if n ≤ 8 + 16 * extensionsOf b then (List.range n).map (word (b.drop 32))
  else (List.range n).map (word (match staged with
    | some bs => bs.map (fun x => BitVec.ofNat 8 x.1)
    | none => s.hostRead (descNat b 24 8) (4 * n)))

/-- The input and seed records of a descriptor that opens strides or names a session (Table 12.3; log entry 77). -/
def State.inputRecords (s : State) (b : List (BitVec 8)) (staged : Option (List (Nat × Bool))) : List ChainRec :=
  let op := descNat b 0 2
  let body := bytesLE 2 op ++ chainBytes b
  match op with
  | 0x0030 => [{ kind := 0x0004, payload := body }, { kind := 0x0101, payload := bytesLE 8 (descNat b 16 8) }]
  | 0x0032 => [{ kind := 0x0004, payload := body },
               { kind := 0x0102, payload := bytesLE 1 (descNat b 8 1) ++ bytesLE 8 (descNat b 16 8) }]
  | 0x0033 => [{ kind := 0x0004, payload := body ++ sha256 ((s.stepTokens b staged).map (fun t => bytesLE 4 t.toNat)).flatten }]
  | 0x0034 => [{ kind := 0x0004, payload := body }]
  | 0x0040 =>
    [{ kind := 0x0004, payload := body }, { kind := 0x0101, payload := bytesLE 8 (descNat b 36 8) }]
  | _ => []

/-- A chain after a record. -/
def chainStep (c : BitVec 256) (r : ChainRec) : BitVec 256 :=
  let d := sha256 (bytesLE 2 r.kind ++ r.payload)
  digestNat (sha256 (bytesLE 32 c.toNat ++ d))

/-- A ring's chains after a record, by the kind's chain (Table 12.3). -/
def Ring.addRecord (r : Ring) (x : ChainRec) : Ring :=
  if x.kind < 0x100 then { r with chainIn := chainStep r.chainIn x }
  else if x.kind < 0x200 then { r with chainSeed := chainStep r.chainSeed x }
  else { r with chainOut := chainStep r.chainOut x }

/-- The record of the release key that a TALLY_RUN uses. -/
def keyRecord (k : BitVec 256) : ChainRec := { kind := 0x0103, payload := sha256 (bytesLE 32 k.toNat) }

/-- The image digest that a paddock's image header records; zero bytes with no image. -/
def Paddock.imageDigest (d : Paddock) : List (BitVec 8) :=
  (d.image.map (fun (i : Image) => (i.header.drop 24).take 32)).getD (List.replicate 32 0)

/-- The chain record of LOAD_IMAGE: the digests that the header records, whether the image is then refused or not (12,
R373, R375, Table 12.3; log entry 77). -/
def loadRecord (raw : List (BitVec 8)) (d : Desc) : List (BitVec 8) :=
  (List.range 64).map (fun j => raw.getD (24 + j) 0) ++ chainBytes d.bytes

/-- The input and seed records that a descriptor adds though it ended before the work that makes them: of no bytes staged, of
an image not read, of a run not started (R373; log entry 77). -/
def State.lateRecords (s : State) (d : Desc) : List ChainRec :=
  let key := look (s.paddock d.paddock).relKeys (d.nat 11 1)
  let made := fun (k : Nat) => d.records.any (fun r => r.kind == k)
  if d.quiet || d.sealed then []
  else match d.opcode with
    | 0x0010 => if made 0x0003 then []
        else [⟨0x0003, bytesLE 1 (d.nat 8 1) ++ bytesLE 8 (d.nat 16 8) ++ bytesLE 8 (d.nat 24 8) ++ sha256 []⟩]
    | 0x0020 => if made 0x0001 then [] else [⟨0x0001, loadRecord [] d⟩]
    | 0x0021 => if made 0x0002 then [] else [⟨0x0002, (s.paddock d.paddock).imageDigest⟩]
    | 0x0040 => if d.nat 10 1 = 0 || made 0x0103 then [] else (key.map keyRecord).toList
    | _ => []

/-- The kinds of Table 12.3, in its order. -/
def recordKinds : List Nat := [0x0001, 0x0002, 0x0003, 0x0004, 0x0101, 0x0102, 0x0103, 0x0201, 0x0202, 0x0203]

/-- The records that a descriptor adds, in the order of Table 12.3 (R372): an output record only with a status of the OK
family. -/
def Desc.chainRecords (d : Desc) : List ChainRec :=
  if d.ring = 0 then []
  else
    let rs := d.records.filter (fun r => decide (r.kind < 0x200) || (d.status.map okStatus).getD false)
    (recordKinds.map (fun k => rs.filter (·.kind == k))).flatten

/-- A ring pair. -/
def State.ring (s : State) (n : Nat) : Ring := getD {} s.rings n

/-- A ring pair replaced. -/
def State.setRing (s : State) (n : Nat) (r : Ring) : State := { s with rings := putD {} s.rings n r }

/-- The ring pairs of a paddock, in ascending id. -/
def State.ringsOf (s : State) (p : Nat) : List Nat :=
  (List.range 256).filter (fun n => n != 0 && (s.ring n).paddock == p)

/-- Records added to the chains of a descriptor's ring pair. Those of a descriptor that the twin forwarded are the chains that the
yoke carries, and after a takeover those of the own ring pair of the same ordinal (R374, R381; log entry 100). -/
def State.addRecords (s : State) (d : Desc) (recs : List ChainRec) : State :=
  let add := fun (r : Ring) => recs.foldl Ring.addRecord r
  let pd := s.paddock d.paddock
  let carried := pd.twin.chains
  if d.staged.isNone then s.setRing d.ring (add (s.ring d.ring))
  else if !pd.primary then
    s.setPaddock d.paddock { pd with twin := { pd.twin with
      chains := insertAt carried d.ring (add (getD {} carried d.ring)) } }
  else match (s.ringsOf d.paddock)[(carried.map Prod.fst).idxOf d.ring]? with
    | some n => s.setRing n (add (s.ring n))
    | none => s

/-- Whether two descriptors are of one ring pair, of this module or of the twin. -/
def Desc.sameRing (a b : Desc) : Bool :=
  a.ring == b.ring && a.staged.isSome == b.staged.isSome && (a.staged.isNone || a.paddock == b.paddock)

/-- The chains of a descriptor's ring take the records of its descriptors in the order of consumption, as far as they have
completed; those descriptors are forgotten. -/
def State.flushRing (s : State) (d : Desc) : State :=
  let mine := s.descs.filter d.sameRing
  let done := mine.takeWhile (·.completed)
  let s := s.addRecords d (done.map Desc.chainRecords).flatten
  { s with descs := s.descs.filter (fun d => !(done.any (fun x => x.id == d.id))) }

/-! ## MSI-X (R442) -/

/-- The vector control word of an MSI-X vector: masked until the host unmasks it. -/
def State.msixMasked (s : State) (v : Nat) : Bool := bitOf (getD (BitVec.ofNat 64 (2 ^ 32)) s.msix (2 * v + 1)) 32

/-- A message of a vector is sent, or becomes pending while the vector is masked or the module is in D3hot (log entry 125). -/
def State.sendMsix (s : State) (v : Nat) : State :=
  if s.msixMasked v || s.d3hot then
    { s with msixPending := if s.msixPending.contains v then s.msixPending else s.msixPending ++ [v] }
  else s.emit (.msix v)

/-! ## Completion records (R432) -/

/-- Entries of a ring of a register word. -/
def ringSize (v : BitVec 64) : Nat := 2 ^ field v 0 5

/-- The host address of a ring. -/
def ringBase (v : BitVec 64) : Nat := field v 12 48 * 4096

/-- The bytes of a completion record. -/
def completionBytes (d : Desc) (status : Nat) (pace : BitVec 64) (phase : Bool) : List (BitVec 8) :=
  (d.bytes.drop 4).take 4 ++ bytesLE 2 status ++ bytesLE 2 d.ring ++ bytesLE 8 pace.toNat ++ bytesLE 8 d.result.toNat
    ++ List.replicate 7 0 ++ [if phase then 1 else 0]

/-- The ring pair that takes a descriptor's completion record: its own, or for one forwarded by the twin the paddock's lowest
(18, R545). -/
def State.recordRing (s : State) (d : Desc) : Nat :=
  if d.staged.isNone then d.ring
  else ((rangeFrom 1 255).find? (fun n => (s.ring n).paddock == d.paddock)).getD d.ring

/-- A descriptor's completion record is written, and its message sent, though the host has since cleared enable (R422); a link
reset discards both (R413), as does the disabled ring pair that takes over a forwarded descriptor. Only the
primary of a paired paddock writes one, and it forwards it (18, R533, R534). -/
def State.writeCompletion (s : State) (d : Desc) (status : Nat) : State :=
  let n := s.recordRing d
  let r := s.ring n
  let pace := d.count.getD (s.paddock d.paddock).paceCount
  let bytes := completionBytes d status pace r.phase
  let s := if s.shared d.paddock && (s.paddock d.paddock).primary && d.ring != 0 then
      s.forward d.paddock 4 0 (bytes.map (fun b => (b.toNat, false))) else s
  if d.mute || (d.staged.isSome && !r.enable) || !((s.paddock d.paddock).primary || d.ring == 0) then s
  else
    let s := s.hostWrite (ringBase r.cq + 32 * r.cqTail) bytes
    let wrap := r.cqTail + 1 = ringSize r.cq
    let s := s.setRing n { r with
      cqTail := if wrap then 0 else r.cqTail + 1
      unread := r.unread + 1
      phase := if wrap then !r.phase else r.phase }
    if d.flags / 2 % 2 = 1 then s.sendMsix r.vector else s

/-- The result slot of a descriptor becomes FINAL (R445; 16, R496): with a poisoned payload the status is
POISON_CONSUMED and the job ends. Answers the status in force. -/
def State.finalSlot (s : State) (d : Desc) (status : Nat) : State × Nat :=
  match d.slot with
  | none => (s, status)
  | some k =>
    let p := d.paddock
    let pd := s.paddock p
    let len := if okStatus status then
        (if d.opcode = 0x0033 then 4 * field d.result 0 32 else ((descDest d.bytes).map Prod.snd).getD 0) else 0
    let body := s.shareBytes p false (pd.payload k) len
    let bad := body.any Prod.snd
    let status' := if bad then 0x0100 else status
    let len' := if bad then 0 else len
    let s := if bad then (s.egress p 0xDFFF (BitVec.ofNat 64 (pd.payload k))) else s
    let s := s.onPaddock p (fun pd => { pd with resultSeq := pd.resultSeq + 1 })
    let s := s.setSlot p k { state := 2, status := status', ring := d.ring, sequence := pd.resultSeq + 1, length := len',
                             tag := BitVec.ofNat 32 (d.nat 4 4), pace := pd.paceCount }
    let s := s.onDesc d.id (fun d => { d with status := some status' })
    (if d.opcode = 0x0060 then s
      else s.chain d.id 0x0202 (bytesLE 8 (pd.resultSeq + 1) ++ bytesLE 8 len'
        ++ sha256 ((body.take len').map (fun b => BitVec.ofNat 8 b.1))), status')

/-- The records that a descriptor owes join its others. -/
def State.addLate (s : State) (d : Desc) : State :=
  (s.lateRecords ((s.desc d.id).getD d)).foldl (fun s r => s.chain d.id r.kind r.payload) s

/-- A descriptor completes: its slot, its record, its message, then the chains of its ring. A PAD has no record (R428). -/
def State.completeDesc (s : State) (d : Desc) (status : Nat) : State :=
  let (s, status) := (s.addLate d).finalSlot d status
  let s := if d.opcode = 0x0002 then s else s.writeCompletion { d with status := some status } status
  let s := (s.onDesc d.id (fun d => { d with status := some status, completed := true })).flushRing d
  if jobEnding status then s.killJob d.paddock status else s

/-- HALTED completions: those of a status decided before are written first (16, R488, R493); in D3hot they wait for D0 (log entry 125). -/
def State.haltDescriptors (s : State) : State :=
  let open_ := s.descs.filter (fun d => !d.completed)
  let decided := open_.filter (fun d => d.status.isSome)
  let s := decided.foldl (fun s d => s.completeDesc d (d.status.getD 0)) s
  (open_.filter (fun d => d.status.isNone)).foldl (fun s d =>
    match s.desc d.id with
    | some d => let st := d.status.getD 0x0300; s.completeDesc { d with status := some st } st
    | none => s) s

end Sys2Proof.Machine
end

