-- ==== Sys2Proof/Machine/PoseOps.lean ====
section
/-! DEFINITION. Pose descriptors: their fields, validity, and the checks of a load (08, R255, R257, R266, R268, R270,
R273; 07, R217; 04, R155). -/

namespace Sys2Proof.Machine

/-! ## Descriptor fields (Table 8.1) -/

/-- Word `i` of a descriptor. -/
def descAt (d : List (BitVec 64)) (i : Nat) : BitVec 64 := d.getD i 0

/-- The entry offset. -/
def descEntry (d : List (BitVec 64)) : Nat := field (descAt d 0) 0 18

/-- steer_count. -/
def descSteers (d : List (BitVec 64)) : Nat := field (descAt d 0) 40 8

/-- The queue map entry of a queue. -/
def descQueue (d : List (BitVec 64)) (q : Nat) : BitVec 64 := descAt d (4 + q)

/-- A steer rule. -/
def descSteer (d : List (BitVec 64)) (i : Nat) : BitVec 64 := descAt d (36 + i)

/-- MX_PLUMB_MODE as the plumb field loads it (R155): log2n and phase are zero under OFF and ALL. -/
def plumbOf (d : List (BitVec 64)) : BitVec 64 :=
  let w := descAt d 0
  let mode := field w 48 2
  if mode = 1 then BitVec.ofNat 64 (1 + field w 50 4 * 16 + field w 54 10 * 256) else BitVec.ofNat 64 mode

/-! ## Validity (R257) -/

/-- R155: the plumb field. -/
def plumbValid (d : List (BitVec 64)) : Bool :=
  let w := descAt d 0
  let mode := field w 48 2
  let log2n := field w 50 4
  mode == 0 || mode == 2
    || (mode == 1 && decide (1 ≤ log2n) && decide (log2n ≤ 10) && decide (field w 54 10 < 2 ^ log2n))

/-- The end of a ring. -/
def ringEnd (e : BitVec 64) : Nat := qBase e + 16 * qSize e

/-- R217: one queue map entry, under a protected top. -/
def entryValid (top : Nat) (e : BitVec 64) : Bool :=
  field e 61 2 == 0 && field e 43 5 == 0 && field e 37 3 == 0 && field e 29 3 == 0 && field e 14 2 == 0
    && (!qEnabled e || (decide (2 ≤ qSize e) && decide (qSize e ≤ 4096) && decide (2 ≤ qCredit e)
      && decide (qCredit e ≤ qSize e) && decide (4096 * top ≤ qBase e) && decide (ringEnd e ≤ memEnd)))

/-- Whether two rings overlap. -/
def ringsMeet (a b : BitVec 64) : Bool := decide (qBase a < ringEnd b) && decide (qBase b < ringEnd a)

/-- The enabled entries of a descriptor, with their queues. -/
def descEnabled (d : List (BitVec 64)) : List (Nat × BitVec 64) :=
  ((List.range 32).map (fun q => (q, descQueue d q))).filter (fun x => qEnabled x.2)

/-- The layout of a queue destination (R224): the tile and queue of selector 0x0, and the same in the inner address of a
remote queue, whose inner selector is 0x0 (01, Table 1.7). -/
def destLayout (w : BitVec 64) : Bool :=
  match selectorOf w with
  | 0 => field w 50 10 == 0 && field w 5 25 == 0
  | 5 => field w 50 10 == 0 && field w 5 25 == 0
  | 6 => field w 50 4 == 0 && field w 5 25 == 0
  | _ => false

/-- R273: one steer rule of a descriptor. -/
def steerValid (d : List (BitVec 64)) (r : BitVec 64) : Bool :=
  field r 52 11 == 0 && field r 44 4 == 0 && field r 10 30 == 0
    && (!bitOf r 63
      || (let data := field r 5 5
          let ctrl := field r 0 5
          let base := field r 48 4
          let count := field r 40 4 + 1
          qEnabled (descQueue d data) && qEnabled (descQueue d ctrl) && data != ctrl && decide (base + count ≤ 16)
            && (List.range count).all (fun i => destLayout (descAt d (44 + base + i)))))

/-- The queues that the enabled rules of a descriptor bind. -/
def steerQueues (d : List (BitVec 64)) : List Nat :=
  (((List.range (min 8 (descSteers d))).map (descSteer d)).filter (fun r => bitOf r 63)).flatMap
    (fun r => [field r 5 5, field r 0 5])

/-- No number appears twice. -/
def distinct : List Nat → Bool
  | [] => true
  | a :: l => !l.contains a && distinct l

/-- The CRC of a descriptor over its bytes 0 to 507 (R255). -/
def descCrc (d : List (BitVec 64)) : Nat :=
  crc32c (((List.range 64).map (fun i => bytesLE 8 (descAt d i).toNat)).flatten.take 508)

/-- R257: whether a descriptor is valid for a slot of a tile with a protected top. -/
def descValid (top slot : Nat) (d : List (BitVec 64)) : Bool :=
  let w0 := descAt d 0
  let on := descEnabled d
  descCrc d == field (descAt d 63) 32 32
    && field w0 18 14 == 0 && field w0 33 7 == 0 && field (descAt d 1) 16 48 == 0
    && (List.range 2).all (fun i => descAt d (2 + i) == 0)
    && (List.range 3).all (fun i => descAt d (60 + i) == 0) && field (descAt d 63) 0 32 == 0
    && descEntry d % 4 == 0 && decide (descEntry d < 4096 * top)
    && plumbValid d
    && (List.range 32).all (fun q => entryValid top (descQueue d q))
    && on.all (fun x => qShared x.2 || qTag x.2 == slot)
    && on.all (fun x => on.all (fun y => x.1 == y.1 || !ringsMeet x.2 y.2))
    && decide (descSteers d ≤ 8)
    && (List.range 8).all (fun i => if i < descSteers d then steerValid d (descSteer d i) else descSteer d i == 0)
    && distinct (steerQueues d)

/-! ## Partitions and the ring check (R266 to R270) -/

/-- Whether a queue belongs to the partition of a slot. -/
def Tile.inPartition (t : Tile) (slot q : Nat) : Bool :=
  let e := (t.queue q).entry
  qEnabled e && !qShared e && qTag e == slot

/-- The queues of a slot's partition. -/
def Tile.partition (t : Tile) (slot : Nat) : List Nat := (List.range 32).filter (t.inPartition slot)

/-- R268, R270: the ring check against the enabled entries of other slots. -/
def Tile.ringCheck (t : Tile) (slot : Nat) (d : List (BitVec 64)) : Bool :=
  (descEnabled d).all (fun x =>
    (List.range 32).all (fun q =>
      let e := (t.queue q).entry
      if !qEnabled e || t.inPartition slot q then true
      else if q = x.1 then qShared x.2 && e == x.2
      else !ringsMeet e x.2))

/-- The shared queues in force that a descriptor disables (R270). -/
def Tile.disables (t : Tile) (d : List (BitVec 64)) : List Nat :=
  (List.range 32).filter (fun q =>
    let e := (t.queue q).entry
    qEnabled e && qShared e && !qEnabled (descQueue d q))

/-- Notices to every sender on a queue's retry list (R268). -/
def State.noticeAll (s : State) (k : Nat) (t : Tile) (q : Nat) : Tile :=
  (t.queue q).retry.foldl (fun t _ => s.sendNotice k t q) t

/-- A queue emptied; the messages it held. -/
def Tile.emptyQueue (t : Tile) (q : Nat) : Tile × Nat :=
  let x := t.queue q
  (t.setQueue q { x with items := [], occ := 0, head := 0, tail := 0 }, x.messages)

/-- Queues emptied in turn, with the messages they held. -/
def Tile.emptyQueues (t : Tile) (qs : List Nat) : Tile × Nat :=
  qs.foldl (fun r q => let (t, n) := r.1.emptyQueue q; (t, r.2 + n)) (t, 0)

/-- The partition of a slot opened or closed to arrivals. -/
def Tile.closePartition (t : Tile) (qs : List Nat) (b : Bool) : Tile :=
  qs.foldl (fun t q => t.setQueue q { t.queue q with closed := b }) t

/-- The queue map entries of a descriptor installed (R268, R270): the old partition goes first; an identical shared
entry stays as it is. -/
def Tile.installQueues (t : Tile) (slot : Nat) (d : List (BitVec 64)) : Tile :=
  (List.range 32).foldl (fun t q =>
    let x := t.queue q
    let e := descQueue d q
    if qEnabled e then
      if qEnabled x.entry && qShared x.entry && x.entry == e then t
      else t.setQueue q { entry := e, retry := x.retry }
    else if t.inPartition slot q || (qEnabled x.entry && qShared x.entry) then t.setQueue q { retry := x.retry }
    else t) t

end Sys2Proof.Machine
end

