-- ==== Sys2Proof/Machine/ImageOps.lean ====
section
/-! DEFINITION. Program images: header, directory, sections and their records (14, R437, R438, Tables 14.10 and 14.18). -/

namespace Sys2Proof.Machine

/-! ## Bytes -/

/-- The records of `n` bytes of a section. -/
def recordsOf (n : Nat) (b : List (BitVec 8)) : List (List (BitVec 8)) := piecesOf n (b.length / n + 1) b

/-- The words of 8 bytes of a section. -/
def wordsOf (b : List (BitVec 8)) : List (BitVec 64) := (recordsOf 8 b).map (fun w => BitVec.ofNat 64 (natLE w))

/-- A 64-bit word of a record. -/
def wordAt (b : List (BitVec 8)) (off : Nat) : BitVec 64 := BitVec.ofNat 64 (descNat b off 8)

/-- Whether `n` bytes of a record are zero. -/
def zeroAt (b : List (BitVec 8)) (off n : Nat) : Bool := descNat b off n == 0

/-- A rectangle of tiles, x0, y0, x1, y1, 2 bytes each. -/
def rectAt (b : List (BitVec 8)) (off : Nat) : Nat × Nat × Nat × Nat :=
  (descNat b off 2, descNat b (off + 2) 2, descNat b (off + 4) 2, descNat b (off + 6) 2)

/-- Whether a rectangle lies in a region. -/
def rectIn (r : Nat) (q : Nat × Nat × Nat × Nat) : Bool :=
  decide (q.1 ≤ q.2.2.1) && decide (q.2.1 ≤ q.2.2.2) && onGrid q.2.2.1 q.2.2.2 && regionAt q.1 q.2.1 == r
    && regionAt q.2.2.1 q.2.2.2 == r

/-- Whether two rectangles share a tile. -/
def rectsMeet (a b : Nat × Nat × Nat × Nat) : Bool :=
  decide (a.1 ≤ b.2.2.1) && decide (b.1 ≤ a.2.2.1) && decide (a.2.1 ≤ b.2.2.2) && decide (b.2.1 ≤ a.2.2.2)

/-- Whether no two elements of a list are related. -/
def pairwiseNot {α : Type} (f : α → α → Bool) : List α → Bool
  | [] => true
  | a :: l => !l.any (f a) && pairwiseNot f l

/-! ## Header (Table 14.10) -/

/-- The rectangle of regions of a header: rx0, ry0, width, height. -/
def headerRect (b : List (BitVec 8)) : Nat × Nat × Nat × Nat :=
  (descNat b 92 1, descNat b 93 1, descNat b 94 1, descNat b 95 1)

/-- ID_PART.profile (00, Table 0.1). -/
def partProfile : Nat := 1

/-- The checks of a header that R437 and R189 name; `shared` for a plan image. -/
def headerOk (b : List (BitVec 8)) (rect : Nat × Nat × Nat × Nat) (length : Nat) (shared : Bool) : Bool :=
  decide (256 ≤ b.length) && descNat b 0 8 == 0x474D494751 && descNat b 8 2 == 1 && descNat b 10 1 == partProfile
    && descNat b 11 1 == 0 && descNat b 12 2 == 0x7210 && decide (descNat b 14 2 < 8)
    && (descNat b 14 2 / 4 == 1) == shared && descNat b 16 8 == length && decide (1 ≤ descNat b 88 4)
    && decide (descNat b 88 4 ≤ 65535) && headerRect b == rect && zeroAt b 96 160

/-! ## Directory (R438) -/

/-- A directory entry with the bytes of its section, pad included. -/
structure DirEntry where
  kind : Nat
  plan : Bool
  region : Nat
  place : Nat
  pad : Nat
  reserved : Bool
  inside : Bool
  bytes : List (BitVec 8)

/-- A directory entry read from an image. -/
def dirEntryAt (b : List (BitVec 8)) (i : Nat) : DirEntry :=
  let w := wordAt b (256 + 16 * i)
  let off := 64 * descNat b (264 + 16 * i) 4
  let len := 64 * descNat b (268 + 16 * i) 4
  { kind := field w 0 32, plan := bitOf w 32, region := field w 33 5, place := field w 38 5, pad := field w 43 6
    reserved := field w 49 15 != 0, inside := decide (off + len ≤ b.length) && decide (field w 43 6 ≤ len)
    bytes := (b.drop off).take len }

/-- The bytes of the entry's records. -/
def DirEntry.body (e : DirEntry) : List (BitVec 8) := e.bytes.take (e.bytes.length - e.pad)

/-- Region section types, and those that every region of the rectangle must have. -/
def regionKind (k : Nat) : Bool := [1, 2, 3, 4, 5, 6, 7, 9, 0xA, 0xB].contains k

/-- Types that the table marks required. -/
def requiredKinds : List Nat := [1, 2, 3, 5, 0xA]

/-- The types of Table 14.18. -/
def knownKind (k : Nat) : Bool := regionKind k || k == 8 || (decide (0x10 ≤ k) && decide (k ≤ 0x19))

/-- Bytes of a record of a type of fixed record length; 1 for the types whose records vary. -/
def recordBytes (k : Nat) : Nat :=
  match k with
  | 1 => 8 | 2 => 16 | 3 => 8 | 5 => 16 | 6 => 520 | 7 => 40 | 9 => 144 | 0xA => 16 | 0xB => 24 | 0x10 => 32 | 0x13 => 16
  | 0x16 => 32 | 0x17 => 32 | 0x19 => 2 | _ => 1

/-- The numbers of the regions of a rectangle. -/
def rectRegions (q : Nat × Nat × Nat × Nat) : List Nat :=
  ((List.range q.2.2.2).map (fun j => (List.range q.2.2.1).map (fun i => 4 * (q.2.1 + j) + (q.1 + i)))).flatten

/-- The checks of one directory entry (R437, R438). -/
def DirEntry.ok (e : DirEntry) (regions : List Nat) : Bool :=
  knownKind e.kind && e.inside && !e.reserved && e.plan == (e.kind != 8)
    && (if regionKind e.kind then regions.contains e.region else e.region == 31) && decide (e.place ≤ 28)
    && (e.bytes.drop (e.bytes.length - e.pad)).all (· == 0) && e.body.length % recordBytes e.kind == 0

/-- The section of an entry. -/
def DirEntry.section (e : DirEntry) : Section := { kind := e.kind, region := e.region, place := e.place, bytes := e.body }

/-- The directory's checks: each entry, no type, region and placement twice, and the required sections (R438). -/
def directoryOk (es : List DirEntry) (regions : List Nat) : Bool :=
  es.all (fun e => e.ok regions)
    && pairwiseNot (fun (a b : DirEntry) => a.kind == b.kind && a.region == b.region && a.place == b.place) es
    && regions.all (fun r => requiredKinds.all (fun k => es.any (fun e => e.kind == k && e.region == r && e.place == 0)))

/-! ## Sections of a placement (R438, R519) -/

/-- The bytes of a section under a placement: the placement's own, or else the primary's. -/
def Image.sec (i : Image) (place kind region : Nat) : List (BitVec 8) :=
  let own := i.sections.find? (fun x => x.kind == kind && x.region == region && x.place == place)
  match (if own.isSome then own else i.sections.find? (fun x => x.kind == kind && x.region == region && x.place == 0)) with
  | some x => x.bytes
  | none => []

/-- The regions of the image's rectangle. -/
def Image.regions (i : Image) : List Nat := rectRegions (headerRect i.header)

/-- The regions that a placement uses: a fallback leaves its region out. -/
def Image.regionsIn (i : Image) (place : Nat) : List Nat := i.regions.filter (fun r => r + 1 != place)

/-- The placements of an image: 0 and its fallbacks. -/
def Image.placements (i : Image) : List Nat :=
  0 :: (rangeFrom 1 28).filter (fun k => i.sections.any (fun x => x.place == k))

/-- A pace table entry's record (Table 2.3). -/
def paceEntryOf (b : List (BitVec 8)) : PaceEntry :=
  { offset := signedOf 32 (descNat b 0 4), action := descNat b 4 1, target := descNat b 6 2, arg := wordAt b 8 }

/-- The pace store of a region. -/
def Image.store (i : Image) (pl r : Nat) : List PaceEntry := (recordsOf 16 (i.sec pl 2 r)).map paceEntryOf

/-- The directory of a region. -/
def Image.dir (i : Image) (pl r : Nat) : List (BitVec 64) := wordsOf (i.sec pl 1 r)

/-- A barrier or wafer object's entry in the layout of R243. -/
def barrierOf (w : BitVec 64) : BarrierObj :=
  { mode := field w 62 2, step := field w 32 30, target := BitVec.ofNat 32 (field w 0 32) }

/-- Objects numbered from 0, the unused ones left out. -/
def objectMap (ws : List (BitVec 64)) : Map BarrierObj :=
  ((List.range ws.length).zip ws).foldl (fun m x => putD {} m x.1 (barrierOf x.2)) []

/-- The records of the tile groups section; `none` where it is malformed. -/
def groupRecords : Nat → Nat → List (BitVec 8) → Option (List GroupPart)
  | 0, _, _ => some []
  | fuel + 1, r, b =>
    if b.isEmpty then some []
    else
      let n := descNat b 2 1
      if b.length < 8 + 8 * n ∨ n = 0 ∨ 8 < n ∨ 4096 ≤ descNat b 0 2 ∨ 64 ≤ descNat b 3 1 ∨ descNat b 4 4 ≠ 0 then none
      else
        let g : GroupPart := { id := descNat b 0 2, region := r, rects := (List.range n).map (fun i => rectAt b (8 + 8 * i)),
                               barrier := descNat b 3 1 }
        (groupRecords fuel r (b.drop (8 + 8 * n))).map (g :: ·)

/-- The tile groups of a placement. -/
def Image.groups (i : Image) (pl : Nat) : List GroupPart :=
  ((i.regionsIn pl).map (fun r => let b := i.sec pl 4 r; (groupRecords b.length r b).getD [])).flatten

/-- A tile set-up record: rectangle, PD_PROT_TOP.top, start slot (R104, R263). -/
def Image.setups (i : Image) (pl r : Nat) : List ((Nat × Nat × Nat × Nat) × Nat × Nat) :=
  (recordsOf 16 (i.sec pl 5 r)).map (fun b => (rectAt b 0, descNat b 8 1, descNat b 9 1))

/-- The set-up record of a tile. -/
def Image.setupOf (i : Image) (pl k : Nat) : Option (Nat × Nat) :=
  ((i.setups pl (regionOfTile k)).find? (fun x => rectHolds x.1 (tileX k) (tileY k))).map Prod.snd

/-- PD_PROT_TOP.top of a tile. -/
def Image.topOf (i : Image) (pl k : Nat) : Nat := ((i.setupOf pl k).map Prod.fst).getD 0

/-- A pose descriptor record: tile, slot, descriptor words. -/
def Image.descriptors (i : Image) (pl r : Nat) : List (Nat × Nat × List (BitVec 64)) :=
  (recordsOf 520 (i.sec pl 6 r)).map (fun b => (tileAt (descNat b 0 2) (descNat b 2 2), descNat b 4 1, wordsOf (b.drop 8)))

/-- The descriptors of a tile, with their slots. -/
def Image.tileDescs (i : Image) (pl k : Nat) : List (Nat × List (BitVec 64)) :=
  ((i.descriptors pl (regionOfTile k)).filter (fun x => x.1 == k)).map Prod.snd

/-- A tile memory range (R514): rectangle, local offset, length, kind, source and stride. -/
structure MemRange where
  rect : Nat × Nat × Nat × Nat
  loc : Nat
  len : Nat
  kind : Nat
  source : Nat
  stride : Nat

/-- The memory ranges of a region. -/
def Image.ranges (i : Image) (pl r : Nat) : List MemRange :=
  (recordsOf 40 (i.sec pl 7 r)).map (fun b =>
    { rect := rectAt b 0, loc := descNat b 8 4, len := descNat b 12 4, kind := descNat b 16 1, source := descNat b 24 8,
      stride := descNat b 32 8 })

/-- The number of a tile in a rectangle, in order of y, then x. -/
def rectRank (q : Nat × Nat × Nat × Nat) (k : Nat) : Nat := (tileY k - q.2.1) * (q.2.2.1 + 1 - q.1) + (tileX k - q.1)

/-- Tiles of a rectangle. -/
def rectCount (q : Nat × Nat × Nat × Nat) : Nat := (q.2.2.1 + 1 - q.1) * (q.2.2.2 + 1 - q.2.1)

/-- A mark declaration (R514): table, group, beat, slot, and 16 pairs of value and target. -/
structure MarkDecl where
  table : Nat
  group : Nat
  beat : Nat
  slot : Nat
  syncs : List (Nat × Nat)

/-- The mark declarations of a region. -/
def Image.marks (i : Image) (pl r : Nat) : List MarkDecl :=
  (recordsOf 144 (i.sec pl 9 r)).map (fun b =>
    { table := descNat b 0 1, group := descNat b 2 2, beat := descNat b 4 4, slot := descNat b 8 1
      syncs := (List.range 16).map (fun j => (descNat b (16 + 8 * j) 4, descNat b (20 + 8 * j) 4)) })

/-- A schedule unit (Table 15.2): unit, pose, table, class, energy, near-tier bytes. -/
structure SchedUnit where
  id : Nat
  pose : Nat
  table : Nat
  cls : Nat
  energy : Nat
  near : Nat

/-- The schedule units of a region. -/
def Image.units (i : Image) (pl r : Nat) : List SchedUnit :=
  (recordsOf 16 (i.sec pl 0xA r)).map (fun b =>
    { id := descNat b 0 2 % 4096, pose := descNat b 2 1, table := descNat b 3 1 % 16, cls := descNat b 3 1 / 16 % 4,
      energy := descNat b 4 4, near := descNat b 8 4 })

/-- The thresholds of a region: rectangle, selection, word. -/
def Image.thresholds (i : Image) (pl r : Nat) : List ((Nat × Nat × Nat × Nat) × Nat × BitVec 64) :=
  (recordsOf 24 (i.sec pl 0xB r)).map (fun b => (rectAt b 0, descNat b 8 1, wordAt b 16))

/-- A rein's record (Table 9.4). -/
def reinOf (b : List (BitVec 8)) : Rein :=
  let start := descNat b 4 4
  { id := descNat b 0 2 % 4096, frameSource := descNat b 2 1 % 2 == 1, frameSink := descNat b 2 1 / 2 % 2 == 1
    x := start % 1024, y := start / 1024 % 1024, dir := start / 2 ^ 20 % 4, stirrup := start / 2 ^ 22 % 64
    segs := (List.range (min 8 (descNat b 3 1))).map (fun i =>
      let s := descNat b (8 + 2 * i) 2
      (s % 1024, s / 1024 % 4, s / 4096 % 2 == 1)) }

/-- The rein list. -/
def Image.reins (i : Image) (pl : Nat) : List Rein := (recordsOf 32 (i.sec pl 0x10 31)).map reinOf

/-- The records of the gather trees section (R308); `none` where it is malformed or holds a reserved bit. -/
def treeRecords : Nat → List (BitVec 8) → Option (List Tree)
  | 0, _ => some []
  | fuel + 1, b =>
    if b.isEmpty then some []
    else
      let nn := descNat b 2 2
      let nl := descNat b 4 4
      let size := 8 + 16 * nn + 8 * nl
      if b.length < size ∨ 1024 ≤ descNat b 0 2 then none
      else
        let nodes := recordsOf 16 ((b.drop 8).take (16 * nn))
        let leaves := recordsOf 8 ((b.drop (8 + 16 * nn)).take (8 * nl))
        let ok := nodes.all (fun n => decide (descNat n 0 4 < 2 ^ 23) && decide (1 ≤ descNat n 4 1) && decide (descNat n 4 1 ≤ 4)
              && (decide (descNat n 5 1 ≤ 3) || descNat n 5 1 == 0xFF) && zeroAt n 6 2 && decide (descNat n 8 4 < 2 ^ 23)
              && (if descNat n 5 1 = 0xFF then decide (descNat n 12 1 < 16) && decide (descNat n 8 4 < 2 ^ 18) else zeroAt n 12 1)
              && zeroAt n 13 3)
          && leaves.all (fun l => decide (descNat l 0 4 < 2 ^ 20) && decide (descNat l 4 4 < 2 ^ 26)
              && descNat l 4 4 / 2 ^ 23 % 2 == 0)
        let t : Tree := { id := descNat b 0 2
                          nodes := nodes.map (fun n => { place := BitVec.ofNat 32 (descNat n 0 4), inputs := descNat n 4 1
                                                         parentInput := descNat n 5 1, parent := BitVec.ofNat 32 (descNat n 8 4)
                                                         rootSync := descNat n 12 1 })
                          leaves := leaves.map (fun l => { x := descNat l 0 4 % 1024, y := descNat l 0 4 / 1024 % 1024
                                                           node := BitVec.ofNat 32 (descNat l 4 4 % 2 ^ 23)
                                                           input := descNat l 4 4 / 2 ^ 24 }) }
        if ok then (treeRecords fuel (b.drop size)).map (t :: ·) else none

/-- The gather trees. -/
def Image.trees (i : Image) (pl : Nat) : List Tree := let b := i.sec pl 0x11 31; (treeRecords b.length b).getD []

/-- A credit loop (R278): T, m, members of tile and queue. -/
structure CreditLoop where
  bound : Nat
  size : Nat
  members : List (Nat × Nat)

/-- The records of the credit loops section; `none` where it is malformed or holds a reserved bit. -/
def loopRecords : Nat → List (BitVec 8) → Option (List CreditLoop)
  | 0, _ => some []
  | fuel + 1, b =>
    if b.isEmpty then some []
    else
      let n := descNat b 5 1
      let ms := (recordsOf 4 ((b.drop 8).take (4 * n))).map natLE
      if b.length < 8 + 4 * n ∨ 16 < n ∨ !zeroAt b 6 2 ∨ ms.any (fun v => decide (2 ^ 25 ≤ v)) then none
      else
        let l : CreditLoop := { bound := descNat b 0 4, size := descNat b 4 1
                                members := ms.map (fun v => (tileAt (v % 1024) (v / 1024 % 1024), v / 2 ^ 20 % 32)) }
        (loopRecords fuel (b.drop (8 + 4 * n))).map (l :: ·)

/-- A remote channel's record (Table 18.7). -/
def channelOf (b : List (BitVec 8)) : Channel :=
  { id := descNat b 0 1 % 32, inbound := descNat b 1 1 % 2 == 1, twin := descNat b 1 1 / 2 % 2 == 1, engine := descNat b 2 1
    dest := wordAt b 4, credit := descNat b 12 2 }

/-- The remote channels. -/
def Image.channels (i : Image) (pl : Nat) : List Channel := (recordsOf 16 (i.sec pl 0x13 31)).map channelOf

/-- The wafer objects: their count and entries. -/
def Image.waferCount (i : Image) (pl : Nat) : Nat := descNat (i.sec pl 0x14 31) 0 8

/-- A lane descriptor (Table 10.3). -/
def laneWord (w : BitVec 64) : RemountLane :=
  { rein := field w 0 12, stack := field w 12 5, order := field w 17 10, sync := field w 27 4, dest := field w 32 18 }

/-- The groups of the remounts section, with the bytes that follow them; `none` where it is malformed. -/
def remountGroups : Nat → Nat → List (BitVec 8) → Option (Map RemountGroup × List (BitVec 8))
  | 0, _, b => some ([], b)
  | left + 1, p, b =>
    let slots := descNat b 0 2
    let per := descNat b 2 2
    let n := 8 + 8 * (slots * per)
    if b.length < n ∨ slots = 0 ∨ 16 < slots ∨ per = 0 ∨ 1024 < per ∨ descNat b 4 2 = 0 ∨ 48 < descNat b 4 2
        ∨ !zeroAt b 6 2 then none
    else
      let ws := wordsOf ((b.drop 8).take (8 * (slots * per)))
      if ws.any (fun w => field w 50 14 != 0 || bitOf w 31 || decide (24 ≤ field w 12 5) || field w 32 4 != 0) then none
      else
        let g : RemountGroup := { slots := slots, perSlot := per, granules := descNat b 4 2, lanes := ws.map laneWord }
        (remountGroups left (p + 1) (b.drop n)).map (fun r => ((p, g) :: r.1, r.2))

/-- The layer records, numbered from 0 (log entry 64), each with its offset table; that of a layer with no routed expert is zero
(R331). -/
def remountLayers : Nat → Nat → List (BitVec 8) → Option (Map RemountLayer)
  | 0, _, _ => some []
  | fuel + 1, l, b =>
    if b.isEmpty then some []
    else
      let w := wordAt b 0
      let n := field w 4 12
      if b.length < 8 + 8 * n ∨ 128 ≤ l ∨ field w 36 28 ≠ 0 ∨ (n = 0 ∧ w ≠ 0) ∨ (n ≠ 0 ∧ field w 16 20 = 0) then none
      else
        let x : RemountLayer := { group := field w 0 4, experts := n, granules := field w 16 20
                                  offsets := (wordsOf ((b.drop 8).take (8 * n))).map BitVec.toNat }
        (remountLayers fuel (l + 1) (b.drop (8 + 8 * n))).map (fun m => if n = 0 then m else (l, x) :: m)

/-- The remounts section (R331, R332): window offset, groups and layers. -/
def remountSection (b : List (BitVec 8)) : Option (Nat × Map RemountGroup × Map RemountLayer) :=
  if b.length < 16 ∨ 16 < descNat b 8 8 then none
  else
    (remountGroups (descNat b 8 8) 0 (b.drop 16)).bind (fun r =>
      (remountLayers (r.2.length + 1) 0 r.2).map (fun ls => (descNat b 0 8, r.1, ls)))

/-- The remounts of a placement, if the image has any. -/
def Image.remounts (i : Image) (pl : Nat) : Option (Nat × Map RemountGroup × Map RemountLayer) :=
  remountSection (i.sec pl 0x15 31)

/-- The mirror ranges: near offset, far offset, length. -/
def Image.mirrorRanges (i : Image) (pl : Nat) : List (Nat × Nat × Nat) :=
  (recordsOf 32 (i.sec pl 0x16 31)).map (fun b => (descNat b 0 8, descNat b 8 8, descNat b 16 8))

/-- A tally declaration's record (Table 13.2). -/
def tallyOf (b : List (BitVec 8)) : TallyDecl :=
  { group := descNat b 0 2, queue := descNat b 2 1, enable := descNat b 3 1 % 2 == 1, cpo := descNat b 4 2
    table := descNat b 8 4, prot := descNat b 12 4, shadow := descNat b 16 8 }

/-- The tally declarations. -/
def Image.tallies (i : Image) (pl : Nat) : List TallyDecl := (recordsOf 32 (i.sec pl 0x17 31)).map tallyOf

/-- A table of the decode plan: kind, k, pace table, largest context, worst-case held beats. -/
structure DecodeTable where
  kind : Nat
  k : Nat
  table : Nat
  context : Nat
  held : Nat

/-- The decode plan: KV capacity, maquette MiB, tables. -/
def Image.decodePlan (i : Image) (pl : Nat) : Option (Nat × Nat × List DecodeTable) :=
  let b := i.sec pl 0x18 31
  if b.length < 16 then none
  else some (descNat b 0 4, descNat b 4 4, (recordsOf 16 (b.drop 16)).map (fun t =>
    { kind := descNat t 0 1, k := descNat t 1 1, table := descNat t 2 1, context := descNat t 4 4, held := descNat t 8 4 }))

/-- The directory entry of a table in a region of a placement. -/
def Image.dirWord (i : Image) (pl r table : Nat) : BitVec 64 := (i.dir pl r).getD table 0

/-- Whether a table of a placement is in use (R67). -/
def Image.tableUsed (i : Image) (pl table : Nat) : Bool :=
  match i.regionsIn pl with
  | [] => false
  | r :: _ => field (i.dirWord pl r table) 12 13 != 0

end Sys2Proof.Machine
end

