-- ==== Sys2Proof/Machine/ImageCheck.lean ====
section
/-! DEFINITION. The validation of a program image by LOAD_IMAGE (14, R437, R438, and the chapters that give each section
its rules). -/

namespace Sys2Proof.Machine

/-! ## Groups and memory -/

/-- The members of a group of a placement, in rank order. -/
def Image.groupTiles (i : Image) (pl id : Nat) : List Nat :=
  rectTiles (((i.groups pl).filter (fun g => g.id == id)).map GroupPart.rects).flatten

/-- Whether a placement declares a group. -/
def Image.hasGroup (i : Image) (pl id : Nat) : Bool := (i.groups pl).any (fun g => g.id == id)

/-- The RESIDENT range of a tile that covers bytes of local memory. -/
def Image.residentOf (i : Image) (pl k off n : Nat) : Option MemRange :=
  (i.ranges pl (regionOfTile k)).find? (fun m =>
    m.kind == 0 && rectHolds m.rect (tileX k) (tileY k) && decide (m.loc ≤ off) && decide (off + n ≤ m.loc + m.len))

/-- Where the image holds the byte of a RESIDENT range at a local offset of a tile. -/
def MemRange.sourceAt (m : MemRange) (k off : Nat) : Nat := m.source + rectRank m.rect k * m.stride + (off - m.loc)

/-! ## Pace tables (R70, R252, R309, R336, R458) -/

/-- Descriptor words at an offset of the image. -/
def descWordsAt (content : List (BitVec 8)) (off : Nat) : List (BitVec 64) := wordsOf ((content.drop off).take 512)

/-- R252: a POSE_LOAD whose source lies in the image loads a valid descriptor. -/
def Image.poseLoadOk (i : Image) (pl : Nat) (content : List (BitVec 8)) (e : PaceEntry) : Bool :=
  let src := field e.arg 0 48
  let slot := field e.arg 48 4
  let members := i.groupTiles pl e.target
  field e.arg 56 8 == 0 &&
  (match field e.arg 53 3 with
   | 0 =>
     let rs := members.map (fun k => (k, i.residentOf pl k src 512))
     !rs.all (fun x => x.2.isSome) || rs.all (fun x => match x.2 with
       | some m => descValid (i.topOf pl x.1) slot (descWordsAt content (m.sourceAt x.1 src))
       | none => true)
   | 1 =>
     ((List.range members.length).zip members).all (fun x =>
       let a := src + 512 * x.1
       !(decide (i.base ≤ a) && decide (a + 512 ≤ i.base + i.length))
         || descValid (i.topOf pl x.2) slot (descWordsAt content (a - i.base)))
   | _ => false)

/-- R336: a REMOUNT_ISSUE entry. -/
def Image.remountEntryOk (i : Image) (pl : Nat) (e : PaceEntry) : Bool :=
  decide (field e.arg 62 2 ≤ 1) && field e.arg 7 55 == 0
    && (match i.remounts pl with
        | some (_, _, layers) => (look layers (field e.arg 0 7)).any (fun l => l.group == e.target)
        | none => false)

/-- One entry's target and argument (Table 2.4). -/
def Image.entryOk (i : Image) (pl r : Nat) (content : List (BitVec 8)) (e : PaceEntry) : Bool :=
  match e.action with
  | 0x00 => e.target == 0 && e.arg == 0
  | 0x01 => (i.reins pl).any (fun x => x.id == e.target) && e.arg == 0
  | 0x02 => (i.reins pl).any (fun x => x.id == e.target) && e.arg == 0
  | 0x03 => i.hasGroup pl e.target && field e.arg 4 60 == 0
  | 0x04 => i.hasGroup pl e.target && i.poseLoadOk pl content e
  | 0x05 => i.remountEntryOk pl e
  | 0x06 => (i.trees pl).any (fun t => t.id == e.target) && field e.arg 3 61 == 0
  | 0x07 => e.target == 0 && e.arg == 0
  | 0x08 => decide (e.target < 64) && e.arg == 0
  | 0x09 => e.target == 0 && e.arg == 0
  | 0x0A => (i.units pl r).any (fun u => u.id == e.target) && e.arg == 0
  | _ => false

/-- Offsets in non-decreasing order. -/
def offsetsRise : List PaceEntry → Bool
  | a :: b :: l => decide (a.offset ≤ b.offset) && offsetsRise (b :: l)
  | _ => true

/-- R67, R70: one table of a region. -/
def Image.tableOk (i : Image) (pl r : Nat) (content : List (BitVec 8)) (w : BitVec 64) : Bool :=
  let count := field w 12 13
  let len := dirLength w
  let store := i.store pl r
  let es := (store.drop (field w 0 12)).take count
  if count = 0 then w == 0
  else
    field w 51 13 == 0 && decide (1 ≤ len) && decide (len ≤ 2 ^ 20) && decide (field w 0 12 + count ≤ store.length)
      && (bitOf w 50 || field (i.dirWord pl r (field w 46 4)) 12 13 != 0) && offsetsRise es
      && es.all (fun e => decide (-1048575 ≤ e.offset) && decide (e.offset ≤ (len : Int) - 1) && i.entryOk pl r content e)
      && (match es.reverse with | e :: _ => e.action == 0x08 && e.offset == (len : Int) - 1 | [] => false)

/-- R70: directory, store and tables of a region. -/
def Image.paceOk (i : Image) (pl r : Nat) (content : List (BitVec 8)) : Bool :=
  (i.dir pl r).length == 16 && decide ((i.store pl r).length ≤ 4096)
    && (recordsOf 16 (i.sec pl 2 r)).all (fun b => zeroAt b 5 1) && (i.dir pl r).all (i.tableOk pl r content)

/-- R70: the regions agree on the tables in use and on their lengths. -/
def Image.directoriesAgree (i : Image) (pl : Nat) : Bool :=
  match i.regionsIn pl with
  | [] => true
  | r0 :: rest => rest.all (fun r => (List.range 16).all (fun t =>
      let a := i.dirWord pl r0 t
      let b := i.dirWord pl r t
      (field a 12 13 == 0) == (field b 12 13 == 0) && dirLength a == dirLength b))

/-! ## Barriers, groups, set-up, descriptors (R217, R243, R250, R252, R257) -/

/-- R243: an object's entry. -/
def objectOk (w : BitVec 64) : Bool := decide (field w 62 2 < 3) && (field w 62 2 != 1 || field w 32 30 == 0)

/-- R243: the barrier table of a region. -/
def Image.barriersOk (i : Image) (pl r : Nat) : Bool :=
  let ws := wordsOf (i.sec pl 3 r)
  ws.length == 64 && ws.all objectOk

/-- R250, R252: the tile groups of a region. -/
def Image.groupsOk (i : Image) (pl r : Nat) : Bool :=
  let b := i.sec pl 4 r
  match groupRecords b.length r b with
  | none => false
  | some gs => gs.all (fun g => g.rects.all (rectIn r) && field ((wordsOf (i.sec pl 3 r)).getD g.barrier 0) 62 2 != 0)

/-- R438: the tile set-up of a region. -/
def Image.setupOk (i : Image) (pl r : Nat) : Bool :=
  (i.setups pl r).all (fun x => rectIn r x.1 && decide (x.2.1 ≤ 48) && decide (x.2.2 < 16))
    && (recordsOf 16 (i.sec pl 5 r)).all (fun b => zeroAt b 10 6)
    && pairwiseNot (fun (a b : (Nat × Nat × Nat × Nat) × Nat × Nat) => rectsMeet a.1 b.1) (i.setups pl r)

/-- R217: two descriptors of one tile enable a queue number only as the same shared entry, and a shared ring overlaps no
ring of the other. -/
def descsClash (a b : List (BitVec 64)) : Bool :=
  (descEnabled a).any (fun x => (descEnabled b).any (fun y =>
    if x.1 = y.1 then !(qShared x.2 && qShared y.2 && x.2 == y.2)
    else (qShared x.2 || qShared y.2) && ringsMeet x.2 y.2))

/-- R217, R257: the pose descriptors of a region. -/
def Image.descriptorsOk (i : Image) (pl r : Nat) : Bool :=
  let ds := i.descriptors pl r
  (recordsOf 520 (i.sec pl 6 r)).all (fun b => zeroAt b 5 3 && rectIn r (descNat b 0 2, descNat b 2 2, descNat b 0 2, descNat b 2 2))
    && ds.all (fun x => decide (x.2.1 < 16) && descValid (i.topOf pl x.1) x.2.1 x.2.2)
    && pairwiseNot (fun (a b : Nat × Nat × List (BitVec 64)) => a.1 == b.1 && descsClash a.2.2 b.2.2) ds

/-- R438: the memory ranges of a region; a source lies in the image or the share (log entry 65). -/
def Image.rangesOk (i : Image) (pl r shareBytes : Nat) : Bool :=
  (recordsOf 40 (i.sec pl 7 r)).all (fun b => zeroAt b 17 7)
    && (i.ranges pl r).all (fun m =>
      let last := m.source + (rectCount m.rect - 1) * m.stride + m.len
      rectIn r m.rect && m.loc % 8 == 0 && m.len % 8 == 0 && decide (m.loc + m.len ≤ memEnd) && decide (m.kind ≤ 2)
        && (m.kind != 0 || decide (last ≤ i.length)) && (m.kind != 1 || decide (last ≤ shareBytes)))

/-- The mark declarations of a region. -/
def Image.marksOk (i : Image) (pl r : Nat) : Bool :=
  (recordsOf 144 (i.sec pl 9 r)).all (fun b => zeroAt b 1 1 && zeroAt b 9 7)
    && (i.marks pl r).all (fun m => decide (m.table < 16) && i.hasGroup pl m.group && decide (m.slot < 16))

/-- The thresholds of a region (R589). -/
def Image.thresholdsOk (i : Image) (pl r : Nat) : Bool :=
  (recordsOf 24 (i.sec pl 0xB r)).all (fun b => zeroAt b 9 7)
    && (i.thresholds pl r).all (fun x => rectIn r x.1 && decide (x.2.1 ≤ 35))

/-! ## Schedule units (R458) -/

/-- The units of a region: no reserved field set. -/
def Image.unitsOk (i : Image) (pl r : Nat) : Bool :=
  (recordsOf 16 (i.sec pl 0xA r)).all (fun b => decide (descNat b 0 2 < 4096) && decide (descNat b 3 1 < 48) && zeroAt b 12 4)

/-- The units of a table over the paddock. -/
def Image.tableUnits (i : Image) (pl table : Nat) : List SchedUnit :=
  (((i.regionsIn pl).map (i.units pl)).flatten).filter (fun u => u.table == table)

/-- The class of a table: that of its units. -/
def Image.tableClass (i : Image) (pl table : Nat) : Nat :=
  match i.tableUnits pl table with | u :: _ => u.cls | [] => 0

/-- R458: each table in use has a unit, and its units name one class. -/
def Image.classesOk (i : Image) (pl : Nat) : Bool :=
  (List.range 16).all (fun t =>
    let us := i.tableUnits pl t
    us.all (fun u => u.cls == i.tableClass pl t) && (!i.tableUsed pl t || !us.isEmpty))

/-! ## Reins (R300, R301) -/

/-- The reserved bits and codes of a rein record. -/
def reinRecordOk (b : List (BitVec 8)) : Bool :=
  let n := descNat b 3 1
  let start := descNat b 4 4
  let framed := descNat b 2 1 % 4 != 0
  let segs := (List.range 8).map (fun i => descNat b (8 + 2 * i) 2)
  decide (descNat b 0 2 < 4096) && decide (descNat b 2 1 < 4) && decide (1 ≤ n) && decide (n ≤ 8) && decide (start < 2 ^ 28)
    && (if framed then decide (start / 2 ^ 22 ≤ 37) else start / 2 ^ 22 == 0) && zeroAt b 24 8
    && ((List.range 8).zip segs).all (fun x =>
      if x.1 < n then decide (1 ≤ x.2 % 1024) && decide (x.2 % 1024 ≤ 839) && decide (x.2 < 2 ^ 13)
        && (if x.1 + 1 = n then x.2 / 1024 % 4 == 0 else x.2 / 1024 % 4 == 1 || x.2 / 1024 % 4 == 2)
      else x.2 == 0)

/-- The routers on a rein's path. -/
def Rein.routers (r : Rein) : List Nat := tileAt r.x r.y :: r.hops.map Hop.dest

/-- R301: a rein of the image, whatever the state of the wafer. -/
def Rein.formOk (r : Rein) (regions : List Nat) : Bool :=
  onGrid r.x r.y && (pathHops r.segs (tileAt r.x r.y) r.dir).isSome
    && r.taps.all (fun t => regions.contains (regionOfTile t.1))
    && decide ((r.segs.filter (fun x => x.2.2)).length ≤ 1)

/-- R301: a rein of the placement to be installed, in the state of the wafer. -/
def State.reinOk (s : State) (r : Rein) : Bool :=
  r.routers.all (fun k => s.present k
      && (match (s.region (regionOfTile k)).state with | .isolated | .lost => false | _ => true))
    && (!(r.frameSource || r.frameSink) || s.stirrupUsable r.stirrup)

/-- R301: the rein list of a placement. -/
def Image.reinsOk (i : Image) (pl : Nat) : Bool :=
  let bs := recordsOf 32 (i.sec pl 0x10 31)
  decide (bs.length ≤ 4096) && bs.all reinRecordOk && (i.reins pl).all (fun r => r.formOk i.regions)

/-! ## Gather trees (R308) -/

/-- Whether a logical place lies in the regions. -/
def placeIn (regions : List Nat) (x y : Nat) : Bool := onGrid x y && regions.contains (regionAt x y)

/-- The nodes reached from the root, one level after another. -/
def Tree.reached (t : Tree) : Nat → List (BitVec 32) → List (BitVec 32)
  | 0, seen => seen
  | fuel + 1, seen =>
    t.reached fuel (seen ++ ((t.nodes.filter (fun n => n.parentInput != 0xFF && seen.contains n.parent
      && !seen.contains n.place)).map TreeNode.place))

/-- R308: a tree. -/
def Tree.ok (t : Tree) (regions : List Nat) : Bool :=
  let roots := t.nodes.filter (fun n => n.parentInput == 0xFF)
  let fills := fun (n : TreeNode) (j : Nat) =>
    (t.nodes.filter (fun c => c.parentInput == j && c.parent == n.place)).length
      + (t.leaves.filter (fun l => l.node == n.place && l.input == j)).length
  roots.length == 1
    && t.nodes.all (fun n => placeIn regions (n.place.toNat % 1024) (n.place.toNat / 1024 % 1024)
      && (List.range n.inputs).all (fun j => fills n j == 1) && (rangeFrom n.inputs (4 - n.inputs)).all (fun j => fills n j == 0))
    && t.leaves.all (fun l => placeIn regions l.x l.y && t.nodes.any (fun n => n.place == l.node))
    && t.nodes.all (fun n => n.parentInput == 0xFF || t.nodes.any (fun m => m.place == n.parent))
    && (t.reached t.nodes.length (roots.map TreeNode.place)).length == t.nodes.length
    && pairwiseNot (fun (a b : TreeLeaf) => a.x == b.x && a.y == b.y) t.leaves
    && roots.all (fun n => n.parent.toNat % 16 == 0 && decide (n.parent.toNat + 64 ≤ memEnd))

/-- R308: the gather trees section. -/
def Image.treesOk (i : Image) (pl : Nat) : Bool :=
  let b := i.sec pl 0x11 31
  match treeRecords b.length b with
  | none => false
  | some ts => ts.all (fun t => t.ok i.regions)

/-! ## Credit loops and remote channels (R278, R553) -/

/-- The credit of a member: the smallest among the descriptors of its tile that enable the queue (R278). -/
def Image.memberCredit (i : Image) (pl k q : Nat) : Nat :=
  let cs := ((i.tileDescs pl k).filter (fun d => qEnabled (descQueue d.2 q))).map (fun d => qCredit (descQueue d.2 q))
  leastOf cs

/-- R278: the credit loops section. -/
def Image.loopsOk (i : Image) (pl : Nat) : Bool :=
  let b := i.sec pl 0x12 31
  match loopRecords b.length b with
  | none => false
  | some ls => ls.all (fun l =>
      (l.size == 1 || l.size == 2)
        && decide ((l.bound : Int) + 1 ≤ (l.members.map (fun m =>
          ((i.memberCredit pl m.1 m.2 : Int) - (l.size : Int) + 1) / (l.size : Int))).sum))

/-- R553: the remote channels. -/
def Image.channelsOk (i : Image) (pl pairMode : Nat) : Bool :=
  let bs := recordsOf 16 (i.sec pl 0x13 31)
  decide (bs.length ≤ 32)
    && bs.all (fun b => decide (descNat b 0 1 < 32) && decide (descNat b 1 1 < 4) && decide (descNat b 2 1 < 64) && zeroAt b 3 1
      && zeroAt b 14 2)
    && (i.channels pl).all (fun c => decide (1 ≤ c.credit) && decide (c.credit ≤ 256)
      && (!c.twin || (c.engine == 0 && pairMode != 1 && pairMode != 2))
      && destLayout c.dest && (!c.inbound || (selectorOf c.dest == 0
        && placeIn i.regions (field c.dest 30 10) (field c.dest 40 10)
        && (i.tileDescs pl (tileAt (field c.dest 30 10) (field c.dest 40 10))).any (fun d =>
          let e := descQueue d.2 (field c.dest 0 5)
          qEnabled e && qShared e))))

/-- R244: the wafer objects. -/
def Image.waferOk (i : Image) (pl : Nat) : Bool :=
  let b := i.sec pl 0x14 31
  b.isEmpty || (decide (i.waferCount pl ≤ 16) && b.length == 8 + 8 * i.waferCount pl && (wordsOf (b.drop 8)).all objectOk)

/-! ## Remounts (R331 to R334) -/

/-- R333: one lane of a group. -/
def State.laneOk (s : State) (i : Image) (pl : Nat) (l : RemountLane) : Bool :=
  match (i.reins pl).find? (fun r => r.id == l.rein) with
  | some r => r.frameSource && !r.frameSink && !r.segs.any (fun x => x.2.2) && r.stirrup == s.unitStirrup false l.stack
  | none => false

/-- R333: the lanes of a group's slots carry every granule of a layer. -/
def lanesCarry (g : RemountGroup) (l : RemountLayer) : Bool :=
  (List.range g.slots).all (fun n =>
    (List.range 24).all (fun st =>
      decide ((l.granules - st + 23) / 24 ≤ (((g.lanesOf n).filter (fun x => x.stack == st)).map (fun x =>
        (x.granulesOf g.granules l.granules).length)).sum)))

/-- R331 to R334: the remounts section. -/
def State.remountsOk (s : State) (i : Image) (pl nearBytes : Nat) : Bool :=
  let b := i.sec pl 0x15 31
  b.isEmpty ||
  (match remountSection b with
   | none => false
   | some (window, gs, ls) =>
     let lanes := (gs.map (fun kv => kv.2.lanes)).flatten
     window % 65536 == 0 && decide (window + 65536 ≤ nearBytes)
       && lanes.all (s.laneOk i pl)
       && pairwiseNot (fun (a b : RemountLane) => a.rein == b.rein) lanes
       && gs.all (fun kv => (List.range kv.2.slots).all (fun n =>
         pairwiseNot (fun (a b : RemountLane) => a.stack == b.stack && a.order == b.order) (kv.2.lanesOf n)))
       && ls.all (fun kv => (match look gs kv.2.group with | some g => lanesCarry g kv.2 | none => false)
         && kv.2.offsets.all (fun o => o % 98304 == 0 && decide (o + 4096 * kv.2.granules ≤ nearBytes))))

/-! ## Mirrors, tallies, decode plan, hand-overs -/

/-- R329: the mirror ranges lie in the shares (log entry 58). -/
def Image.mirrorsOk (i : Image) (pl nearBytes farBytes : Nat) : Bool :=
  let bs := recordsOf 32 (i.sec pl 0x16 31)
  decide (bs.length ≤ 16) && bs.all (fun b => zeroAt b 24 8)
    && (i.mirrorRanges pl).all (fun m => m.1 % 4096 == 0 && m.2.1 % 4096 == 0 && m.2.2 % 4096 == 0
      && decide (m.1 + m.2.2 ≤ nearBytes) && decide (m.2.1 + m.2.2 ≤ farBytes))

/-- Whether two ranges of local memory overlap. -/
def spansMeet (a n b m : Nat) : Bool := decide (a < b + m) && decide (b < a + n)

/-- R388: a declaration at one member. -/
def Image.tallyMemberOk (i : Image) (pl : Nat) (t : TallyDecl) (k : Nat) : Bool :=
  let ds := (i.tileDescs pl k).map Prod.snd
  let n := 8 * t.cpo
  let top := 4096 * i.topOf pl k
  let inside := fun a => decide (top ≤ a) && decide (a + n ≤ memEnd)
  inside t.table && inside t.prot && !spansMeet t.table n t.prot n
    && ds.all (fun d =>
      let e := descQueue d t.queue
      qEnabled e && qShared e && !(steerQueues d).contains t.queue
        && (descEnabled d).all (fun x => !spansMeet (qBase x.2) (ringEnd x.2 - qBase x.2) t.table n
          && !spansMeet (qBase x.2) (ringEnd x.2 - qBase x.2) t.prot n))

/-- R387, R388: the tally declarations. -/
def Image.talliesOk (i : Image) (pl nearBytes : Nat) : Bool :=
  let bs := recordsOf 32 (i.sec pl 0x17 31)
  decide (bs.length ≤ 16)
    && bs.all (fun b => decide (descNat b 3 1 < 2) && zeroAt b 6 2 && zeroAt b 24 8)
    && (i.tallies pl).all (fun t =>
      let ks := i.groupTiles pl t.group
      decide (1 ≤ t.cpo) && decide (t.cpo ≤ 16384) && decide (t.queue < 32) && t.table % 8 == 0 && t.prot % 8 == 0
        && t.shadow % 4096 == 0 && i.hasGroup pl t.group && ks.all (i.tallyMemberOk pl t)
        && decide (t.shadow + 8 * (t.cpo * ks.length) ≤ nearBytes))

/-- R70, R359: the decode plan, required when the header says so. -/
def Image.decodeOk (i : Image) (pl : Nat) : Bool :=
  let b := i.sec pl 0x18 31
  match i.decodePlan pl with
  | none => descNat i.header 14 2 % 2 == 0 && b.isEmpty
  | some (_, maquette, ts) =>
    decide (maquette ≤ 4096) && zeroAt b 12 4 && b.length == 16 + 16 * descNat b 8 4
      && (recordsOf 16 (b.drop 16)).all (fun t => zeroAt t 3 1 && zeroAt t 12 4)
      && ts.all (fun t => decide (t.kind ≤ 2) && decide (t.table < 16) && i.tableUsed pl t.table)

/-- R195: the hand-overs. -/
def Image.handOversOk (i : Image) (pl : Nat) : Bool := (i.sec pl 0x19 31).all (fun b => decide (b.toNat < 16))

/-! ## The image (R437, R438, R459, R522) -/

/-- The sections of one placement that are checked whatever the state of the wafer. -/
def Image.placementOk (i : Image) (pl nearBytes farBytes pairMode : Nat) (content : List (BitVec 8)) : Bool :=
  (i.regionsIn pl).all (fun r => i.paceOk pl r content && i.barriersOk pl r && i.groupsOk pl r && i.setupOk pl r
      && i.descriptorsOk pl r && i.rangesOk pl r nearBytes && i.marksOk pl r && i.unitsOk pl r && i.thresholdsOk pl r)
    && i.directoriesAgree pl && i.classesOk pl && i.treesOk pl && i.loopsOk pl && i.channelsOk pl pairMode && i.waferOk pl
    && i.mirrorsOk pl nearBytes farBytes && i.talliesOk pl nearBytes && i.decodeOk pl && i.handOversOk pl

/-- The regions of a rectangle that hold a hole or are ISOLATED or LOST (R522). -/
def State.brokenRegions (s : State) (regions : List Nat) : List Nat :=
  regions.filter (fun r => s.holes.any (fun k => regionOfTile k == r)
    || (match (s.region r).state with | .isolated | .lost => true | _ => false))

/-- The placement that LOAD_IMAGE installs; `none` where R522 refuses the image. -/
def State.placementFor (s : State) (i : Image) : Option Nat :=
  match s.brokenRegions i.regions with
  | [] => some 0
  | [r] => if (i.placements).contains (r + 1) then some (r + 1) else none
  | _ => none

/-- Bytes of a paddock's share of a tier. -/
def Paddock.shareSize (d : Paddock) (far : Bool) : Nat := (d.units far).length * 2 ^ 30

/-- The share of a class in percent. -/
def Paddock.classShare (d : Paddock) (cls : Nat) : Nat :=
  match cls with | 0 => d.latency | 1 => d.normal | _ => d.background

/-- The classes that an image uses. -/
def Image.usesClass (i : Image) (cls : Nat) : Bool :=
  i.placements.any (fun pl => (List.range 16).any (fun t => i.tableUsed pl t && i.tableClass pl t == cls))

/-- The wafer objects that no other paddock holds. -/
def State.freeWafer (s : State) (p : Nat) : List Nat :=
  (List.range 16).filter (fun n => !(s.paddocks.any (fun kv => kv.1 != p && kv.2.wafer.nums.contains n)))

/-- Whether a link of the reins is claimed by another paddock (R301). -/
def State.linksTaken (s : State) (p : Nat) (reins : List Rein) : Bool :=
  s.paddocks.any (fun kv => kv.1 != p && kv.2.reins.any (fun a => reins.any (fun b =>
    a.links.any (fun l => b.links.contains l))))

/-- The status with which an image is refused: BAD_DESCRIPTOR before NO_BUDGET. -/
def State.imageRefused (s : State) (p : Nat) (i : Image) (content : List (BitVec 8)) : Option Nat :=
  let d := s.paddock p
  let near := d.shareSize false
  if !i.placements.all (fun pl => i.placementOk pl near (d.shareSize true) d.pairMode content && i.reinsOk pl
      && s.remountsOk i pl near) then some 0x0200
  else match s.placementFor i with
    | none => some 0x0201
    | some pl =>
      if !(i.reins pl).all s.reinOk then some 0x0200
      else if (s.freeWafer p).length < i.waferCount pl ∨ s.linksTaken p (i.reins pl)
          ∨ (List.range 3).any (fun c => i.usesClass c && d.classShare c == 0) then some 0x0201
      else none

end Sys2Proof.Machine
end

