-- ==== Sys2Proof/Machine/Noise.lean ====
section
/-! DEFINITION. The samplers of disclosure-control noise: exact integer arithmetic over a cell's stream of generator
words (13, R385, R398 to R401). -/

namespace Sys2Proof.Machine

/-- A cell's stream: key, cell, domain tag, and the words that may be drawn (R398, R402). -/
structure Stream where
  k0 : BitVec 32
  k1 : BitVec 32
  a : BitVec 32
  b : BitVec 32
  tag : BitVec 32
  budget : Nat

/-- The value of `w` words from a place on, word 0 least significant. -/
def Stream.value (g : Stream) : Nat → Nat → Nat
  | _, 0 => 0
  | pos, w + 1 => (streamWord g.k0 g.k1 g.a g.b g.tag pos).toNat + 2 ^ 32 * g.value (pos + 1) w

/-- `w` words drawn; `none` where the budget does not hold them. -/
def Stream.draw (g : Stream) (w pos : Nat) : Option (Nat × Nat) :=
  if g.budget < pos + w then none else some (g.value pos w, pos + w)

/-- The length of a number in bits. -/
def bitLength (n : Nat) : Nat := if n = 0 then 0 else Nat.log2 n + 1

/-- uniform(n) of R399. -/
def Stream.uniform (g : Stream) (n : Nat) : Nat → Nat → Option (Nat × Nat)
  | 0, _ => none
  | fuel + 1, pos =>
    let w := (bitLength (n - 1) + 31) / 32
    match g.draw w pos with
    | none => none
    | some (x, pos) => if x < 2 ^ (32 * w) - 2 ^ (32 * w) % n then some (x % n, pos) else g.uniform n fuel pos

/-- Every loop below draws a word in each turn but its first, so this bounds the turns within the budget. -/
def Stream.fuel (g : Stream) : Nat := g.budget + 2

/-- bern(p, q) of R399. -/
def Stream.bern (g : Stream) (p q pos : Nat) : Option (Bool × Nat) :=
  (g.uniform q g.fuel pos).map (fun r => (decide (r.1 < p), r.2))

/-- The loop of bern_exp01(n, d) from `k` on (R399). -/
def Stream.bernExp01 (g : Stream) (n d : Nat) : Nat → Nat → Nat → Option (Bool × Nat)
  | 0, _, _ => none
  | fuel + 1, k, pos =>
    match g.bern n (d * k) pos with
    | none => none
    | some (true, pos) => g.bernExp01 n d fuel (k + 1) pos
    | some (false, pos) => some (k % 2 == 1, pos)

/-- bern_exp(n, d) of R399. -/
def Stream.bernExp (g : Stream) (d : Nat) : Nat → Nat → Nat → Option (Bool × Nat)
  | 0, _, _ => none
  | fuel + 1, n, pos =>
    if d ≤ n then
      match g.bernExp01 1 1 g.fuel 1 pos with
      | none => none
      | some (false, pos) => some (false, pos)
      | some (true, pos) => g.bernExp d fuel (n - d) pos
    else g.bernExp01 n d g.fuel 1 pos

/-- The number of draws of 1 before the first 0. -/
def Stream.runLength (draw : Nat → Option (Bool × Nat)) : Nat → Nat → Nat → Option (Nat × Nat)
  | 0, _, _ => none
  | fuel + 1, n, pos =>
    match draw pos with
    | none => none
    | some (true, pos) => Stream.runLength draw fuel (n + 1) pos
    | some (false, pos) => some (n, pos)

/-- nz.geom (R400); `none` where the budget is not enough. -/
def Stream.geom (g : Stream) (num den : Nat) : Option Int :=
  match Stream.runLength (g.bern num den) g.fuel 0 0 with
  | none => none
  | some (x, pos) =>
    match Stream.runLength (g.bern num den) g.fuel 0 pos with
    | none => none
    | some (y, _) => some ((x : Int) - (y : Int))

/-- dlap() of R401. -/
def Stream.dlap (g : Stream) (t : Nat) : Nat → Nat → Option (Int × Nat)
  | 0, _ => none
  | fuel + 1, pos =>
    match g.uniform t g.fuel pos with
    | none => none
    | some (u, pos) =>
      match g.bernExp t g.fuel u pos with
      | none => none
      | some (false, pos) => g.dlap t fuel pos
      | some (true, pos) =>
        match Stream.runLength (g.bernExp 1 g.fuel 1) g.fuel 0 pos with
        | none => none
        | some (v, pos) =>
          match g.bern 1 2 pos with
          | none => none
          | some (neg, pos) =>
            let x := u + t * v
            if neg && x == 0 then g.dlap t fuel pos else some (if neg then -(x : Int) else (x : Int), pos)

/-- The outer loop of nz.dgauss. -/
def Stream.dgaussFrom (g : Stream) (vn vd t : Nat) : Nat → Nat → Option Int
  | 0, _ => none
  | fuel + 1, pos =>
    match g.dlap t g.fuel pos with
    | none => none
    | some (y, pos) =>
      let d : Int := (y.natAbs * vd * t : Nat) - (vn : Int)
      match g.bernExp (2 * vn * vd * t ^ 2) g.fuel (d.natAbs ^ 2) pos with
      | none => none
      | some (true, _) => some y
      | some (false, pos) => g.dgaussFrom vn vd t fuel pos

/-- nz.dgauss (R401); `none` where the budget is not enough. -/
def Stream.dgauss (g : Stream) (vn vd : Nat) : Option Int := g.dgaussFrom vn vd (isqrt (vn / vd) + 1) g.fuel 0

/-- The noise of a cell under a sampler (1 GEOM, 2 DGAUSS) within a budget of words (R398, R402). -/
def noiseOf (sampler p1 p2 : Nat) (k0 k1 : BitVec 32) (cell : BitVec 64) (budget : Nat) : Option Int :=
  let g : Stream :=
    { k0 := k0, k1 := k1, a := cell.setWidth 32, b := (cell >>> 32).setWidth 32
      tag := if sampler = 1 then 0x4E47 else 0x4E44, budget := budget }
  if sampler = 1 then g.geom p1 p2 else g.dgauss p1 p2

/-- The noise of a cell without a budget (R403): within the 2^34 words that a 32-bit block counter numbers; beyond them a free
value (log entry 43). -/
def noiseUnbounded (sampler p1 p2 : Nat) (k0 k1 : BitVec 32) (cell : BitVec 64) : Int :=
  (noiseOf sampler p1 p2 k0 k1 cell (2 ^ 34)).getD (Config.longNoise sampler p1 p2 k0 k1 cell)

/-- The words an instruction may draw: 128 for nz.geom, 512 for nz.dgauss (R402). -/
def laneBudget (sampler : Nat) : Nat := if sampler = 1 then 128 else 512

/-- The pending value (R402). -/
def pendingCell : BitVec 64 := 0x8000000000000000

end Sys2Proof.Machine
end

