-- ==== Sys2Proof/Machine/VectorOps.lean ====
section
/-! DEFINITION. What the instructions of the vector engine compute: lanes, masks, memory access, conversions, arithmetic,
shape operations, summaries, tallies, noise and linkage (05, R170, R180 to R184; 06; 13). -/

namespace Sys2Proof.Machine

/-! ## Registers and lanes (R190 to R192) -/

/-- A vector register. -/
def Tile.vreg (t : Tile) (i : Nat) : VReg := getD {} t.vregs (i % 32)

/-- A mask register. -/
def Tile.mreg (t : Tile) (i : Nat) : MReg := getD {} t.mregs i

/-- The tile with a mask register replaced. -/
def Tile.setM (t : Tile) (i : Nat) (m : MReg) : Tile := { t with mregs := putD {} t.mregs i m }

/-- A lane: its bits, and whether any of its bytes is poisoned (R191). -/
def VReg.lane (v : VReg) (w k : Nat) : Nat × Bool :=
  (v.bits.toNat / 2 ^ (w * k) % 2 ^ w, v.poison.toNat / 2 ^ (w / 8 * k) % 2 ^ (w / 8) != 0)

/-- Bit of a mask register. -/
def MReg.bit (m : MReg) (k : Nat) : Bool := bitOf m.bits k

/-- Whether a mask bit is poisoned. -/
def MReg.bad (m : MReg) (k : Nat) : Bool := bitOf m.poison k

/-- Whether lane `k` of an instruction of `n` lanes is counted (R192). -/
def Tile.counted (t : Tile) (n k : Nat) : Bool := decide (k < min t.vl n)

/-- Whether the mask field allows a lane (R192). -/
def Tile.allowed (t : Tile) (mask : BitVec 3) (k : Nat) : Bool := mask == 0 || (t.mreg mask.toNat).bit k

/-- Whether a lane is active (R192). -/
def Tile.active (t : Tile) (mask : BitVec 3) (n k : Nat) : Bool := t.counted n k && t.allowed mask k

/-- Whether the mask bit that governs a lane is poisoned (R213). -/
def Tile.maskBad (t : Tile) (mask : BitVec 3) (k : Nat) : Bool := mask != 0 && (t.mreg mask.toNat).bad k

/-- What an instruction computes for a lane: bits, poison, flags. -/
structure LaneOut where
  bits : Nat
  bad : Bool := false
  flags : Flags := Flags.none

/-- A register after some of its lanes of width `w` are written. -/
def VReg.write (v : VReg) (w : Nat) (ls : List (Option LaneOut)) : VReg :=
  let n := (List.range ls.length).zip ls
  let bits := n.foldl (fun b x => match x.2 with
    | some l => b + (l.bits % 2 ^ w) * 2 ^ (w * x.1)
    | none => b + (v.lane w x.1).1 * 2 ^ (w * x.1)) 0
  let keep := fun k => v.poison.toNat / 2 ^ (w / 8 * k) % 2 ^ (w / 8)
  let poison := n.foldl (fun b x => match x.2 with
    | some l => b + (if l.bad then 2 ^ (w / 8) - 1 else 0) * 2 ^ (w / 8 * x.1)
    | none => b + keep x.1 * 2 ^ (w / 8 * x.1)) 0
  { bits := BitVec.ofNat 512 bits, poison := BitVec.ofNat 64 poison }

/-- The flags of a list of lane results: unpoisoned lanes alone raise them (R206). -/
def laneFlags (ls : List (Option LaneOut)) : Flags :=
  ls.foldl (fun f x => match x with | some l => if l.bad then f else f.or l.flags | none => f) Flags.none

/-- The lanes of a register that an instruction writes, with their flags. -/
def Tile.writeLanes (t : Tile) (vd : Nat) (fmt : Format) (which : Nat → Bool) (out : Nat → LaneOut) : Tile :=
  let ls := (List.range fmt.lanes).map (fun k => if which k then some (out k) else none)
  let t := t.raiseVx (laneFlags ls)
  { t with vregs := putD {} t.vregs (vd % 32) ((t.vreg vd).write fmt.width ls) }

/-- Active lanes written, each poisoned also by its mask bit (R192, R213). -/
def Tile.writeActive (t : Tile) (f : VFields) (fmt : Format) (out : Nat → LaneOut) : Tile :=
  t.writeLanes f.vd.toNat fmt (t.active f.mask fmt.lanes)
    (fun k => let l := out k; { l with bad := l.bad || t.maskBad f.mask k })

/-- A g result of a vector instruction: marked (R106); not written where a later instruction wrote the register. -/
def Tile.giveG (t : Tile) (seq : Nat) (rd : BitVec 5) (v : Nat) (bad : Bool) : Tile :=
  let mine : GPending := { reg := rd, seq := seq }
  if t.gPending.contains mine then
    { t.setReg rd { val := BitVec.ofNat 64 v, mark := true, poison := bad } with
      gPending := t.gPending.filter (· != mine) }
  else t

/-- What a vector instruction does when it executes: it completes, or it waits in vx.tally with its next lane, or it
faults. -/
inductive VxRun where
  | done (t : Tile)
  | more (t : Tile) (lane : Nat)
  | fault (cause : Nat) (addr : BitVec 64)

/-! ## Memory (R199, R200) -/

/-- The offset of lane `k` of a contiguous, strided or indexed access (R199): `none` beyond the lanes of an offset
register (log entry 41). -/
def Tile.laneOffset (t : Tile) (e : VxEntry) (fmt : Format) (k : Nat) : BitVec 64 :=
  match e.kind with
  | .lds | .sts => e.g1.val + BitVec.ofNat 64 k * e.g2.val
  | .ldx | .stx =>
    let w := if fmt.width = 64 then 64 else 32
    e.g1.val + BitVec.ofInt 64 (signedOf w ((t.vreg e.f.vs2.toNat).lane w k).1)
  | _ => e.g1.val + BitVec.ofNat 64 (k * (fmt.width / 8))

/-- Whether the offset of a lane is poisoned (R213, R214). -/
def Tile.offsetBad (t : Tile) (e : VxEntry) (fmt : Format) (k : Nat) : Bool :=
  match e.kind with
  | .lds | .sts => e.g1.poison || e.g2.poison
  | .ldx | .stx =>
    let w := if fmt.width = 64 then 64 else 32
    e.g1.poison || ((t.vreg e.f.vs2.toNat).lane w k).2
  | _ => e.g1.poison

/-- The lanes that an access makes: those active, and for an indexed one those its offset register reaches. -/
def Tile.accessLanes (t : Tile) (e : VxEntry) (fmt : Format) : List Nat :=
  let n := match e.kind with | .ldx | .stx => min 16 fmt.lanes | _ => fmt.lanes
  (List.range n).filter (t.active e.f.mask fmt.lanes)

/-- The checks of a load or store over its active lanes (R199), in rising cause order, with the address of the first
lane that fails. -/
def Tile.accessCause (t : Tile) (e : VxEntry) (fmt : Format) : Option (Nat × BitVec 64) :=
  let b := fmt.width / 8
  let ls := t.accessLanes e fmt
  let contiguous := match e.kind with | .ld | .st => true | _ => false
  if contiguous && e.g1.val.toNat % 64 != 0 then some (0x03, e.g1.val)
  else
    match ls.find? (fun k => (t.laneOffset e fmt k).toNat % b != 0),
      ls.find? (fun k => decide (memEnd ≤ (t.laneOffset e fmt k).toNat)), ls.find? (t.offsetBad e fmt) with
    | some k, _, _ => some (0x03, t.laneOffset e fmt k)
    | none, some k, _ => some (0x04, t.laneOffset e fmt k)
    | none, none, some k => some (0x0C, t.laneOffset e fmt k)
    | none, none, none => none

/-- vx.ld, vx.lds, vx.ldx. -/
def runLoad (s : State) (k : Nat) (t : Tile) (e : VxEntry) (fmt : Format) : VxRun :=
  match t.accessCause e fmt with
  | some (c, a) => .fault c a
  | none =>
    let b := fmt.width / 8
    let ls := t.accessLanes e fmt
    let t' := t.writeLanes e.f.vd.toNat fmt ls.contains (fun k =>
      let (v, bad) := t.bytesAt (t.laneOffset e fmt k).toNat b
      { bits := v, bad := bad || t.maskBad e.f.mask k })
    .done (s.touchAll k t' (ls.map (fun k => (t.laneOffset e fmt k).toNat / 8)))

/-- The note of a discarded write of the vector engine (R115). -/
def State.vxDiscard (s : State) (k : Nat) (t : Tile) (addr : BitVec 64) : Tile :=
  t.raise (s.tileReport k 0x0005 0x0600 clsNote addr 0)

/-- Bytes written from an offset, those present of a list of them (R114, R199). -/
def Tile.putSome (t : Tile) (off : Nat) (bs : List (Option (Nat × Bool))) : Tile :=
  (wordsTouched off bs.length).foldl (fun t i =>
    let part := (List.range 8).map (fun j => if off ≤ 8 * i + j then (bs[8 * i + j - off]?).join else none)
    let at_ := (List.range 8).zip part
    let mask := at_.foldl (fun m x => if x.2.isSome then m + 2 ^ x.1 else m) 0
    let val := at_.foldl (fun v x => match x.2 with | some (b, _) => v + b % 256 * 2 ^ (8 * x.1) | none => v) 0
    let poison := part.any (fun x => match x with | some (_, p) => p | none => false)
    t.putBytes i mask { val := BitVec.ofNat 64 val, poison := poison }) t

/-- The bytes of a value. -/
def byteValues (n v : Nat) (bad : Bool) : List (Nat × Bool) :=
  (List.range n).map (fun j => (v / 2 ^ (8 * j) % 256, bad))

/-- vx.st, vx.sts, vx.stx: one access for a contiguous store, one for each lane of the others (R199). -/
def runStore (s : State) (k : Nat) (t : Tile) (e : VxEntry) (fmt : Format) : VxRun :=
  match t.accessCause e fmt with
  | some (c, a) => .fault c a
  | none =>
    let b := fmt.width / 8
    let ls := t.accessLanes e fmt
    let laneBytes := fun k =>
      let (v, bad) := (t.vreg e.f.vd.toNat).lane fmt.width k
      byteValues b v (bad || t.maskBad e.f.mask k)
    match e.kind with
    | .st =>
      let off := e.g1.val.toNat
      if ls.isEmpty then .done t
      else if t.protects off 64 then .done (s.vxDiscard k t e.g1.val)
      else
        let bs := ((List.range fmt.lanes).map (fun k =>
          if ls.contains k then (laneBytes k).map some else List.replicate b none)).flatten
        .done (t.putSome off bs)
    | _ =>
      .done (ls.foldl (fun t' l =>
        let off := t.laneOffset e fmt l
        if t.protects off.toNat b then s.vxDiscard k t' off else t'.putByteList off.toNat (laneBytes l)) t)

/-- Elements of `w` bits packed into bytes, each poisoned with any element it holds (R165, R213). -/
def packBytes (w : Nat) (es : List (Nat × Bool)) : List (Nat × Bool) :=
  let v := ((List.range es.length).zip es).foldl (fun acc x => acc + x.2.1 % 2 ^ w * 2 ^ (w * x.1)) 0
  (List.range ((es.length * w + 7) / 8)).map (fun j =>
    (v / 2 ^ (8 * j) % 256, ((List.range es.length).zip es).any (fun x =>
      x.2.2 && decide (x.1 * w / 8 ≤ j) && decide (j ≤ ((x.1 + 1) * w - 1) / 8))))

/-- Element `j` of a packed array at an offset, and whether a word that holds a byte of it is poisoned. -/
def Tile.packedAt (t : Tile) (off w j : Nat) : Nat × Bool :=
  let lo := j * w / 8
  let hi := ((j + 1) * w - 1) / 8
  let (v, bad) := t.bytesAt (off + lo) (hi + 1 - lo)
  (v / 2 ^ (j * w - 8 * lo) % 2 ^ w, bad)

/-- The formats of vx.ldw and vx.stn: codes 0x0 to 0xA. -/
def packedFormat (f : Format) : Bool := !(f == .int64 || f == .fp64)

/-- vx.ldw (R200): elements widened exactly. -/
def runLdw (s : State) (k : Nat) (t : Tile) (e : VxEntry) (fmt : Format) : VxRun :=
  let off := e.g1.val.toNat
  let n := min t.vl 16
  let bytes := (n * fmt.width + 7) / 8
  match lowestCause [(off % 8 != 0, 0x03), (decide (0 < bytes) && decide (memEnd < off + bytes), 0x04),
      (decide (0 < bytes) && e.g1.poison, 0x0C), (!packedFormat fmt, 0x41)] with
  | some c => .fault c (if c = 0x41 then 0 else e.g1.val)
  | none =>
    let dst : Format := if fmt.isInt then .int32 else .fp32
    let t' := t.writeLanes e.f.vd.toNat dst (fun k => decide (k < n)) (fun k =>
      let (v, bad) := t.packedAt off fmt.width k
      if fmt.isInt then { bits := wrapTo 32 (signedOf fmt.width v), bad := bad }
      else if fmt == .fp32 then { bits := v, bad := bad }
      else
        let (r, fl) := convertElem fmt .fp32 .rne false v
        { bits := r, bad := bad, flags := fl })
    .done (s.touchAll k t' (wordsTouched off bytes))

/-- The generator word of an element (R177): counter (i/4 low, i/4 high, pass, tag), output word i mod 4. The base and
the pass are those that the core held when it issued the instruction (R93, R203). -/
def VxEntry.srWord (e : VxEntry) (key : BitVec 64) (k : Nat) : Nat :=
  let i := (e.srBase.toNat + k) % 2 ^ 64
  ((generator (key.setWidth 32) ((key >>> 32).setWidth 32) (BitVec.ofNat 32 (i / 4))
    (BitVec.ofNat 32 (i / 4 / 2 ^ 32)) e.srPass 0x5352).getD (i % 4) 0).toNat

/-- The rounding mode of a lane by its code (Table 5.5, R203). -/
def VxEntry.roundMode (e : VxEntry) (key : BitVec 64) (code k : Nat) : RMode :=
  match code with
  | 1 => .rtz
  | 2 => .sr (e.srWord key k)
  | _ => .rne

/-- vx.stn (R200): lanes converted and written packed; the bits of the last byte beyond them keep their value. -/
def runStn (s : State) (k : Nat) (t : Tile) (e : VxEntry) (fmt : Format) (mode : Nat → RMode) : VxRun :=
  let off := e.g1.val.toNat
  let n := min t.vl 16
  let bytes := (n * fmt.width + 7) / 8
  match lowestCause [(off % 8 != 0, 0x03), (decide (0 < bytes) && decide (memEnd < off + bytes), 0x04),
      (decide (0 < bytes) && e.g1.poison, 0x0C), (!packedFormat fmt, 0x41)] with
  | some c => .fault c (if c = 0x41 then 0 else e.g1.val)
  | none =>
    let src : Format := if fmt.isInt then .int32 else .fp32
    let outs := (List.range n).map (fun j =>
      let (v, bad) := (t.vreg e.f.vd.toNat).lane 32 j
      let (r, fl) := convertElem src fmt (mode j) (decide (4 ≤ e.f.mask.toNat)) v
      ({ bits := r, bad := bad, flags := fl } : LaneOut))
    let t1 := t.raiseVx (laneFlags (outs.map some))
    if bytes = 0 then .done t1
    else if t.protects off bytes then .done (s.vxDiscard k t1 e.g1.val)
    else
      let spare := 8 * bytes - n * fmt.width
      let last := (t.byteAt (off + bytes - 1)).1
      let es := outs.map (fun o => (o.bits, o.bad))
      let bs := packBytes fmt.width es
      let bs := modifyAt bs (bytes - 1) (fun b => (b.1 % 2 ^ (8 - spare) + last / 2 ^ (8 - spare) * 2 ^ (8 - spare), b.2))
      .done (t1.putByteList off bs)

/-! ## Conversion (R200 to R203) -/

/-- vx.cvt (R200, R180; a lane outside the range of an integer conversion is free, log entry 40). -/
def runCvt (t : Tile) (e : VxEntry) (dst : Format) (mode : Nat → RMode) : VxRun :=
  match Format.ofCode (e.f.vs2.setWidth 4) with
  | none => .fault 0x41 0
  | some src =>
    if !dst.hasLanes || !src.hasLanes then .fault 0x41 0
    else
      let n := min t.vl (min dst.lanes src.lanes)
      .done (t.writeLanes e.f.vd.toNat dst (fun k => decide (k < n)) (fun k =>
        let (v, bad) := (t.vreg e.f.vs1.toNat).lane src.width k
        let (r, fl) := convertElem src dst (mode k) (decide (4 ≤ e.f.mask.toNat)) v
        let free := src.isInt && dst.isInt && fl.overflow
        { bits := if free then (Config.intConvert src.width dst.width v).toNat else r, bad := bad, flags := fl }))

/-- vx.quant (R201, R173). -/
def runQuant (s : State) (k : Nat) (t : Tile) (e : VxEntry) (fmt : Format) (bf16 b16 fit : Bool) (mode : Nat → RMode) :
    VxRun :=
  let pair := !bf16 && !b16
  let n := if !bf16 && b16 then 16 else 32
  let size := if b16 then 16 else 32
  let eoff := e.g1.val.toNat
  let soff := e.g2.val.toNat
  let bytes := n * fmt.width / 8
  let beyondE := decide (memEnd < eoff + bytes)
  let beyondS := decide (memEnd < soff + n / size)
  match lowestCause [(eoff % 8 != 0, 0x03), (beyondE || beyondS, 0x04), (e.g1.poison || e.g2.poison, 0x0C), (!fmt.isMx, 0x41),
      (pair && e.f.vs1.toNat % 2 == 1, 0x42)] with
  | some c => .fault c (if c = 0x03 then e.g1.val else if c = 0x04 then (if beyondE then e.g1.val else e.g2.val)
      else if c = 0x0C then (if e.g1.poison then e.g1.val else e.g2.val) else 0)
  | none =>
    let src : Format := if bf16 then .bf16 else .fp32
    let lane := fun j => (t.vreg (e.f.vs1.toNat + j / src.lanes)).lane src.width (j % src.lanes)
    let blocks := (List.range (n / size)).map (fun b =>
      let js := rangeFrom (b * size) size
      let vals := js.map (fun j => if j < t.vl then decodeFloat src (lane j).1 else .fin false 0 0)
      let bad := js.any (fun j => decide (j < t.vl) && (lane j).2)
      let (sc, es, fl) := quantBlock fmt (if fit then .fit else .ocp) (js.map mode) vals
      (sc, es.map (fun x => (x, bad)), fl, bad))
    let flags := blocks.foldl (fun f b => if b.2.2.2 then f else f.or b.2.2.1) Flags.none
    let es := (blocks.map (fun b => b.2.1)).flatten
    let t := t.raiseVx flags
    let t := if t.protects eoff bytes then s.vxDiscard k t e.g1.val else t.putByteList eoff (packBytes fmt.width es)
    .done (if t.protects soff (n / size) then s.vxDiscard k t e.g2.val
      else t.putByteList soff (blocks.map (fun b => (b.1, b.2.2.2))))

/-- vx.dequant (R202): one block, whatever vl and the mask. -/
def runDequant (s : State) (k : Nat) (t : Tile) (e : VxEntry) (fmt : Format) (b16 : Bool) : VxRun :=
  let n := if b16 then 16 else 32
  let eoff := e.g1.val.toNat
  let soff := e.g2.val.toNat
  let bytes := n * fmt.width / 8
  let beyondE := decide (memEnd < eoff + bytes)
  match lowestCause [(eoff % 8 != 0, 0x03), (beyondE || decide (memEnd ≤ soff), 0x04), (e.g1.poison || e.g2.poison, 0x0C), (!fmt.isMx, 0x41),
      (!b16 && e.f.vd.toNat % 2 == 1, 0x42)] with
  | some c => .fault c (if c = 0x03 then e.g1.val else if c = 0x04 then (if beyondE then e.g1.val else e.g2.val)
      else if c = 0x0C then (if e.g1.poison then e.g1.val else e.g2.val) else 0)
  | none =>
    let (sc, scBad) := t.byteAt soff
    let out := fun j =>
      let (v, bad) := t.packedAt eoff fmt.width j
      let (r, fl) := dequantElem fmt sc v
      ({ bits := r, bad := bad || scBad, flags := fl } : LaneOut)
    let t1 := t.writeLanes e.f.vd.toNat .fp32 (fun _ => true) out
    let t2 := if b16 then t1 else t1.writeLanes (e.f.vd.toNat + 1) .fp32 (fun _ => true) (fun j => out (16 + j))
    .done (s.touchAll k t2 (wordsTouched eoff bytes ++ [soff / 8]))

/-! ## Arithmetic (R170, R180 to R182, R204 to R206) -/

/-- The formats of vx.add. -/
def arithFormat (f : Format) : Bool :=
  match f with
  | .fp32 | .bf16 | .fp16 | .fp64 | .int8 | .int32 | .int64 => true
  | _ => false

/-- The integer formats with lanes. -/
def laneInt (f : Format) : Bool := f == .int8 || f == .int32 || f == .int64

/-- An integer result: wrapped, with the overflow flag of INT32 and INT64 (R170). -/
def intResult (f : Format) (v : Int) : Nat × Flags :=
  let r := wrapTo f.width v
  (r, { overflow := f != .int8 && signedOf f.width r != v })

/-- vx.add, vx.sub, vx.mul, vx.fma on one lane (R180). -/
def arithLane (op : ArithOp) (f : Format) (a b c : Nat) : Nat × Flags :=
  if f.isInt then
    let x := signedOf f.width a
    let y := signedOf f.width b
    intResult f (match op with | .add => x + y | .sub => x - y | .mul => x * y | .fma => x * y + signedOf f.width c)
  else
    let x := decodeFloat f a
    let y := decodeFloat f b
    let z := decodeFloat f c
    let snan := x.isSnan || y.isSnan || (op == .fma && z.isSnan)
    match op with
    | .add => let (v, arose) := x.add y; arithResult f v arose snan
    | .sub => let (v, arose) := x.add y.negate; arithResult f v arose snan
    | .mul => let (v, arose) := x.mul y; arithResult f v arose snan
    | .fma =>
      let (p, bad) := x.mul y
      let (v, arose) := p.add z
      arithResult f v (bad || arose) snan

/-- vx.min and vx.max on one lane (R181): the chosen operand's encoding unchanged. -/
def minmaxLane (isMax : Bool) (f : Format) (a b : Nat) : Nat × Flags :=
  if f.isInt then
    let less := decide (signedOf f.width a < signedOf f.width b)
    (if less == isMax then b else a, Flags.none)
  else
    let x := decodeFloat f a
    let y := decodeFloat f b
    let flags : Flags := { invalid := x.isSnan || y.isSnan }
    if x.isNan && y.isNan then (canonicalNan f, flags)
    else if x.isNan then (b, flags)
    else if y.isNan then (a, flags)
    else
      let o := x.order y
      let less := decide (o < 0) || (o == 0 && x.neg && !y.neg)
      (if less == isMax then b else a, flags)

/-- vx.abs, vx.neg and vx.csgn on one lane (R170, R182). -/
def signLane (op : SignOp) (f : Format) (a b : Nat) : Nat × Flags :=
  if f.isInt then
    let x := signedOf f.width a
    let y := signedOf f.width b
    intResult f (match op with
      | .abs => if x < 0 then -x else x
      | .neg => -x
      | .csgn => if y < 0 then (if x < 0 then x else -x) else (if x < 0 then -x else x))
  else
    let x := decodeFloat f a
    let y := decodeFloat f b
    let flags : Flags := { invalid := x.isSnan || (op == .csgn && y.isSnan) }
    if x.isNan then (canonicalNan f, flags)
    else
      let mag := a % 2 ^ (f.width - 1)
      (signBit f (match op with | .abs => false | .neg => !x.neg | .csgn => y.neg) + mag, flags)

/-- vx.and, vx.or, vx.xor on one lane. -/
def logicLane (op : LaneLogic) (a b : Nat) : Nat :=
  match op with | .and => a &&& b | .or => a ||| b | .xor => a ^^^ b

/-- vx.shl, vx.shr, vx.sra on one lane: the amount is the other lane modulo the lane width. -/
def shiftLane (op : ShiftOp) (w a b : Nat) : Nat :=
  match op with
  | .shl => a * 2 ^ (b % w) % 2 ^ w
  | .shr => a / 2 ^ (b % w)
  | .sra => wrapTo w (signedOf w a / (2 ^ (b % w) : Nat))

/-- A comparison of one lane and its flags (R181). -/
def compareLane (op : CmpOp) (f : Format) (a b : Nat) : Bool × Flags :=
  if f.isInt then
    let x := signedOf f.width a
    let y := signedOf f.width b
    (match op with | .eq => decide (x = y) | .lt => decide (x < y) | .le => decide (x ≤ y), Flags.none)
  else
    let x := decodeFloat f a
    let y := decodeFloat f b
    let snan := x.isSnan || y.isSnan
    let anyNan := x.isNan || y.isNan
    let o := x.order y
    match op with
    | .eq => (!anyNan && o == 0, { invalid := snan })
    | .lt => (!anyNan && decide (o < 0), { invalid := anyNan })
    | .le => (!anyNan && decide (o ≤ 0), { invalid := anyNan })

/-- One level of the pairwise tree of R204. -/
def sumLevel (f : Format) : List Nat → List Nat × Flags
  | x :: y :: l =>
    let (v, fl) := arithLane .add f x y 0
    let (l', fl') := sumLevel f l
    (v :: l', fl.or fl')
  | l => (l, Flags.none)

/-- The tree of R204 over `2^n` lanes. -/
def sumTree (f : Format) : Nat → List Nat → Nat × Flags
  | 0, l => (l.headD 0, Flags.none)
  | n + 1, l =>
    let (l', fl) := sumLevel f l
    let (v, fl') := sumTree f n l'
    (v, fl.or fl')

/-- The sum of the active lanes of a register, whether a contributing lane is poisoned, and the flags (R204). -/
def Tile.laneSum (t : Tile) (v : VReg) (fmt : Format) (mask : BitVec 3) : LaneOut :=
  let n := fmt.lanes
  let ls := (List.range n).map (fun k => if t.active mask n k then (v.lane fmt.width k).1 else 0)
  let bad := (List.range n).any (fun k => t.active mask n k && ((v.lane fmt.width k).2 || t.maskBad mask k))
  let (r, fl) := sumTree fmt (Nat.log2 n) ls
  { bits := r, bad := bad, flags := if bad then Flags.none else fl }

/-! ## Shape operations (R208 to R211) -/

/-- The lane that vx.shuf reads for lane `k` of `n`. -/
def shufLane (pattern n k : Nat) : Nat :=
  match pattern with
  | 0 => n - 1 - k
  | 1 => k ^^^ 1
  | 2 => k ^^^ 2
  | 3 => k ^^^ 4
  | _ => k ^^^ (n / 2)

/-- The formats of the compressors. -/
def shapeFormat (f : Format) : Bool :=
  match f with
  | .fp32 | .bf16 | .fp16 | .e4m3 | .e5m2 | .int8 => true
  | _ => false

/-- The magnitude of a lane for the compressors (R210): a class, NaN above infinity above finite, and a value. -/
def magnitude (f : Format) (a : Nat) : Nat × Nat × Int :=
  if f.isInt then (0, (signedOf f.width a).natAbs, 0)
  else match decodeFloat f a with
    | .nan _ => (2, 0, 0)
    | .inf _ => (1, 0, 0)
    | .fin _ m e => (0, m, e)

/-- Whether a lane is non-zero (R210 step 1). -/
def nonZero (f : Format) (a : Nat) : Bool := let m := magnitude f a; m.1 != 0 || m.2.1 != 0

/-- Whether the first magnitude is larger. -/
def largerMag (x y : Nat × Nat × Int) : Bool :=
  if x.1 = y.1 then decide (Val.order (.fin false y.2.1 y.2.2) (.fin false x.2.1 x.2.2) < 0) else decide (y.1 < x.1)

/-- The index of the largest magnitude of some lanes of a group, the lower index on a tie. -/
def largestOf (f : Format) (g : List Nat) (is : List Nat) : Option Nat :=
  is.foldl (fun best i => match best with
    | none => some i
    | some b => if largerMag (magnitude f (g.getD i 0)) (magnitude f (g.getD b 0)) then some i else some b) none

/-- The `n` largest lanes of a group. -/
def largestN (f : Format) (g : List Nat) : Nat → List Nat → List Nat
  | 0, _ => []
  | n + 1, is =>
    match largestOf f g is with
    | none => []
    | some b => b :: largestN f g n (is.filter (· != b))

/-- The kept indices of a group in ascending order, and whether a non-zero lane was pruned (R210). -/
def keepGroup (f : Format) (count : Nat) (g : List Nat) : List Nat × Bool :=
  let nz := (List.range 4).filter (fun i => nonZero f (g.getD i 0))
  if nz.length ≤ count then
    let fill := ((List.range 4).filter (fun i => !nz.contains i)).take (count - nz.length)
    ((List.range 4).filter (fun i => nz.contains i || fill.contains i), false)
  else
    let big := largestN f g count nz
    ((List.range 4).filter big.contains, true)

/-- vx.pack2of4 and vx.pack1of4 (R210). -/
def runPack24 (t : Tile) (e : VxEntry) (fmt : Format) (one : Bool) : VxRun :=
  if !shapeFormat fmt then .fault 0x41 0
  else
    let count := if one then 1 else 2
    let v := t.vreg e.f.vs1.toNat
    let lane := fun k => if k < t.vl then v.lane fmt.width k else (0, false)
    let groups := (List.range (fmt.lanes / 4)).map (fun g =>
      let ls := (List.range 4).map (fun i => (lane (4 * g + i)).1)
      let bad := (List.range 4).any (fun i => (lane (4 * g + i)).2)
      let (kept, pruned) := keepGroup fmt count ls
      (kept.map (fun i => (i, if nonZero fmt (ls.getD i 0) then ls.getD i 0 else 0, bad)), pruned))
    let kept := (groups.map Prod.fst).flatten
    let at_ := (List.range kept.length).zip kept
    let bits := at_.foldl (fun m x => m + x.2.1 * 4 ^ x.1) 0
    let bad := at_.foldl (fun m x => if x.2.2.2 then m + 3 * 4 ^ x.1 else m) 0
    let t1 := t.writeLanes e.f.vd.toNat fmt (fun _ => true) (fun k =>
      match kept[k]? with
      | some x => { bits := x.2.1, bad := x.2.2 }
      | none => { bits := 0 })
    .done ((t1.setM e.f.mask.toNat { bits := BitVec.ofNat 64 bits, poison := BitVec.ofNat 64 bad }).count 6
      (groups.filter Prod.snd).length)

/-- vx.expand.2of4 and vx.expand.1of4 (R211): where two indices coincide, the higher element wins. -/
def runExpand (t : Tile) (e : VxEntry) (fmt : Format) (one : Bool) : VxRun :=
  if !shapeFormat fmt then .fault 0x41 0
  else
    let count := if one then 1 else 2
    let v := t.vreg e.f.vs1.toNat
    let m := t.mreg e.f.mask.toNat
    let place := fun j => 4 * (j / count) + field m.bits (2 * j) 2
    .done (t.writeLanes e.f.vd.toNat fmt (fun _ => true) (fun k =>
      match (List.range (fmt.lanes * count / 4)).reverse.find? (fun j => place j == k) with
      | some j =>
        let (b, bad) := v.lane fmt.width j
        { bits := b, bad := bad || m.bad (2 * j) || m.bad (2 * j + 1) }
      | none => { bits := 0 }))

/-! ## Linkage comparators (R405 to R409) -/

/-- String `p` of a register: its bytes before the first zero, and whether any of its 32 bytes is poisoned (R405). -/
def VReg.string (v : VReg) (p : Nat) : List Nat × Bool :=
  let bs := (List.range 32).map (fun i => v.lane 8 (32 * p + i))
  ((bs.map Prod.fst).takeWhile (· != 0), bs.any Prod.snd)

/-- One cell of the banded distance (R406). -/
def bandCell (a b : List Nat) (prev cur : List Nat) (i j : Nat) : Nat :=
  if 3 < i - j ∨ 3 < j - i then 1000
  else if i = 0 then j
  else if j = 0 then i
  else
    let diag := prev.getD (j - 1) 1000 + (if a.getD (i - 1) 0 = b.getD (j - 1) 0 then 0 else 1)
    min diag (min (prev.getD j 1000 + 1) (cur.getD (j - 1) 1000 + 1))

/-- One row of the banded distance. -/
def bandRow (a b : List Nat) (prev : List Nat) (i : Nat) : List Nat :=
  (List.range (b.length + 1)).foldl (fun cur j => cur ++ [bandCell a b prev cur i j]) []

/-- vx.bandedit on one pair (R406). -/
def bandEdit (a b : List Nat) : Nat :=
  if 3 < a.length - b.length ∨ 3 < b.length - a.length then 255
  else ((List.range (a.length + 1)).foldl (bandRow a b) []).getD b.length 255

/-- The matches of vx.jw in i order: (i, j) (R407 step 2). -/
def jwMatches (a b : List Nat) (w : Nat) : List (Nat × Nat) :=
  (List.range a.length).foldl (fun ms i =>
    match (List.range b.length).find? (fun j => decide (i - j ≤ w) && decide (j - i ≤ w) && b.getD j 0 == a.getD i 0
        && !ms.any (fun m => m.2 == j)) with
    | some j => ms ++ [(i, j)]
    | none => ms) []

/-- The matched positions of B in j order. -/
def inOrder (n : Nat) (js : List Nat) : List Nat := (List.range n).filter js.contains

/-- The length of the common prefix. -/
def commonPrefix : List Nat → List Nat → Nat
  | x :: xs, y :: ys => if x = y then commonPrefix xs ys + 1 else 0
  | _, _ => 0

/-- A non-negative rational rounded once to FP16 by RNE. -/
def rationalFp16 (n d : Nat) : Nat × Flags :=
  if n = 0 then (0, Flags.none)
  else
    let q := n * 2 ^ 80 / d
    let (m, e) := withSticky q (-80) (n * 2 ^ 80 % d != 0)
    roundFinite .fp16 .rne false .infinity false m e

/-- vx.jw on one pair (R407). -/
def jaroWinkler (a b : List Nat) : Nat × Flags :=
  let la := a.length
  let lb := b.length
  if la = 0 ∧ lb = 0 then (0x3C00, Flags.none)
  else if la = 0 ∨ lb = 0 then (0, Flags.none)
  else
    let w := max la lb / 2 - 1
    let ms := jwMatches a b w
    let m := ms.length
    let l := min 4 (commonPrefix a b)
    if m = 0 then rationalFp16 l 10
    else
      let as := ms.map (fun x => a.getD x.1 0)
      let bs := (inOrder lb (ms.map Prod.snd)).map (fun j => b.getD j 0)
      let h := ((as.zip bs).filter (fun x => x.1 != x.2)).length
      let t := h / 2
      let jn := m * m * lb + m * m * la + (m - t) * la * lb
      let jd := 3 * la * lb * m
      rationalFp16 ((10 - l) * jn + l * jd) (10 * jd)

/-- vx.qsig on one string (R408). -/
def qSignature (q : Nat) (a : List Nat) : Nat :=
  if a.isEmpty then 0
  else
    let p := List.replicate (q - 1) 0 ++ a ++ List.replicate (q - 1) 0
    (List.range (a.length + q - 1)).foldl (fun sig i =>
      let x := p.getD i 0 + 256 * p.getD (i + 1) 0 + (if q = 2 then 0 else 65536 * p.getD (i + 2) 0)
      sig ||| 2 ^ (x * 0x9E3779B1 % 2 ^ 32 / 2 ^ 26)) 0

/-- A comparator over the two pairs of strings, its result in lanes 0 and 1 (R405). -/
def Tile.comparePairs (t : Tile) (f : VFields) (fmt : Format) (two : Bool) (g : List Nat → List Nat → Nat × Flags) : Tile :=
  t.writeLanes f.vd.toNat fmt (fun k => decide (k < 2) && t.active f.mask fmt.lanes k) (fun k =>
    let (a, ba) := (t.vreg f.vs1.toNat).string k
    let (b, bb) := if two then (t.vreg f.vs2.toNat).string k else ([], false)
    let (r, fl) := g a b
    { bits := r, bad := ba || bb || t.maskBad f.mask k, flags := fl })

/-! ## Tallies and noise (R390, R396, R402) -/

/-- Whether vx.tally or an nz instruction consumes poison: in an active lane's operands, or in a counted lane's mask bit
(R396, R402). -/
def Tile.pairPoison (t : Tile) (f : VFields) (fmt : Format) : Bool :=
  let n := fmt.lanes
  (List.range n).any (fun k =>
    (t.active f.mask n k && (((t.vreg f.vs1.toNat).lane fmt.width k).2 || ((t.vreg f.vs2.toNat).lane fmt.width k).2))
      || (t.counted n k && t.maskBad f.mask k))

/-- The owner tile and the message words of a cell and increment; `none` outside the window (R390, Table 13.3). -/
def State.tallyMessage (s : State) (k : Nat) (t : Tile) (c inc : Int) : Option (BitVec 64 × List PWord) :=
  match t.tally with
  | none => none
  | some ctx =>
    let d := s.paddock (s.ownerOf k)
    match d.tallyDecl ctx.decl with
    | none => none
    | some decl =>
      if c < (ctx.base : Int) ∨ (ctx.base + d.windowCells decl : Nat) ≤ c then none
      else
        let rank := (c.toNat - ctx.base) / decl.cpo
        ((d.groupTiles decl.group)[rank]?).map (fun o =>
          (tileAddr (tileX o) (tileY o) decl.queue,
            [{ val := BitVec.ofInt 64 c }, {}, { val := BitVec.ofInt 64 inc }, {}]))

/-- The lanes of a vx.tally from one on: each sends while an outbound entry is free (R390). -/
def State.tallyLanes (s : State) (k : Nat) (e : VxEntry) (fmt : Format) : List Nat → Tile → VxRun
  | [], t => .done t
  | l :: ls, t =>
    if !t.active e.f.mask fmt.lanes l then s.tallyLanes k e fmt ls t
    else
      let c := signedOf fmt.width ((t.vreg e.f.vs1.toNat).lane fmt.width l).1
      let inc := signedOf fmt.width ((t.vreg e.f.vs2.toNat).lane fmt.width l).1
      match s.tallyMessage k t c inc with
      | none => s.tallyLanes k e fmt ls (t.count 20 1)
      | some (dest, ws) =>
        if 8 ≤ t.outbound.length then .more t l
        else s.tallyLanes k e fmt ls (t.addOutbound dest true ws false true)

/-- vx.tally (R390, R396). -/
def runTally (s : State) (k : Nat) (t : Tile) (e : VxEntry) (fmt : Format) : VxRun :=
  match lowestCause [(e.lane == 0 && t.pairPoison e.f fmt, 0x0C), (fmt != .int32 && fmt != .int64, 0x41)] with
  | some c => .fault c 0
  | none => s.tallyLanes k e fmt (rangeFrom e.lane (fmt.lanes - e.lane)) t

/-- A lane of an nz instruction (R402): count plus noise, pending, or poisoned where the sum leaves its range. -/
def noiseLane (ctx : TallyCtx) (cell count : Nat) : LaneOut :=
  match noiseOf ctx.sampler ctx.p1 ctx.p2 ctx.k0 ctx.k1 (BitVec.ofNat 64 cell) (laneBudget ctx.sampler) with
  | none => { bits := pendingCell.toNat }
  | some z =>
    let v := signedOf 64 count + z
    if -(2 ^ 63 : Int) < v ∧ v < 2 ^ 63 then { bits := wrapTo 64 v } else { bits := 0, bad := true }

/-- nz.geom and nz.dgauss (R402). -/
def runNoise (s : State) (k : Nat) (t : Tile) (e : VxEntry) (fmt : Format) (sampler : Nat) : VxRun :=
  let right := match t.tally with | some c => c.sampler == sampler | none => false
  match lowestCause [(!right, 0x01), (fmt == .int64 && t.pairPoison e.f fmt, 0x0C), (fmt != .int64, 0x41)], t.tally with
  | some c, _ => .fault c 0
  | none, none => .fault 0x01 0
  | none, some ctx =>
    let lane := fun l => noiseLane ctx ((t.vreg e.f.vs1.toNat).lane 64 l).1 ((t.vreg e.f.vs2.toNat).lane 64 l).1
    let t1 := t.writeActive e.f .int64 lane
    .done ((List.range 8).foldl (fun t' l =>
      if t.active e.f.mask 8 l && (lane l).bad then
        t'.raise (s.tileReport k 0x0005 0x0604 clsNote
          (BitVec.ofNat 64 (((t.vreg e.f.vs1.toNat).lane 64 l).1 % 2 ^ 48)) 0)
      else t') t1)

end Sys2Proof.Machine
end

