-- ==== Sys2Proof/Machine/YokeOps.lean ====
section
/-! DEFINITION. What the pace needs of the twin: whether a paddock's pace is shared, and sending a control message over the
yoke (18, R530 to R533; 02, R89). -/

namespace Sys2Proof.Machine

/-- Whether a paddock is paired in MIRROR or STANDBY and has joined. -/
def Paddock.paired (d : Paddock) : Bool := (d.pairMode == 1 || d.pairMode == 2) && d.twin.joined

/-- Whether this module is the standby of a paddock: its tiles are parked and it issues nothing (R532). -/
def State.standby (s : State) (p : Nat) : Bool := s.shared p && (s.paddock p).pairMode == 2 && !(s.paddock p).primary

/-- CLOSE_REPORT: stride, held beats, outcome, digest. -/
def State.sendClose (s : State) (p : Nat) (fault : Bool) (digest : BitVec 64) : State :=
  let d := s.paddock p
  s.yokeSend 0x11 p (bytesLE 8 (strideOf d.paceCount) ++ bytesLE 4 d.strideHeld ++ bytesLE 1 (if fault then 1 else 0)
    ++ bytesLE 8 (if s.standby p then 0 else digest.toNat))

/-- A job ends with a status (16, R486); the primary of a paddock whose pace is shared tells the twin (PADDOCK_FAIL). -/
def State.failJob (s : State) (p status : Nat) : State :=
  let tell := s.shared p && (s.paddock p).primary && (s.paddock p).ended.isNone
  (if tell then s.yokeSend 0x14 p (bytesLE 2 status) else s).killJob p status

end Sys2Proof.Machine
end

