-- ==== Sys2Proof/Machine/DecodeOps.lean ====
section
/-! DEFINITION. Decode sessions: the choice of a token, and what a step commits at the close of its stride (11, R352 to
R365). -/

namespace Sys2Proof.Machine

/-! ## The choice of a token (R361, R362) -/

/-- draw(seed, q) of R362. -/
def drawToken (seed : BitVec 64) (q : Nat) : Nat :=
  ((generator (seed.setWidth 32) ((seed >>> 32).setWidth 32) (BitVec.ofNat 32 q) (BitVec.ofNat 32 (q / 2 ^ 32)) 0 0x4443).getD
    0 0).toNat

/-- A logit as R361 reads it: NaN counts as minus infinity. -/
def logitBits (z : BitVec 32) : Nat :=
  if (decodeFloat .fp32 z.toNat).isNan then 0xFF800000 else z.toNat

/-- Whether one FP32 value is below another. -/
def fp32Lt (a b : Nat) : Bool := (compareLane .lt .fp32 a b).1

/-- The largest of the logits. -/
def maxLogit (zs : List Nat) : Nat := zs.foldl (fun m z => if fp32Lt m z then z else m) 0xFF800000

/-- The smallest index that meets a condition; 0 where none does. -/
def firstIndex {α : Type} (f : α → Bool) (l : List α) : Nat := (l.findIdx? f).getD 0

/-- W of R361: the integer weight of a logit. -/
def logitWeight (m c z : Nat) : Nat :=
  let d := (arithLane .sub .fp32 z m 0).1
  let w := (evalFn .exp2 (arithLane .mul .fp32 d c 0).1).1
  match decodeFloat .fp32 w with
  | .fin _ man e => if -32 ≤ e then man * 2 ^ (e + 32).toNat else man / 2 ^ (-(e + 32)).toNat
  | _ => 0

/-- The first index whose cumulative weight exceeds a threshold. -/
def pickWeight : List Nat → Nat → Nat → Nat → Nat
  | [], _, _, v => v
  | w :: ws, sum, t, v => if t < sum + w then v else pickWeight ws (sum + w) t (v + 1)

/-- R361: the token at position `q`. -/
def chooseToken (sample : Bool) (c : BitVec 32) (seed : BitVec 64) (q : Nat) (logits : List (BitVec 32)) : BitVec 32 :=
  let zs := logits.map logitBits
  if zs.contains 0x7F800000 then BitVec.ofNat 32 (firstIndex (· == 0x7F800000) zs)
  else
    let m := maxLogit zs
    if m = 0xFF800000 then 0
    else if !sample then BitVec.ofNat 32 (firstIndex (fun z => !fp32Lt z m) zs)
    else
      let ws := zs.map (logitWeight m c.toNat)
      let total := ws.foldl (· + ·) 0
      BitVec.ofNat 32 (pickWeight ws 0 (drawToken seed q * total / 2 ^ 32) 0)

/-! ## What a step commits (R354, R356, R357, R364) -/

/-- The tokens that a verify commits: up to the first draft that differs. -/
def acceptTokens : List (BitVec 32) → List (BitVec 32) → List (BitVec 32)
  | [], _ => []
  | t :: _, [] => [t]
  | t :: ts, d :: ds => if t = d then t :: acceptTokens ts ds else [t]

/-- The tokens up to and with the first stop token (R357). -/
def upToStop (stops : List Nat) : List (BitVec 32) → List (BitVec 32)
  | [] => []
  | t :: ts => if stops.contains t.toNat then [t] else t :: upToStop stops ts

/-- The session's position p (R353): the number of tokens in its sequence. -/
def Session.pos (x : Session) : Nat := x.tokens.length

/-- The token that a session's rule chooses at the position after a sequence (R361). -/
def Session.choose (x : Session) (tokens logits : List (BitVec 32)) : BitVec 32 :=
  chooseToken x.sample x.c x.seed tokens.length logits

/-- The depth of an outrider step at a position (R357). -/
def Session.depth (x : Session) (k : Nat) : Nat := min k (x.limit - x.pos)

/-- The drafts of an outrider step, one at a time, by the session's own rule on the maquette's logits (R364). -/
def DecodeWork.drafts (w : DecodeWork) (x : Session) : List (BitVec 32) :=
  (List.range (x.depth w.k)).map (fun i => chooseToken x.sample x.c x.seed (x.pos + i) (w.maquette.getD i []))

/-- The sequences after which a step chooses a token (R356, R364). -/
def DecodeWork.before (w : DecodeWork) (x : Session) : List (List (BitVec 32)) :=
  match w.kind with
  | 0 => if w.last then [x.tokens ++ w.prompt] else []
  | 1 => [x.tokens]
  | _ => (List.range (x.depth w.k)).map (fun i => x.tokens ++ (w.drafts x).take i)

/-- The new tokens that a session may still commit: a plain step commits one whatever the maximum, and an outrider step
commits what plain steps would (R357, R364; log entry 157). -/
def Session.room (x : Session) : Nat := max 1 (x.maxNew - x.made)

/-- The tokens a step chooses and commits, of the large model of an image (R356, R357, R364). -/
def DecodeWork.chosen (w : DecodeWork) (image : BitVec 256) (x : Session) : List (BitVec 32) :=
  let picks := (w.before x).map (fun ts => x.choose ts (Config.headLogits image ts))
  if w.kind = 2 then (upToStop x.stops ((acceptTokens picks (w.drafts x)).take (x.depth w.k))).take x.room
  else picks

/-- Whether every logit is minus infinity: the head posts an event (R361). -/
def allLow (logits : List (BitVec 32)) : Bool :=
  let zs := logits.map logitBits
  !zs.contains 0x7F800000 && maxLogit zs == 0xFF800000

/-- How many of a step's choices, drafts among them, are made from logits that are all minus infinity (log entry 76). -/
def DecodeWork.lowChoices (w : DecodeWork) (image : BitVec 256) (x : Session) : Nat :=
  (((w.before x).map (Config.headLogits image)
    ++ (if w.kind = 2 then (List.range (x.depth w.k)).map (fun i => w.maquette.getD i []) else [])).filter allLow).length

/-- Some tile of a paddock (log entry 76). -/
def State.someTile (s : State) (p n : Nat) : Nat :=
  let own := (List.range 28).filter (fun r => (s.region r).owner = p)
  let r := own.getD ((s.freshAt n).toNat % own.length) 0
  let f := (s.freshAt (n + 1)).toNat
  tileAt (210 * (r % 4) + f % 210) (78 * (r / 4) + f / 210 % 78)

/-- The event of a head tile (R361; 16, R482; log entry 76). -/
def State.headNote (s : State) (p n : Nat) : State :=
  let k := s.someTile p n
  s.onTile k (fun t => t.raise (s.tileReport k ((s.freshAt (n + 2)).toNat % 7) (s.openNote (n + 3)) clsNote 0 0))

/-- The events of a step's choices (R361). -/
def DecodeWork.headNotes (w : DecodeWork) (image : BitVec 256) (x : Session) (p : Nat) (s : State) : State :=
  (List.range (w.lowChoices image x)).foldl (fun s i => s.headNote p (910 + 4 * i)) s

/-- The pace table of a plan for a step that ends at a position (log entry 78). -/
def planTable (ts : List DecodeTable) (kind k stop : Nat) : Option Nat :=
  ((ts.filter (fun t => t.kind == kind && (kind != 2 || t.k == k) && decide (stop ≤ t.context))).foldl
    (fun (best : Option DecodeTable) t => match best with
      | none => some t
      | some b => if t.context < b.context then some t else some b) none).map DecodeTable.table

/-- The table of a kind that serves the largest context. -/
def lastTable (ts : List DecodeTable) (kind k : Nat) : Option Nat :=
  ((ts.filter (fun t => t.kind == kind && (kind != 2 || t.k == k))).foldl
    (fun (best : Option DecodeTable) t => match best with
      | none => some t
      | some b => if b.context < t.context then some t else some b) none).map DecodeTable.table

/-- The position after the last input of a step that starts at a position. -/
def DecodeWork.stop (w : DecodeWork) (x : Session) (pos : Nat) : Nat :=
  pos + w.prompt.length + (if w.kind = 2 then min x.k (x.limit - pos) else if w.kind = 0 then 0 else 1)

/-- The most positions by which a step advances its session. -/
def DecodeWork.most (w : DecodeWork) (x : Session) : Nat :=
  match w.kind with
  | 0 => w.prompt.length + (if w.last then 1 else 0)
  | 1 => 1
  | _ => x.depth w.k

/-- Whether a step may commit at all: it stays within the context limit (R357). -/
def DecodeWork.fits (w : DecodeWork) (x : Session) : Bool :=
  match w.kind with
  | 0 => decide (x.pos + w.prompt.length + (if w.last then 1 else 0) ≤ x.limit)
  | _ => decide (x.pos < x.limit)

/-- A session after a step commits its prompt and the chosen tokens (R353, R354, R357). -/
def Session.after (x : Session) (prompt chosen : List (BitVec 32)) : Session :=
  let made := x.made + chosen.length
  { x with
    tokens := x.tokens ++ prompt ++ chosen
    made := made
    finished := x.finished || (prompt ++ chosen).any (fun t => x.stops.contains t.toNat) || decide (x.maxNew ≤ made) }

end Sys2Proof.Machine
end

