-- ==== Sys2Proof/Machine/SecOps.lean ====
section
/-! DEFINITION. The module's security state and health: firmware images and their checks, measurement blocks, the spare
inventory (19, R558 to R569; 17, R506, R523 to R525). -/

namespace Sys2Proof.Machine

/-! ## Firmware images (R559 to R563) -/

/-- The bytes of a bank. -/
def Security.bankBytes (x : Security) (b : Bool) : List (BitVec 8) :=
  match if b then x.bankB else x.bankA with
  | .shipped => Config.shippedImage b
  | .empty => []
  | .written i => i

/-- A bank replaced. -/
def Security.setBank (x : Security) (b : Bool) (v : Bank) : Security := if b then { x with bankB := v } else { x with bankA := v }

/-- Whether a bank is empty. -/
def Security.bankEmpty (x : Security) (b : Bool) : Bool :=
  match if b then x.bankB else x.bankA with | .empty => true | _ => false

/-- A SHA-256 digest as a number. -/
def hashNat (bs : List (BitVec 8)) : BitVec 256 := digestNat (sha256 bs)

/-- Whether a key is that of an unrevoked root-key slot. -/
def Security.rootKey (x : Security) (slot : Nat) (key : List (BitVec 8)) : Bool :=
  decide (slot < 4) && !x.revoked.getLsbD slot && Config.rootHash slot == hashNat key

/-- The bytes of stage `n` of an image, 0 to 5. -/
def stageBytes (i : List (BitVec 8)) (n : Nat) : List (BitVec 8) := (i.drop (descNat i (36 + 48 * n) 4)).take (descNat i (40 + 48 * n) 4)

/-- The SHA-256 of a stage that the header gives. -/
def stageDigest (i : List (BitVec 8)) (n : Nat) : List (BitVec 8) := (i.drop (48 + 48 * n)).take 32

/-- Whether a stage matches its digest. -/
def stageOk (i : List (BitVec 8)) (n : Nat) : Bool := sha256 (stageBytes i n) == stageDigest i n

/-- Whether the fields of a header that have one value hold it (Table 19.2). -/
def headerFixed (i : List (BitVec 8)) : Bool :=
  let f := descNat i
  decide (1280 ≤ i.length) && i.take 8 == [0x51, 0x46, 0x57, 0x49, 0x4D, 0x47, 0x00, 0x00] && f 8 2 == 1 && f 10 1 == 1
    && f 12 2 == 0x7210 && decide (f 21 1 < 16) && f 22 2 == 0 && f 704 192 == 0
    && (List.range 6).all (fun n => f (32 + 48 * n) 4 == 0 && f (44 + 48 * n) 4 == 0)

/-- R561: whether the ROM accepts an image. -/
def Security.accepts (x : Security) (i : List (BitVec 8)) : Bool :=
  let key := (i.drop 320).take 384
  headerFixed i && x.rootKey (descNat i 11 1) key && Config.verifies key (i.take 896) ((i.drop 896).take 384)
    && decide (x.steps ≤ descNat i 20 1) && decide (descNat i 20 1 ≤ 64) && stageOk i 0

/-- The image that booted; no bytes before. -/
def State.bootedImage (s : State) : List (BitVec 8) :=
  match s.sec.booted with | some b => s.sec.bankBytes b | none => []

/-- The firmware family, version and security version of the booted image. -/
def State.bootedFamily (s : State) : Nat := descNat s.bootedImage 14 2
def State.bootedVersion (s : State) : Nat := descNat s.bootedImage 16 4
def State.bootedSv (s : State) : Nat := descNat s.bootedImage 20 1

/-- The firmware digest of a seal (R569): over the digests of stages 1 to 6. -/
def State.firmwareDigest (s : State) : List (BitVec 8) :=
  sha256 ((List.range 6).map (fun n => sha256 (stageBytes s.bootedImage n))).flatten

/-! ## The patina map and the maps of the scan (17, R506, R508) -/

/-- The digest of the patina map in force: over its entries and sequence number. -/
def State.patinaDigest (s : State) : List (BitVec 8) :=
  sha256 ((s.patina.map (fun e => bytesLE 2 e.kind ++ bytesLE 2 e.unit ++ bytesLE 4 e.place.toNat ++ bytesLE 8 e.pace.toNat)).flatten
    ++ bytesLE 4 s.patinaSeq)

/-- Whether a patina entry removes a physical position: tile dead or retired for wear. -/
def PatinaEntry.removes (e : PatinaEntry) (col row : Nat) : Bool :=
  (e.kind == 1 || e.kind == 3) && e.place.toNat % 1024 == col && e.place.toNat / 2 ^ 16 % 1024 == row

/-- The tiles of the cast map, as entries of a dead tile (17, R505). -/
def CastMap.entries (c : CastMap) : List PatinaEntry :=
  c.tiles.map (fun t => { kind := 1, unit := t.1 / 72 + 12 * (t.2 / 80), place := BitVec.ofNat 32 (t.1 + t.2 * 2 ^ 16), pace := 0 })

/-- The entries of the cast map and of the patina map, in the order in which the scan applies them (17, R509). -/
def State.defects (s : State) : List PatinaEntry := s.cast.entries ++ s.patina

/-- The defects known: those applied and those whose entries wait to be written (17, R506). -/
def State.known (s : State) : List PatinaEntry := s.defects ++ s.patinaDue

/-- The places that suspect entries name, one for each entry. -/
def State.suspectPlaces (s : State) : List (BitVec 32) :=
  ((s.patina ++ s.patinaDue).filter (fun (e : PatinaEntry) => e.kind == 2)).map PatinaEntry.place

/-- Whether the tile of a place is worn (R515): a third suspect entry, or more words corrected in 24 hours than its local memory
may. -/
def State.worn (s : State) (place : BitVec 32) : Bool :=
  s.retireDue.contains place || decide (3 ≤ (s.suspectPlaces.filter (· == place)).length)

/-- The removed columns of a segment: field and physical row. -/
def deadCols (es : List PatinaEntry) (f row : Nat) : List Nat :=
  (List.range 72).filter (fun c => es.any (fun e => e.removes (72 * (f % 12) + c) (80 * (f / 12) + row)))

/-- The physical rows in use of a field. -/
def State.rowsOf (s : State) (f : Nat) : List Nat := getD (List.range 78) s.rowMap f

/-- The segments that differ from shipment: field and physical row. -/
def State.touchedSegs (s : State) : List (Nat × Nat) :=
  let mapped : List (Nat × Nat) := s.segMap.map (fun kv => (kv.1 / 80, kv.1 % 80))
  let dead : List (Nat × Nat) := (s.known.filter (fun (e : PatinaEntry) => e.kind == 1 || e.kind == 3)).map (fun e =>
    (e.place.toNat % 1024 / 72 + 12 * (e.place.toNat / 2 ^ 16 % 1024 / 80), e.place.toNat / 2 ^ 16 % 1024 % 80))
  (mapped ++ dead).eraseDups

/-- Unused spare tiles of a segment in use. -/
def State.segSpares (s : State) (f row : Nat) : Nat :=
  let used := (getD shippedCols s.segMap (80 * f + row)).filterMap id
  72 - used.length - ((deadCols s.known f row).filter (fun c => !used.contains c)).length

/-- In a field, the segments in use with no more than one unused spare: how many have `n`. -/
def State.segsWith (s : State) (f n : Nat) : Nat :=
  (s.touchedSegs.filter (fun x => x.1 == f && (s.rowsOf f).contains x.2 && s.segSpares f x.2 == n)).length

/-- Unused spare rows of a field. -/
def State.rowSpares (s : State) (f : Nat) : Nat :=
  ([78, 79].filter (fun r => !(s.rowsOf f).contains r && decide ((deadCols s.known f r).length ≤ 2))).length

/-- Routed holes of a field. -/
def State.fieldHoles (s : State) (f : Nat) : Nat :=
  (((s.rowsOf f).map (fun r => ((getD shippedCols s.segMap (80 * f + r)).filter Option.isNone).length))).sum

/-- Routed holes of the module. -/
def State.routedHoles (s : State) : Nat :=
  (s.segMap.map (fun kv => if (s.rowsOf (kv.1 / 80)).contains (kv.1 % 80) then (kv.2.filter Option.isNone).length else 0)).sum

/-- A spare site's state: 0 free, 1 in use, 2 failed. -/
def Tier.siteState (t : Tier) (n : Nat) : Nat :=
  if t.sparesFailed.contains n then 2 else if t.sparesUsed.contains n || t.sites.contains n then 1 else 0

/-- Unused spare phases of a region. -/
def Region.phaseSpares (g : Region) : Nat := min 4 (g.phases - 40)

/-- The failed elements of a field's four sensor pairs (Table 17.1, kind 0x000A): pair and element. -/
def State.sensorFailed (s : State) (f pair element : Nat) : Bool :=
  (s.patina ++ s.patinaDue).any (fun e => e.kind == 10 && e.unit == f && e.place.toNat % 4 == pair && e.place.toNat / 4 % 2 == element)

/-- Sensor pairs of the module with `n` failed elements. -/
def State.sensorPairs (s : State) (n : Nat) : Nat :=
  ((List.range 84).map (fun f => ((List.range 4).filter (fun p => ((List.range 2).filter (s.sensorFailed f p)).length == n)).length)).sum

/-- Unused spare lanes of the yoke. -/
def State.yokeSpares (s : State) : Nat :=
  10 - ((rangeFrom 20 10).map (fun n => min 1 ((getD {} s.ports n).sparesUsed))).sum

/-- R525: service_advised, which a power-up scan sets too by what it finds (R509). -/
def State.serviceAdvised (s : State) : Bool :=
  s.scanAdvised || decide (0 < s.scanHoles)
    || s.touchedSegs.any (fun x => (s.rowsOf x.1).contains x.2 && s.segSpares x.1 x.2 == 0 && s.rowSpares x.1 == 0)
    || [12, 25].any (fun n => s.near.siteState n != 0) || [8, 17].any (fun n => s.far.siteState n != 0)
    || decide (s.converters < 13) || (List.range 28).any (fun r => (s.region r).phaseSpares == 0)
    || (List.range 20).any (fun n => decide (2 ≤ (getD {} s.ports n).sparesUsed)) || s.yokeSpares == 0

/-! ## Ready (19, R564, R565; 21, R612) -/

/-- The revocation bits after the booted image's revoke field: never its own slot, never the last one left. -/
def Security.revoke (x : Security) (slot mask : Nat) : BitVec 4 :=
  (List.range 4).foldl (fun (r : BitVec 4) n =>
    let r' := r ||| (1#4 <<< n)
    if mask / 2 ^ n % 2 = 1 ∧ n ≠ slot ∧ r' ≠ 0xF then r' else r) x.revoked

/-- Each revocation that the booted image asks for and that is skipped posts a note (R565; 16, R482; log entry 112). -/
def State.noteSkipped (s : State) (mask : Nat) (done : BitVec 4) : State :=
  ((List.range 4).filter (fun n => mask / 2 ^ n % 2 = 1 && !done.getLsbD n)).foldl (fun s n =>
    s.raise (frameReport 0xE004 (s.openNote (960 + n)) clsNote 0 0)) s

/-- The bytes that measurement block 8 measures: revocation bits, steps blown, owner key hash or 32 zero bytes (Table 19.5). -/
def Security.keyBytes (x : Security) : List (BitVec 8) :=
  bytesLE 1 x.revoked.toNat ++ bytesLE 1 x.steps ++ (match x.owner with | some k => sha256 k | none => List.replicate 32 0)

/-- The fuses blown at ready, and block 8 fixed with them (R569; log entry 163). -/
def Security.fix (x : Security) (steps : Nat) (revoked : BitVec 4) : Security :=
  let x := { x with steps := steps, revoked := revoked }
  { x with keyState := x.keyBytes }

/-- Step 8 of the power-up: fuses are blown and ready sets. -/
def State.becomeReady (s : State) : State :=
  let i := s.bootedImage
  let done := s.sec.revoke (descNat i 11 1) (descNat i 21 1)
  { s.noteSkipped (descNat i 21 1) done with
    ready := true
    bootStep := 8
    sec := s.sec.fix (max s.sec.steps (min 64 s.bootedSv)) done }

/-- Whether step 8 waits for PACE_REF (21, R615). -/
def State.waitsForRef (s : State) : Bool := s.released && !s.ready && !s.bootFailed && decide (s.bootStep = 8)

/-! ## Measurement blocks (Table 19.5) -/

/-- ID_PART (00, Table 0.1). -/
def idPart : BitVec 64 := 0x01B07210

/-- ID_SERIAL (00, Table 0.2). -/
def idSerial : BitVec 64 := Config.serial.setWidth 64

/-- PD_REGION_MAPi (01, R42): 8 regions of 8 bits each, owner in [4:0] and state in [7:5]. -/
def State.regionMap (s : State) (i : Nat) : BitVec 64 :=
  BitVec.ofNat 64 ((List.range 8).foldl (fun n j =>
    let r := 8 * i + j
    if 28 ≤ r then n else n + ((s.region r).owner + (s.region r).state.code * 2 ^ 5) * 2 ^ (8 * j)) 0)

/-- YK_ROLE (18, Table 18.9). -/
def State.yokeRole (s : State) : BitVec 64 :=
  BitVec.ofNat 64 ((rangeFrom 1 28).foldl (fun n p =>
    let d := s.paddock p
    n + (if d.pairMode ≠ 0 then 2 ^ (31 + p) else 0) + (if d.pairMode ≠ 0 && d.primary then 2 ^ (p - 1) else 0)) 0)

/-- The bytes that a measurement block measures, from block 7 on (log entry 102). -/
def State.measured (s : State) (n : Nat) : List (BitVec 8) :=
  match n with
  | 7 => bytesLE 8 idPart.toNat ++ bytesLE 8 idSerial.toNat ++ bytesLE 2 s.bootedFamily ++ bytesLE 4 s.bootedVersion
      ++ bytesLE 1 s.bootedSv
  | 8 => if s.ready then s.sec.keyState else s.sec.keyBytes
  | 10 => bytesLE 1 (if s.debugOpen then 1 else 0) ++ bytesLE 8 s.sec.scope.toNat ++ bytesLE 32 s.sec.signerHash.toNat
  | 11 => bytesLE 1 s.yoke.mode ++ bytesLE 8 s.yokeRole.toNat ++ bytesLE 8 (if s.yoke.attached then s.yoke.twinSerial.toNat else 0)
  | _ => ((List.range 4).map (fun i => bytesLE 8 (s.regionMap i).toNat)).flatten
      ++ ((rangeFrom 1 28).map (fun p => let d := s.paddock p
        bytesLE 8 d.nearUnits.length ++ bytesLE 8 d.farUnits.length
          ++ bytesLE 32 ((d.image.map (fun (i : Image) => i.digest)).getD 0).toNat)).flatten

/-- A measurement block. -/
def State.block (s : State) (n : Nat) : List (BitVec 8) :=
  if n ≤ 6 then sha256 (stageBytes s.bootedImage (n - 1)) else if n = 9 then s.patinaDigest else sha256 (s.measured n)

end Sys2Proof.Machine
end

