-- ==== Sys2Proof/Machine/Host.lean ====
section
/-! DEFINITION. The host interface: polling and consumption, rings, link resets, completions, and the descriptors that move
bytes (14, R413 to R447). -/

namespace Sys2Proof.Machine

/-! ## Consumption (R425 to R431) -/

/-- Consumed descriptors of a ring whose completion records are still to come. -/
def State.unrecorded (s : State) (n : Nat) : Nat :=
  (s.descs.filter (fun d => s.recordRing d == n && !d.mute && !d.completed && d.opcode != 0x0002)).length

/-- R429: whether a ring has room for one more completion record. -/
def State.ringRoom (s : State) (n : Nat) : Bool :=
  decide (s.unrecorded n + (s.ring n).unread < ringSize (s.ring n).cq)

/-- R61, R377, R429, R430, R533: whether the descriptor at the head of a ring may be consumed. -/
def State.mayConsume (s : State) (n : Nat) (b : List (BitVec 8)) : Bool :=
  let op := descNat b 0 2
  let p := if n = 0 then descNat b 3 1 else (s.ring n).paddock
  let pd := s.paddock p
  let mine := s.descs.filter (fun d => d.ring == n && d.staged.isNone && !d.completed)
  let ofPaddock := s.descs.filter (fun d => d.paddock == p && !d.completed)
  s.ringRoom n
    && (descNat b 2 1 % 2 == 0 || mine.isEmpty)
    && !mine.any (fun d => d.opcode == 0x0003)
    && !ofPaddock.any s.sealDue
    && (descNat b 2 1 / 4 % 2 == 0 || ofPaddock.isEmpty)
    && !(strideOpcode op && (pd.next.isSome || pd.pulse || ofPaddock.any (fun d => strideOpcode d.opcode && !d.started && d.status.isNone)))
    && (n == 0 || (pd.primary && pd.twin.forwarded.isEmpty))

/-- The status with which a descriptor is refused as it is consumed (R378, R431, R441). -/
def State.earlyStatus (s : State) (n p : Nat) (b : List (BitVec 8)) : Option Nat :=
  let op := descNat b 0 2
  let pd := s.paddock p
  if s.descBad n b then some 0x0200
  else if descNat b 2 1 / 4 % 2 = 1 ∧ !pd.seals.enable then some 0x0200
  else if adminOpcode op || op = 0x0001 || op = 0x0003 then none
  else if op = 0x0060 ∧ p = 0 then (if s.destSlot p b = some none then some 0x0200 else none)
  else if !pd.live then some 0x0202
  else if pd.ended.isSome ∧ !afterJobEnd op then some 0x0202
  else if s.destSlot p b = some none then some 0x0200
  else none

/-- A ring pair enters the error state (R426). -/
def State.ringError (s : State) (n : Nat) : State :=
  (s.setRing n { s.ring n with error := true }).raise
    (frameReport (0xD000 + n) 0x050D clsInfra (s.ring n).paddock (BitVec.ofNat 64 n))

/-- The tiles that a SCREEN's mask names. -/
def screenTiles (d : Desc) : List Nat :=
  let m := d.nat 16 11
  match d.nat 9 1 with
  | 0 => rectTiles [(d.nat 16 2, d.nat 18 2, d.nat 20 2, d.nat 22 2)]
  | 1 => rectTiles (((List.range 84).filter (fun f => m / 2 ^ f % 2 == 1)).map (fun f =>
      (70 * (f % 12), 78 * (f / 12), 70 * (f % 12) + 69, 78 * (f / 12) + 77)))
  | _ => rectTiles (((List.range 28).filter (fun r => m / 2 ^ r % 2 == 1)).map (fun r =>
      (210 * (r % 4), 78 * (r / 4), 210 * (r % 4) + 209, 78 * (r / 4) + 77)))

/-- Whether a SCREEN may test the tiles of its mask: those of its paddock, or on the admin ring those of no paddock. -/
def State.screenMaskOk (s : State) (d : Desc) : Bool :=
  let inside := match d.nat 9 1 with
    | 0 => onGrid (d.nat 20 2) (d.nat 22 2) && decide (d.nat 16 2 ≤ d.nat 20 2) && decide (d.nat 18 2 ≤ d.nat 22 2)
    | 1 => decide (d.nat 16 11 < 2 ^ 84)
    | _ => decide (d.nat 16 11 < 2 ^ 28)
  inside && (screenTiles d).all (fun k => s.ownerOf k == d.paddock)

/-- The regions with a tile of a SCREEN's mask. -/
def screenRegions (d : Desc) : List Nat := ((screenTiles d).map regionOfTile).eraseDups

/-- The regions of a SCREEN of the admin ring go into SERVICE, from its consumption to its end (01, Table 1.2; log entry
129). -/
def State.enterService (s : State) (d : Desc) : State :=
  if d.paddock ≠ 0 || d.opcode != 0x0060 || d.status.isSome || !s.screenMaskOk d then s
  else (screenRegions d).foldl (fun s r => s.onRegion r (fun g =>
    match g.state with | .gated | .transit => { g with state := .service } | _ => g)) s

/-- A descriptor is consumed: its slot becomes PENDING, and its input and seed records wait for its place in the chains;
one refused under R378 adds none. -/
def State.consume (s : State) (n : Nat) (b : List (BitVec 8)) (entries : Nat) : State :=
  let p := if n = 0 then descNat b 3 1 else (s.ring n).paddock
  let st := if descNat b 0 2 = 0x0002 then none else s.earlyStatus n p b
  let slot := if st.isSome then none else (s.destSlot p b).getD none
  let unsealed := descNat b 2 1 / 4 % 2 = 1 ∧ !(s.paddock p).seals.enable
  let d : Desc := { id := s.nextDesc, ring := n, paddock := p, bytes := b, status := st, slot := slot,
                    quiet := decide unsealed
                    records := if unsealed then [] else s.inputRecords b none }
  let r := s.ring n
  let s := s.setRing n { r with sqHead := (r.sqHead + entries) % ringSize r.sq }
  let s := ({ s with descs := s.descs ++ [d], nextDesc := s.nextDesc + 1 }.cntRing n 1 1).enterService d
  match slot with
  | some k => s.setSlot p k { (s.paddock p).slot k with state := 1 }
  | none => s

/-- A descriptor forwarded to the twin before it is consumed, with the prompt tokens it reads (18, R534; log entry 96). -/
def State.forwardDesc (s : State) (n p : Nat) (b : List (BitVec 8)) : State :=
  let toks := if descNat b 0 2 = 0x0033 ∧ 8 + 16 * extensionsOf b < descNat b 10 1 then
    s.hostRead (descNat b 24 8) (4 * descNat b 10 1) else []
  s.forward p 0 n ((b ++ toks).map (fun x => (x.toNat, false)))

/-- A ring's descriptors consumed in ring order, as far as they can be. -/
def State.consumeRing : Nat → Nat → State → State
  | 0, _, s => s
  | fuel + 1, n, s =>
    let r := s.ring n
    if !r.enable || r.error || (n != 0 && r.paddock == 0) || r.sqHead == r.sqTail then s
    else
      let size := ringSize r.sq
      let at_ := ringBase r.sq + 64 * r.sqHead
      let b := s.hostRead at_ 64
      let there := (r.sqTail + size - r.sqHead) % size
      if descNat b 0 2 = 0x0002 then
        if r.sqHead + descNat b 8 4 ≠ size then s.ringError n
        else if !s.ringRoom n then s.cntRing n 2 1
        else if s.mayConsume n b then State.consumeRing fuel n (s.consume n b (descNat b 8 4))
        else s
      else
        let need := 1 + extensionsOf b
        if size < r.sqHead + need then s.ringError n
        else if there < need then s
        else
          let b := s.hostRead at_ (64 * need)
          if !s.ringRoom n then s.cntRing n 2 1
          else if s.mayConsume n b then
            if n = 0 || !s.shared r.paddock then State.consumeRing fuel n (s.consume n b need)
            else if (s.paddock r.paddock).twin.head = some (n, r.sqHead) then
              (if s.forwardWaits r.paddock then s
               else State.consumeRing fuel n ((s.onPaddock r.paddock (fun d => { d with twin := { d.twin with head := none } })).consume n b need))
            else if (s.paddock r.paddock).twin.head.isSome then s
            else (s.forwardDesc n r.paddock b).onPaddock r.paddock (fun d => { d with twin := { d.twin with head := some (n, r.sqHead) } })
          else if descNat b 2 1 / 4 % 2 = 1 then s.cntPaddock r.paddock 4 1
          else s

/-- The doorbell record of a ring pair is read (R423, R426). -/
def State.readDoorbell (s : State) (n : Nat) : State :=
  let r := s.ring n
  if !r.enable || r.error then s
  else
    let a := field r.db 6 54 * 64
    let tail := s.hostNat a 4
    let head := s.hostNat (a + 4) 4
    let s := s.cntRing n 0 1
    let passed := (head + ringSize r.cq - r.cqHead) % ringSize r.cq
    if ringSize r.sq ≤ tail ∨ ringSize r.cq ≤ head ∨ r.unread < passed then s.ringError n
    else s.setRing n { r with sqTail := tail, cqHead := head, unread := r.unread - passed, sequence := s.hostNat (a + 8) 8 % 2 ^ 16 }

/-- Whether a ring pair waits for completion space: it has a descriptor to consume and no room (R425, R429). -/
def State.waitsForRoom (s : State) (n : Nat) : Bool :=
  let r := s.ring n
  r.enable && !r.error && r.sqHead != r.sqTail && !s.ringRoom n

/-- HI_POLL: the summary line, the doorbell records, then consumption. The host completes a CAS or fails it: `fails` names
the words of the line whose CAS fails; they are left for the next poll (R425; log entry 123). -/
def execHiPoll (fails : BitVec 4) (s : State) : Host.Outcome State Fault Refusal :=
  if !s.ready || s.halted || s.d3hot then turnedAway s
  else
    let scan := bitOf (s.frameReg 0x00028000 0xC8) 16
    let line := field (s.frameReg 0x00028008 0) 6 54 * 64
    let all := List.range 256
    let rung := fun (n : Nat) => (s.hostByte (line + n / 8)).1 / 2 ^ (n % 8) % 2 == 1
    let lost := fun (n : Nat) => fails.getLsbD (n / 64)
    let read := all.filter (fun n => scan || (rung n && !lost n) || s.waitsForRoom n)
    let missed := all.filter (fun n => !scan && rung n && lost n)
    let s := if scan then s
      else (List.range 4).foldl (fun s w => if fails.getLsbD w then s else s.hostWrite (line + 8 * w) (List.replicate 8 0)) s
    let s := read.foldl (fun s n => s.readDoorbell n) (missed.foldl (fun s n => s.cntRing n 3 1) s)
    .next (all.foldl (fun s n => State.consumeRing (ringSize (s.ring n).sq) n s) s).bump

/-! ## Rings and the link (R413, R422) -/

/-- RING_ENABLE. -/
def execRingEnable (n : RingIx) (s : State) : Host.Outcome State Fault Refusal :=
  let r := s.ring n
  if r.enable then turnedAway s
  else
    .next (s.setRing n { r with enable := true, error := false, phase := true, cqTail := 0, sqHead := 0, sqTail := 0,
                                cqHead := 0, unread := 0 }).bump

/-- RING_DISABLE. -/
def execRingDisable (n : RingIx) (s : State) : Host.Outcome State Fault Refusal :=
  .next (s.setRing n { s.ring n with enable := false }).bump

/-- Entries of the event ring. -/
def State.eventSize (s : State) : Nat := ringSize (s.frameReg 0x00028018 4)

/-- A record is written to the event ring, its phase in byte 31 (R443). -/
def State.putEvent (s : State) (bytes : List (BitVec 8)) : State :=
  let s := s.hostWrite (ringBase (s.frameReg 0x00028018 4) + 32 * s.eventTail)
    (bytes.take 31 ++ [if s.eventPhase then 1 else 0])
  let s := { s with eventUnread := s.eventUnread + 1 }
  if s.eventTail + 1 = s.eventSize then { s with eventTail := 0, eventPhase := !s.eventPhase }
  else { s with eventTail := s.eventTail + 1 }

/-- Whether the event ring is full: each of its 2^e entries holds a record that the host has not passed (log entry 60). -/
def State.eventFull (s : State) : Bool := decide (s.eventSize ≤ s.eventUnread)

/-- The records not yet passed once the host's head stands at a place: it passes the entries between the two heads. -/
def State.eventLeft (s : State) (head : Nat) : Nat := s.eventUnread - (head + s.eventSize - s.eventHead) % s.eventSize

/-- The bytes of a lost-events record (Table 16.5). -/
def State.lostBytes (s : State) : List (BitVec 8) :=
  bytesLE 2 0xFFFF ++ bytesLE 2 0 ++ bytesLE 4 0 ++ bytesLE 8 (s.paddock 0).paceCount.toNat ++ bytesLE 2 0xF000
    ++ bytesLE 2 0x3FF ++ bytesLE 2 0x3FF ++ bytesLE 6 s.eventLost ++ bytesLE 3 0

/-- The record of lost events, once the ring has space (R443). -/
def State.resumeEvents (s : State) : State :=
  if s.eventEnable && decide (0 < s.eventLost) && !s.eventFull && !s.d3hot then { s.putEvent s.lostBytes with eventLost := 0 }
  else s

/-- EVENT_RING_HEAD_WRITE: a write of HI_EVENT_CTRL. -/
def execEventRingHeadWrite (v : BitVec 64) (s : State) : Host.Outcome State Fault Refusal :=
  .next ({ s with
    eventEnable := bitOf v 63
    eventOverflow := s.eventOverflow && !bitOf v 62
    eventVector := field v 48 11
    eventUnread := s.eventLeft (field v 0 16)
    eventHead := field v 0 16 } : State).resumeEvents.bump

/-- Registers in reset domain LINK that are held as words: HI_CTRL, HI_SUMMARY, HI_EVENT_BASE, HI_TILE_SEL. -/
def linkRegs : List Nat := [0x00028000, 0x00028008, 0x00028018, 0x00028028]

/-- LINK_RESET (R413): the completion records of descriptors consumed before it are discarded. -/
def execLinkReset (s : State) : Host.Outcome State Fault Refusal :=
  let rings := s.rings.map (fun kv =>
    (kv.1, { ({} : Ring) with paddock := kv.2.paddock, chainIn := kv.2.chainIn, chainSeed := kv.2.chainSeed, chainOut := kv.2.chainOut }))
  let s := { s with
    rings := rings.filter (fun kv => decide (kv.2 ≠ ({} : Ring)))
    regs := linkRegs.foldl (fun m o => drop m (o / 8)) s.regs
    descs := s.descs.map (fun (d : Desc) => { d with mute := true })
    msix := []
    msixPending := []
    eventEnable := false
    eventOverflow := false
    eventVector := 0
    eventHead := 0
    eventTail := 0
    eventUnread := 0
    eventPhase := true
    eventLost := 0
    d3hot := false }
  .next (s.setFrameReg 0x00028010 0 (s.frameReg 0x00028010 0 ||| 1)).bump

/-- The messages of unmasked vectors that are pending are sent. -/
def State.sendPending (s : State) : State :=
  s.msixPending.foldl (fun s v => if s.msixMasked v then s
    else { s with msixPending := s.msixPending.filter (· != v) }.emit (.msix v)) s

/-- D3HOT_TRANSITION (Table 14.1): in D3hot no descriptor is consumed and no request issued; what waited for D0 is issued
then (log entry 125). -/
def execD3hotTransition (enter : Bool) (s : State) : Host.Outcome State Fault Refusal :=
  if enter then .next { s with d3hot := true }.bump
  else
    let s := ({ s with d3hot := false } : State).sendPending.resumeEvents
    .next (if s.halted then s.haltDescriptors else s).bump

/-- BAR2_WRITE: discarded and counted (R444). -/
def execBar2Write (offset : Nat) (data : List Byte) (s : State) : Host.Outcome State Fault Refusal :=
  if !(Instr.bar2Write offset data).wellFormed then turnedAway s else .next (s.cntFrame 11 1).bump

/-! ## Completion -/

/-- DESCRIPTOR_COMPLETE: the completion record of a descriptor whose work has finished. -/
def execDescriptorComplete (id : Nat) (s : State) : Host.Outcome State Fault Refusal :=
  match s.desc id with
  | none => turnedAway s
  | some d =>
    match d.status with
    | none => turnedAway s
    | some st =>
      let pd := s.paddock d.paddock
      if d.completed || s.sealDue d || s.d3hot || s.halted || (d.ring != 0 && !pd.primary && pd.twin.forwarded.contains id)
          || (pd.primary && s.shared d.paddock && s.forwardWaits d.paddock) then turnedAway s
      else
        let s := s.onPaddock d.paddock (fun x => { x with twin := { x.twin with forwarded := x.twin.forwarded.filter (· != id) } })
        .next (s.completeDesc d st).bump

/-! ## Descriptors -/

/-- The opcodes whose work reads or writes host memory (PADDOCK_DESTROY the records of what it completes): they wait in D3hot (Table 14.1). -/
def hostOpcode (op : Nat) : Bool := [0x0010, 0x0011, 0x0020, 0x0033, 0x0060, 0x0061, 0x0101, 0x0120, 0x0130].contains op

/-- A consumed descriptor of an opcode whose work is still to be done and may be done now (R430). -/
def descWork (id op : Nat) (s : State) (body : Desc → State → Option State) : Host.Outcome State Fault Refusal :=
  match s.desc id with
  | none => turnedAway s
  | some d =>
    let earlier := s.descs.filter (fun x => decide (x.id < id) && x.paddock == d.paddock && x.status.isNone
      && serialOpcode x.opcode)
    let blocked := serialOpcode op && (if strideOpcode op then earlier.any (fun x => !x.started || !strideOpcode x.opcode)
      else !earlier.isEmpty)
    if d.opcode ≠ op ∨ d.status.isSome ∨ d.started ∨ blocked ∨ s.halted ∨ (s.d3hot ∧ hostOpcode op) then turnedAway s
    else match body d s with
      | some s' => .next s'.bump
      | none => turnedAway s

/-- NOP. -/
def execNop (id : Nat) (s : State) : Host.Outcome State Fault Refusal :=
  descWork id 0x0001 s (fun _ s => some (s.finishDesc id 0 0))

/-- PAD: consumed without a record (R428). -/
def execPad (id : Nat) (s : State) : Host.Outcome State Fault Refusal :=
  descWork id 0x0002 s (fun d s =>
    some ((s.onDesc id (fun d => { d with status := some 0, completed := true })).flushRing d))

/-- FENCE: completes when every descriptor of the paddock consumed before it has (R430). -/
def execFence (id : Nat) (s : State) : Host.Outcome State Fault Refusal :=
  descWork id 0x0003 s (fun d s =>
    if s.descs.any (fun x => decide (x.id < id) && x.paddock == d.paddock && !x.completed) then none
    else some (s.finishDesc id 0 0))

/-- Whether a range lies in a paddock's share. -/
def Paddock.inShare (d : Paddock) (far : Bool) (off len : Nat) : Bool := decide (off + len ≤ (d.units far).length * 2 ^ 30)

/-- STAGE_IN. -/
def execStageIn (id : Nat) (s : State) : Host.Outcome State Fault Refusal :=
  descWork id 0x0010 s (fun d s =>
    let far := d.nat 8 1 == 1
    let off := d.nat 16 8
    let len := d.nat 24 8
    if !(s.paddock d.paddock).inShare far off len then some (s.finishDesc id 0x0200 0)
    else if s.shareLocked d.paddock far off len || !d.hostReady len || !s.stagingTurn d then none
    else
      let bs := s.hostFor d (d.nat 32 8) len
      let s := (s.forwardStaged d bs).writeShare d.paddock far off bs
      let s := s.chain id 0x0003 (bytesLE 1 (d.nat 8 1) ++ bytesLE 8 off ++ bytesLE 8 len
        ++ sha256 (bs.map (fun b => BitVec.ofNat 8 b.1)))
      some (s.finishDesc id 0 (BitVec.ofNat 64 len)))

/-- The bytes of a delivery before its first poisoned granule of 64 bytes, and whether there is one (16, Table 16.9). -/
def cleanPrefix (off : Nat) (bs : List (Nat × Bool)) : List (Nat × Bool) × Bool :=
  match bs.findIdx? Prod.snd with
  | none => (bs, false)
  | some i => (bs.take ((off + i) / 64 * 64 - off), true)

/-- Bytes delivered to a descriptor's destination: host memory or its result slot. -/
def State.deliver (s : State) (d : Desc) (v : Nat) (bs : List (Nat × Bool)) : State :=
  match d.slot with
  | some k => s.writeShare d.paddock false ((s.paddock d.paddock).payload k) bs
  | none => if (s.paddock d.paddock).primary || d.ring = 0 then s.hostWrite v (bs.map (fun b => BitVec.ofNat 8 b.1)) else s

/-- STAGE_OUT. -/
def execStageOut (id : Nat) (s : State) : Host.Outcome State Fault Refusal :=
  descWork id 0x0011 s (fun d s =>
    let far := d.nat 8 1 == 1
    let p := d.paddock
    let off := d.nat 16 8
    let len := d.nat 24 8
    if !(s.paddock p).inShare far off len then some (s.finishDesc id 0x0200 0)
    else if s.shareLocked p far off len then none
    else
      let bs := s.shareBytes p far off len
      let s := s.touchShare p far off len
      let (clean, bad) := cleanPrefix off bs
      let s := (s.deliver d (d.nat 32 8) clean).countRead p far off len
      if bad then some ((s.egress p 0xDFFF (BitVec.ofNat 64 off)).finishDesc id 0x0100 0)
      else
        let s := s.chain id 0x0201 (bytesLE 1 (d.nat 8 1) ++ bytesLE 8 off ++ bytesLE 8 len
          ++ sha256 (bs.map (fun b => BitVec.ofNat 8 b.1)))
        some (s.finishDesc id 0 (BitVec.ofNat 64 len)))

/-- RELEASE_WINDOW (R445). -/
def execReleaseWindow (id : Nat) (s : State) : Host.Outcome State Fault Refusal :=
  descWork id 0x0070 s (fun d s =>
    let p := d.paddock
    let ks := rangeFrom (d.nat 8 2) (d.nat 10 2)
    let pd := s.paddock p
    if 2 ^ (29 - pd.slotLog) < d.nat 8 2 + d.nat 10 2 || ks.any (fun k => (pd.slot k).state == 1) then
      some (s.finishDesc id 0x0200 0)
    else
      let fin := ks.filter (fun k => (pd.slot k).state == 2)
      some ((fin.foldl (fun s k => s.setSlot p k { (s.paddock p).slot k with state := 3 }) s).finishDesc id 0
        (BitVec.ofNat 64 fin.length)))

/-! ### DUMP_SYNC (07, R247) -/

/-- A record of Table 7.8. -/
def syncRecord (value target : BitVec 32) (count : BitVec 64) (x y : BitVec 10) (waiters : List Nat)
    (level object owner ownerY : Nat) : List (BitVec 8) :=
  let first := match waiters with | k :: _ => (tileX k, tileY k) | [] => (0x3FF, 0x3FF)
  bytesLE 4 value.toNat ++ bytesLE 4 target.toNat ++ bytesLE 8 count.toNat ++ bytesLE 2 x.toNat ++ bytesLE 2 y.toNat
    ++ bytesLE 2 waiters.length ++ bytesLE 2 first.1 ++ bytesLE 2 first.2 ++ bytesLE 1 level ++ bytesLE 1 object
    ++ bytesLE 2 owner ++ bytesLE 2 ownerY

/-- The rectangle of tiles of a paddock, as x0, y0, x1, y1. -/
def Paddock.tileRect (d : Paddock) : Nat × Nat × Nat × Nat :=
  (210 * d.rx0, 78 * d.ry0, 210 * (d.rx0 + d.w) - 1, 78 * (d.ry0 + d.h) - 1)

/-- The tiles of a paddock that stand (01, R32), in order of y, then x. -/
def State.paddockTiles (s : State) (p : Nat) : List Nat :=
  (rectTiles [(s.paddock p).tileRect]).filter (fun k => s.standing k && s.ownerOf k == p)

/-- The records of a tile. -/
def State.tileSyncRecords (s : State) (k : Nat) : List (List (BitVec 8)) :=
  let t := s.tile k
  (List.range 16).map (fun i =>
    let o := t.sync i
    let stuck := t.stuckAt = some (0, BitVec.ofNat 64 i)
    syncRecord o.value o.target o.lastCount o.lastX o.lastY (if o.waiting then [k] else []) 0 i (tileX k)
      (tileY k + (if stuck then 2 ^ 15 else 0)))

/-- Whether a tile of a paddock has been stuck in a wait on an object of a level above the tile's (R238, R247). -/
def State.objectStuck (s : State) (p level : Nat) (o : ObjRef) : Bool :=
  (s.paddockTiles p).any (fun k => match (s.tile k).stuckAt with
    | some (l, w) => l == level && s.objOf k l w == o
    | none => false)

/-- The record of a barrier or wafer object. -/
def BarrierObj.record (o : BarrierObj) (level i owner flags : Nat) : List (BitVec 8) :=
  syncRecord o.value o.target o.lastCount o.lastX o.lastY o.waiters level i owner flags

/-- Every record of a paddock. -/
def State.syncRecords (s : State) (p : Nat) : List (List (BitVec 8)) :=
  ((s.paddockTiles p).map s.tileSyncRecords).flatten
    ++ ((s.regionsOf p).map (fun r => (List.range 64).map (fun i =>
        (getD {} (s.region r).barriers i).record 1 i r ((if (s.region r).deadlines.contains i then 2 ^ 14 else 0)
          + (if s.objectStuck p 2 (.barrier r i) then 2 ^ 15 else 0))))).flatten
    ++ (List.range (s.paddock p).wafer.count).map (fun i => (getD {} (s.paddock p).wafer.objs i).record 2 i 0
        (if s.objectStuck p 3 (.wafer p i) then 2 ^ 15 else 0))

/-- DUMP_SYNC. -/
def execDumpSync (id : Nat) (s : State) : Host.Outcome State Fault Refusal :=
  descWork id 0x0061 s (fun d s =>
    let recs := (s.syncRecords d.paddock).take (d.nat 24 8 / 32)
    some (((if (s.paddock d.paddock).primary then s.hostWrite (d.nat 16 8) recs.flatten else s)).finishDesc id 0 (BitVec.ofNat 64 recs.length)))

/-! ### CHECKPOINT and RESTORE (12, R374) -/

/-- The ring pairs that hold a paddock's chains: its own, or on the twin's side of a pair those that the yoke carries. -/
def State.chainsOf (s : State) (p : Nat) : List Ring :=
  let pd := s.paddock p
  if pd.primary then (s.ringsOf p).map s.ring else pd.twin.chains.map Prod.snd

/-- A paddock's chains replaced, ring pair by ring pair. -/
def State.setChains (s : State) (p : Nat) (cs : List (BitVec 256 × BitVec 256 × BitVec 256)) : State :=
  let set := fun (r : Ring) (c : BitVec 256 × BitVec 256 × BitVec 256) =>
    { r with chainIn := c.1, chainSeed := c.2.1, chainOut := c.2.2 }
  let pd := s.paddock p
  if pd.primary then ((s.ringsOf p).zip cs).foldl (fun s x => s.setRing x.1 (set (s.ring x.1) x.2)) s
  else
    let ks := pd.twin.chains
    s.setPaddock p { pd with twin := { pd.twin with
      chains := (ks.zip cs).map (fun x => (x.1.1, set x.1.2 x.2)) ++ ks.drop cs.length } }

/-- Whether a descriptor's chains are complete up to it: those consumed before it on its ring, and the ones of the paddock that run
one at a time, have completed (R372, R374). -/
def State.chainsReady (s : State) (d : Desc) : Bool :=
  !s.descs.any (fun x => decide (x.id < d.id) && x.paddock == d.paddock && !x.completed
    && (x.sameRing d || serialOpcode x.opcode))

/-- CHECKPOINT: the bytes written are free within the space reserved (log entry 59). -/
def execCheckpoint (id : Nat) (s : State) : Host.Outcome State Fault Refusal :=
  descWork id 0x0050 s (fun d s =>
    let p := d.paddock
    let pd := s.paddock p
    if !pd.inShare true (d.nat 16 8) (d.nat 24 8) then some (s.finishDesc id 0x0200 0)
    else if !s.chainsReady d then none
    else
      let c : Checkpoint := {
        chains := (s.chainsOf p).map (fun r => (r.chainIn, r.chainSeed, r.chainOut))
        tiles := (s.listedTiles p).map (fun k => (k, (s.tile k).mem))
        barriers := (s.regionsOf p).map (fun r => (r, (s.region r).barriers))
        wafer := pd.wafer.objs
        sessions := pd.sessions }
      let n := s.fresh.toNat % (d.nat 24 8 + 1)
      some ((s.setPaddock p { pd with checkpoints := insertAt pd.checkpoints (d.nat 16 8) c }).finishDesc id 0
        (BitVec.ofNat 64 n)))

/-- RESTORE. -/
def execRestore (id : Nat) (s : State) : Host.Outcome State Fault Refusal :=
  descWork id 0x0051 s (fun d s =>
    let p := d.paddock
    match look (s.paddock p).checkpoints (d.nat 16 8) with
    | none => some (s.finishDesc id 0x0200 0)
    | some c =>
      if !s.chainsReady d then none
      else
      let s := s.setChains p c.chains
      let s := (s.listedTiles p).foldl (fun s k => s.onTile k (fun t => { t with mem := (look c.tiles k).getD [] })) s
      let s := c.tiles.foldl (fun s kv => s.onTile kv.1 (fun t => { t with mem := kv.2 })) s
      let s := c.barriers.foldl (fun s kv => s.onRegion kv.1 (fun g => { g with barriers := kv.2 })) s
      let s := s.onPaddock p (fun pd => { pd with
        wafer := { pd.wafer with objs := c.wafer }
        sessions := c.sessions
        seals := { pd.seals with restored := true, restores := pd.seals.restores + 1 } })
      some (s.finishDesc id 0 0))

/-! ### SEAL_ISSUE (12, R377 to R382) -/

/-- The combined chain of a paddock (R381). -/
def State.combined (s : State) (p : Nat) (f : Ring → BitVec 256) : List (BitVec 8) :=
  let ns := s.ringsOf p
  sha256 (bytesLE 1 ns.length ++ (((List.range ns.length).zip ns).map (fun x =>
    bytesLE 1 x.1 ++ bytesLE 32 (f (s.ring x.2)).toNat)).flatten)

/-- Bytes 0 to 383 of a seal record (Table 12.4). -/
def State.sealBody (s : State) (d : Desc) (debug : Bool) (profile serial : Nat) : List (BitVec 8) :=
  let p := d.paddock
  let pd := s.paddock p
  let x := pd.seals
  let bit := fun (b : Bool) n => if b then 2 ^ n else 0
  let flags := bit debug 0 + bit x.unsealedIn 1 + bit x.unsealedOut 2 + bit x.replayed 3 + bit x.restored 4
    + bit x.takeover 5 + bit x.stretched 6
  let img : Option Image := pd.image
  let chains := s.combined p Ring.chainIn ++ s.combined p Ring.chainSeed ++ s.combined p Ring.chainOut
  let image := bytesLE 32 ((img.map (fun (i : Image) => i.digest)).getD 0).toNat
    ++ (img.map (fun (i : Image) => (i.header.drop 56).take 32)).getD (List.replicate 32 0)
  bytesLE 2 1 ++ bytesLE 1 flags ++ bytesLE 1 profile ++ bytesLE 2 (d.status.getD 0) ++ bytesLE 1 p ++ bytesLE 1 d.ring
    ++ bytesLE 8 serial ++ bytesLE 8 x.spanStart.toNat ++ bytesLE 8 (d.count.getD pd.paceCount).toNat
    ++ bytesLE 8 s.refCount.toNat ++ bytesLE 8 (x.sequence.toNat + 1) ++ image ++ chains
    ++ sha256 (bytesLE 1 profile ++ image ++ chains) ++ s.firmwareDigest ++ s.patinaDigest
    ++ bytesLE 4 x.replays ++ bytesLE 2 x.restores ++ bytesLE 2 x.takeovers ++ bytesLE 8 x.held
    ++ (d.bytes.drop 4).take 4 ++ List.replicate 60 0

end Sys2Proof.Machine
end

