-- ==== Sys2Proof/Machine/Pose.lean ====
section
/-! DEFINITION. Poses: the pose instructions, switches, starts, loads, tile reset, steering, and the tally engine
(08; 03, R104, R118; 13, R391). -/

namespace Sys2Proof.Machine

/-- The state of a pose slot. -/
def Tile.slot (t : Tile) (i : Nat) : SlotState := getD .empty t.slots i

/-- The tile with a slot's state replaced. -/
def Tile.setSlot (t : Tile) (i : Nat) (x : SlotState) : Tile := { t with slots := putD .empty t.slots i x }

/-! ## Pose instructions (Table 8.3) -/

/-- pose.switch (R259, R261): a pending pace switch is kept and the program's slot ignored. -/
def execPoseSwitchInsn (k : TileIx) (f : QFields) (s : State) : Host.Outcome State Fault Refusal :=
  issue k (.poseSwitchInsn k f) [] s (fun t =>
    let slot := f.qs.toNat
    if f.rd ≠ 0 ∨ f.rs1 ≠ 0 ∨ f.flags ≠ 0 then .fault 0 0x01 0
    else if 16 ≤ slot then .fault 3 0x71 0
    else if t.slot slot = .empty then .fault 3 0x70 0
    else
      .retire { t with
        ended := true
        pendingSwitch := match t.pendingSwitch with
          | some p => if p.fromPace then some p else some { slot := slot, fromPace := false }
          | none => some { slot := slot, fromPace := false } })

/-- pose.yield (R258). -/
def execPoseYield (k : TileIx) (f : QFields) (s : State) : Host.Outcome State Fault Refusal :=
  issue k (.poseYield k f) [] s (fun t =>
    if f.rd ≠ 0 ∨ f.rs1 ≠ 0 ∨ f.qs ≠ 0 ∨ f.flags ≠ 0 then .fault 0 0x01 0
    else .retire { t with ended := true })

/-- pose.id: the slot in force, unmarked. -/
def execPoseId (k : TileIx) (f : QFields) (s : State) : Host.Outcome State Fault Refusal :=
  issue k (.poseId k f) [] s (fun t =>
    if f.rs1 ≠ 0 ∨ f.qs ≠ 0 ∨ f.flags ≠ 0 then .fault 0 0x01 0
    else .retire (t.setReg f.rd { val := match t.inForce with | some p => BitVec.ofNat 64 p | none => s.fresh }))

/-! ## Switches (R260 to R263) -/

/-- The words of the descriptor in a slot. -/
def Tile.descriptor (t : Tile) (slot : Nat) : List (BitVec 64) := (List.range 64).map (t.descWord slot)

/-- The switch sequence of Table 8.4 into a slot. -/
def Tile.switchTo (t : Tile) (slot : Nat) : Tile :=
  let d := t.descriptor slot
  let t1 := match t.inForce with
    | some p => t.setSlot p .resident
    | none => t
  { ((t1.setSlot slot .inForce).countIdx (0x120 + 4 * slot + 3) 1) with
    inForce := some slot
    pendingSwitch := none
    ended := false
    parked := false
    wait := .none
    selectLast := 31
    plumbMode := plumbOf d
    opIndex := 0
    aBufs := []
    bBufs := []
    shape := bitOf (descAt d 0) 32
    pc := BitVec.ofNat 18 (descEntry d) }

/-- Whether the matrix unit and the vector engine have completed every instruction (R260). -/
def Tile.unitsDone (t : Tile) : Bool := t.mxQueue.isEmpty && t.vxQueue.isEmpty

/-- Whether a load into a slot is in progress. -/
def Tile.loading (t : Tile) (slot : Nat) : Bool :=
  match t.loadRun with | some r => r.req.slot == slot | none => false

/-- POSE_SWITCH_RUN: a pending switch that is due runs. -/
def execPoseSwitchRun (k : TileIx) (s : State) : Host.Outcome State Fault Refusal :=
  engine k s (fun t =>
    match t.pendingSwitch with
    | none => none
    | some p =>
      if t.ended && !t.parked && t.unitsDone && !t.loading p.slot && t.slot p.slot != .empty then some (t.switchTo p.slot)
      else none)

/-- A write of PD_TILE_MODE.mode and PD_PROT_TOP.top by the region controller (R104, Table 3.10). -/
def Tile.setMode (t : Tile) (service : Bool) (top : BitVec 6) : Tile :=
  { t with service := service, protTop := if top.toNat ≤ 48 then top else t.protTop }

/-- POSE_START (R263): mode and protected top are written, then the tile switches into the slot. -/
def execPoseStart (k : TileIx) (slot : BitVec 4) (service : Bool) (top : BitVec 6) (s : State) :
    Host.Outcome State Fault Refusal :=
  engine k s (fun t =>
    if t.parked && t.unitsDone && t.slot slot.toNat != .empty && !t.loading slot.toNat then
      some { (t.setMode service top).switchTo slot.toNat with stopped := false, stuckAt := none }
    else none)

/-- TILE_MODE_WRITE (R104): any other write has no effect and is recorded. -/
def execTileModeWrite (k : TileIx) (byController service : Bool) (top : BitVec 6) (s : State) :
    Host.Outcome State Fault Refusal :=
  if !s.present k then turnedAway s
  else
    .next (s.onTile k (fun t =>
      if byController && t.parked then t.setMode service top
      else t.raise (s.tileNote k 0x0600 (BitVec.ofNat 64 0x2)))).bump

/-- What a tile reset leaves (R109, R118): TILE registers, local memory and pose store; the router's tables, its
programmed gather entries and what the tile has sent or still waits for are not of domain TILE. -/
def Tile.afterReset (t : Tile) : Tile :=
  { Tile.reset with
    deadPorts := t.deadPorts
    detourA := t.detourA
    detourB := t.detourB
    leaves := t.leaves
    nodes := t.nodes
    nextRef := t.nextRef
    raised := t.raised
    inject := t.inject }

/-- TILE_RESET. -/
def execTileReset (k : TileIx) (s : State) : Host.Outcome State Fault Refusal :=
  if s.present k then .next (s.onTile k Tile.afterReset).bump else turnedAway s

/-! ## Loads (R265 to R269) -/

/-- A refused load (R269): counted. -/
def Tile.refuseLoad (t : Tile) : Tile := t.count 18 1

/-- A switch that waited for a load in progress, now refused, is dropped and counted (R261). -/
def Tile.dropSwitch (t : Tile) (slot : Nat) : Tile :=
  match t.pendingSwitch with
  | some p => if p.slot = slot then { t.count 17 1 with pendingSwitch := none } else t
  | none => t

/-- The completion barrier of a refused load remembered by the region (R269). -/
def State.noteRefusedLoad (s : State) (k barrier : Nat) : State :=
  s.onRegion (regionOfTile k) (fun g =>
    if g.refusedLoads.contains barrier then g else { g with refusedLoads := g.refusedLoads ++ [barrier] })

/-- The 64 words at a load's source (R265), and the state after they are read. -/
def State.loadSource (s : State) (k : Nat) (q : PoseLoadReq) : List PWord × State :=
  if q.near then
    let off := q.source + 512 * q.rank
    let p := s.ownerOf k
    (s.shareWords p false off 64, (s.touchShare p false off 512).countRead p false off 512)
  else
    let t := s.tile k
    (t.words (q.source / 8) 64, s.setTile k (s.touchAll k t (rangeFrom (q.source / 8) 64)))

/-- POSE_LOAD_START: the next queued load is accepted or refused (R265 to R268). -/
def execPoseLoadStart (k : TileIx) (s : State) : Host.Outcome State Fault Refusal :=
  let t := s.tile k
  if !(s.present k && s.clocked (regionOfTile k)) || t.loadRun.isSome then turnedAway s
  else match t.loadQueue with
    | [] => turnedAway s
    | q :: rest =>
      if q.near && s.shareLocked (s.ownerOf k) false (q.source + 512 * q.rank) 512 then turnedAway s
      else
        let part := t.partition q.slot
        let busy := t.slot q.slot = .inForce
          ∨ (!q.force && part.any (fun i => !(t.queue i).items.isEmpty))
        let t1 := { t with loadQueue := rest }
        if busy then .next ((s.setTile k t1.refuseLoad).noteRefusedLoad k q.barrier).bump
        else
          let (t2, n) := if q.force then t1.emptyQueues part else (t1, 0)
          let t3 := (t2.closePartition part true).count 19 n
          let (ws, s') := (s.setTile k t3).loadSource k q
          .next (s'.onTile k (fun t => { t with loadRun := some { req := q, words := ws, discarded := n } })).bump

/-- A load that discarded messages posts one event (R267; log entry 142). -/
def State.postDiscard (s : State) (k slot n : Nat) (t : Tile) : Tile :=
  if n = 0 then t else t.raise (s.tileReport k 0x0003 0x0602 clsNote (BitVec.ofNat 64 (slot + n * 2 ^ 8)) 0)

/-- POSE_LOAD_DONE: the checks of R257, R268 and R270, then the install; a poisoned source ends the job (R269). -/
def execPoseLoadDone (k : TileIx) (s : State) : Host.Outcome State Fault Refusal :=
  let t := s.tile k
  if !(s.present k && s.clocked (regionOfTile k)) then turnedAway s
  else match t.loadRun with
    | none => turnedAway s
    | some r =>
      let slot := r.req.slot
      let d := r.words.map PWord.val
      let bad := r.words.any PWord.poison
      let part := t.partition slot
      let shared := t.disables d
      let ok := !bad && descValid t.protTop.toNat slot d && t.ringCheck slot d
        && (r.req.force || shared.all (fun q => (t.queue q).items.isEmpty))
      let t0 := { t with loadRun := none }
      if !ok then
        let t1 := s.postDiscard k slot r.discarded
          (part.foldl (fun t q => s.noticeAll k t q) ((t0.closePartition part false).refuseLoad.dropSwitch slot))
        let t2 := if bad then
            t1.raise { s.tileReport k 0x0003 0x0102 clsUE (BitVec.ofNat 64 r.req.source) 0 with poison := true }
          else t1
        .next ((s.setTile k t2).noteRefusedLoad k r.req.barrier).bump
      else
        let (t1, n) := t0.emptyQueues shared
        let t2 := s.postDiscard k slot (r.discarded + n) ((t1.count 19 n).installQueues slot d)
        let t3 := (List.range 64).foldl (fun t i =>
          { t with poseMem := putD {} t.poseMem (64 * slot + i) (MWord.ofP { val := descAt d i }) }) t2
        let t4 := (part ++ shared).foldl (fun t q => s.noticeAll k t q) (t3.setSlot slot .resident)
        let w : BitVec 64 := BitVec.ofNat 64 (regionOfTile k * 2 ^ 8 + r.req.barrier)
        .next (s.setTile k (t4.send (s.signalPacket k 2 w 1))).bump

/-! ## Steering (R273 to R275) -/

/-- Whether both queues of a rule hold a message. -/
def Tile.steerReady (t : Tile) (r : BitVec 64) : Bool :=
  bitOf r 63 && (t.queue (field r 0 5)).headItem.isSome && (t.queue (field r 5 5)).headItem.isSome

/-- A pair that forwards nothing: both heads are released, and for a drop the rule's counter counts. -/
def State.steerEnd (s : State) (k : Nat) (t : Tile) (r : BitVec 64) : Tile :=
  s.release k (s.release k t (field r 0 5)) (field r 5 5)

/-- A pair of a rule (R274); `none` where it waits for the outbound buffer. -/
def State.steerPair (s : State) (k : Nat) (t : Tile) (i : Nat) (r : BitVec 64) : Option Tile :=
  let cq := t.queue (field r 0 5)
  let dq := t.queue (field r 5 5)
  match cq.headItem, dq.headItem with
  | some c, some d =>
    let w := ringWord cq c.slot 1
    let ctrl := t.word w
    let tag := field ctrl.val 32 16
    let t := s.touch k t w
    if ctrl.poison then
      some ((s.steerEnd k t r).raise { s.tileReport k 0x0003 0x0102 clsUE (BitVec.ofNat 64 (8 * w)) 0 with poison := true })
    else if 2 ^ 15 ≤ tag then some ((s.steerEnd k t r).countIdx (0x103 + 4 * i) 1)
    else if field r 40 4 + 1 ≤ tag % 16 then
      some (((s.steerEnd k t r).countIdx (0x103 + 4 * i) 1).raise
        (s.tileReport k 0x0003 0x0603 clsNote (BitVec.ofNat 64 i) 0))
    else if 8 ≤ t.outbound.length then none
    else
      let dw := ringWord dq d.slot 0
      let ws := t.words dw (2 * d.slots)
      let t := s.touchAll k t (rangeFrom dw (2 * d.slots))
      let t := t.addOutbound (t.destination (field r 48 4 + tag % 16)) (d.slots == 2) ws false false
      some (s.steerEnd k t r)
  | _, _ => none

/-- STEER_FIRE: the lowest ready rule of the pose in force; a parked tile fires none (R264). -/
def execSteerFire (k : TileIx) (s : State) : Host.Outcome State Fault Refusal :=
  engine k s (fun t =>
    if t.parked || t.stopped then none
    else
      match ((List.range 8).zip t.steerRules).find? (fun x => t.steerReady x.2) with
      | none => none
      | some (i, r) => s.steerPair k t i r)

/-! ## The tally engine (13, R391) -/

/-- An increment added to a word of the table: exact, or poisoned beyond INT64 or by poison; one into the protected
area is discarded and recorded (03, R115). -/
def State.tallyAdd (s : State) (k : Nat) (t : Tile) (w : Nat) (inc : PWord) (bad : Bool) : Tile :=
  let old := t.word w
  let t := s.touch k t w
  let sum := signedOf 64 old.val.toNat + signedOf 64 inc.val.toNat
  let out := sum < -(2 ^ 63 : Int) ∨ (2 ^ 63 : Int) ≤ sum
  if t.protects (8 * w) 8 then t.raise (s.tileReport k 0x0003 0x0600 clsNote (BitVec.ofNat 64 (8 * w)) 0)
  else if bad || inc.poison || old.poison then t.putWord w { poison := true }
  else if out then
    (t.putWord w { poison := true }).raise (s.tileReport k 0x0003 0x0604 clsNote (BitVec.ofNat 64 (8 * w)) 0)
  else t.putWord w { val := BitVec.ofInt 64 sum }

/-- The answer that a processed tally message owes (R391). -/
def State.tallyAnswer (s : State) (k : Nat) (t : Tile) (owed : Option (Nat × Nat)) : Tile :=
  match owed with
  | none => t
  | some (x, ref) =>
    if x = k then s.takeAnswer k t ref 0 false
    else t.send { s.packetOf k .msgAnswer 0 (tileX x, tileY x) with tag := { ref := ref } }

/-- TALLY_APPLY (a message with a poisoned flit poisons the word that its cell, as it stands, names; log entry 45): the head message of the tally queue is applied, released and answered (R391); a queue engine that has stopped
releases nothing (R238). -/
def execTallyApply (k : TileIx) (s : State) : Host.Outcome State Fault Refusal :=
  engine k s (fun t =>
    match s.tallyQueue k t, t.tally with
    | some q, some ctx =>
      match if t.stopped then none else (t.queue q).headItem with
      | none => none
      | some item =>
        let d := s.paddock (s.ownerOf k)
        let decl := (d.tallyDecl ctx.decl).getD { group := 0, queue := 0, enable := false, cpo := 0, table := 0, prot := 0, shadow := 0 }
        let w := ringWord (t.queue q) item.slot 0
        let ws := t.words w 4
        let t0 := s.touchAll k t (rangeFrom w 4)
        let c := signedOf 64 (ws.getD 0 {}).val.toNat
        let i := c - (ctx.base : Int) - ((d.groupRank decl.group k * decl.cpo : Nat) : Int)
        let bad := [0, 1, 3].any (fun j => (ws.getD j {}).poison)
        let t1 :=
          if i < 0 ∨ (decl.cpo : Int) ≤ i then
            let sender := match item.owed with | some (x, _) => x | none => k
            (t0.count 22 1).raise { s.tileReport k 0x0003 0x0606 clsNote (BitVec.ofInt 64 c) 0 with
              x := BitVec.ofNat 10 (tileX sender), y := BitVec.ofNat 10 (tileY sender) }
          else (s.tallyAdd k t0 (decl.table / 8 + i.toNat) (ws.getD 2 {}) bad).count 21 1
        some (s.tallyAnswer k (s.release k t1 q) item.owed)
    | _, _ => none)

end Sys2Proof.Machine
end

