-- ==== Sys2Proof/Machine/Image.lean ====
section
/-! DEFINITION. Loading and unloading a program image, creating and destroying a paddock, and BUDGET_SET (14, R435 to R438;
01, R35, R42 to R45; 10, R318 to R321; 15, R459; 17, R514, R522). -/

namespace Sys2Proof.Machine

/-! ## Installing a placement (R438, R514, R263) -/

/-- The default thresholds 0, 1, 3 and 7 (20, R589). -/
def defaultThresholds : BitVec 64 := BitVec.ofNat 64 (2 ^ 16 + 3 * 2 ^ 32 + 7 * 2 ^ 48)

/-- The thresholds that an image gives a tile. -/
def Image.tileThresholds (i : Image) (pl k : Nat) : Map (BitVec 64) :=
  let own := (i.thresholds pl (regionOfTile k)).filter (fun x => rectHolds x.1 (tileX k) (tileY k))
  let base := (List.range 36).foldl (fun m n => putD 0 m n defaultThresholds) []
  own.foldl (fun m x => putD 0 m x.2.1 (thresholdFields x.2.2)) base

/-- A descriptor that LOAD_IMAGE installs in a slot: its words, its enabled queue map entries, the slot RESIDENT; what one enables
no other disables (07, R217; log entry 143). -/
def Tile.installDescriptor (t : Tile) (slot : Nat) (d : List (BitVec 64)) : Tile :=
  let t := (descEnabled d).foldl (fun t x => t.setQueue x.1 { t.queue x.1 with entry := x.2 }) t
  { (List.range 64).foldl (fun (t : Tile) n =>
      { t with poseMem := putD {} t.poseMem (64 * slot + n) (MWord.ofP { val := descAt d n }) }) t with
    slots := putD .empty t.slots slot .resident }

/-- A RESIDENT or CARRY range copied into a tile from the near tier (R514). -/
def State.loadRange (s : State) (p : Nat) (i : Image) (k : Nat) (m : MemRange) : State :=
  if m.kind = 2 then s
  else
    let off := (if m.kind = 0 then i.base else 0) + m.source + rectRank m.rect k * m.stride
    let ws := s.shareWords p false off (m.len / 8)
    ((s.touchShare p false off m.len).countRead p false off m.len).onTile k (fun t => t.putWords (m.loc / 8) ws)

/-- A tile's memory, descriptors and thresholds as an image gives them, from a tile reset; the tile is parked. -/
def State.prepareTile (s : State) (p : Nat) (i : Image) (pl k : Nat) : State :=
  let s := s.onTile k (fun t =>
    let t := { (t.afterReset).setMode false (BitVec.ofNat 6 (i.topOf pl k)) with thresholds := i.tileThresholds pl k }
    (i.tileDescs pl k).foldl (fun t x => t.installDescriptor x.1 x.2) t)
  ((i.ranges pl (regionOfTile k)).filter (fun m => rectHolds m.rect (tileX k) (tileY k))).foldl
    (fun s m => s.loadRange p i k m) s

/-- A tile started in a slot (R263): nothing is started in an EMPTY slot. -/
def Tile.startIn (t : Tile) (slot : Nat) : Tile :=
  if t.slot slot = .empty then t else { t.switchTo slot with stopped := false, stuckAt := none }

/-- A tile started in the start slot of its set-up record. -/
def Image.startTile (i : Image) (pl k : Nat) (t : Tile) : Tile :=
  match i.setupOf pl k with
  | some (_, slot) => t.startIn slot
  | none => t

/-- The pace tables and barrier objects of a region as a placement gives them. -/
def Image.installRegion (i : Image) (pl r : Nat) (g : Region) : Region :=
  let store := i.store pl r
  let dir := i.dir pl r
  { g with
    dir := ((List.range 16).zip dir).foldl (fun m x => putD 0 m x.1 x.2) []
    store := (List.range store.length).zip store
    barriers := objectMap (wordsOf (i.sec pl 3 r))
    marked := objectMap (wordsOf (i.sec pl 3 r))
    due := []
    deadlines := []
    refusedLoads := []
    factors := [] }

/-- A paddock's declarations as a placement gives them. -/
def Image.installPaddock (i : Image) (pl : Nat) (free : List Nat) (d : Paddock) : Paddock :=
  let objs := objectMap (wordsOf ((i.sec pl 0x14 31).drop 8))
  let rm := i.remounts pl
  let ts := i.tallies pl
  { d with
    image := some i
    wafer := { count := i.waferCount pl, nums := free.take (i.waferCount pl), objs := objs, marked := objs }
    channels := i.channels pl
    reins := i.reins pl
    trees := i.trees pl
    groups := i.groups pl
    tallies := (List.range ts.length).zip ts
    mirrors := i.mirrorRanges pl
    window := rm.map Prod.fst
    remount := { groups := (rm.map (fun x => x.2.1)).getD [], layers := (rm.map (fun x => x.2.2)).getD [] }
    excluded := if pl = 0 then none else some (pl - 1)
    lastRun := none }

/-- Every region controller and tile of a paddock set up for a placement (Table 1.9, steps 3 and 4); a standby's tiles stay
parked (18, R538). -/
def State.install (s : State) (p : Nat) (i : Image) (pl : Nat) : State :=
  let s := s.onPaddock p (i.installPaddock pl (s.freeWafer p))
  let s := (i.regionsIn pl).foldl (fun s r => s.onRegion r (i.installRegion pl r)) s
  let ks := (s.paddockTiles p).filter (fun k => (i.regionsIn pl).contains (regionOfTile k))
  let s := ks.foldl (fun s k => s.prepareTile p i pl k) s
  if (s.paddock p).pairMode == 2 && !(s.paddock p).primary then s
  else ks.foldl (fun s k => s.onTile k (i.startTile pl k)) s

/-- The far copy of a mirror range written from the near one (R329). -/
def State.writeMirror (s : State) (p : Nat) (m : Nat × Nat × Nat) : State :=
  (spans4k (m.2.2 / 4096 + 1) 0 m.2.2).foldl (fun s x =>
    let bs := s.shareBytes p false (m.1 + x.1) x.2
    match (s.paddock p).shareAddr true (m.2.1 + x.1) with
    | some a => s.writeTier true a bs
    | none => s) s

/-! ## LOAD_IMAGE (R437) -/

/-- An image read from its bytes, its sections and its placement in the near tier. -/
def readImage (raw : List (BitVec 8)) (base length : Nat) (shared : Option Nat) : Image :=
  { header := raw.take 256
    sections := ((List.range (descNat raw 88 4)).map (fun n => (dirEntryAt raw n).section))
    digest := digestNat ((raw.drop 24).take 32), base := base, length := length, shared := shared }

/-- The checks of header, directory and digests; `shared` for a plan image, whose image digest is not computed. -/
def imageBytesOk (raw : List (BitVec 8)) (rect : Nat × Nat × Nat × Nat) (length : Nat) (shared : Bool) : Bool :=
  headerOk raw rect length shared
    && (let es := (List.range (descNat raw 88 4)).map (dirEntryAt raw)
        decide (256 + 16 * es.length ≤ raw.length) && directoryOk es (rectRegions rect)
          && (shared || sha256 (raw.drop 256) == (raw.drop 24).take 32)
          && (!shared || es.all (fun e => e.plan))
          && sha256 ((es.filter (fun e => e.plan)).map DirEntry.body).flatten == (raw.drop 56).take 32)

/-- The rectangle of a paddock in regions. -/
def Paddock.rect (d : Paddock) : Nat × Nat × Nat × Nat := (d.rx0, d.ry0, d.w, d.h)

/-- The default factors of the energy estimates as PW_PLAN holds them, taken at a load (15, Table 15.11). -/
def State.takeFactors (s : State) (p : Nat) : State :=
  let v := s.frameReg 0x00200010 0x0000320028202000
  s.onPaddock p (fun d => { d with factorLatency := field v 8 8, factorNormal := field v 16 8, factorBackground := field v 24 8 })

/-- What the paddock gives up when its image leaves: wafer objects, reins, channels, declarations, expert slots. -/
def Paddock.dropImage (d : Paddock) : Paddock :=
  { d with image := none, wafer := {}, channels := [], reins := [], trees := [], groups := [], tallies := [], mirrors := []
           window := none, remount := {}, excluded := none, lastRun := none
           nearUnits := (List.range d.nearUnits.length).map (fun u =>
             match d.kept.find? (fun x => x.1 == u) with | some x => x.2 | none => d.nearUnits.getD u 0)
           kept := [] }

/-- The near-tier units that hold an image's bytes. -/
def Image.tierUnits (i : Image) (d : Paddock) : List Nat :=
  (rangeFrom (i.base / 2 ^ 30) ((i.base + i.length + 2 ^ 30 - 1) / 2 ^ 30 - i.base / 2 ^ 30)).filterMap (fun u => d.nearUnits[u]?)

/-- One paddock fewer maps the units of its image; with the last, their image key is erased (R321). -/
def State.unmapImage (s : State) (p : Nat) : State :=
  match (s.paddock p).image with
  | none => s
  | some i =>
    let t := s.near
    let fewer := fun (t : Tier) (u : Nat) =>
      match look t.shared u with
      | some n => if n ≤ 1 then { t.loseKey u with shared := drop t.shared u }
        else { t with shared := insertAt (drop t.shared u) u (n - 1) }
      | none => t
    { s with near := (i.tierUnits (s.paddock p)).foldl fewer t }

/-- A paddock gives up its image before the next is written. -/
def State.leaveImage (s : State) (p : Nat) : State := (s.unmapImage p).onPaddock p Paddock.dropImage

/-- A checked image written and installed: `bytes` with their poison go to the near tier, then both mirror copies. -/
def State.loadInto (s : State) (d : Desc) (i : Image) (bytes : List (Nat × Bool)) : State :=
  let p := d.paddock
  let pl := (s.placementFor i).getD 0
  let s := s.writeShare p false i.base bytes
  let s := (i.mirrorRanges pl).foldl (fun s m => s.writeMirror p m) s
  ((s.takeFactors p).install p i pl).finishDesc d.id 0 (BitVec.ofNat 64 i.length)

/-- LOAD_IMAGE from host memory or the far tier. -/
def execLoadImage (id : Nat) (s : State) : Host.Outcome State Fault Refusal :=
  descWork id 0x0020 s (fun d s =>
    let p := d.paddock
    let pd := s.paddock p
    let source := d.nat 8 1
    let len := d.nat 16 8
    let base := d.nat 32 8
    if source = 2 || pd.current.isSome then none
    else if !pd.inShare false base len || (source = 1 && !pd.inShare true (d.nat 24 8) len) then some (s.finishDesc id 0x0200 0)
    else if (source = 1 && s.shareLocked p true (d.nat 24 8) len) || (source = 0 && !(d.hostReady len && s.stagingTurn d)) then none
    else
      let bytes := if source = 0 then s.hostFor d (d.nat 24 8) len else s.shareBytes p true (d.nat 24 8) len
      let s := if source = 0 then s.forwardStaged d bytes else s
      let s := if source = 0 then s else (s.touchShare p true (d.nat 24 8) len).countRead p true (d.nat 24 8) len
      let raw := bytes.map (fun b => BitVec.ofNat 8 b.1)
      let s := s.chain id 0x0001 (loadRecord raw d)
      if !imageBytesOk raw pd.rect len false then some (s.finishDesc id 0x0200 0)
      else
        let i := readImage raw base len none
        match s.imageRefused p i raw with
        | some st => some (s.finishDesc id st 0)
        | none => some ((s.leaveImage p).loadInto d i bytes))

/-! ## Shared loads (R321, R437) -/

/-- Whether the units of a source image can stand in a share at an offset: the same place in their units, share units
that exist, and the class of R318 (log entry 66). -/
def mayMap (source pd : Paddock) (i : Image) (base : Nat) : Bool :=
  let us := i.tierUnits source
  base % 2 ^ 30 == i.base % 2 ^ 30 && decide (base / 2 ^ 30 + us.length ≤ pd.nearUnits.length)
    && ((List.range us.length).zip us).all (fun x => x.2 % 3 == (base / 2 ^ 30 + x.1) % 3)

/-- The units of a source image mapped into a share; the share's own units are kept for the unload. The first
shared load of an image gives them its key (R321). -/
def State.mapImage (s : State) (p : Nat) (source : Paddock) (i : Image) (base : Nat) : State :=
  let us := i.tierUnits source
  let u0 := base / 2 ^ 30
  let t := s.near
  let s := { s with near := { t with
    shared := us.foldl (fun m u => insertAt (drop m u) u ((look m u).getD 1 + 1)) t.shared
    imageKeys := us.foldl (fun m u => if (look m u).isSome then m else insertAt m u (s.randomKey 920)) t.imageKeys } }
  s.onPaddock p (fun d => { d with
    kept := (List.range us.length).map (fun n => (u0 + n, d.nearUnits.getD (u0 + n) 0))
    nearUnits := (List.range d.nearUnits.length).map (fun n =>
      if u0 ≤ n ∧ n < u0 + us.length then us.getD (n - u0) 0 else d.nearUnits.getD n 0) })

/-- LOAD_IMAGE_SHARED: a plan image over the image of another paddock. -/
def execLoadImageShared (id : Nat) (s : State) : Host.Outcome State Fault Refusal :=
  descWork id 0x0020 s (fun d s =>
    let p := d.paddock
    let pd := s.paddock p
    let len := d.nat 16 8
    let base := d.nat 32 8
    let src := s.paddock (d.nat 9 1)
    if d.nat 8 1 ≠ 2 || pd.current.isSome || !(d.hostReady len && s.stagingTurn d) then none
    else
      let plan := s.hostFor d (d.nat 24 8) len
      let s := s.forwardStaged d plan
      let raw := plan.map (fun b => BitVec.ofNat 8 b.1)
      let s := s.chain id 0x0001 (loadRecord raw d)
      match src.image with
      | none => some (s.finishDesc id 0x0200 0)
      | some i0 =>
        let i := { readImage raw base i0.length (some (d.nat 9 1)) with
          sections := (readImage raw base i0.length none).sections ++ i0.sections.filter (fun x => x.kind == 8) }
        let content := (s.shareBytes (d.nat 9 1) false i0.base i0.length).map (fun b => BitVec.ofNat 8 b.1)
        if !imageBytesOk raw pd.rect len true || i.digest != i0.digest || d.nat 9 1 = p || !mayMap src pd i0 base then
          some (s.finishDesc id 0x0200 0)
        else match s.imageRefused p i content with
          | some st => some (s.finishDesc id st 0)
          | none =>
            some (((s.leaveImage p).mapImage p src i0 base).loadInto d i []))

/-- UNLOAD_IMAGE: the image's allotments return, and a job that has ended is over (R441). -/
def execUnloadImage (id : Nat) (s : State) : Host.Outcome State Fault Refusal :=
  descWork id 0x0021 s (fun d s =>
    let p := d.paddock
    let pd := s.paddock p
    if pd.current.isSome then none
    else if pd.pairMode != 0 then some ((s.chain id 0x0002 pd.imageDigest).finishDesc id 0x0200 0)
    else
      let s := (s.unmapImage p).onPaddock p (fun d => { d.dropImage with ended := none })
      some ((s.chain id 0x0002 pd.imageDigest).finishDesc id 0 0))

/-! ## Paddocks (R42 to R45, R318, R320, R435) -/

/-- The tier units that a paddock holds. -/
def State.unitsHeld (s : State) (far : Bool) : List Nat :=
  (s.paddocks.map (fun kv => kv.2.units far ++ (if far then [] else kv.2.kept.map Prod.snd))).flatten

/-- Tier units for the share units from `u` on, lowest first; in the near tier of the class of the share unit (R318). -/
def allotUnits (far : Bool) (total : Nat) : Nat → Nat → List Nat → Option (List Nat)
  | 0, _, _ => some []
  | n + 1, u, held =>
    match (List.range total).find? (fun d => !held.contains d && (far || d % 3 == u % 3)) with
    | none => none
    | some d => (allotUnits far total n (u + 1) (d :: held)).map (d :: ·)

/-- Units of a tier. -/
def tierUnitCount (far : Bool) : Nat := if far then 1536 else 2304

/-- The zero fill of allotted units (R320). -/
def State.zeroUnits (s : State) (far : Bool) (us : List Nat) : State :=
  let t := s.tier far
  s.setTier far { t with
    granules := us.foldl (fun m u => clearRange m (u * 2 ^ 24) ((u + 1) * 2 ^ 24)) t.granules
    rekeyed := us.foldl drop t.rekeyed
    rebuilt := t.rebuilt.filter (fun kv => !us.contains (kv.1 / 32))
    heals := t.heals.filter (fun g => !us.contains (g / 2 ^ 24)) }

/-- R35, R42: the regions that no paddock owns, and with them the stirrup map.

While a paddock exists, every region that none owns lies on a route or holds a home stirrup in use, and is held
in TRANSIT (log entry 67); with none it is GATED. -/
def State.settleTransit (s : State) : State :=
  let any := s.paddocks.any (fun kv => kv.1 != 0 && kv.2.live)
  ((List.range 28).foldl (fun s r =>
    let g := s.region r
    match g.state with
    | .gated => if any && g.owner == 0 then s.setRegion r { g with state := .transit } else s
    | .transit => if !any then s.setRegion r { g with state := .gated } else s
    | _ => s) s).installStirrups

/-- The BAR0 registers of domain PADDOCK held as words: tile host windows, PD_REPAIR_CTRL, PD_COUNTER_USER,
NT_REMOUNT_CTRL. -/
def State.resetPaddockRegs (s : State) (p : Nat) : State :=
  let m := clearRange s.regs ((0x2C000 + 0x80 * p) / 8) ((0x2C000 + 0x80 * (p + 1)) / 8)
  let m := clearRange m ((0x304000 + 0x40 * p) / 8) ((0x304000 + 0x40 * (p + 1)) / 8)
  let m := clearRange m ((0x441100 + 8 * p) / 8) ((0x441100 + 8 * p) / 8 + 1)
  let m := clearRange m ((0x701000 + 0x40 * p) / 8) ((0x701000 + 0x40 * (p + 1)) / 8)
  { s with regs := m, cntWin := clearRange s.cntWin (0x100 * p) (0x100 * (p + 1)) }

/-- The rings of a ring mask at bytes 32 to 63. -/
def ringMask (d : Desc) : List Nat := (List.range 256).filter (fun n => d.nat 32 32 / 2 ^ n % 2 == 1)

/-- R42, R435: whether PADDOCK_CREATE is refused with BAD_DESCRIPTOR. -/
def State.createBad (s : State) (d : Desc) : Bool :=
  let p := d.nat 3 1
  let (rx, ry, w, h) := (d.nat 8 1, d.nat 9 1, d.nat 10 1, d.nat 11 1)
  p == 0 || decide (28 < p) || (s.paddock p).live || w == 0 || h == 0 || decide (4 < rx + w) || decide (7 < ry + h)
    || (rectRegions (rx, ry, w, h)).any (fun r => (s.region r).owner != 0
      || (match (s.region r).state with | .gated | .transit => false | _ => true))
    || (ringMask d).any (fun n => !(s.ring n).enable || (s.ring n).paddock != 0)
    || decide (d.nat 12 2 * 2 ^ 30 < d.nat 24 8 + 2 ^ 29)

/-- A new paddock (R42, R56, R372, R445). -/
def State.newPaddock (s : State) (d : Desc) (near far : List Nat) : Paddock :=
  { live := true, rx0 := d.nat 8 1, ry0 := d.nat 9 1, w := d.nat 10 1, h := d.nat 11 1, nearUnits := near, farUnits := far
    winNear := d.nat 24 8, slotLog := d.nat 16 1, nearKey := s.randomKey 904, farKey := s.randomKey 912 }

/-- A region taken by a paddock: ACTIVE, with empty balances and no learned factor (R42, R456, R461). -/
def Region.activate (g : Region) (p : Nat) : Region :=
  { g with state := .active, owner := p, dir := [], store := [], barriers := [], marked := [], due := [], deadlines := []
           refusedLoads := [], latencyUj := 0, normalUj := 0, backgroundUj := 0, periodUj := (0, 0, 0), planShares := (70, 20, 10), opens := [], digest := 0
           factors := [], unitEnergy := [] }

/-- PADDOCK_CREATE: its tiles are reset (03, R109, R118). -/
def execPaddockCreate (id : Nat) (s : State) : Host.Outcome State Fault Refusal :=
  descWork id 0x0100 s (fun d s =>
    let p := d.nat 3 1
    if s.createBad d then some (s.finishDesc id 0x0200 0)
    else match allotUnits false (tierUnitCount false) (d.nat 12 2) 0 (s.unitsHeld false),
        allotUnits true (tierUnitCount true) (d.nat 14 2) 0 (s.unitsHeld true) with
      | some near, some far =>
        let s := (s.zeroUnits false near).zeroUnits true far
        let s := (s.resetPaddockRegs p).setPaddock p (s.newPaddock d near far)
        let s := (rectRegions (s.newPaddock d near far).rect).foldl (fun s r => s.onRegion r (fun g => g.activate p)) s
        let s := (ringMask d).foldl (fun s n =>
          s.setRing n { s.ring n with paddock := p, chainIn := 0, chainSeed := 0, chainOut := 0 }) s
        let s := s.onTilesOf p (fun _ t => t.afterReset)
        some (s.settleTransit.finishDesc id 0 0)
      | _, _ => some (s.finishDesc id 0x0201 0))

/-- The tile state that R45 zeroises: local memory, pose store, queues, sync objects and the rest of domain TILE, and the
trees armed for the paddock (09, R309). -/
def Tile.zeroise (t : Tile) : Tile := { t.afterReset with leaves := [], nodes := [] }

/-- Whether the tiles of a region of a destroyed paddock are zeroised (R45). -/
def Region.zeroises (g : Region) : Bool :=
  match g.state with | .isolated => !g.controllerFailed | .lost => false | _ => true

/-- A region given up by its paddock. -/
def Region.release (g : Region) : Region :=
  let g := { g with owner := 0, dir := [], store := [], barriers := [], marked := [], due := [], deadlines := []
                    refusedLoads := [], opens := [], unitEnergy := [] }
  match g.state with | .active => { g with state := .gated } | _ => g

/-- A paddock destroyed (R45): its descriptors but `id` complete, what it has in flight is discarded (R19, R33, R44; log entry
128), state is zeroised, keys erased, regions and rings given up. -/
def State.destroyPaddock (s : State) (id p : Nat) : State :=
  let mine := s.descs.filter (fun x => x.paddock == p && x.id != id && !x.completed)
  let s := mine.foldl (fun s x =>
    let x := (s.desc x.id).getD x
    s.completeDesc { x with status := some (x.status.getD 0x0202) } (x.status.getD 0x0202)) s
  let s := s.unmapImage p
  let s := (s.listedTiles p).foldl (fun s k =>
    if (s.region (regionOfTile k)).zeroises then s.onTile k Tile.zeroise else s) s
  let s := s.onRegionsOf p Region.release
  let keys := 2 + (s.paddock p).relKeys.length
  let s := { s with
    bursts := s.bursts.filter (fun b => b.paddock != p)
    net := s.net.filter (fun a => a.paddock != p)
    peerWaits := s.peerWaits.filter (fun w => w.packet.paddock != p)
    rings := (s.rings.map (fun (kv : Nat × Ring) => if kv.2.paddock = p then (kv.1, { kv.2 with paddock := 0 }) else kv)).filter
      (fun kv => decide (kv.2 ≠ ({} : Ring))) }
  ((s.resetPaddockRegs p).setPaddock p {}).settleTransit.cntFrame 23 keys

/-- PADDOCK_DESTROY. -/
def execPaddockDestroy (id : Nat) (s : State) : Host.Outcome State Fault Refusal :=
  descWork id 0x0101 s (fun d s =>
    let p := d.nat 3 1
    if p = 0 || 28 < p || !(s.paddock p).live then some (s.finishDesc id 0x0202 0)
    else if (s.paddock p).pairMode != 0 then some (s.finishDesc id 0x0200 0)
    else some ((s.destroyPaddock id p).finishDesc id 0 0))

/-- BUDGET_SET (15, R459). -/
def execBudgetSet (id : Nat) (s : State) : Host.Outcome State Fault Refusal :=
  descWork id 0x0102 s (fun d s =>
    let p := d.nat 3 1
    let pd := s.paddock p
    let shares := [d.nat 8 1, d.nat 9 1, d.nat 10 1]
    let unusable := (List.range 3).any (fun c => shares.getD c 0 == 0 && (pd.image.map (fun i => i.usesClass c)).getD false)
    if p = 0 || 28 < p || !pd.live then some (s.finishDesc id 0x0202 0)
    else if unusable then some (s.finishDesc id 0x0200 0)
    else
      some ((s.setPaddock p { pd with latency := d.nat 8 1, normal := d.nat 9 1, background := d.nat 10 1 }).finishDesc id 0 0))

end Sys2Proof.Machine
end

