-- ==== Sys2Proof/Machine/PaceRun.lean ====
section
/-! DEFINITION. Strides from open to close: entries of a beat, admission, marks, replay, and what a close commits
(02, R53 to R89; 07, R243, R245; 13, R389, R395; 15, R460 to R463; 17, R514). -/

namespace Sys2Proof.Machine

/-- A sticky bit of PACE_STATUS set. -/
def State.setPaceStatus (s : State) (n : Nat) : State := { s with paceStatus := s.paceStatus ||| BitVec.ofNat 64 (2 ^ n) }

/-- The placement in force: 0 the primary one, k + 1 the fallback without region k. -/
def Paddock.placement (d : Paddock) : Nat := match d.excluded with | some r => r + 1 | none => 0

/-! ## The entries of a beat (R71, R75, R86) -/

/-- The beat of the open stride, of length `len`, at which an entry of the next stride issues (R86). -/
def earlyBeat (len : Nat) (e : PaceEntry) : Nat := ((len : Int) + e.offset).toNat

/-- The entries of a table's own beat; a table without a WINDOW_MARK issues one at beat 0 (R75; log entry 69). -/
def Region.ownEntries (g : Region) (table beat : Nat) : List PaceEntry :=
  let es := g.tableEntries table
  (if beat = 0 ∧ !es.any (fun e => e.action == 0x09) then [{ offset := 0, action := 0x09, target := 0, arg := 0 }] else [])
    ++ es.filter (fun e => decide (e.offset = (beat : Int)))

/-- The entries of the next stride's table that issue at a beat. -/
def Region.earlyEntries (g : Region) (table len beat : Nat) : List PaceEntry :=
  (g.tableEntries table).filter (fun e => decide (e.offset < 0) && earlyBeat len e == beat)

/-- The stride that is pending, its table known (R61, R62, R86). -/
def Paddock.nextStride (d : Paddock) : Option PendingStride :=
  if d.paceSrc = 1 then (if d.pulse then (match d.next with | some n => some n | none => d.lastRun) else none) else d.next

/-- A beat begins: its entries become due, after those carried over. A standby issues only its WINDOW_MARKs (R75; 18, R538). -/
def State.enterBeat (s : State) (p : Nat) : State :=
  let d := s.paddock p
  match d.current with
  | none => s
  | some o =>
    let b := beatOf d.paceCount
    let len := s.tableLength p o.table
    let ahead := match d.nextStride with
      | some n => if (match d.ahead with | some a => decide (a < b) | none => true) then some n.table else none
      | none => none
    let s := if ahead.isSome then s.onPaddock p (fun d => { d with ahead := some b }) else s
    let issued := fun (e : PaceEntry) => !s.standby p || e.action == 0x09
    (s.paceRegions p).foldl (fun s r => s.onRegion r (fun g =>
      let early := match ahead with | some t => g.earlyEntries t len b | none => []
      { g with due := g.due ++ (g.ownEntries o.table b ++ early).filter issued })) s

/-- A stride becomes pending: its early entries whose beat has passed are skipped and counted (R86). -/
def State.notePending (s : State) (p : Nat) : State :=
  let d := s.paddock p
  match d.nextStride with
  | none => s
  | some n =>
    let early := fun (g : Region) => (g.tableEntries n.table).filter (fun e => decide (e.offset < 0))
    match d.current with
    | none => (s.paceRegions p).foldl (fun s r => s.cntRegion r 9 (early (s.region r)).length) s
    | some o =>
      let b := beatOf d.paceCount
      let len := s.tableLength p o.table
      ((s.paceRegions p).foldl (fun s r =>
        s.cntRegion r 9 ((early (s.region r)).filter (fun e => decide (earlyBeat len e ≤ b))).length) s).onPaddock p
        (fun d => { d with ahead := some b })

/-- Whether no entry of a paddock waits to issue. -/
def State.dueDone (s : State) (p : Nat) : Bool := (s.paceRegions p).all (fun r => (s.region r).due.isEmpty)

/-! ## Admission (R53, R460 to R463) -/

/-- m of Table 2.1 and 1000 k(s) of Table 15.3 for a clock step. -/
def stepM (st : Nat) : Nat := [4, 5, 7, 10, 20].getD st 20
def stepK (st : Nat) : Nat := [1000, 700, 500, 360, 260].getD st 260

/-- The default factor of a class, in units of 1/256 (R461). -/
def Paddock.defaultFactor (d : Paddock) (cls : Nat) : Nat :=
  16 * (match cls with | 0 => d.factorLatency | 1 => d.factorNormal | _ => d.factorBackground)

/-- u of R461 for a pose of a class in a region. -/
def Region.factor (g : Region) (d : Paddock) (pose cls : Nat) : Nat :=
  let dflt : Int := d.defaultFactor cls
  match look g.factors pose with
  | none => dflt.toNat
  | some (l, n) => if 64 ≤ n then l else (max (l : Int) (dflt - (dflt - l) * n / 64)).toNat

/-- The estimate of a table in a region at a step, times 256,000, in µJ. -/
def State.estimate (s : State) (p r table st : Nat) : Nat :=
  let d := s.paddock p
  match d.image with
  | none => 0
  | some i => (((i.units d.placement r).filter (fun u => u.table == table)).map (fun u =>
      u.energy * stepK st * (s.region r).factor d u.pose u.cls)).sum

/-- The class of a table (R459). -/
def State.classOf (s : State) (p table : Nat) : Nat :=
  match (s.paddock p).image with
  | none => 0
  | some i => i.tableClass (s.paddock p).placement table

/-- The balance of a class as of the last ledger period. -/
def Region.balance (g : Region) (cls : Nat) : Int :=
  match cls with | 0 => g.periodUj.1 | 1 => g.periodUj.2.1 | _ => g.periodUj.2.2

/-- The percent share of a class that the planner uses: those of the last ledger period, at which new ones take effect (R459). -/
def Region.share (g : Region) (cls : Nat) : Nat :=
  match cls with | 0 => g.planShares.1 | 1 => g.planShares.2.1 | _ => g.planShares.2.2

/-- PACE_CTRL.beat_len. -/
def State.beatLen (s : State) : Nat := field (s.frameReg 0x00010000 8) 0 9

/-- R462: whether a stride of a table fits a region at a step. -/
def State.fits (s : State) (p r table st : Nat) : Bool :=
  let d := s.paddock p
  let g := s.region r
  let cls := s.classOf p table
  let e := s.estimate p r table st
  let dur := s.tableLength p table * s.beatLen * max (stepM st) d.mMin
  decide ((e : Int) * 1000 ≤ 256000000 * g.balance cls + 6400 * (g.capW * g.share cls * dur : Nat))
    && decide (e ≤ 640 * g.capW * dur)

/-- The steps that the planner considers, highest first (R462; log entry 74). -/
def Paddock.steps (d : Paddock) : List Nat :=
  let l := (List.range 5).filter (fun st => decide (d.mMin ≤ stepM st))
  if l.isEmpty then [4] else l

/-- The step at which the planner admits a stride, if it admits it (R462, R463). -/
def State.admittedStep (s : State) (p table : Nat) : Option Nat :=
  let d := s.paddock p
  match d.steps.find? (fun st => (s.paceRegions p).all (fun r => s.fits p r table st)) with
  | some st => some st
  | none => if d.paceSrc = 0 then none else d.steps.getLast?

/-! ## Marks (R83, R245; 10, R340) -/

/-- A checkpoint mark at a beat of the open stride. -/
def State.mark (s : State) (p beat : Nat) : State :=
  let d := s.paddock p
  let c := paceCountOf (strideOf d.paceCount) beat
  let s := s.setPaddock p ({ d with ckptLast := c, wafer := { d.wafer with marked := d.wafer.objs } }.onRemount Remount.mark)
  let s := s.onRegionsOf p (fun g => { g with marked := g.barriers })
  if s.shared p && d.pairMode == 2 && d.primary then s.yokeSend 0x12 p (bytesLE 8 c.toNat) else s

/-! ## Opening a stride -/

/-- A barrier or wafer object at a stride open after stride 0 (R243). -/
def BarrierObj.strideOpen (o : BarrierObj) : BarrierObj :=
  match o.mode with
  | 1 => { o with value := 0 }
  | 2 => { o with target := o.target + BitVec.ofNat 32 o.step }
  | _ => o

/-- Objects at a stride open. -/
def openObjects (m : Map BarrierObj) : Map BarrierObj := m.map (fun kv => (kv.1, kv.2.strideOpen))

/-- The host windows of a paddock as its registers state them (14, R620): base, length, read, write. -/
def State.hostWindows (s : State) (p : Nat) : List (Nat × Nat × Bool × Bool) :=
  (List.range 8).filterMap (fun k =>
    let w := s.frameReg (0x0002C000 + 0x80 * p + 0x10 * k) 0
    let n := s.frameReg (0x0002C008 + 0x80 * p + 0x10 * k) 0
    let base := field w 12 48 * 4096
    if bitOf w 63 then some (base, min (field n 0 32 * 4096) (2 ^ 60 - base), bitOf w 62, bitOf w 61) else none)

/-- The owners of a tally declaration in rank order. -/
def Paddock.tallyOwners (d : Paddock) (decl : Nat) : List Nat :=
  match d.image, look d.tallies decl with
  | some i, some t => i.groupTiles d.placement t.group
  | _, _ => []

/-- What a stride open does to T of every owner (13, R389; log entry 70). -/
def State.tallyOpen (s : State) (p : Nat) (run : TallyRun) (zero : Bool) : State :=
  let d := s.paddock p
  match look d.tallies run.ctx.decl with
  | none => s
  | some t =>
    let ks := d.tallyOwners run.ctx.decl
    ((List.range ks.length).zip ks).foldl (fun s x =>
      if zero then s.onTile x.2 (fun tl => tl.putWords (t.table / 8) (List.replicate t.cpo {}))
      else
        let ws := (s.tile x.2).words (t.table / 8) t.cpo
        (s.onTile x.2 (fun tl => s.touchAll x.2 tl (rangeFrom (t.table / 8) t.cpo))).writeShare p false
          (t.shadow + 8 * t.cpo * x.1) (bytesOfWords ws)) s

/-- T of every owner returned to its value at the stride open (13, R395). -/
def State.tallyRestore (s : State) (p : Nat) (run : TallyRun) (zeroed : Bool) : State :=
  let d := s.paddock p
  match look d.tallies run.ctx.decl with
  | none => s
  | some t =>
    let ks := d.tallyOwners run.ctx.decl
    ((List.range ks.length).zip ks).foldl (fun s x =>
      if zeroed then s.onTile x.2 (fun tl => tl.putWords (t.table / 8) (List.replicate t.cpo {}))
      else
        let off := t.shadow + 8 * t.cpo * x.1
        let ws := s.shareWords p false off t.cpo
        (s.touchShare p false off (8 * t.cpo)).onTile x.2 (fun tl => tl.putWords (t.table / 8) ws)) s

/-- The context a stride loads into the tiles. -/
def StrideKind.context : StrideKind → Option TallyCtx
  | .tally run => some run.ctx
  | _ => none

/-- The stride that follows in a run (R63; log entry 70). -/
def State.following (s : State) (p : Nat) (n : PendingStride) : Option PendingStride :=
  let e := s.tableDir p n.table
  if n.left ≤ 1 then none
  else if (s.paddock p).paceSrc = 2 then
    (if bitOf e 50 then none else some { n with table := field e 46 4, left := n.left - 1, first := false })
  else some { n with left := n.left - 1, first := false }

/-- The number of a paddock's next stride (R56, R59). -/
def Paddock.nextNumber (d : Paddock) : Nat := if d.started then (strideOf d.paceCount + 1) % 2 ^ 44 else 0

/-- The step of the open stride of a paddock; 5 with none. -/
def Paddock.strideStep (d : Paddock) : Nat := if d.current.isSome then d.mStep else 5

/-- Whether a rein of a paddock's image crosses a region (01, R30). -/
def Paddock.crosses (d : Paddock) (r : Nat) : Bool :=
  d.reins.any (fun x => x.hops.any (fun h => regionOfTile h.source == r || regionOfTile h.dest == r))

/-- The steps that R30 sets at a stride open (01; log entry 122): a TRANSIT region runs at the highest step of the open
strides, an ACTIVE one no lower than that of a paddock whose reins cross it. -/
def State.settleSteps (s : State) : State :=
  let best := fun (ps : List Nat) => (ps.map (fun q => (s.paddock q).strideStep)).foldl min 5
  (List.range 28).foldl (fun s' r =>
    let g := s.region r
    match g.state with
    | .transit =>
      let b := best (rangeFrom 1 28)
      if b < 5 then s'.onRegion r (fun g => { g with step := b }) else s'
    | .active =>
      let b := best ((rangeFrom 1 28).filter (fun q => q != g.owner && (s.paddock q).crosses r))
      s'.onRegion r (fun g => { g with step := min (s.paddock g.owner).mStep b })
    | _ => s') s

/-- At a stride open the loads and the switch issued ahead belong to the open stride (R88). -/
def Tile.startOfStride (t : Tile) : Tile :=
  { t with
    pendingSwitch := t.pendingSwitch.map (fun w => { w with ahead := false })
    loadRun := t.loadRun.map (fun x => { x with req := { x.req with ahead := false } })
    loadQueue := t.loadQueue.map (fun q => { q with ahead := false }) }

/-- A stride opens with a step and a multiplier (R53, R56, R60, R66, R243, R389). -/
def State.openStride (s : State) (p : Nat) (n : PendingStride) (st m : Nat) (shared : Bool) : State :=
  let d := s.paddock p
  let no := d.nextNumber
  let s := if d.started && decide (no = 0) then s.setPaceStatus 4 else s
  let next := if d.paceSrc = 1 && d.next.isNone then none else s.following p n
  let o : OpenStride := { table := n.table, kind := n.kind, desc := n.desc, key := n.key, left := n.left, first := n.first,
                          policyFault := d.policyFault, stretchMax := d.stretchMax }
  let s := s.setPaddock p ({ d with
    paceCount := paceCountOf no 0
    started := true
    m := m
    mStep := st
    mShared := shared
    strideHeld := 0
    current := some o
    next := next
    pulse := false
    ahead := none
    digest := 0
    hostWins := s.hostWindows p
    twin := { d.twin with proposal := none, twinM := none, close := none }
    wafer := if d.started then { d.wafer with objs := openObjects d.wafer.objs } else d.wafer }.onRemount Remount.openStride)
  let s := (s.paceRegions p).foldl (fun s r => s.onRegion r (fun g =>
    { g with
      step := st
      deadlines := []
      digest := 0
      throttle := g.throttle.filter (fun c => c != 0)
      barriers := if d.started then openObjects g.barriers else g.barriers })) s
  let s := s.settleSteps
  let s := (s.paddockTiles p).foldl (fun s k => s.onTile k (fun t => { t.startOfStride with srKey := n.key, tally := n.kind.context })) s
  let s := match n.kind with
    | .tally run => s.tallyOpen p run (n.first && run.clear)
    | _ => s
  let sel := s.frameReg 0x00010018 0
  let s := if bitOf sel 5 && field sel 0 5 == p then s.emit .syncPulse else s
  ((s.cntPaddock p 19 1).mark p 0).enterBeat p

/-! ## Replay (R84, R245, R312, R395; 17, R514) -/

/-- The mark declaration that names a tile for a table and beat (R514). -/
def Image.markOf (i : Image) (pl k table beat : Nat) : Option MarkDecl :=
  (i.marks pl (regionOfTile k)).find? (fun m => m.table == table && m.beat == beat
    && (i.groups pl).any (fun g => g.id == m.group && g.region == regionOfTile k
      && g.rects.any (fun q => rectHolds q (tileX k) (tileY k))))

/-- The pose loads of a tile that were issued ahead: they start again (R88). -/
def Tile.aheadLoads (t : Tile) : List PoseLoadReq :=
  ((match t.loadRun with | some x => [x.req] | none => []) ++ t.loadQueue).filter PoseLoadReq.ahead

/-- A tile quiesced and its queues empty: what it had in flight is gone but for what was issued ahead (R88), its stores and
registers stay (R84, R514; log entry 72). -/
def Tile.quiesce (t : Tile) : Tile :=
  { t with
    parked := true
    wait := .none
    ended := false
    gPending := []
    remote := []
    mxQueue := []
    vxQueue := []
    outbound := []
    queues := (t.queues.map (fun kv => (kv.1, ({ entry := kv.2.entry } : Queue)))).filter (fun kv => decide (kv.2 ≠ {}))
    pendingSwitch := t.pendingSwitch.filter PendingSwitch.ahead
    loadRun := none
    loadQueue := t.aheadLoads
    merges := []
    nodes := t.nodes.map (fun kv => (kv.1, kv.2.map (fun nd => { nd with bufs := [], bad := false })))
    srcBursts := []
    inject := t.inject.filter (fun p => p.op == .putAck && p.frame) }

/-- A tile rebuilt for a mark and started (R514): sync objects and pose of its declaration. A switch issued ahead stays pending. -/
def Image.rebuildTile (i : Image) (pl table beat k : Nat) (t : Tile) : Tile :=
  { restart t with pendingSwitch := t.pendingSwitch.filter PendingSwitch.ahead }
where
  restart (t : Tile) : Tile :=
  match i.markOf pl k table beat with
  | none => i.startTile pl k { t.quiesce with syncs := [] }
  | some m =>
    let sync := fun (x : Nat × Nat) => ({ value := BitVec.ofNat 32 x.1, target := BitVec.ofNat 32 x.2 } : SyncObj)
    let syncs := ((List.range 16).zip m.syncs).foldl (fun a x => putD {} a x.1 (sync x.2)) []
    ({ t.quiesce with syncs := syncs }).startIn m.slot

/-- Objects returned to a mark (R245): value and target; the tiles that waited are quiesced. -/
def restoreObjects (now marked : Map BarrierObj) : Map BarrierObj :=
  now.map (fun kv => let m := getD {} marked kv.1; (kv.1, { kv.2 with value := m.value, target := m.target, waiters := [] }))

/-- What a paddock's tiles have in flight on the mesh is dropped; remount bursts and their acknowledgements stay. -/
def State.dropTraffic (s : State) (p : Nat) : State :=
  { s with
    net := s.net.filter (fun a => a.paddock != p || (a.op == .putAck && a.frame))
    bursts := s.bursts.filter (fun b => b.paddock != p || b.lane.isSome) }

/-- R84: entries issued ahead, and entries before the mark that have not issued, stay due (log entry 139); the tiles draw with the
key of the open stride; the state rebuilt at the paddock's last mark, and the stride running from its beat. -/
def State.replayFrom (s : State) (p : Nat) : State :=
  let d := s.paddock p
  match d.current, d.image with
  | some o, some i =>
    let pl := d.placement
    let b := beatOf d.ckptLast
    let s := s.dropTraffic p
    let s := match o.kind with
      | .tally run => s.tallyRestore p run (o.first && run.clear)
      | _ => s
    let s := (s.paddockTiles p).foldl (fun s k =>
      if (s.paceRegions p).contains (regionOfTile k) then
        s.onTile k (fun t => { (if s.standby p then t.quiesce else i.rebuildTile pl o.table b k t) with
          srKey := o.key
          tally := o.kind.context })
      else s) s
    let s := s.onRegionsOf p (fun g => { g.keepEntries b with
      digest := 0
      barriers := restoreObjects g.barriers g.marked })
    let s := s.onPaddock p (fun d => ({ d with
      paceCount := paceCountOf (strideOf d.paceCount) b
      strideHeld := 0
      digest := 0
      twin := { d.twin with close := none }
      wafer := { d.wafer with objs := restoreObjects d.wafer.objs d.wafer.marked }
      current := some { o with test := .untested, inHeld := false, faulted := false, replayDue := false, stopped := false,
                               closeSent := false, overrunReplays := o.overrunReplays + (if o.faulted then 1 else 0) }
      seals := { d.seals with
        replayed := true
        replays := d.seals.replays + 1
        stretched := d.seals.stretched || decide (0 < d.strideHeld)
        held := d.seals.held + d.strideHeld } }).onRemount Remount.replay)
    let s := match o.desc with
      | some id => s.onDesc id (fun x => { x with
          replayed := true
          stretched := x.stretched || decide (0 < d.strideHeld)
          result := if o.kind = StrideKind.stride then x.result + BitVec.ofNat 64 (d.strideHeld * 2 ^ 32) else x.result })
      | none => s
    (s.cntPaddock p 2 1).enterBeat p
  | _, _ => s

/-! ## Closing a stride (R64, R354, R540) -/

/-- The work of the decode step that an open stride runs, with its session. -/
def State.decodeOf (s : State) (p : Nat) (o : OpenStride) : Option (Desc × DecodeWork × Session) :=
  match o.desc with
  | none => none
  | some id =>
    match s.desc id with
    | none => none
    | some x =>
      match x.decode with
      | none => none
      | some w => (look (s.paddock p).sessions w.session).map (fun z => (x, w, z))

/-- The image that a paddock's large model belongs to. -/
def State.modelOf (s : State) (p : Nat) : BitVec 256 := ((s.paddock p).image.map Image.digest).getD 0

/-- The value that committed tokens add to a stride digest (18, R541). -/
def State.tokenDigest (s : State) (p : Nat) : BitVec 64 :=
  match (s.paddock p).current with
  | none => 0
  | some o =>
    match s.decodeOf p o with
    | none => 0
    | some (x, w, z) =>
      let v := x.nat 16 8
      let addr := match x.slot with
        | some k => 2 ^ 60 + (s.paddock p).payload k
        | none => 4 * 2 ^ 60 + v
      let toks := w.chosen (s.modelOf p) z
      if toks.isEmpty then 0
      else BitVec.ofNat 64 (crc64 (bytesLE 8 addr ++ (toks.map (fun t => bytesLE 4 t.toNat)).flatten))

/-- The stride digest of a paddock with the writes its close makes. -/
def State.strideDigest (s : State) (p : Nat) : BitVec 64 := (s.paddock p).digest + s.tokenDigest p

/-- Whether the twin lets a stride close (R89, R540): its report is here, agrees, and carries no more held beats. -/
def State.twinAgrees (s : State) (p : Nat) : Bool :=
  let d := s.paddock p
  !s.shared p || (match d.twin.close with
    | some (st, held, fault, dg) => st == strideOf d.paceCount && decide (held ≤ d.strideHeld) && !fault
        && (d.pairMode == 2 || dg == s.strideDigest p)
    | none => false)

/-- A MIRROR stride whose digests differ (18, R542): it replays; after a repeated mismatch the modules exchange partial
digests first; a third ends the job. -/
def State.digestMismatch (s : State) (p : Nat) (o : OpenStride) : State :=
  let s := s.raise (frameReport 0xC000 0x0200 clsSDC p 0)
  let o : OpenStride := { o with mismatches := o.mismatches + 1, stopped := true }
  if o.mismatches = 1 then (s.abandonStride p).onPaddock p (fun d => { d with current := some { o with replayDue := true } })
  else if o.mismatches = 2 then
    let sums := (List.range 28).map (fun r => if (s.region r).owner = p then (s.region r).digest else 0)
    ((s.abandonStride p).onPaddock p (fun d => { d with current := some o })).yokeSend 0x13 p
      (bytesLE 8 (strideOf (s.paddock p).paceCount) ++ (sums.map (fun x => bytesLE 8 x.toNat)).flatten)
  else s.failJob p 0x0101

/-- The close reports of both modules are compared, once both are sent (18, R540, R542): a FAULT replays the stride, the
third time it ends the job (R85; its status, log entry 162). -/
def State.compareClose (s : State) (p : Nat) : State :=
  let d := s.paddock p
  match d.current, d.twin.close with
  | some o, some (st, _, fault, dg) =>
    if !s.shared p || st ≠ strideOf d.paceCount || o.replayDue || o.stopped then s
    else if fault then
      (if 2 ≤ o.overrunReplays then s.failJob p 0x0202
        else s.onPaddock p (fun d => { d with current := some { o with faulted := true } }))
    else if o.closeSent && d.pairMode == 1 && dg != s.strideDigest p then s.digestMismatch p o
    else s
  | _, _ => s

/-- The pairing of a paddock ends (18, R547): the primary goes on alone; on the other module the pace stops, the tiles park
and the job ends. With no paddock left the attachment is over. -/
def State.endPairing (s : State) (p : Nat) : State :=
  let d := s.paddock p
  let s := if d.primary || d.pairMode == 3 then s else s.killJob p 0x0202
  let s := s.onPaddock p (fun d => { d with pairMode := 0, primary := true, twin := {} })
  if (rangeFrom 1 28).any (fun q => (s.paddock q).pairMode != 0) then s
  else
    let s := match s.yoke.detachDesc with
      | some id => s.finishDesc id 0 0
      | none => s
    { s with yoke := { s.yoke with attached := false, mode := 0, mask := 0, detachDesc := none, heard := none } }

/-- A decode step commits its tokens and ends (R354, R357; 12, Table 12.3). -/
def State.commitDecode (s : State) (p : Nat) (x : Desc) (w : DecodeWork) (z : Session) : State :=
  let toks := w.chosen (s.modelOf p) z
  let all := w.prompt ++ toks
  let bytes := (toks.map (fun t => bytesLE 4 t.toNat)).flatten
  let z' := z.after w.prompt toks
  let s := w.headNotes (s.modelOf p) z p (s.onPaddock p (fun d => { d with sessions := insertAt d.sessions w.session z' }))
  let s := if toks.isEmpty then s else s.deliver x (x.nat 16 8) (bytes.map (fun b => (b.toNat, false)))
  let s := if all.isEmpty then s else s.chain x.id 0x0203
    (bytesLE 1 w.session ++ bytesLE 8 z.pos ++ bytesLE 1 all.length ++ (all.map (fun t => bytesLE 4 t.toNat)).flatten)
  let s := if w.kind = 2 then ((s.cntPaddock p 13 (z.depth w.k)).cntPaddock p 14
      ((toks.zip (w.drafts z)).filter (fun y => y.1 == y.2)).length) else s
  (s.cntPaddock p 15 toks.length).onDesc x.id (fun x => { x with result := BitVec.ofNat 64 (all.length + z'.pos * 2 ^ 32) })

/-- The status of a descriptor whose strides have closed (R64). -/
def Desc.strideStatus (x : Desc) : Nat := if x.replayed then 2 else if x.stretched then 1 else 0

/-- The open stride closes. -/
def State.closeStride (s : State) (p : Nat) (o : OpenStride) : State :=
  let d := s.paddock p
  let more := d.next.any (fun n => n.desc == o.desc && !n.first)
  let s := match s.decodeOf p o with
    | some (x, w, z) => s.commitDecode p x w z
    | none => s
  let s := match o.desc with
    | none => s
    | some id =>
      let s := s.onDesc id (fun x => { x with
        stretched := x.stretched || decide (0 < d.strideHeld)
        result := match o.kind with
          | .stride => x.result + BitVec.ofNat 64 (1 + d.strideHeld * 2 ^ 32)
          | _ => x.result })
      if more then s
      else
        let s := s.onDesc id (fun x => { x with count := some d.paceCount })
        match o.kind with
        | .tally run => if run.ctx.sampler = 0 then s.onDesc id (fun x => { x with status := some x.strideStatus })
            else s.onPaddock p (fun d => { d with run := some run })
        | _ => s.onDesc id (fun x => { x with status := some x.strideStatus })
  let s := o.suspects.foldl (fun s k => s.dueTile 2 k) s
  let s := s.onPaddock p (fun d => ({ d with
    current := none
    seals := { d.seals with
      stretched := d.seals.stretched || decide (0 < d.strideHeld)
      held := d.seals.held + d.strideHeld } }).onRemount Remount.closeStride)
  if d.twin.detaching then s.endPairing p else s

end Sys2Proof.Machine
end

