-- ==== Sys2Proof/Machine/Pace.lean ====
section
/-! DEFINITION. The pace: entries of a pace table at their issue, beats, deadlines, strides and their sources, PACE_REF and
the registers of the pace with rules of their own (02; 07, R251, R261, R265; 09, R298, R302, R303, R309; 15, R461;
18, R539 to R542; 21, R605). -/

namespace Sys2Proof.Machine

/-! ## Entries (Table 2.4) -/

/-- PACE_NOP. -/
def execPaceNop (r : RegionIx) (s : State) : Host.Outcome State Fault Refusal :=
  issueEntry r (·.is 0x00) s (fun _ _ s => s)

/-- PACE_REDUNDANT of a region counts (R73). -/
def State.redundant (s : State) (r : Nat) : State := s.cntRegion r 8 1

/-- Whether a link of a rein is held by another open rein of the paddock (R302): ready or being closed, or opened before it and
still opening. -/
def State.linksHeld (s : State) (p : Nat) (x : Rein) : Bool :=
  let ls := x.links
  (s.paddock p).reins.any (fun y => y.id != x.id && (y.state == .ready || y.state == .closing
    || (y.state == .opening && (x.state != .opening || decide (y.opened < x.opened)))) && (s.heldLinks p y).any ls.contains)

/-- Whether the flits of a rein are held at a tap, by a pose without the sink bit (08, R256). -/
def State.tapHolds (s : State) (p : Nat) (r : Rein) : Bool :=
  s.bursts.any (fun b => b.paddock == p && b.rein == r.id
    && (match r.taps[b.tap]? with | some (k, port) => !(s.tile k).sinks port | none => false))

/-- REIN_OPEN (R302, R73): a rein waits in its opening state; a broken path is not set. -/
def execReinOpen (r : RegionIx) (s : State) : Host.Outcome State Fault Refusal :=
  issueEntry r (·.is 0x01) s (fun p e s =>
    match s.rein p e.target with
    | none => s
    | some x =>
      let opening := fun (s : State) =>
        let s := if s.linksHeld p x then s.onTile (tileAt x.x x.y) (fun t => t.countIdx 0x1A1 1) else s
        (s.setRein p e.target .opening).stampRein p e.target
      match x.state with
      | .closed => opening s
      | .closing => (s.setRein p e.target .opening).stampRein p e.target
      | .broken => if x.hops.all s.hopLive then opening s else s
      | _ => s.redundant r)

/-- REIN_READY (R302): every part of the path is set. -/
def execReinReady (p : PaddockId) (rein : BitVec 12) (s : State) : Host.Outcome State Fault Refusal :=
  match s.rein p rein.toNat with
  | none => turnedAway s
  | some x =>
    if x.state = .opening ∧ !s.linksHeld p x ∧ x.hops.all s.hopLive then .next (s.setRein p x.id .ready).bump
    else turnedAway s

/-- REIN_CLOSE (R303, R73). -/
def execReinClose (r : RegionIx) (s : State) : Host.Outcome State Fault Refusal :=
  issueEntry r (·.is 0x02) s (fun p e s =>
    match s.rein p e.target with
    | none => s
    | some x =>
      match x.state with
      | .closed => s.redundant r
      | .broken => s.redundant r
      | .closing => s.redundant r
      | _ =>
        let s := if s.tapHolds p x then s.onTile (tileAt x.x x.y) (fun t => t.countIdx 0x1A2 1) else s
        (s.setRein p x.id .closing).settleRein p x.id)

/-- The present members of a group in a region (R251). -/
def State.membersIn (s : State) (p group r : Nat) : List Nat :=
  (rectTiles (((s.paddock p).groups.filter (fun g => g.id == group && g.region == r)).map GroupPart.rects).flatten).filter
    s.present

/-- A pace switch that reaches a tile (R261); `ahead` where its entry belongs to the next stride (R88). -/
def Tile.requestSwitch (t : Tile) (slot : Nat) (ahead : Bool) : Tile :=
  if t.parked || t.slot slot == .empty then t.count 17 1
  else
    let t' := { t with pendingSwitch := some { slot := slot, fromPace := true, ahead := ahead } }
    if t.pendingSwitch.isSome then t'.count 16 1 else t'

/-- POSE_SWITCH (R251, R261). -/
def execPoseSwitch (r : RegionIx) (s : State) : Host.Outcome State Fault Refusal :=
  issueEntry r (·.is 0x03) s (fun p e s =>
    (s.membersIn p e.target r).foldl (fun s k => s.onTile k (fun t => t.requestSwitch (field e.arg 0 4) (decide (e.offset < 0)))) s)

/-- A pose load that reaches a tile: queued behind the one that runs and up to four more, or refused (R265). -/
def State.requestLoad (s : State) (k : Nat) (q : PoseLoadReq) : State :=
  let t := s.tile k
  let room := if t.loadRun.isSome then 4 else 5
  if t.loadQueue.length < room then s.onTile k (fun t => { t with loadQueue := t.loadQueue ++ [q] })
  else (s.onTile k Tile.refuseLoad).noteRefusedLoad k q.barrier

/-- The completion barrier of a group's part in a region (R250). -/
def Paddock.partBarrier (d : Paddock) (group r : Nat) : Nat :=
  ((d.groups.find? (fun g => g.id == group && g.region == r)).map GroupPart.barrier).getD 0

/-- POSE_LOAD (R251, R265). -/
def execPoseLoad (r : RegionIx) (s : State) : Host.Outcome State Fault Refusal :=
  issueEntry r (·.is 0x04) s (fun p e s =>
    let d := s.paddock p
    let all := match d.image with | some i => i.groupTiles d.placement e.target | none => []
    (s.membersIn p e.target r).foldl (fun s k =>
      s.requestLoad k {
        slot := field e.arg 48 4
        force := bitOf e.arg 52
        near := field e.arg 53 3 == 1
        source := field e.arg 0 48
        rank := firstIndex (· == k) all
        barrier := d.partBarrier e.target r
        ahead := decide (e.offset < 0) }) s)

/-- A node slot armed (R309). -/
def Tile.armNode (t : Tile) (p : Nat) (tree : Tree) (fp : Bool) (flits : Nat) (n : TreeNode) : Tile :=
  match getD none t.nodes (nodeSlot n.place) with
  | some nd => if nd.tree = tree.id ∧ nd.paddock = p then t else arm t
  | none => arm t
where
  arm (t : Tile) : Tile :=
    let nd : NodeSlot := { tree := tree.id, paddock := p, fp := fp, flits := flits, inputs := n.inputs,
                           parentInput := n.parentInput, parent := n.parent, rootSync := n.rootSync, bufs := [], bad := false }
    { t with nodes := putD none t.nodes (nodeSlot n.place) (some nd) }

/-- A leaf entry installed; the oldest makes room (R309). `stamp` orders the opens. -/
def Tile.installLeaf (t : Tile) (tree stamp : Nat) (fp : Bool) (flits : Nat) (l : TreeLeaf) : Tile :=
  if t.leaves.any (fun x => x.tree == tree) then t
  else
    let keep := if t.leaves.length < 8 then t.leaves
      else match t.oldestLeaf with
        | some x => t.leaves.filter (fun y => y.tree != x.tree)
        | none => t.leaves
    { t with leaves := keep ++ [{ tree := tree, node := l.node, input := l.input, fp := fp, flits := flits, opened := stamp }] }

/-- A tree armed in a region. -/
def State.armTree (s : State) (p r : Nat) (tree : Tree) (arg : BitVec 64) : State :=
  let fp := !bitOf arg 0
  let flits := field arg 1 2 + 1
  let s := (tree.nodesIn r).foldl (fun s n => s.onTile (placeTile n.place) (fun t => t.armNode p tree fp flits n)) s
  (tree.leavesIn r).foldl (fun s l => s.onTile (tileAt l.x l.y) (fun t => t.installLeaf tree.id s.free fp flits l)) s

/-- GATHER_OPEN (R309; log entry 74). -/
def execGatherOpen (r : RegionIx) (s : State) : Host.Outcome State Fault Refusal :=
  issueEntry r (·.is 0x06) s (fun p e s =>
    match (s.paddock p).trees.find? (fun t => t.id == e.target) with
    | none => s
    | some t => s.armTree p r t e.arg)

/-- CKPT_MARK (R83): the mark is at the beat the entry names, in the open stride, also where the entry issues later (log entry
140). -/
def execCkptMark (r : RegionIx) (s : State) : Host.Outcome State Fault Refusal :=
  issueEntry r (·.is 0x07) s (fun p e s =>
    s.mark p (if e.offset < 0 then earlyBeat (((s.paddock p).current.map (fun o => s.tableLength p o.table)).getD 0) e
      else e.offset.toNat))

/-- A passed test of the beat no longer stands. -/
def OpenStride.untest (o : OpenStride) : OpenStride := if o.test = .passed then { o with test := .untested } else o

/-- DEADLINE (R76): the object joins those that the beat's test checks; a beat that has passed its test is tested again. -/
def execDeadline (r : RegionIx) (s : State) : Host.Outcome State Fault Refusal :=
  issueEntry r (·.is 0x08) s (fun p e s =>
    (s.onRegion r (fun g => { g with deadlines := g.deadlines ++ [e.target] })).onPaddock p
      (fun d => { d with current := d.current.map OpenStride.untest }))

/-- WINDOW_MARK (R75, R298): the region's injection epoch changes if a flip is requested. -/
def execWindowMark (r : RegionIx) (s : State) : Host.Outcome State Fault Refusal :=
  issueEntry r (·.is 0x09) s (fun _ _ s =>
    if s.flip then s.onRegion r (fun g => { g with epoch := !s.epoch }) else s)

/-- The floor of a sub-ledger in µJ (R457): −10 × cap × 100 µs. -/
def Region.floorUj (g : Region) : Int := -((1000 * g.capW : Nat) : Int)

/-- The throttle cause of a sub-ledger at its floor. -/
def floorCause (cls : Nat) : Nat := match cls with | 0 => 4 | 1 => 6 | _ => 7

/-- Energy debited from the sub-ledger of a class; at the floor the region is throttled (R457, Table 15.4). -/
def Region.debit (g : Region) (cls : Nat) (uj : Nat) : Region :=
  let cut := fun (b : Int) => max g.floorUj (b - uj)
  let g' := match cls with
    | 0 => { g with latencyUj := cut g.latencyUj }
    | 1 => { g with normalUj := cut g.normalUj }
    | _ => { g with backgroundUj := cut g.backgroundUj }
  let b := match cls with | 0 => g'.latencyUj | 1 => g'.normalUj | _ => g'.backgroundUj
  if b ≤ g.floorUj ∧ !g'.throttle.contains (floorCause cls) then { g' with throttle := g'.throttle ++ [floorCause cls] } else g'

/-- The learned factor of a pose after a measurement (R461). -/
def Region.learn (g : Region) (pose rho : Nat) : Region :=
  match look g.factors pose with
  | none => { g with factors := insertAt g.factors pose (rho, 1) }
  | some (l, n) =>
    { g with factors := insertAt g.factors pose (((l : Int) + ((rho : Int) - l) / 8).toNat, n + 1) }

/-- A ratio as R461 clamps it. -/
def clampRho (v : Nat) : Nat := max 64 (min 2048 v)

/-- LEDGER_TICK (R461): `measured` is the energy metered since the last tick, in µJ. -/
def execLedgerTick (r : RegionIx) (measured : Nat) (s : State) : Host.Outcome State Fault Refusal :=
  issueEntry r (·.is 0x0A) s (fun p e s =>
    let d := s.paddock p
    match d.image with
    | none => s
    | some i =>
      match (i.units d.placement r).find? (fun u => u.id == e.target) with
      | none => s
      | some u =>
        let est := u.energy * stepK d.mStep
        let rho := if est = 0 then clampRho (s.fresh.toNat % 4096) else clampRho (measured * 256000 / est)
        let s := s.onRegion r (fun g =>
          { (g.debit u.cls measured).learn u.pose rho with
            unitEnergy := modD 0 g.unitEnergy u.id (fun w => countUp w measured) })
        s.cntRegion r u.cls measured)

/-! ## Beats and deadlines (R71, R76 to R80) -/

/-- Whether a paddock's pace runs: a stride is open, not stopped, and nothing holds it. -/
def State.running (s : State) (p : Nat) : Option OpenStride :=
  match (s.paddock p).current with
  | some o => if o.stopped || o.faulted || o.replayDue || s.refLost || s.halted || (s.paddock p).twin.stopped then none else some o
  | none => none

/-- The objects that the deadlines of the beat name and that have not reached their targets. -/
def State.unmet (s : State) (p : Nat) : List (Nat × Nat) :=
  ((s.paceRegions p).map (fun r => ((s.region r).deadlines.filter (fun i =>
    let o := getD {} (s.region r).barriers i
    !reached o.value o.target)).map (fun i => (r, i)))).flatten

/-- Whether the beat has a deadline. -/
def State.hasDeadline (s : State) (p : Nat) : Bool := (s.paceRegions p).any (fun r => !(s.region r).deadlines.isEmpty)

/-- Whether the open stride stands at its last beat. -/
def State.lastBeat (s : State) (p : Nat) (o : OpenStride) : Bool :=
  beatOf (s.paddock p).paceCount + 1 == s.tableLength p o.table

/-- An overrun that the rule in force treats as FAULT (R78, R79, R85): the stride waits for its replay, or, the third time,
the job ends. -/
def State.faultStride (s : State) (p r : Nat) (o : OpenStride) : State :=
  let s := if s.shared p then s.sendClose p true (s.strideDigest p) else s
  if 2 ≤ o.overrunReplays then
    (s.raise (frameReport (0x3000 + r) 0x0703 clsUE p 0)).failJob p (if o.reconf.any Prod.snd then 0x0203 else 0x0202)
  else s.onPaddock p (fun d => { d with current := some { o with faulted := true } })

/-- The barriers of the deadlines that a beat passes no longer wait for a refused load (08, R269). -/
def State.resolveLoads (s : State) (p : Nat) : State :=
  s.onRegionsOf p (fun g => { g with refusedLoads := g.refusedLoads.filter (fun i => !g.deadlines.contains i) })

/-- DEADLINE_TEST (R76 to R79), in the last reference period of the beat or of a held beat. PACE_STRETCH.overrun_total counts
one overrun of the paddock for each beat whose first test fails (log entry 141). -/
def execDeadlineTest (p : PaddockId) (s : State) : Host.Outcome State Fault Refusal :=
  match s.running p with
  | none => turnedAway s
  | some o =>
    if o.test ≠ .untested ∨ !s.hasDeadline p ∨ (s.lastBeat p o ∧ !s.dueDone p) then turnedAway s
    else
      match s.unmet p with
      | [] =>
        let close := s.lastBeat p o && s.shared p && !o.closeSent
        let s := (s.resolveLoads p).onPaddock p (fun d => { d with current := some { o with
          test := .passed
          closeSent := o.closeSent || close
          reconf := o.reconf.filter (fun x => decide (beatOf (s.paddock p).paceCount < x.1)) } })
        .next (if close then (s.sendClose p false (s.strideDigest p)).compareClose p else s).bump
      | (r, i) :: rest =>
        let refused := ((r, i) :: rest).any (fun x => (s.region x.1).refusedLoads.contains x.2)
        let o : OpenStride := { o with reconf := some (o.reconf.getD (beatOf (s.paddock p).paceCount, refused)) }
        let s := s.onPaddock p (fun d => { d with overrunTotal := if o.inHeld then d.overrunTotal else d.overrunTotal + 1 })
        if o.policyFault || decide (o.stretchMax < (s.paddock p).strideHeld + 1) then .next (s.faultStride p r o).bump
        else
          .next (s.onPaddock p (fun d => { d with strideHeld := d.strideHeld + 1, current := some { o with test := .held } })).bump

/-- Entries of the beat that carry over into the next, counted (R71). -/
def State.countLate (s : State) (p : Nat) (o : OpenStride) : State :=
  let b := beatOf (s.paddock p).paceCount
  let len := s.tableLength p o.table
  (s.paceRegions p).foldl (fun s r =>
    s.cntRegion r 7 ((s.region r).due.filter (fun e =>
      if e.offset < 0 then earlyBeat len e == b else decide (e.offset = (b : Int)))).length) s

/-- The paddock passes to its next beat. -/
def State.nextBeat (s : State) (p : Nat) (o : OpenStride) : State :=
  let s := (s.countLate p o).onPaddock p (fun d => { d with
    paceCount := d.paceCount + 1
    current := some { o with test := .untested, inHeld := false } })
  (s.onRegionsOf p (fun g => { g with deadlines := [] })).enterBeat p

/-- A beat boundary of a paddock's open stride (R71, R77, R89). The end of the last beat of a stride is STRIDE_CLOSE. -/
def beatBoundary (p : PaddockId) (s : State) : Host.Outcome State Fault Refusal :=
  match s.running p with
  | none => turnedAway s
  | some o =>
    if s.hasDeadline p ∧ o.test = .untested then turnedAway s
    else if o.test = .held then
      .next (s.onPaddock p (fun d => { d with current := some { o with test := .untested, inHeld := true } })).bump
    else if s.lastBeat p o then
      if s.dueDone p ∧ !s.twinAgrees p then
        .next (s.onPaddock p (fun d => { d with strideHeld := d.strideHeld + 1, current := some { o with inHeld := true } })).bump
      else turnedAway s
    else .next (s.nextBeat p o).bump

/-! ## Strides (R60 to R64) -/

/-- STRIDE_CLOSE (R64, R89). -/
def execStrideClose (p : PaddockId) (s : State) : Host.Outcome State Fault Refusal :=
  match s.running p with
  | none => turnedAway s
  | some o =>
    let passed := o.test == .passed || s.standby p
    if s.lastBeat p o ∧ passed ∧ s.dueDone p ∧ s.twinAgrees p then .next (s.closeStride p o).bump
    else turnedAway s

/-- A pending decode step that opens no stride: its session is closed or has finished, or the step does not fit its limit or
any table of the plan (R355, R357; log entry 78). -/
def State.decodeRefused (s : State) (p : Nat) (n : PendingStride) : Option Nat :=
  match n.kind, n.desc with
  | .decode session, some id =>
    match look (s.paddock p).sessions session, (s.desc id).bind Desc.decode with
    | some z, some w =>
      if z.finished then some 0
      else if !w.fits z then some 0x0200
      else
        let d := s.paddock p
        match (d.image.bind (fun i => i.decodePlan d.placement)).bind (fun pl => planTable pl.2.2 w.kind z.k (w.stop z z.pos)) with
        | none => some 0x0200
        | some _ => none
    | _, _ => some 0x0200
  | _, _ => none

/-- STRIDE_OPEN (R60, R61, R53, R463, R539). -/
def execStrideOpen (p : PaddockId) (s : State) : Host.Outcome State Fault Refusal :=
  let d := s.paddock p
  match d.nextStride with
  | none => turnedAway s
  | some n =>
    if d.current.isSome || d.ended.isSome || d.image.isNone || d.run.isSome || d.twin.stopped || d.twin.detaching
        || s.halted || s.refLost || ((d.pairMode == 1 || d.pairMode == 2) && !d.twin.joined && s.yoke.attachDesc.isSome && !s.yoke.copying) then
      turnedAway s
    else match s.decodeRefused p n with
      | some st =>
        let s := s.onPaddock p (fun d => { d with next := none, pulse := false, ahead := none })
        let pos := match n.kind with | .decode x => ((look d.sessions x).map Session.pos).getD 0 | _ => 0
        .next (match n.desc with
          | some id => s.finishDesc id st (if st = 0 then BitVec.ofNat 64 (pos * 2 ^ 32) else 0)
          | none => s).bump
      | none =>
        if s.shared p then
          match d.twin.proposal, d.twin.twinM with
          | none, _ =>
            match s.admittedStep p n.table with
            | none => .next (s.cntPaddock p 1 1).bump
            | some st =>
              let m := max (stepM st) d.mMin
              .next ((s.onPaddock p (fun d => { d with twin := { d.twin with proposal := some (d.nextNumber, m, st) } })).yokeSend
                0x10 p (bytesLE 8 d.nextNumber ++ bytesLE 1 m)).bump
          | some (_, m, st), some (no, m') =>
            if no = d.nextNumber then .next (s.openStride p n st (max m m') (decide (m < m'))).bump else turnedAway s
          | some _, none => turnedAway s
        else
          match s.admittedStep p n.table with
          | none => .next (s.cntPaddock p 1 1).bump
          | some st => .next (s.openStride p n st (max (stepM st) d.mMin) false).bump

/-- REPLAY (R84): the paddock returns to its last mark. -/
def execReplay (p : PaddockId) (s : State) : Host.Outcome State Fault Refusal :=
  match (s.paddock p).current with
  | none => turnedAway s
  | some o =>
    if (o.faulted || o.replayDue) && !s.halted && !s.refLost then .next (s.replayFrom p).bump else turnedAway s

/-- A beat boundary of the device pace count: regions that no paddock owns change their epoch for a flip that is requested (09,
R298). -/
def State.deviceBoundary (s : State) : State :=
  if !s.flip then s
  else (List.range 28).foldl (fun s r => s.onRegion r (fun g => if g.owner = 0 then { g with epoch := !s.epoch } else g)) s

/-- The device pace count passes to the next stride, at a beat; a PACE_SYNC_OUT that selects it is pulsed. -/
def State.deviceStride (s : State) (beat : Nat) : State :=
  let c := (s.paddock 0).paceCount
  let s := if strideOf c = 2 ^ 44 - 1 then s.setPaceStatus 4 else s
  let s := s.onPaddock 0 (fun d => { d with paceCount := paceCountOf (strideOf c + 1) beat })
  let sel := s.frameReg 0x00010018 0
  (if bitOf sel 5 && field sel 0 5 == 0 then s.emit .syncPulse else s).deviceBoundary

/-- A beat of the device pace count (R58). -/
def State.deviceBeat (s : State) : State :=
  let c := (s.paddock 0).paceCount
  if beatOf c = 2 ^ 20 - 1 then s.deviceStride 0
  else (s.onPaddock 0 (fun d => { d with paceCount := paceCountOf (strideOf c) (beatOf c + 1) })).deviceBoundary

/-- BEAT_BOUNDARY: of a paddock's open stride, or, for id 0, of the device pace count (R58; log entry 134). -/
def execBeatBoundary (p : PaddockId) (s : State) : Host.Outcome State Fault Refusal :=
  if p.val = 0 then (if s.refLost || !s.released then turnedAway s else .next s.deviceBeat.bump)
  else beatBoundary p s

/-- DEVICE_STRIDE (R58): one stride of 2^20 beats of the device pace count passes. -/
def execDeviceStride (s : State) : Host.Outcome State Fault Refusal :=
  if s.refLost || !s.released then turnedAway s
  else
    .next (s.deviceStride (beatOf (s.paddock 0).paceCount)).bump

/-- PACE_SYNC_IN_PULSE (R62). -/
def execPaceSyncInPulse (p : PaddockId) (s : State) : Host.Outcome State Fault Refusal :=
  let d := s.paddock p
  if p.val = 0 || !d.live || d.paceSrc != 1 || d.ended.isSome then turnedAway s
  else if d.pulse || (d.next.isNone && d.lastRun.isNone) then
    .next (((s.cntPaddock p 0 1).setPaceStatus 3).raise (frameReport 0xE006 0x0509 clsInfra p 0)).bump
  else .next ((s.onPaddock p (fun d => { d with pulse := true })).notePending p).bump

/-! ## PACE_REF (R41, R80; 21, R605) -/

/-- PACE_REF is declared lost: loops run from the holdover oscillator, pace counts stop. -/
def State.loseRef (s : State) : State :=
  if s.refLost then s
  else { s with paceStatus := s.paceStatus ||| 3 }.raise (frameReport 0xE006 0x0508 clsInfra 0 0)

/-- PACE_REF_LOST. -/
def execPaceRefLost (s : State) : Host.Outcome State Fault Refusal := .next s.loseRef.bump

/-- PACE_REF_RESTORED: within specification for 1 ms; a power-up that waited for it is ready (21, R615). -/
def execPaceRefRestored (s : State) : Host.Outcome State Fault Refusal :=
  let s := { s with paceStatus := s.paceStatus &&& ~~~3#64 }
  .next (if s.waitsForRef then s.becomeReady else s).bump

/-- PACE_REF_FREQ_CHECK (R605): an error beyond 200 ppm is a loss. -/
def execPaceRefFreqCheck (ppm : Nat) (s : State) : Host.Outcome State Fault Refusal :=
  .next (if 200 < ppm then s.loseRef else s).bump

/-- The 4 KiB rows of a unit of either tier (10, R345). -/
def unitRows : Nat := 25165824

/-- A migration copies some rows more: how many in a reference period is free (log entry 153). -/
def Tier.copyRows (t : Tier) (n : Nat) : Tier :=
  { t with migration := t.migration.map (fun m => { m with rows := min unitRows (m.rows + n % (unitRows + 1)) }) }

/-- The copies to spare sites go on (10, R345). -/
def State.advanceCopies (s : State) : State :=
  if s.near.migration.isSome || s.far.migration.isSome then
    ({ s with near := s.near.copyRows (s.freshAt 928).toNat, far := s.far.copyRows (s.freshAt 929).toNat } : State).bump
  else s

/-- One reference period passes (log entry 9): PACE_REF_COUNT runs from the release of MOD_RESET_N, on the holdover
oscillator too, and the copies to spare sites go on. -/
def State.tick (s : State) : State :=
  let s := s.advanceCopies
  if s.released then { s with refCount := s.refCount + 1 } else s

/-! ## Registers (R52, R65) -/

/-- Whether a paddock has an open or a pending stride. -/
def Paddock.paceBusy (d : Paddock) : Bool := d.current.isSome || d.next.isSome || d.pulse

/-- PACE_CTRL_WRITE (R52). -/
def execPaceCtrlWrite (v : BitVec 64) (s : State) : Host.Outcome State Fault Refusal :=
  let n := field v 0 9
  if 4 ≤ n ∧ n ≤ 256 ∧ !s.paddocks.any (fun kv => kv.2.paceBusy) then
    .next (s.setFrameReg 0x00010000 8 (BitVec.ofNat 64 n)).bump
  else .next (s.setPaceStatus 2).bump

/-- PACE_SRC_WRITE (R65, R91): paddock 0 and an id with no paddock take no write. -/
def execPaceSrcWrite (p : PaddockId) (v : BitVec 64) (s : State) : Host.Outcome State Fault Refusal :=
  let d := s.paddock p
  if p.val = 0 || !d.live then .next s.bump
  else if field v 0 2 = 3 ∨ d.paceBusy then .next (s.setPaceStatus 2).bump
  else .next (s.onPaddock p (fun d => { d with paceSrc := field v 0 2 })).bump

end Sys2Proof.Machine
end

