-- ==== Sys2Proof/Machine/Collect.lean ====
section
/-! DEFINITION. Fault collection: records, collectors, reactions, path faults, isolation, halt (16, R473 to R499). -/

namespace Sys2Proof.Machine

/-! ## Classes, sources and reactions (Tables 16.1, 16.2, 16.16) -/

/-- The type of a source id. -/
def sourceType (src : BitVec 16) : Nat := src.toNat / 4096

/-- The instance of a source id. -/
def sourceInst (src : BitVec 16) : Nat := src.toNat % 4096

/-- FC_REACTt at reset: the default reactions of Table 16.2. -/
def reactReset (t : Nat) : BitVec 64 :=
  BitVec.ofNat 64 ([0x00030020, 0x00100010, 0x05000400, 0x00100420, 0x00100400, 0x00100000, 0x00500000, 0x00100000,
    0x00105010, 0x00105010, 0x00105000, 0x00100000, 0x00110000, 0x00105000, 0x00105000, 0x05000000].getD t 0)

/-- FC_CTRL.mode: COMPAT_5100. -/
def State.compat (s : State) : Bool := bitOf s.fcCtrl 0

/-- The lowest reaction that a class of a source type may take (R487). -/
def reactFloor (compat poison : Bool) (t c : Nat) : Nat :=
  if c = 3 then 5
  else if c = 6 then (if !compat && (t == 2 || t == 15) then 5 else 0)
  else if c = 2 then 4
  else if c = 1 && poison then 2
  else 0

/-- Whether a report is of a path or line fault (R478). -/
def isPath (r : Report) : Bool := decide (0x0300 ≤ r.code.toNat ∧ r.code.toNat ≤ 0x0302)

/-- Codes of Table 16.6 that isolate a source of a type on a path fault (Table 16.2, last column); 1 where the isolation
is none of the codes. -/
def pathReaction (t : Nat) : Nat :=
  if t ≤ 1 then 3 else if t ≤ 4 then 4
  else if t = 5 || t == 8 || t == 9 || t == 10 || t == 11 || t == 12 then 1 else 5

/-- The reaction to a report (R474, R476, R478, R487, R490, R491). -/
def State.reactionOf (s : State) (r : Report) : Nat :=
  let t := sourceType r.source
  let f := s.frameReg (0x00300100 + 8 * t) (reactReset t)
  if r.cls = 0 then 0
  else if r.code.toNat < 0x0100 && r.service then 0
  else if isPath r then (if s.compat then 1 else pathReaction t)
  else if r.code = 0x0303 then (if s.compat then 1 else 5)
  else
    let x := (List.range 7).foldl (fun m c =>
      if r.cls.getLsbD c then max m (max (field f (4 * c) 4) (reactFloor s.compat r.poison t c)) else m) 0
    if x = 2 ∧ r.paddock = 0 then 1 else x

/-! ## Records and collectors (R480 to R484, R489 to R491) -/

/-- The bytes of a record (Table 16.4); the last is the phase or the valid bit. -/
def Record.bytes (x : Record) (last : Nat) : List (BitVec 8) :=
  let r := x.report
  bytesLE 2 r.code.toNat ++ bytesLE 1 r.cls.toNat ++ bytesLE 1 r.paddock ++ bytesLE 4 x.seq.toNat ++ bytesLE 8 x.pace.toNat
    ++ bytesLE 2 r.source.toNat ++ bytesLE 2 r.x.toNat ++ bytesLE 2 r.y.toNat ++ bytesLE 6 r.addr.toNat
    ++ bytesLE 2 r.synd.toNat ++ bytesLE 1 x.flags ++ bytesLE 1 last

/-- A collector: 0 to 83 the field collectors, 84 the wafer collector. -/
def State.collector (s : State) (n : Nat) : Collector := getD {} s.collectors n

/-- A collector replaced. -/
def State.setCollector (s : State) (n : Nat) (c : Collector) : State := { s with collectors := putD {} s.collectors n c }

/-- History entries of a collector. -/
def histSize (n : Nat) : Nat := if n = 84 then 64 else 32

/-- The collector that a report reaches: that of the field of its tile or instance, else the wafer's (R475, R480). -/
def homeOf (r : Report) : Nat :=
  let t := sourceType r.source
  if t ≤ 1 then (if r.x = 0x3FF then 84 else r.x.toNat / 70 + 12 * (r.y.toNat / 78))
  else if t = 2 then min 83 (sourceInst r.source)
  else 84

/-- The record a collector writes for a report. -/
def Collector.recordOf (c : Collector) (r : Report) (reaction : Nat) : Record :=
  { report := r, seq := c.seq + 1, pace := r.pace
    flags := reaction % 8 + (if r.code = 0x0301 then 8 else 0) + (if r.code = 0x0300 then 16 else 0) }

/-- A record that arrives under COMPAT_5100 while the first error is held: merged (R491). -/
def Collector.merge (c : Collector) (r : Report) : Collector :=
  { c with
    classOr := c.classOr ||| r.cls
    count := if c.count = 0xFFFF then c.count else c.count + 1
    first := c.first.map (fun x => { x with flags := if x.flags / 32 % 2 = 1 then x.flags else x.flags + 32 }) }

/-- A record written: history, and the first-error record or its count (R483, R484, R490). -/
def Collector.write (c : Collector) (n : Nat) (x : Record) : Collector :=
  let c := { c with
    seq := x.seq
    hist := insertAt c.hist c.next x
    overwritten := if (look c.hist c.next).isSome then c.overwritten + 1 else c.overwritten
    next := (c.next + 1) % histSize n }
  if c.valid then { c with count := if c.count = 0xFFFF then c.count else c.count + 1 }
  else { c with valid := true, first := some x, classOr := x.report.cls }

/-- An event for the event ring: written, or counted as lost while it is full (R443) or in
D3hot (log entry 125). -/
def State.postEvent (s : State) (x : Record) : State :=
  if !s.eventEnable then s
  else if 0 < s.eventLost || s.eventFull || s.d3hot then
    { s with eventLost := min 0xFFFF (s.eventLost + 1), eventOverflow := true }
  else s.putEvent (x.bytes 0)

/-- The event vector of a record (R485). -/
def State.notify (s : State) (r : Report) (reaction : Nat) : State :=
  if 1 ≤ reaction && s.eventEnable && (List.range 7).any (fun c => r.cls.getLsbD c && bitOf s.fcCtrl (8 + c)) then
    s.sendMsix s.eventVector
  else s

/-- The wafer collector takes a record: merged, or written with its event; the event vector goes either way (R491). -/
def State.waferTake (s : State) (r : Report) (reaction : Nat) : State :=
  let c := s.collector 84
  if s.compat && c.valid then (s.setCollector 84 (c.merge r)).notify r reaction
  else
    let x := c.recordOf r reaction
    ((s.setCollector 84 (c.write 84 x)).postEvent x).notify r reaction

/-- Whether a record goes on to the wafer collector: at most one CE per source in 1 ms (R480). -/
def State.forwardKey (r : Report) : Nat := r.source.toNat + 65536 * (r.y.toNat * 1024 + r.x.toNat)

/-- A field collector forwards a record it has written. -/
def State.forwardRecord (s : State) (r : Report) (reaction : Nat) : State :=
  let key := State.forwardKey r
  let last := getD 0 s.ceForwarded key
  if r.cls = clsCE ∧ 0 < last ∧ s.refCount.toNat + 1 < last + 100000 then s.cntFrame 8 1
  else
    let s := if r.cls = clsCE then { s with ceForwarded := putD 0 s.ceForwarded key (s.refCount.toNat + 1) } else s
    s.waferTake r reaction

/-- The counters of a record: one per class, or the notes; path and line faults. -/
def State.countRecord (s : State) (r : Report) : State :=
  let s := if isPath r then
      { s with pathFaults := if s.pathFaults = 0xFFFF then s.pathFaults else s.pathFaults + 1 }.cntFrame 9 1 else s
  if r.cls = 0 then s.cntFrame 7 1
  else (List.range 7).foldl (fun s c => if r.cls.getLsbD c then s.cntFrame c 1 else s) s

/-- A report is recorded by its collector, and forwarded where a field collector wrote it. -/
def State.record (s : State) (r : Report) (reaction : Nat) : State :=
  let s := s.countRecord r
  let n := homeOf r
  if n = 84 then s.waferTake r reaction
  else
    let c := s.collector n
    if s.compat && c.valid then (s.setCollector n (c.merge r)).notify r reaction
    else (s.setCollector n (c.write n (c.recordOf r reaction))).forwardRecord r reaction

/-! ## Halt (R492 to R494) -/

/-- The module enters halt, once (Table 16.8). -/
def State.halt (s : State) (cause : Nat) : State :=
  if s.halted then s
  else
    let s := s.record { frameReport 0xF000 0x0400 clsNote 0 0 with synd := BitVec.ofNat 16 cause } 0
    let s := (List.range 20).foldl (fun s n =>
      if (getD {} s.ports n).state = 2 then s.emit (.frame n { seq := 0, kind := 0x06 }) else s) s
    let s := s.yokeSend 0x15 0 []
    let s := if s.d3hot then s else s.haltDescriptors
    let s := { s with halted := true, haltCause := cause }
    if s.eventEnable then s.sendMsix s.eventVector else s

/-! ## A tile removed (R485; 17, R511 to R513) -/

/-- Whether two tiles lie in one row segment. -/
def sameSegment (a b : Nat) : Bool := tileX a / 70 == tileX b / 70 && tileY a == tileY b

/-- Whether a rein has a link or a tap in the segment of a tile. -/
def Rein.inSegment (r : Rein) (k : Nat) : Bool :=
  sameSegment (tileAt r.x r.y) k || r.hops.any (fun h => sameSegment h.source k || sameSegment h.dest k)

/-- Whether a rein crosses the router of a tile. -/
def Rein.through (r : Rein) (k : Nat) : Bool := tileAt r.x r.y == k || r.hops.any (fun h => h.dest == k)

/-- The paddock's reins in a segment are closed and their flits discarded (R516). -/
def State.closeSegment (s : State) (p k : Nat) : State :=
  let hit := ((s.paddock p).reins.filter (fun r => r.inSegment k)).map Rein.id
  let close := fun (r : Rein) => if hit.contains r.id && r.state == .closing then { r with state := .closed } else r
  let s := s.onPaddock p (fun (d : Paddock) => { d with reins := d.reins.map close })
  { s with bursts := s.bursts.filter (fun b => !(b.paddock == p && hit.contains b.rein)) }

/-- Other paddocks' reins that cross a dead tile's router break (R285, R516). -/
def State.breakThrough (s : State) (p k : Nat) : State :=
  (s.paddocks.map Prod.fst).foldl (fun s q =>
    let hit := (s.paddock q).reins.filter (fun r => r.through k)
    if q = p || hit.isEmpty then s
    else (hit.foldl (fun s r => s.setRein q r.id .broken) s).abandonStride q) s

/-- The tiles of a paddock are quiesced and what they had in flight is dropped (R84, R513). -/
def State.quiesce (s : State) (p : Nat) : State := (s.onTilesOf p (fun _ t => t.quiesce)).dropTraffic p

/-- A tile parks and leaves service with a patina entry of a kind, its paddock is quiesced, and its repair waits for a
flip. -/
def State.removeTile (s : State) (k kind : Nat) : State :=
  if !s.present k then s
  else
    let p := s.ownerOf k
    let col := ((s.colsOf k).getD (tileX k % 70) none).getD 0
    let s := (s.onTile k (fun (t : Tile) => { t with parked := true })).dueTile kind k
    let s := { s with holes := s.holes ++ [k], repairs := s.repairs ++ [({ tile := k, col := col } : Repair)] }
    let s := s.breakThrough p k
    if p = 0 then s else (((s.abandonStride p).quiesce p).closeSegment p k)

/-- ISOLATE_TILE. -/
def State.isolateTile (s : State) (k : Nat) : State := s.removeTile k 1

/-! ## A region isolated (R485; 01, Table 1.2; 02, R82) -/

/-- The tiles of a region that lie on its border, with the direction that leaves it. -/
def borderPorts (r : Nat) : List (Nat × Nat) :=
  let x0 := 210 * (r % 4)
  let y0 := 78 * (r / 4)
  ((List.range 210).map (fun i => [(tileAt (x0 + i) y0, 0), (tileAt (x0 + i) (y0 + 77), 2)])).flatten
    ++ ((List.range 78).map (fun i => [(tileAt x0 (y0 + i), 3), (tileAt (x0 + 209) (y0 + i), 1)])).flatten

/-- The neighbours of a region mark their ports towards it dead and report the link-dead event (09, R284), and reins that cross it
break. -/
def State.cutRegion (s : State) (r : Nat) : State :=
  let s := (borderPorts r).foldl (fun s x =>
    match neighbour x.1 x.2 with
    | none => s
    | some k => if (s.tile k).deadPort (opposite x.2) then s else s.markDead k (opposite x.2)) s
  (s.paddocks.map Prod.fst).foldl (fun s q =>
    let hit := (s.paddock q).reins.filter (fun x => regionAt x.x x.y == r || x.hops.any (fun h => regionOfTile h.dest == r))
    if hit.isEmpty then s
    else (hit.foldl (fun s x => s.setRein q x.id .broken) s).abandonStride q) s

/-- A region leaves service with a state, ISOLATED or LOST: its paddock's stride is abandoned, its pending repairs are
dropped (R488), and the paddock re-places (17, R520). A LOST region holds nothing (01, R45). -/
def State.removeRegion (s : State) (r : Nat) (st : RegionState) : State :=
  match (s.region r).state with
  | .isolated | .lost => s
  | _ =>
    let p := (s.region r).owner
    let s := s.onRegion r (fun g => { g with state := st, due := [], opens := [], deadlines := [] })
    let s := if st = .lost then { s with tiles := s.tiles.filter (fun kv => regionOfTile kv.1 != r) } else s
    let s := { s with repairs := s.repairs.filter (fun x => regionOfTile x.tile != r) }.cutRegion r
    if p = 0 then s else (s.abandonStride p).onPaddock p (fun d => { d with replaceDue := some (d.replaceDue.getD r) })

/-! ## Reactions (R485 to R488, R498, R499) -/

/-- The status of the completions that a kill makes (R486). -/
def killStatus (r : Report) : Nat :=
  if r.poison then 0x0100 else if r.cls.getLsbD 4 then 0x0101 else if r.cls.getLsbD 2 then 0x0102 else 0x0202

/-- A plumb mismatch at a tile of a paddock under ISOLATE_TILE (R498). -/
def State.plumbFault (s : State) (p k : Nat) : State :=
  match (s.paddock p).current with
  | none => s
  | some o =>
    if o.replayDue || o.stopped then
      s.onPaddock p (fun d => { d with current := some { o with
        suspects := if o.suspects.contains k then o.suspects else o.suspects ++ [k] } })
    else if 4 ≤ o.plumbReplays then s.failJob p 0x0101
    else
      let again := o.suspects.contains k
      let note := s.tileReport k 0x0003 (if again then 0x0202 else 0x0201) clsNote 0 0
      let s := ((s.raise note).abandonStride p).cntFrame 10 1
      let s := s.onPaddock p (fun d => { d with current := some { o with
        stopped := true, replayDue := !again, plumbReplays := o.plumbReplays + 1
        suspects := if again then o.suspects else o.suspects ++ [k] } })
      if again then s.isolateTile k else s

/-- The region that a source isolates. -/
def reportRegion (r : Report) : Option Nat :=
  let t := sourceType r.source
  let n := sourceInst r.source
  if t ≤ 1 then (if r.x = 0x3FF then none else some (regionAt r.x.toNat r.y.toNat))
  else if t = 2 then some (4 * (n / 12) + n % 12 / 3)
  else if t = 3 || t == 4 then some n
  else none

/-- The tile of a report. -/
def reportTile (r : Report) : Option Nat := if r.x = 0x3FF then none else some (tileAt r.x.toNat r.y.toNat)

/-- A logical unit of a tier fails (10, R346). -/
def State.failUnit (s : State) (far : Bool) (u : Nat) : State :=
  let t := s.tier far
  if t.failed.contains u then s else (s.setTier far { t with failed := t.failed ++ [u] }).dueUnit 7 far u (t.sites.getD u 0)

/-- The yoke goes down: with a paddock paired it is degraded, and paddocks of which this module is not the primary stop
with their tiles parked (18, R543), unless there is evidence that the twin has stopped; an attachment in progress fails. -/
def State.dropYoke (s : State) (evidence : Bool) : State :=
  if s.yoke.down then s
  else
    let paired := (rangeFrom 1 28).filter (fun p => (s.paddock p).paired)
    let s := paired.foldl (fun s p =>
      if (s.paddock p).primary then s
      else (s.onTilesOf p (fun _ t => { t with parked := true })).onPaddock p (fun d => { d with twin := { d.twin with stopped := true } })) s
    let s := match s.yoke.attachDesc with
      | some id =>
        let s := (rangeFrom 1 28).foldl (fun (s : State) p => if (s.paddock p).pairMode ≠ 0 && !(s.paddock p).twin.joined then
            s.onPaddock p (fun d => { d with pairMode := 0, primary := true, twin := {} }) else s) s
        { s.finishDesc id 0x0200 0 with yoke := { s.yoke with
            attachDesc := none, attachFail := 1, copying := false, heard := none
            attached := (rangeFrom 1 28).any (fun p => (s.paddock p).pairMode != 0) } }
      | none => s
    let ports := (rangeFrom 20 10).foldl (fun m n => putD ({} : PortLink) m n { (getD {} m n : PortLink) with state := 0, unacked := [] }) s.ports
    { s with ports := ports, yoke := { s.yoke with
      down := true, alive := false, degraded := s.yoke.degraded || (!evidence && !paired.isEmpty) } }

/-- What isolates a source on a path fault where no reaction code says it (Table 16.2, last column). -/
def State.isolateSource (s : State) (src : BitVec 16) : State :=
  let n := sourceInst src
  match sourceType src with
  | 5 => { s with hotPairs := if s.hotPairs.contains n then s.hotPairs else s.hotPairs ++ [n] }
  | 8 => s.failUnit false n
  | 9 => s.failUnit true n
  | 10 => if n < 38 && !s.deadStirrups.contains n then ({ s with deadStirrups := s.deadStirrups ++ [n] } : State).installStirrups else s
  | 11 => if n < 20 then s.linkDown n else s
  | 12 => s.dropYoke false
  | _ => s

/-- The cause of a halt that a report starts (Table 16.13). -/
def haltCauseOf (r : Report) : Nat := if r.code = 0x0303 then 2 else if isPath r then 3 else 1

/-- A reaction takes its effect; none does in halt (R488). What would halt the module before it is ready fails the power-up
(21, R616). -/
def State.react (s : State) (r : Report) (reaction : Nat) : State :=
  if s.halted then s
  else
    match reaction with
    | 0 => s
    | 1 => if isPath r && !s.compat then s.isolateSource r.source else s
    | 2 => s.failJob r.paddock (killStatus r)
    | 3 =>
      match reportTile r with
      | none => s
      | some k =>
        if r.cls.getLsbD 4 && sourceType r.source == 0 && r.paddock != 0 && !(isPath r) then s.plumbFault r.paddock k
        else s.isolateTile k
    | 4 => match reportRegion r with | some g => s.removeRegion g .isolated | none => s
    | _ => if s.released && !s.ready then { s with bootFailed := true } else s.halt (haltCauseOf r)

/-- Words that a tile's local memory may correct in 24 hours before frame firmware retires it (17, R515). -/
def wearLimit : Nat := 64

/-- A word that a tile's local memory has corrected, at the physical place of the tile: more than 64 in 24 hours make it a tile to
retire (17, R515). -/
def State.noteWear (s : State) (r : Report) : State :=
  match reportTile r with
  | none => s
  | some k =>
    if r.code ≠ 0x0100 || r.source ≠ 0x1000 then s
    else
      let place := s.tilePlace k
      let times := latest (wearLimit + 1) (getD [] s.tileCe place.toNat) s.refCount
      let due := decide (wearLimit < s.withinDay times) && !s.retireDue.contains place
      { s with tileCe := putD [] s.tileCe place.toNat times
               retireDue := if due then s.retireDue ++ [place] else s.retireDue }

/-- A collector receives a report: it is recorded, and the reaction takes its effect. -/
def State.collect (s : State) (r : Report) : State :=
  let s := s.noteWear r
  let s := if r.code = 0x0702 ∧ sourceType r.source = 3 then
      s.onRegion (sourceInst r.source) (fun g => { g with controllerFailed := true }) else s
  let x := s.reactionOf r
  (s.record r x).react r x

/-! ## The commands -/

/-- The regions whose error lines are sampled (R477). -/
def State.sampled (s : State) (r : Nat) : Bool :=
  match (s.region r).state with | .off | .isolated | .lost => false | _ => true

/-- The report that reaches its collector next: one of the frame, else that of the lowest tile whose lines are sampled. -/
def State.nextReport (s : State) : Option (Report × State) :=
  match s.raised with
  | r :: rest => some (r, { s with raised := rest })
  | [] =>
    match s.tiles.find? (fun kv => !kv.2.raised.isEmpty && s.sampled (regionOfTile kv.1)) with
    | none => none
    | some (k, t) =>
      match t.raised with
      | [] => none
      | r :: rest => some (r, s.setTile k { t with raised := rest })

/-- An error that arises outside the commands: an uncorrectable one leaves its word poisoned, or its granule as a read that finds
the error does (R113, R325, R330), and either counts toward its unit's migration (R345). -/
def State.spontaneous (s : State) (r : Report) : State :=
  if r.code ≠ 0x0101 && r.code ≠ 0x0100 then s
  else
    let t := sourceType r.source
    let a := r.addr.toNat
    let bad : MWord := { p0 := true, p1 := true }
    match reportTile r with
    | some k =>
      if t ≠ 1 || r.code ≠ 0x0101 then s
      else if sourceInst r.source = 0 ∧ a < memEnd then s.onTile k (fun t => { t with mem := putD {} t.mem (a / 8) bad })
      else if sourceInst r.source = 1 ∧ a < 8192 then s.onTile k (fun t => { t with poseMem := putD {} t.poseMem (a / 8) bad })
      else s
    | none =>
      if t = 8 || t = 9 then
        let far := t == 9
        if r.code = 0x0101 then s.uncorrectable far (granuleOf a) else s.noteCe far (unitOf far a)
      else s

/-- ERROR_REPORT (R477 to R491): the oldest report that waits, or one of an error that arises by itself. -/
def execErrorReport (r : Option Report) (s : State) : Host.Outcome State Fault Refusal :=
  match r with
  | some r =>
    if !r.listed then turnedAway s
    else if (match reportRegion r with | some g => !s.sampled g | none => false) then turnedAway s
    else .next ((s.spontaneous r).collect r).bump
  | none =>
    match s.nextReport with
    | none => turnedAway s
    | some (r, s) => .next (s.collect r).bump

/-- The report of a path or line fault of a source. -/
def State.pathReport (s : State) (source : BitVec 16) (k code : Nat) : Report :=
  if sourceType source ≤ 1 then { s.tileReport k source.toNat code clsColl 0 0 with service := false }
  else frameReport source.toNat code clsColl 0 0

/-- A path or line fault is collected, where the lines of the source are sampled. -/
def pathEvent (source : BitVec 16) (k code : Nat) (s : State) : Host.Outcome State Fault Refusal :=
  let r := s.pathReport source k code
  if (match reportRegion r with | some g => decide (28 ≤ g) || !s.sampled g | none => false)
      || (sourceType source ≤ 1 && !s.present k) then turnedAway s
  else .next (s.collect r).bump

/-- PATH_FAULT. -/
def execPathFault (source : BitVec 16) (k : TileIx) (s : State) : Host.Outcome State Fault Refusal :=
  pathEvent source k 0x0300 s

/-- LINE_WITHOUT_REPORT. -/
def execLineWithoutReport (source : BitVec 16) (k : TileIx) (s : State) : Host.Outcome State Fault Refusal :=
  pathEvent source k 0x0301 s

/-- ACK_TIMEOUT: a path fault (R478). -/
def execAckTimeout (source : BitVec 16) (k : TileIx) (s : State) : Host.Outcome State Fault Refusal :=
  pathEvent source k 0x0300 s

/-- HALT_NOW. -/
def execHaltNow (s : State) : Host.Outcome State Fault Refusal := .next (s.halt 5).bump

/-- FC_MODE_WRITE (R489): no effect while a first error is held, or under the lock. -/
def execFcModeWrite (compat : Bool) (s : State) : Host.Outcome State Fault Refusal :=
  if bitOf s.fcCtrl 63 || s.collectors.any (fun kv => kv.2.valid) then .next s.bump
  else .next { s with fcCtrl := setField s.fcCtrl 0 1 (if compat then 1 else 0) }.bump

/-- FIRST_ERROR_CLEAR (Table 16.14): of the wafer collector or of a field collector. -/
def execFirstErrorClear (field : Option (Fin 84)) (s : State) : Host.Outcome State Fault Refusal :=
  let n := match field with | some f => f.val | none => 84
  let c := s.collector n
  .next (s.setCollector n { c with valid := false, count := 0, classOr := 0 }).bump

end Sys2Proof.Machine
end

