-- ==== Sys2Proof/Machine/Work.lean ====
section
/-! DEFINITION. Descriptors that open strides or end them, known-answer SCREEN, and seals (02, R60 to R67; 11, R352 to R357;
12, R377 to R382; 13, R386, R389, R403; 14, R436, R439). -/

namespace Sys2Proof.Machine

/-! ## STRIDE (R60 to R63, R67) -/

/-- A descriptor's stride becomes pending. -/
def State.startStride (s : State) (d : Desc) (n : PendingStride) : State :=
  let p := d.paddock
  let s := s.onDesc d.id (fun x => { x with started := true })
  let s := s.onPaddock p (fun pd => { pd with next := some n })
  if (s.paddock p).paceSrc = 1 then s else s.notePending p

/-- Whether a paddock has a pending stride, so that no further one is taken (R61). -/
def Paddock.strideWaits (d : Paddock) : Bool := d.next.isSome || d.pulse

/-- STRIDE. -/
def execStride (id : Nat) (s : State) : Host.Outcome State Fault Refusal :=
  descWork id 0x0030 s (fun d s =>
    let p := d.paddock
    let pd := s.paddock p
    let table := d.nat 8 1
    let count := d.nat 10 4
    if pd.image.isNone || !s.tableUsed p table || (pd.paceSrc == 0 && count != 1) then some (s.finishDesc id 0x0200 0)
    else if pd.strideWaits then none
    else
      let key := BitVec.ofNat 64 (d.nat 16 8)
      let n : PendingStride := { table := table, kind := .stride, desc := some id, key := key, left := count }
      some ((s.onPaddock p (fun pd => { pd with lastRun := some { n with desc := none, left := 1 } })).startStride d n))

/-! ## Decode sessions (R352 to R357) -/

/-- Whether an FP32 value is positive and finite. -/
def positiveFinite (v : Nat) : Bool := decide (0 < v) && decide (v < 0x7F800000)

/-- Whether an image holds a maquette (14, header flags). -/
def Image.maquette (i : Image) : Bool := descNat i.header 14 2 / 2 % 2 == 1

/-- DECODE_OPEN. -/
def execDecodeOpen (id : Nat) (s : State) : Host.Outcome State Fault Refusal :=
  descWork id 0x0032 s (fun d s =>
    let p := d.paddock
    let pd := s.paddock p
    let n := d.nat 8 1
    let sample := d.nat 9 1 == 1
    let k := d.nat 10 1
    let c := d.nat 12 4
    match pd.image with
    | none => some (s.finishDesc id 0x0200 0)
    | some i =>
      match i.decodePlan pd.placement with
      | none => some (s.finishDesc id 0x0200 0)
      | some (capacity, _, _) =>
        let limit := d.nat 28 4
        if (look pd.sessions n).isSome || decide (8 < k) || (decide (1 ≤ k) && !i.maquette)
            || (sample && !positiveFinite c) then some (s.finishDesc id 0x0200 0)
        else if capacity < (pd.sessions.map (fun kv => kv.2.limit)).sum + limit then some (s.finishDesc id 0x0201 0)
        else
          let x : Session := {
            seed := BitVec.ofNat 64 (d.nat 16 8)
            sample := sample
            c := BitVec.ofNat 32 c
            k := k
            stops := (List.range (d.nat 11 1)).map (fun j => d.nat (32 + 4 * j) 4)
            maxNew := d.nat 24 4
            limit := limit }
          some ((s.onPaddock p (fun pd => { pd with sessions := insertAt pd.sessions n x })).finishDesc id 0 0))

/-- DECODE_CLOSE. -/
def execDecodeClose (id : Nat) (s : State) : Host.Outcome State Fault Refusal :=
  descWork id 0x0034 s (fun d s =>
    let p := d.paddock
    let n := d.nat 8 1
    if (look (s.paddock p).sessions n).isNone then some (s.finishDesc id 0x0200 0)
    else some ((s.onPaddock p (fun pd => { pd with sessions := drop pd.sessions n })).finishDesc id 0 0))

/-- A session's position after the step of it that the open stride runs, at the most (log entry 78). -/
def State.sessionAhead (s : State) (p n : Nat) (x : Session) : Nat :=
  match (s.paddock p).current with
  | none => x.pos
  | some o =>
    if o.kind = .decode n then
      match (o.desc.bind s.desc).bind Desc.decode with
      | some w => x.pos + w.most x
      | none => x.pos
    else x.pos

/-- A DECODE_STEP of a kind in a session, the one that its descriptor names; the maquette's logits are given (R365: they bear on
no committed token). A step of a finished session ends at once (R357). -/
def decodeStep (id kind session : Nat) (s : State) (maquette : List (List (BitVec 32))) :
    Host.Outcome State Fault Refusal :=
  descWork id 0x0033 s (fun d s =>
    let p := d.paddock
    let pd := s.paddock p
    let n := d.nat 8 1
    if d.nat 9 1 ≠ kind ∨ n ≠ session then none
    else
      match pd.image, look pd.sessions n with
      | some i, some x =>
        let w : DecodeWork := {
          kind := kind
          session := n
          k := x.k
          prompt := if kind = 0 then s.stepTokens d.bytes d.staged else []
          maquette := maquette
          last := d.nat 11 1 == 1 }
        let table := (i.decodePlan pd.placement).bind (fun pl =>
          (planTable pl.2.2 kind x.k (w.stop x (s.sessionAhead p n x))).or (lastTable pl.2.2 kind x.k))
        if kind = 2 ∧ x.k = 0 then some (s.finishDesc id 0x0200 0)
        else if x.finished then some (s.finishDesc id 0 (BitVec.ofNat 64 (x.pos * 2 ^ 32)))
        else
          match table with
          | none => some (s.finishDesc id 0x0200 0)
          | some t =>
            if !s.tableUsed p t then some (s.finishDesc id 0x0200 0)
            else if pd.strideWaits then none
            else some ((s.onDesc id (fun y => { y with decode := some w })).startStride d
              { table := t, kind := .decode n, desc := some id, key := x.seed, left := 1 })
      | _, _ => some (s.finishDesc id 0x0200 0))

/-- DECODE_STEP, prefill. -/
def execDecodeStepPrefill (id session : Nat) (s : State) : Host.Outcome State Fault Refusal := decodeStep id 0 session s []

/-- DECODE_STEP, plain. -/
def execDecodeStepPlain (id session : Nat) (s : State) : Host.Outcome State Fault Refusal := decodeStep id 1 session s []

/-- DECODE_STEP, outrider: `maquette` are the maquette's logits, draft by draft. -/
def execDecodeStepOutrider (id session : Nat) (maquette : List (List (BitVec 32))) (s : State) : Host.Outcome State Fault Refusal :=
  decodeStep id 2 session s maquette

/-! ## TALLY_RUN (13, R389, R398, R403) -/

/-- The noise key of a run (R398). -/
def noiseKey (key : BitVec 256) (table : Nat) : BitVec 32 × BitVec 32 :=
  let k := sha256 (bytesLE 32 key.toNat ++ bytesLE 4 table)
  (BitVec.ofNat 32 (descNat k 0 4), BitVec.ofNat 32 (descNat k 4 4))

/-- Whether TALLY_RUN accepts a sampler's parameters (R389). -/
def samplerOk (sampler p1 p2 : Nat) : Bool :=
  match sampler with
  | 0 => true
  | 1 => decide (1 ≤ p1) && decide (p1 < p2)
  | 2 => decide (0 < p1) && decide (0 < p2)
  | _ => false

/-- TALLY_RUN. -/
def execTallyRun (id : Nat) (s : State) : Host.Outcome State Fault Refusal :=
  descWork id 0x0040 s (fun d s =>
    let p := d.paddock
    let pd := s.paddock p
    let decl := d.nat 8 1
    let sampler := d.nat 10 1
    let slot := d.nat 11 1
    let base := d.nat 16 8
    let p1 := d.nat 24 4
    let p2 := d.nat 28 4
    let table := d.nat 32 1
    let key := if sampler = 0 then some 0 else look pd.relKeys slot
    match look pd.tallies decl, key with
    | some t, some key =>
      let cells := t.cpo * (pd.tallyOwners decl).length
      let keyed := fun (s : State) => if sampler = 0 then s else let r := keyRecord key; s.chain id r.kind r.payload
      if !t.enable || decide (2 ^ 36 < base + cells) || !samplerOk sampler p1 p2 || pd.image.isNone || !s.tableUsed p table then
        some ((keyed s).finishDesc id 0x0200 0)
      else if pd.strideWaits then none
      else
        let s := keyed s
        let (k0, k1) := noiseKey key (d.nat 12 4)
        let ctx : TallyCtx := { decl := decl, base := base, sampler := sampler, p1 := p1, p2 := p2, k0 := k0, k1 := k1 }
        some (s.startStride d {
          table := table
          kind := .tally { ctx := ctx, clear := d.nat 9 1 % 2 == 1, slot := slot, desc := id }
          desc := some id
          key := BitVec.ofNat 64 (d.nat 36 8)
          left := d.nat 34 2 })
    | _, _ => some (s.finishDesc id 0x0200 0))

/-- The result of a sampler for a count: a value outside INT64, or equal to −2^63, is poisoned (R402). -/
def noisyCount (count : BitVec 64) (z : Int) : PWord × Bool :=
  let v := count.toInt + z
  if -(2 ^ 63) < v ∧ v < 2 ^ 63 then ({ val := BitVec.ofInt 64 v }, false) else ({ poison := true }, true)

/-- The finishing step on one cell of an owner (R403). Answers whether it was pending. -/
def State.finishCell (s : State) (t : TallyDecl) (c : TallyCtx) (rank k i : Nat) : State × Bool :=
  let at_ := t.prot / 8 + i
  let w := (s.tile k).word at_
  if w.poison || w.val != pendingCell then (s, false)
  else
    let n := (s.tile k).word (t.table / 8 + i)
    let cell := c.base + rank * t.cpo + i
    let z := noiseUnbounded c.sampler c.p1 c.p2 c.k0 c.k1 (BitVec.ofNat 64 cell)
    let (v, wide) := if n.poison then ({ poison := true }, false) else noisyCount n.val z
    let s := s.onTile k (fun tl => (s.touchAll k tl [at_, t.table / 8 + i]).putWord at_ v)
    (if wide then s.onTile k (fun tl => tl.raise (s.tileNote k 0x0604 (BitVec.ofNat 64 cell))) else s, true)

/-- TALLY_FINISH (R403): the finishing step, then the run's descriptor ends; erases that waited for it proceed (19, R572). -/
def execTallyFinish (id : Nat) (s : State) : Host.Outcome State Fault Refusal :=
  match s.desc id with
  | none => turnedAway s
  | some d =>
    let p := d.paddock
    match (s.paddock p).run with
    | none => turnedAway s
    | some run =>
      match look (s.paddock p).tallies run.ctx.decl with
      | none => turnedAway s
      | some t =>
        if run.desc ≠ id then turnedAway s
        else
          let ks := (s.paddock p).tallyOwners run.ctx.decl
          let cells := (((List.range ks.length).zip ks).map (fun x => (List.range t.cpo).map (fun i => (x.1, x.2, i)))).flatten
          let (s, n) := cells.foldl (fun (acc : State × Nat) c =>
            let (s, b) := acc.1.finishCell t run.ctx c.1 c.2.1 c.2.2
            (s, acc.2 + (if b then 1 else 0))) (s, 0)
          let due := (s.paddock p).eraseDue.length
          let s := s.onPaddock p (fun pd => { pd with
            run := none
            relKeys := pd.eraseDue.foldl (fun m k => drop m k) pd.relKeys
            eraseDue := [] })
          .next (((s.cntPaddock p 18 n).cntFrame 23 due).onDesc id (fun x => { x with
            status := some (x.status.getD x.strideStatus)
            result := BitVec.ofNat 64 n })).bump

/-! ## SCREEN, known answers (13, R386; 14, R439) -/

/-- A SCREEN's regions that no paddock owns leave SERVICE: they are GATED or TRANSIT, as R35 decides. -/
def State.leaveService (s : State) (d : Desc) : State :=
  if d.paddock ≠ 0 then s
  else ((screenRegions d).foldl (fun s r =>
    s.onRegion r (fun g => if g.state = .service then { g with state := .gated } else g)) s).settleTransit

/-- A SCREEN of a mode, when no stride of its paddock is open; `body` answers the output and the tiles that failed. -/
def screenWork (id mode : Nat) (s : State) (body : Desc → State → Option (State × List (Nat × Bool) × Nat)) :
    Host.Outcome State Fault Refusal :=
  descWork id 0x0060 s (fun d s =>
    if d.nat 8 1 ≠ mode || (s.paddock d.paddock).current.isSome then none
    else if !s.screenMaskOk d then some (s.finishDesc id 0x0200 0)
    else match body d (s.enterService d) with
      | none => some ((s.leaveService d).finishDesc id 0x0200 0)
      | some (s, bs, failed) =>
        let s := s.leaveService d
        let (clean, bad) := cleanPrefix 0 bs
        let s := s.deliver d (d.nat 48 8) clean
        let tested := ((screenTiles d).filter s.standing).length
        if bad then some ((s.egress d.paddock 0xDFFF (BitVec.ofNat 64 (d.nat 48 8))).finishDesc id 0x0100 0)
        else some (s.finishDesc id 0 (BitVec.ofNat 64 (tested + failed * 2 ^ 32))))

/-- SCREEN_GENERATOR_KA. -/
def execScreenGeneratorKa (id : Nat) (s : State) : Host.Outcome State Fault Refusal :=
  screenWork id 1 s (fun d s =>
    let recs := recordsOf 24 (s.hostRead (d.nat 32 8) (24 * d.nat 40 4))
    let out := recs.map (fun b =>
      let w := fun i => BitVec.ofNat 32 (descNat b (4 * i) 4)
      ((generator (w 0) (w 1) (w 2) (w 3) (w 4) (w 5)).map (fun x => bytesLE 4 x.toNat)).flatten)
    some (s, out.flatten.map (fun b => (b.toNat, false)), 0))

/-- A result word as bytes with its poison. -/
def outBytes (w : PWord) : List (Nat × Bool) := (bytesLE 8 w.val.toNat).map (fun b => (b.toNat, w.poison))

/-- SCREEN_SAMPLER_KA: the tile path within its budget, and the finishing path. -/
def execScreenSamplerKa (id : Nat) (s : State) : Host.Outcome State Fault Refusal :=
  screenWork id 2 s (fun d s =>
    let p1 := d.nat 56 4
    let p2 := d.nat 60 4
    let recs := recordsOf 32 (s.hostRead (d.nat 32 8) (32 * d.nat 40 4))
    let smp := fun b => descNat b 24 1
    if recs.any (fun b => smp b == 0 || !samplerOk (smp b) p1 p2) then none
    else
      let key := fun b n => BitVec.ofNat 32 (descNat b n 4)
      let noisy := fun b z => (noisyCount (wordAt b 16) z).1
      let tilePath := fun b => match noiseOf (smp b) p1 p2 (key b 0) (key b 4) (wordAt b 8) (laneBudget (smp b)) with
        | some z => noisy b z
        | none => { val := pendingCell }
      let finishing := fun b => noisy b (noiseUnbounded (smp b) p1 p2 (key b 0) (key b 4) (wordAt b 8))
      some (s, (recs.map (fun b => outBytes (tilePath b) ++ outBytes (finishing b))).flatten, 0))

/-! ## SEAL_ISSUE (12, R377 to R382) -/

/-- A seal record: body, signature, 256 zero bytes (Table 12.4). -/
def State.sealRecord (s : State) (d : Desc) : List (BitVec 8) :=
  let body := s.sealBody d s.debugOpen partProfile Config.serial.toNat
  let sig := Config.signature (if s.debugOpen then 1 else 0) (sha256 body)
  body ++ (sig ++ List.replicate 384 0).take 384 ++ List.replicate 256 0

/-- SEAL_ISSUE: the work's records enter the chains, then the seal is built, signed and written. -/
def execSealIssue (id : Nat) (s : State) : Host.Outcome State Fault Refusal :=
  match s.desc id with
  | none => turnedAway s
  | some d =>
    match d.status with
    | none => turnedAway s
    | some st =>
      if !s.sealDue d || s.halted || s.d3hot then turnedAway s
      else
        let p := d.paddock
        let (s, st) := (s.addLate d).finalSlot d st
        let d := { (s.desc id).getD d with status := some st }
        let s := s.addRecords d d.chainRecords
        let x := (s.paddock p).seals
        let n := x.sequence.toNat + 1
        let s := s.hostWrite (x.base.toNat + 1024 * (n % 2 ^ x.log2)) (s.sealRecord d)
        let s := s.onDesc id (fun y => { y with status := some st, slot := none, records := [], sealed := true })
        .next ((s.onPaddock p (fun pd => { pd with seals := { x with
          sequence := x.sequence + 1
          unsealedIn := false
          unsealedOut := false
          replayed := false
          restored := false
          takeover := false
          stretched := false
          spanStart := d.count.getD pd.paceCount
          held := 0 } })).cntPaddock p 3 1).bump

end Sys2Proof.Machine
end

