-- ==== Sys2Proof/Machine/Repair.lean ====
section
/-! DEFINITION. Repair: table flips and shift repairs, re-placement, retirement, the patina map, and SCREEN in self-test mode
(09, R298; 16, R500, R501; 17, R505 to R522). -/

namespace Sys2Proof.Machine

/-! ## Row segments (R508, R511) -/

/-- The unused spare columns of a tile's segment; none where its shift chain failed factory test (R505; log entry 130). -/
def State.spareCols (s : State) (k : Nat) : List Nat :=
  let cols := s.colsOf k
  let x0 := 72 * (tileX k / 70)
  let row := (s.physOf k).2
  if s.cast.chains.contains (tileX k / 70 + 12 * (tileY k / 78), s.physRow k) then []
  else (List.range 72).filter (fun c =>
    !cols.contains (some c) && !s.known.any (fun e => e.removes (x0 + c) row))

/-- The spare nearest a column, the west one on a tie. -/
def nearestCol (c : Nat) (zs : List Nat) : Option Nat :=
  let far := fun (z : Nat) => if z < c then c - z else z - c
  zs.foldl (fun best z => match best with
    | some b => if far z < far b then some z else some b
    | none => some z) none

/-- Columns in ascending order laid over the logical columns that are no hole. -/
def layCols : List (Option Nat) → List Nat → List (Option Nat)
  | [], _ => []
  | none :: l, cs => none :: layCols l cs
  | some _ :: l, c :: cs => some c :: layCols l cs
  | some c :: l, [] => some c :: layCols l []

/-- The columns of a segment and its spares after a column is given up (R511, R517): the spare nearest it is taken, or, with
none left, logical column `i` becomes a routed hole. -/
def giveUp (acc : List (Option Nat) × List Nat) (i dead : Nat) : List (Option Nat) × List Nat :=
  let used := (List.range 72).filter (fun c => acc.1.contains (some c) && c != dead)
  match nearestCol dead acc.2 with
  | some z => (layCols acc.1 ((List.range 72).filter (fun c => c == z || used.contains c)), acc.2.filter (· != z))
  | none => (layCols (modifyAt acc.1 i (fun _ => none)) used, acc.2)

/-! ## The shift (R512 to R517) -/

/-- A stored word carried over the shift chain: a single-bit error is corrected on the way. -/
def carryWords (m : Map MWord) : Map MWord :=
  (m.map (fun kv => (kv.1, if kv.2.ecc = .single then { kv.2 with ecc := .good } else kv.2))).filter (fun kv => decide (kv.2 ≠ ({} : MWord)))

/-- A moved tile: what the chain carries, over the state of the position that receives it; set-up, router tables, gather
nodes and the tile's dealings with the mesh go with the logical tile (log entry 80). -/
def carryTile (t position : Tile) : Tile :=
  { position with
    mem := carryWords t.mem
    poseMem := carryWords t.poseMem
    slots := t.slots
    inForce := t.inForce
    queues := t.queues
    syncs := t.syncs
    taps := t.taps
    service := t.service
    protTop := t.protTop
    parked := t.parked
    deadPorts := t.deadPorts
    detourA := t.detourA
    detourB := t.detourB
    leaves := t.leaves
    nodes := t.nodes
    nextRef := t.nextRef
    raised := t.raised
    inject := t.inject }

/-- The logical tiles of a segment. -/
def segmentTiles (k : Nat) : List Nat := rangeFrom (tileAt (tileX k / 70 * 70) (tileY k)) 70

/-- The tiles of a segment after a shift from one version of its columns to another: each moved tile on its new position, the
positions that take a dead tile's role reset (Table 17.2, steps 3 and 4). -/
def State.shiftTiles (s : State) (k : Nat) (dead : List Nat) (cols new : List (Option Nat)) : State :=
  let ks := segmentTiles k
  let at_ := fun (c : Option Nat) => match cols.findIdx? (fun x => x == c) with
    | some i => s.tile (ks.getD i 0)
    | none => Tile.reset
  (List.range 70).foldl (fun s' i =>
    let ki := ks.getD i 0
    if (new.getD i none).isNone then s'
    else if dead.contains ki then
      s'.setTile ki { (s.tile ki).afterReset with deadPorts := 0, inject := [], nodes := (s.tile ki).nodes, leaves := (s.tile ki).leaves }
    else if cols.getD i none = new.getD i none then s'
    else s'.setTile ki (carryTile (s.tile ki) (at_ (new.getD i none)))) s

/-- Ports of a repaired tile's neighbours that faced it live again (R285, R513). -/
def State.reviveNeighbours (s : State) (k : Nat) : State :=
  (List.range 4).foldl (fun s d => match neighbour k d with
    | none => s
    | some j => s.onTile j (fun t => { t with deadPorts := t.deadPorts &&& ~~~(1#4 <<< (opposite d)) })) s

/-- Expert slot groups with a lane that lands in one of the tiles become empty (10, R344). -/
def State.emptyLanes (s : State) (p : Nat) (ks : List Nat) : State :=
  let d := s.paddock p
  let lands := fun (l : RemountLane) => (s.rein p l.rein).any (fun r => ks.contains r.sink)
  let hit := (d.remount.groups.filter (fun g => g.2.lanes.any lands)).map Prod.fst
  s.onPaddock p (fun d => d.onRemount (fun m => { m with slots := m.slots.filter (fun kv => !hit.contains (kv.1 / 16)) }))

/-- What follows a repair in the paddock of the tile: its open stride replays, or, with none open, its tiles start as for a
mark that names none of them (R514; log entry 81). -/
def State.resumePaddock (s : State) (p : Nat) : State :=
  let d := s.paddock p
  match d.current, d.image with
  | some o, _ => s.setPaddock p { d with current := some { o with stopped := true, replayDue := true } }
  | none, some i =>
    if d.ended.isSome || s.standby p then s
    else (s.paddockTiles p).foldl (fun s k =>
      if (s.paceRegions p).contains (regionOfTile k) then
        s.onTile k (fun t => i.startTile d.placement k { t.quiesce with syncs := [] })
      else s) s
  | none, none => s

/-- Open reins of other paddocks that cross a moved segment keep their physical path (09, R299): each router of the segment that
they use is now that of the logical tile which has taken its position. -/
def State.keepPaths (s : State) (p k : Nat) (cols new : List (Option Nat)) : State :=
  let ks := segmentTiles k
  let host := fun (j : Nat) =>
    if !ks.contains j then j
    else match new.findIdx? (fun x => x == cols.getD (tileX j % 70) none) with
      | some i => ks.getD i j
      | none => j
  { s with paddocks := s.paddocks.map (fun (kv : Nat × Paddock) => if kv.1 = p then kv else (kv.1, { kv.2 with
      reins := kv.2.reins.map (fun (r : Rein) => if r.state = .closed || r.state = .broken then r
        else { r with shifts := (((r.hops.map Hop.dest).filter ks.contains).eraseDups).map (fun j =>
                (((r.shifts.find? (fun x => x.2 == j)).map Prod.fst).getD j, host j))
              ++ r.shifts.filter (fun x => !ks.contains x.2) }) })) }

/-- The new version of the columns of the first repair's segment, all the repairs of the flip in that segment applied (R511,
R517). -/
def State.newCols (s : State) (reps : List Repair) (k : Nat) : List (Option Nat) :=
  ((reps.filter (fun x => sameSegment x.tile k)).foldl (fun acc x => giveUp acc (tileX x.tile % 70) x.col)
    (s.colsOf k, s.spareCols k)).1

/-- The repairs of a flip are written into the idle version of the maps, and the tiles of their segments are carried over the
shift chains (Table 17.2, steps 3 to 5). -/
def State.beginRepairs (s : State) (reps : List Repair) : State :=
  let firsts := ((reps.map (fun x => segmentTiles x.tile)).eraseDups).map (fun ks => ks.getD 0 0)
  firsts.foldl (fun s k =>
    let cols := s.colsOf k
    let new := s.newCols reps k
    let dead := (reps.filter (fun x => sameSegment x.tile k)).map Repair.tile
    let s := (s.shiftTiles k dead cols new).keepPaths (s.ownerOf k) k cols new
    { s with segIdle := putD shippedCols s.segIdle (s.segOf k) new }) s

/-- A repair's logical position in the new version: rebuilt, or a routed hole (R514, R518). -/
def State.endRepair (s : State) (k : Nat) : State :=
  let p := s.ownerOf k
  let r := regionOfTile k
  if ((s.colsOf k).getD (tileX k % 70) none).isSome then
    let s := { s with holes := s.holes.filter (· != k), repairsDone := s.repairsDone + 1 }.reviveNeighbours k
    let s := match (s.paddock p).image with
      | some i => if p = 0 then s else s.prepareTile p i (s.paddock p).placement k
      | none => s
    s.cntRegion r 10 1
  else
    let s := { s with holesNew := if s.holesNew = 255 then 255 else s.holesNew + 1 }.cntRegion r 12 1
    if p = 0 then s else s.onPaddock p (fun d => { d with replaceDue := some (d.replaceDue.getD r) })

/-- A repair that still waits in a segment that a flip has changed is of the logical tile that now stands on its column. -/
def State.followRepair (s : State) (x : Repair) : State :=
  match (s.colsOf x.tile).findIdx? (fun c => c == some x.col) with
  | none => s
  | some i =>
    let k := (segmentTiles x.tile).getD i 0
    if k = x.tile then s
    else
      { (s.onTile k (fun t => { t with parked := true })) with
        holes := s.holes.filter (· != x.tile) ++ [k]
        repairs := s.repairs.map (fun y => if y.tile = x.tile then { y with tile := k } else y) }

/-- The tiles of the segments that a flip has changed that moved. -/
def State.movedTiles (s : State) (old : Map (List (Option Nat))) (reps : List Repair) : List Nat :=
  let ks := ((reps.map (fun x => segmentTiles x.tile)).eraseDups).flatten
  ks.filter (fun k => decide ((getD shippedCols old (s.segOf k)).getD (tileX k % 70) none ≠ (s.colsOf k).getD (tileX k % 70) none))

/-! ## Holes merged (09, R296) and contact routers (07, R621) -/

/-- Whether the detour rings of two holes would touch: rings one router wide that share a router (log entry 131). -/
def ringsTouch (a b : Nat × Nat × Nat × Nat) : Bool :=
  decide (a.1 ≤ b.2.2.1 + 2) && decide (b.1 ≤ a.2.2.1 + 2) && decide (a.2.1 ≤ b.2.2.2 + 2) && decide (b.2.1 ≤ a.2.2.2 + 2)

/-- The rectangle that bounds two. -/
def boundRects (a b : Nat × Nat × Nat × Nat) : Nat × Nat × Nat × Nat :=
  (min a.1 b.1, min a.2.1 b.2.1, max a.2.2.1 b.2.2.1, max a.2.2.2 b.2.2.2)

/-- A rectangle added to a list of which no two touch, those that it touches merged into it. -/
def addRect : Nat → Nat × Nat × Nat × Nat → List (Nat × Nat × Nat × Nat) → List (Nat × Nat × Nat × Nat)
  | 0, r, l => r :: l
  | fuel + 1, r, l =>
    match l.find? (fun x => ringsTouch r x) with
    | none => r :: l
    | some x => addRect fuel (boundRects r x) (l.erase x)

/-- The bounding rectangles of holes. -/
def holeRects (ks : List Nat) : List (Nat × Nat × Nat × Nat) :=
  ks.foldl (fun l k => addRect l.length (tileX k, tileY k, tileX k, tileY k) l) []

/-- The tiles that count as holes inside merged rectangles: those of the holes that wait for no repair. -/
def State.mergedNow (s : State) : List Nat :=
  let holes := s.holes.filter (fun k => !s.repairs.any (fun x => x.tile == k))
  let rects := (holeRects holes).filter (fun r => decide (r.1 < r.2.2.1 ∨ r.2.1 < r.2.2.2))
  ((rects.map (fun r => rectTiles [r])).flatten).filter (fun k => !holes.contains k)

/-- The detour tables' holes merged: a tile that newly counts as a hole leaves service, and its paddock re-places (R520). -/
def State.mergeHoles (s : State) : State :=
  let new := s.mergedNow
  let fresh := new.filter (fun k => !s.merged.contains k)
  fresh.foldl (fun s k =>
    let s := s.onTile k (fun t => { t with parked := true })
    let p := s.ownerOf k
    if p = 0 then s else s.onPaddock p (fun d => { d with replaceDue := some (d.replaceDue.getD (regionOfTile k)) }))
    { s with merged := new }

/-- Distance over the mesh. -/
def hopDistance (a b : Nat) : Nat :=
  let gap := fun (x y : Nat) => if x < y then y - x else x - y
  gap (tileX a) (tileX b) + gap (tileY a) (tileY b)

/-- The in-use tile of a region nearest its contact position: lower y, then lower x, on ties (07, R621; log entry 132). -/
def State.nearestContact (s : State) (r : Nat) : Option Nat :=
  let home := tileAt (210 * (r % 4) + 105) (78 * (r / 4) + 39)
  (rectTiles [(210 * (r % 4), 78 * (r / 4), 210 * (r % 4) + 209, 78 * (r / 4) + 77)]).foldl (fun best k =>
    if !s.present k then best
    else match best with
      | some b => if hopDistance k home < hopDistance b home then some k else best
      | none => some k) none

/-- Contact routers whose position has become a hole are moved. -/
def State.moveContacts (s : State) : State :=
  (List.range 28).foldl (fun s r =>
    if s.present (s.contactTile r) then s else s.onRegion r (fun g => { g with contact := s.nearestContact r })) s

/-! ## Flips (09, R298; R513) -/

/-- The field of a tile. -/
def fieldOf (k : Nat) : Nat := tileX k / 70 + 12 * (tileY k / 78)

/-- The tiles that a repair moves: those between the dead tile and the spare that it takes (R511). -/
def State.movingSet (s : State) (x : Repair) : List Nat :=
  let cols := s.colsOf x.tile
  let new := (giveUp (cols, s.spareCols x.tile) (tileX x.tile % 70) x.col).1
  ((segmentTiles x.tile).zip (cols.zip new)).filterMap (fun y => if y.2.1 = y.2.2 then none else some y.1)

/-- The repairs that a flip carries: in each field the first that waits (01, R24), with those of its moving set, which died in
its shift copy (R517; log entry 80). -/
def State.markFlipping (s : State) : List Repair :=
  s.repairs.map (fun x => { x with flipping := match s.repairs.find? (fun y => fieldOf y.tile == fieldOf x.tile) with
    | some y => y.tile == x.tile || (s.movingSet y).contains x.tile
    | none => false })

/-- A router's idle detour table replaced; `toB` says which version is idle. -/
def Tile.writeDetours (t : Tile) (toB : Bool) (m : Map (BitVec 64)) : Tile := if toB then { t with detourB := m } else { t with detourA := m }

/-- A flip begins (R298, step 1): the idle version of every router holds the new content, that of a router the change does not
touch being its content in force (log entry 82), and the repairs of the flip run as far as step 5 of Table 17.2. Paddocks
stopped for a repair change their epoch at once, with the WINDOW_MARK of step 6, and so do regions out of service. -/
def State.beginFlip (s : State) (detours : List (Nat × List (BitVec 64))) : State :=
  let toB := !s.epoch
  let keep := s.tiles.map (fun kv => (kv.1, kv.2.writeDetours toB (if toB then kv.2.detourA else kv.2.detourB)))
  let s := { s with tiles := keep.filter (fun kv => decide (kv.2 ≠ Tile.reset)) }
  let s := detours.foldl (fun s x => s.onTile x.1 (fun t =>
    t.writeDetours toB (((List.range 32).zip x.2).foldl (fun m e => putD 0 m e.1 e.2) []))) s
  let all := s.markFlipping
  let reps := all.filter Repair.flipping
  let s := (({ s with repairs := all, flip := true, segIdle := s.segMap } : State)).beginRepairs reps
  let stopped := fun (p : Nat) => reps.any (fun x => s.ownerOf x.tile == p)
  (List.range 28).foldl (fun s r =>
    let g := s.region r
    let live := match g.state with | .isolated | .lost | .off => false | _ => true
    if !live || (g.owner != 0 && stopped g.owner) then s.setRegion r { g with epoch := !s.epoch } else s) s

/-- TABLE_FLIP_REQUEST: a change requested before the previous flip completes waits for it. -/
def execTableFlipRequest (detours : List (TileIx × List (BitVec 64))) (s : State) : Host.Outcome State Fault Refusal :=
  let new := detours.map (fun (x : TileIx × List (BitVec 64)) => (x.1.val, x.2))
  if s.flip then .next { s with flipQueue := s.flipQueue ++ [new] }.bump else .next (s.beginFlip new).bump

/-- Whether a packet of the old epoch is still in a router that is in service. -/
def State.oldFlits (s : State) : Bool :=
  s.net.any (fun p => p.epoch == s.epoch && (match p.pos with
    | .frame => false
    | .router k _ _ => s.sampled (regionOfTile k)
    | .ejected k _ => s.sampled (regionOfTile k)))

/-- The idle version comes into force: the repairs of the flip end, and the paddocks of which none waits any more resume, inside
the same quiesce (R517). -/
def State.endFlip (s : State) : State :=
  let reps := s.repairs.filter Repair.flipping
  let old := s.segMap
  let s := { s with flip := false, epoch := !s.epoch, repairs := s.repairs.filter (fun x => !x.flipping), segMap := s.segIdle, segIdle := old }
  let s := (reps.map Repair.tile).foldl State.endRepair s
  let moved := s.movedTiles old reps
  let s := (s.repairs.foldl State.followRepair s).mergeHoles.moveContacts
  let owners := (((reps.map (fun x => s.ownerOf x.tile)).eraseDups).filter (· != 0))
  owners.foldl (fun s p =>
    let s := s.emptyLanes p (moved.filter (fun k => s.ownerOf k == p))
    if s.repairs.any (fun x => s.ownerOf x.tile == p) || (s.paddock p).replaceDue.isSome then s else s.resumePaddock p) s

/-- TABLE_FLIP_COMPLETE, and the next table change that waits begins. -/
def execTableFlipComplete (s : State) : Host.Outcome State Fault Refusal :=
  if !s.flip || (List.range 28).any (fun r => (s.region r).epoch == s.epoch) || s.oldFlits then turnedAway s
  else
    let s := s.endFlip.installStirrups
    match s.flipQueue with
    | [] => .next s.bump
    | new :: rest => .next (({ s with flipQueue := rest } : State).beginFlip new).bump

/-! ## Re-placement (R519 to R521) -/

/-- Objects of a new placement, with the values and targets of those that were in use before. -/
def keepObjects (new old : Map BarrierObj) : Map BarrierObj :=
  new.map (fun kv => match look old kv.1 with
    | some o => (kv.1, { kv.2 with value := o.value, target := o.target })
    | none => kv)

/-- The fallback without region `r` comes into force, and the open stride replays (Table 17.4; log entry 83). -/
def State.rePlace (s : State) (p r : Nat) (i : Image) : State :=
  let d := s.paddock p
  let before := s
  let s := ((s.abandonStride p).quiesce p).install p i (r + 1)
  let s := (i.regionsIn (r + 1)).foldl (fun s q => s.onRegion q (fun g => { g with
    barriers := keepObjects g.barriers (before.region q).barriers
    marked := keepObjects g.marked (before.region q).marked })) s
  let s := s.onPaddock p (fun x => { x with
    wafer := { x.wafer with objs := keepObjects x.wafer.objs d.wafer.objs, marked := keepObjects x.wafer.marked d.wafer.marked }
    remount := { d.remount with groups := x.remount.groups, layers := x.remount.layers, slots := [] }
    lastRun := d.lastRun
    replaceDue := none
    replacements := if x.replacements = 255 then 255 else x.replacements + 1
    current := d.current.map (fun o => { o with stopped := true, replayDue := true }) })
  s.cntRegion r 13 1

/-- PD_REPAIR_CTRL of a paddock. -/
def State.repairCtrl (s : State) (p : Nat) : BitVec 64 := s.frameReg (0x00304000 + 0x40 * p) 1

/-- RE_PLACEMENT: the fallback of the region concerned, or, where it is not possible, the end of the job (R521). -/
def execRePlacement (p : PaddockId) (s : State) : Host.Outcome State Fault Refusal :=
  let d := s.paddock p
  match d.replaceDue with
  | none => turnedAway s
  | some r =>
    if s.halted then turnedAway s
    else
      let ctrl := s.repairCtrl p
      let twin := bitOf ctrl 1 && s.shared p && d.pairMode == 2 && d.primary
      match d.image with
      | none => .next (s.onPaddock p (fun d => { d with replaceDue := none })).bump
      | some i =>
        if twin || !bitOf ctrl 0 || !(i.placements).contains (r + 1) || (d.excluded != none && d.excluded != some r) then
          .next ((s.failJob p 0x0102).onPaddock p (fun d => { d with replaceDue := none })).bump
        else .next (s.rePlace p r i).bump

/-! ## Retirement and the patina map (R506, R515) -/

/-- Suspect entries of a tile's physical position. -/
def State.suspectCount (s : State) (k : Nat) : Nat := (s.suspectPlaces.filter (· == s.tilePlace k)).length

/-- TILE_RETIRE: a worn tile is retired once no paddock owns its region. -/
def execTileRetire (k : TileIx) (s : State) : Host.Outcome State Fault Refusal :=
  if !s.present k || !s.worn (s.tilePlace k) || s.ownerOf k != 0 || s.halted then turnedAway s
  else .next ((s.removeTile k 3).cntRegion (regionOfTile k) 11 1).bump

/-- A sensor pair of which the entry just added names the second failed element reads 100 °C until the module is reset (15, R469). -/
def State.loseSensor (s : State) (e : PatinaEntry) : State :=
  let pair := e.place.toNat % 4
  let n := 4 * e.unit + pair
  if e.kind = 10 && decide (e.unit < 84) && s.sensorFailed e.unit pair 0 && s.sensorFailed e.unit pair 1 && !s.hotPairs.contains n then
    { s with hotPairs := s.hotPairs ++ [n] }
  else s

/-- PATINA_WRITE: an entry is added to both copies under a new sequence number. -/
def execPatinaWrite (entry : BitVec 128) (s : State) : Host.Outcome State Fault Refusal :=
  let v := entry.toNat
  let e : PatinaEntry := { kind := v % 2 ^ 16, unit := v / 2 ^ 16 % 2 ^ 16, place := BitVec.ofNat 32 (v / 2 ^ 32), pace := BitVec.ofNat 64 (v / 2 ^ 64) }
  if !(Instr.patinaWrite entry).wellFormed then turnedAway s
  else
    .next (({ s with
      patina := s.patina ++ [e]
      patinaSeq := (s.patinaSeq + 1) % 2 ^ 32
      patinaDue := s.patinaDue.filter (fun x => !(x.kind == e.kind && x.unit == e.unit && x.place == e.place)) } : State).loseSensor e).bump

/-! ## SCREEN in self-test mode (16, R500, R501) -/

/-- The output record of a failed tile. -/
def testRecord (k : Nat) (test unit : BitVec 8) (result : BitVec 64) : List (BitVec 8) :=
  bytesLE 2 (tileX k) ++ bytesLE 2 (tileY k) ++ [test, unit, 0, 0] ++ bytesLE 8 result.toNat

/-- SCREEN_SELF_TEST: the operand names the tiles that fail; those of the mask are recorded and isolated. -/
def execScreenSelfTest (id : Nat) (failures : List (TileIx × BitVec 8 × BitVec 8 × BitVec 64)) (s : State) :
    Host.Outcome State Fault Refusal :=
  screenWork id 0 s (fun d s =>
    let hit := if failures.isEmpty then [] else
      ((screenTiles d).filter s.standing).filterMap (fun k => failures.find? (fun f => f.1.val == k))
    let bytes := (hit.map (fun f => testRecord f.1 f.2.1 f.2.2.1 f.2.2.2)).flatten
    some (hit.foldl (fun s f => s.isolateTile f.1) s, bytes.map (fun b => (b.toNat, false)), hit.length))

end Sys2Proof.Machine
end

