-- ==== Sys2Proof/Machine/Power.lean ====
section
/-! DEFINITION. Power and heat: feeds, converters, phases, eFuses, caps, the ledger period, throttles, coolant
(15, R448 to R472). -/

namespace Sys2Proof.Machine

/-! ## Caps (R451 to R453, Tables 15.5, 15.7) -/

/-- The module cap in W: by feeds and converters, then the coolant limits. -/
def State.moduleCap (s : State) : Nat :=
  let feeds := if s.feedA && s.feedB then 29000 else if s.feedA || s.feedB then 17000 else 0
  let c := min (feeds - 2500 * (13 - s.converters)) s.coolantCap
  if s.coolantFlow ≤ 45 then c * s.coolantFlow / 50 else c

/-- The thermal limit of a region at a temperature in °C. -/
def thermalCap (t : Nat) : Nat := if t ≤ 85 then 900 else if t < 100 then 900 - 30 * (t - 85) else 450

/-- The cap of a region with `w` working phases. -/
def phaseCap (w : Nat) : Nat := if 40 ≤ w then 900 else 900 * w / 40

/-- The effective cap of a region (R453). -/
def State.effectiveCap (s : State) (g : Region) : Nat :=
  min (min 900 ((s.moduleCap - 3800) / 28)) (min (thermalCap g.tempC) (phaseCap g.phases))

/-- Whether a region has its supply. -/
def Region.supplied (g : Region) : Bool := match g.state with | .off | .lost => false | _ => true

/-- The caps of all regions computed. -/
def State.setCaps (s : State) : State :=
  (List.range 28).foldl (fun s r =>
    let g := s.region r
    if g.supplied then s.setRegion r { g with capW := s.effectiveCap g } else s) s

/-! ## Throttles (R464, Table 15.4) -/

/-- The duty of a throttle cause. -/
def causeDuty (c : Nat) : Nat := if c = 1 || c == 3 then 6 else 4

/-- PW_REGIONr.duty: the least over the causes that apply. -/
def Region.duty (g : Region) : Nat := (g.throttle.map causeDuty).foldl min 8

/-- A cause engaged. -/
def Region.engage (g : Region) (c : Nat) : Region :=
  if g.throttle.contains c then g else { g with throttle := g.throttle ++ [c] }

/-- A cause released. -/
def Region.disengage (g : Region) (c : Nat) : Region := { g with throttle := g.throttle.filter (· != c) }

/-- A change of every ACTIVE region. -/
def State.onActive (s : State) (f : Region → Region) : State :=
  (List.range 28).foldl (fun s r => if (s.region r).state = .active then s.onRegion r f else s) s

/-! ## The ledger period (R455 to R457, R469, R470) -/

/-- The percent shares of a region's sub-ledgers; what is not shared out goes to background. -/
def State.shares (s : State) (g : Region) : Nat × Nat × Nat :=
  if g.owner = 0 then (0, 0, 100)
  else let d := s.paddock g.owner; (d.latency, d.normal, 100 - d.latency - d.normal)

/-- A sub-ledger with its gain: clipped to its limit first (R456), then the new balance, and what spills above the limit. -/
def refill (balance gain : Int) (limit : Nat) : Int × Int :=
  let b := min balance limit + gain
  if (limit : Int) < b then (limit, b - limit) else (b, 0)

/-- A region at a ledger period: refilled, spilled and clipped, with the balances the planner uses until the next. -/
def Region.period (g : Region) (sh : Nat × Nat × Nat) (carry : Nat) : Region :=
  let part := fun (n : Nat) => n * g.capW
  let (a, x) := refill g.latencyUj (part sh.1) (part sh.1 * carry)
  let (b, y) := refill g.normalUj (part sh.2.1 + x) (part sh.2.1 * carry)
  let (c, _) := refill g.backgroundUj (part sh.2.2 + y) (part sh.2.2 * carry)
  let clear := fun (v : Int) (cause : Nat) (g : Region) => if 0 ≤ v then g.disengage cause else g
  clear a 4 (clear b 6 (clear c 7 { g with latencyUj := a, normalUj := b, backgroundUj := c, periodUj := (a, b, c), planShares := sh }))

/-- A region's temperature of a period: the limits it crosses are reported, and the throttle of 100 °C is set or released
(Table 15.5). -/
def State.takeTemp (s : State) (r t : Nat) : State :=
  let g := s.region r
  let hot := s.hotPairs.any (fun n => 4 * (n / 4 / 12) + n / 4 % 12 / 3 == r)
  let t := if hot then max t 100 else t
  let s := if 85 < t ∧ g.tempC ≤ 85 then s.raise (frameReport (0x6000 + r) 0x0504 clsNote 0 0) else s
  let s := if 110 ≤ t ∧ g.tempC < 110 then s.raise (frameReport (0x6000 + r) 0x0506 clsInfra 0 0) else s
  let g := { g with tempC := t }
  s.setRegion r (if 100 ≤ t then g.engage 5 else if t < 98 then g.disengage 5 else g)

/-- The coolant of a period: inlet in °C and flow in L/min (Table 15.7). -/
def State.takeCoolant (s : State) (inlet flow : Nat) : State :=
  let derate := decide (35 < inlet) || decide (flow ≤ 45)
  let s := if derate && !s.coolantDerate then s.raise (frameReport 0x6FFF 0x0510 clsNote 0 0) else s
  { s with
    pldm := { s.pldm with inlet := inlet }
    coolantCap := if inlet ≤ 35 then 29000 else 29000 - 1800 * (min inlet 40 - 35)
    coolantFlow := flow
    coolantDerate := derate }

/-- PW_PLAN.carry_periods. -/
def State.carryPeriods (s : State) : Nat := field (s.frameReg 0x00200010 0x0000320028202000) 40 8

/-- The balance gauges of a region (20, Table 20.4, words 3 to 5). -/
def State.writeBalances (s : State) (r : Nat) : State :=
  let p := (s.region r).periodUj
  [(3, p.1), (4, p.2.1), (5, p.2.2)].foldl (fun s x => { s with cntWin := putD 0 s.cntWin (0x2000 + 0x100 * r + x.1) (s.gauge x.2) }) s

/-- The flow that Table 15.7 is applied to: twice the lower of the two pair flows (21, R600). -/
def appliedFlow (p : Nat × Nat) : Nat := 2 * min p.1 p.2

/-- The energy of transit traffic and of routers kept at a higher step, in µJ, debited from a region's background sub-ledger
(R457). -/
def State.debitTransit (s : State) (r uj : Nat) : State :=
  if uj = 0 then s else (s.onRegion r (fun g => g.debit 2 uj)).cntRegion r 2 uj

/-- LEDGER_PERIOD: `temps` holds the temperatures of the 28 regions, the coolant's inlet temperature and its pair flows, and then,
where given, the transit energy of each region in the period that ends. -/
def execLedgerPeriod (temps : List Nat) (s : State) : Host.Outcome State Fault Refusal :=
  if !(Instr.ledgerPeriod temps).wellFormed then turnedAway s
  else if !s.ready then turnedAway s
  else
    let s := (List.range 28).foldl (fun s r => if (s.region r).supplied then s.takeTemp r (temps.getD r 0) else s) s
    let s := (s.takeCoolant (temps.getD 28 0) (appliedFlow (temps.getD 29 0, temps.getD 30 0))).setCaps
    let carry := s.carryPeriods
    let s := (List.range 28).foldl (fun s r => if (s.region r).supplied then s.debitTransit r (temps.getD (31 + r) 0) else s) s
    .next ((List.range 28).foldl (fun s r =>
      let g := s.region r
      if g.supplied then (s.setRegion r (g.period (s.shares g) carry)).writeBalances r else s) s).bump

/-! ## Limits within a stride -/

/-- REGION_POWER_LIMIT: duty 6, and 4 where the cause has persisted. -/
def execRegionPowerLimit (r : RegionIx) (s : State) : Host.Outcome State Fault Refusal :=
  if !s.clocked r then turnedAway s
  else .next (s.onRegion r (fun g => if g.throttle.contains 1 then g.engage 2 else g.engage 1)).bump

/-- MODULE_POWER_LIMIT: duty 6 in every ACTIVE region. -/
def execModulePowerLimit (s : State) : Host.Outcome State Fault Refusal := .next (s.onActive (fun g => g.engage 3)).bump

/-- THROTTLE_RELEASE: the power causes end when absent for 1 ms; the others end as Table 15.4 states. -/
def execThrottleRelease (r : RegionIx) (cause : Nat) (s : State) : Host.Outcome State Fault Refusal :=
  let g := s.region r
  if cause = 1 ∧ g.throttle.contains 1 then .next (s.setRegion r ((g.disengage 1).disengage 2)).bump
  else if cause = 3 ∧ g.throttle.contains 3 then .next (s.setRegion r (g.disengage 3)).bump
  else turnedAway s

/-! ## Feeds, converters, phases, eFuses -/

/-- Whether a feed is in its operating range. -/
def State.feedOk (s : State) (b : Bool) : Bool := if b then s.feedB else s.feedA

/-- A feed's ok bit. -/
def State.setFeed (s : State) (b v : Bool) : State := if b then { s with feedB := v } else { s with feedA := v }

/-- FEED_LOST (R467): the caps fall at once; every ACTIVE region is throttled. -/
def execFeedLost (b : Bool) (s : State) : Host.Outcome State Fault Refusal :=
  if !s.feedOk b then turnedAway s
  else
    let s := (s.setFeed b false).raise (frameReport (0x7000 + (if b then 1 else 0)) 0x0500 clsInfra 0 0)
    .next ((s.onActive (fun g => g.engage 0)).setCaps).bump

/-- FEED_RESTORED: in range for 1 s; the caps return at the next ledger period. -/
def execFeedRestored (b : Bool) (s : State) : Host.Outcome State Fault Refusal :=
  if s.feedOk b || !s.pwrGood then turnedAway s
  else .next ((s.setFeed b true).raise (frameReport (0x7000 + (if b then 1 else 0)) 0x0501 clsInfra 0 0)).bump

/-- BOTH_FEEDS_LOST (R450): halt, then the module is without power; only a power-up returns it to service. -/
def execBothFeedsLost (s : State) : Host.Outcome State Fault Refusal :=
  if !s.pwrGood then turnedAway s
  else .next { s.halt 4 with feedA := false, feedB := false, pwrGood := false, released := false, ready := false }.bump

/-- CONVERTER_FAIL (R451): the converters are named in the order in which they fail (log entry 91). -/
def execConverterFail (s : State) : Host.Outcome State Fault Refusal :=
  if s.converters = 0 then turnedAway s
  else
    let n := 14 - s.converters
    .next (({ s with converters := s.converters - 1 }.duePatina 9 0 (BitVec.ofNat 32 (0x100 + n))).raise
      (frameReport (0x7002 + n) 0x0503 clsInfra 0 0)).bump

/-- PHASE_FAIL (R452): a spare takes the phase's place while one is left. -/
def execPhaseFail (r : RegionIx) (s : State) : Host.Outcome State Fault Refusal :=
  let g := s.region r
  if g.phases = 0 || !g.supplied then turnedAway s
  else
    let w := g.phases - 1
    let s := s.setRegion r { g with phases := w }
    .next (if 40 ≤ w then
        (s.duePatina 9 r.val (BitVec.ofNat 32 r.val)).raise (frameReport (0x4000 + r.val) 0x0502 clsInfra g.owner 0)
      else if w < 20 then s.raise (frameReport (0x4000 + r.val) 0x0701 clsRegion g.owner 0)
      else s).bump

/-- EFUSE_TRIP (R468): the region becomes LOST, one that was ISOLATED too (log entry 159), and what its tiles and routers held is
gone. -/
def execEfuseTrip (r : RegionIx) (s : State) : Host.Outcome State Fault Refusal :=
  let g := s.region r
  if !g.supplied then turnedAway s
  else
    let s := (s.removeRegion r .lost).onRegion r (fun g => { g with state := .lost, efuse := true, throttle := [] })
    let s := { s with tiles := s.tiles.filter (fun kv => regionOfTile kv.1 != r.val) }
    let dark := fun (p : Packet) => match p.pos with
      | .router k _ _ => regionOfTile k == r.val
      | .ejected k _ => regionOfTile k == r.val
      | .frame => false
    .next ({ s with net := s.net.filter (fun p => !dark p) }.raise (frameReport (0x4000 + r.val) 0x0700 clsRegion g.owner 0)).bump

/-! ## Coolant limits (Table 15.7) -/

/-- COOLANT_INLET_LIMIT. -/
def execCoolantInletLimit (s : State) : Host.Outcome State Fault Refusal :=
  .next (s.raise (frameReport 0x6FFF 0x0507 clsInfra 0 0)).bump

/-- COOLANT_FLOW_LIMIT. -/
def execCoolantFlowLimit (s : State) : Host.Outcome State Fault Refusal :=
  .next (s.raise (frameReport 0x6FFF 0x0507 clsInfra 0 0)).bump

end Sys2Proof.Machine
end

