-- ==== Sys2Proof/Machine/Security.lean ====
section
/-! DEFINITION. Security: firmware banks, debug opening, attestation and keys, and the test access port (19, R558 to R581). -/

namespace Sys2Proof.Machine

/-! ## FW_STAGE and FW_ACTIVATE (R563) -/

/-- Whether an earlier FW_STAGE or FW_ACTIVATE is still to be done. -/
def State.bankBusy (s : State) (id : Nat) : Bool :=
  s.descs.any (fun x => decide (x.id < id) && (x.opcode == 0x0120 || x.opcode == 0x0121) && x.status.isNone)

/-- Whether a module that serves descriptors is not in recovery and an image may be staged in a bank. -/
def State.stageRefused (s : State) (b : Bool) (i : List (BitVec 8)) : Bool :=
  s.sec.booted == some b || descNat i 24 8 != i.length || !s.sec.accepts i || !(List.range 6).all (stageOk i)
    || descNat i 14 2 != s.bootedFamily

/-- FW_STAGE. -/
def execFwStage (id : Nat) (s : State) : Host.Outcome State Fault Refusal :=
  descWork id 0x0120 s (fun d s =>
    let b := d.nat 8 1 == 1
    let len := d.nat 16 8
    if s.bankBusy id then none
    else if 2 ^ 26 < len || s.sec.booted == some b then some (s.finishDesc id 0x0200 0)
    else
      let i := s.hostRead (d.nat 24 8) len
      if s.stageRefused b i then some (s.finishDesc id 0x0200 0)
      else some ({ s with sec := s.sec.setBank b (.written i) }.finishDesc id 0 (BitVec.ofNat 64 len)))

/-- FW_ACTIVATE. -/
def execFwActivate (id : Nat) (s : State) : Host.Outcome State Fault Refusal :=
  descWork id 0x0121 s (fun d s =>
    let b := d.nat 8 1 == 1
    if s.bankBusy id then none
    else if s.sec.bankEmpty b then some (s.finishDesc id 0x0200 0)
    else some ({ s with sec := { s.sec with preferred := b } }.finishDesc id 0 0))

/-- FIRMWARE_UPDATE (R562): in recovery, an image that R561 accepts is written to the preferred bank (log entry 104). -/
def execFirmwareUpdate (image : List Byte) (s : State) : Host.Outcome State Fault Refusal :=
  if !s.sec.recovery then turnedAway s
  else if 2 ^ 26 < image.length || !s.sec.accepts image then .next s.bump
  else .next { s with sec := s.sec.setBank s.sec.preferred (.written image) }.bump

/-! ## Debug tokens (R575 to R577) -/

/-- The bytes of a field of a token. -/
def tokenField (t : List (BitVec 8)) (off n : Nat) : List (BitVec 8) := (t.drop off).take n

/-- Whether the signer key of a token is one that may sign it. -/
def State.tokenSigner (s : State) (t : List (BitVec 8)) : Bool :=
  let key := tokenField t 64 384
  if descNat t 6 1 = 1 then s.sec.rootKey (descNat t 7 1) key
  else match s.sec.owner with | some k => sha256 k == sha256 key | none => false

/-- The first code of Table 19.8 that applies to a token. -/
def State.tokenFail (s : State) (t : List (BitVec 8)) : Option Nat :=
  let signer := descNat t 6 1
  let scope := descNat t 48 8
  lowestCause [
    (t.length != 1600 || t.take 4 != [0x51, 0x44, 0x42, 0x47] || descNat t 4 2 != 1 || (signer != 1 && signer != 2)
      || (signer == 2 && descNat t 7 1 != 0) || descNat t 14 2 != 0 || descNat t 56 8 != 0, 1),
    (descNat t 8 6 != Config.serial.toNat, 2),
    (descNat t 16 32 != s.sec.nonce.toNat, 3),
    (!s.tokenSigner t, 4),
    (!Config.verifies (tokenField t 64 384) (tokenField t 448 384) (tokenField t 832 384), 5),
    (!Config.verifies (tokenField t 448 384) (t.take 1216) (tokenField t 1216 384), 6),
    (scope == 0 || decide (16 ≤ scope) || (decide (8 ≤ scope) && signer == 1), 7),
    (s.yoke.attached, 8),
    (s.debugOpen, 9)]

/-- A value of 256 bits from the chiplet's random generator. -/
def State.random256 (s : State) : BitVec 256 :=
  BitVec.ofNat 256 ((List.range 4).foldl (fun n i => n + (s.freshAt (1000 + i)).toNat * 2 ^ (64 * i)) 0)

/-! ## The debug-opening sequence (R578) -/

/-- The keys that debug opening erases: two of each paddock that has them and of paddock 0, one of each shared image, the
release keys, the owner secrets, the sessions and the streams. -/
def State.keysHeld (s : State) : Nat :=
  (if s.sec.serviceNear = 0 then 0 else 2) + (s.paddocks.map (fun kv => if kv.2.live then (if kv.2.keyless then 0 else 2) + kv.2.relKeys.length else 0)).sum
    + (s.near.imageKeys.map Prod.snd).eraseDups.length
    + s.sec.secrets.length + s.sec.sessions.length + s.sec.ideKeys.length

/-- Step 4: every key is erased. -/
def State.eraseKeys (s : State) : State :=
  let s := s.cntFrame 23 s.keysHeld
  { s with
    paddocks := s.paddocks.map (fun (kv : Nat × Paddock) => (kv.1, if kv.2.live then { kv.2 with keyless := true, nearKey := 0, farKey := 0, relKeys := [], eraseDue := [] } else kv.2))
    near := (s.near.imageKeys.map Prod.fst).foldl Tier.loseKey s.near
    sec := { s.sec with secrets := [], sessions := [], ideKeys := [], serviceNear := 0, serviceFar := 0 } }

/-- Steps 2 and 3: jobs end and paddocks go, as far as halt and retain leave them. -/
def State.clearPaddocks (s : State) (id : Nat) (retain : Bool) : State :=
  let ps := (rangeFrom 1 28).filter (fun p => (s.paddock p).live)
  if s.halted then
    if retain then s
    else ps.foldl (fun s p => (s.listedTiles p).foldl (fun s k => s.onTile k Tile.afterReset) s) s
  else
    let s := ps.foldl (fun s p => s.killJob p 0x0202) s
    if retain then s else ps.foldl (fun s p => s.destroyPaddock id p) s

/-- Table 19.9 on an accepted token; `id` is the descriptor that presented it. Paddock 0 receives fresh keys (R579). -/
def State.openDebug (s : State) (id : Nat) (t : List (BitVec 8)) : State :=
  let scope := BitVec.ofNat 64 (descNat t 48 8)
  let s := { s with descs := s.descs.map (fun (d : Desc) => if d.isSealed then { d with sealed := true } else d) }
  let s := (s.clearPaddocks id (scope.getLsbD 3)).eraseKeys
  { s with
    debugOpen := true
    sec := { s.sec with
      signer := descNat t 6 1
      scope := scope
      signerHash := hashNat (tokenField t 64 384)
      serviceNear := s.randomKey 904
      serviceFar := s.randomKey 912 } }

/-- A token attempt: the state after it, and whether the token was refused. -/
def State.tryToken (s : State) (id : Nat) (t : List (BitVec 8)) : State × Bool :=
  let fail := s.tokenFail t
  let s := { s with sec := { s.sec with attempts := s.sec.attempts + 1, nonce := s.random256 } }.cntFrame 12 1
  match fail with
  | some c => ({ s with sec := { s.sec with lastFail := c } }.cntFrame (12 + c) 1, true)
  | none => (s.openDebug id t, false)

/-- DEBUG_OPEN. -/
def execDebugOpen (id : Nat) (s : State) : Host.Outcome State Fault Refusal :=
  descWork id 0x0130 s (fun d s =>
    let (s, bad) := s.tryToken id (s.hostRead (d.nat 24 8) (d.nat 16 8))
    some (s.finishDesc id (if bad then 0x0200 else 0) 0))

/-- TOKEN_SUBMIT: ignored outside halt. -/
def execTokenSubmit (s : State) : Host.Outcome State Fault Refusal :=
  if !s.halted then turnedAway s
  else .next (s.tryToken s.nextDesc ((List.range 1600).map (fun i => getD 0 s.sec.window i))).1.bump

/-! ## Release keys (R397, R572) -/

/-- Whether an open TALLY_RUN uses a release-key slot. -/
def Paddock.slotInUse (d : Paddock) (slot : Nat) : Bool :=
  let uses := fun (r : TallyRun) => r.ctx.sampler != 0 && r.slot == slot
  (match d.run with | some r => uses r | none => false)
    || (match d.current with | some o => (match o.kind with | .tally r => uses r | _ => false) | none => false)
    || (match d.next with | some n => (match n.kind with | .tally r => uses r | _ => false) | none => false)

/-- RELKEY_ERASE: a write of SEC_RELKEY; slots in use are erased when the run completes. -/
def execRelkeyErase (v : BitVec 64) (s : State) : Host.Outcome State Fault Refusal :=
  let p := field v 0 5
  let s := { s with sec := { s.sec with relSelect := p } }
  let d := s.paddock p
  if !bitOf v 63 || p = 0 || 28 < p || !d.live then .next s.bump
  else
    let hit := (List.range 4).filter (fun n => bitOf v (16 + n) && (look d.relKeys n).isSome)
    let now := hit.filter (fun n => !d.slotInUse n)
    let later := hit.filter (fun n => d.slotInUse n)
    .next ((s.setPaddock p { d with
      relKeys := now.foldl (fun m n => drop m n) d.relKeys
      eraseDue := later ++ d.eraseDue.filter (fun n => !later.contains n) }).cntFrame 23 now.length).bump

/-! ## DOE and SPDM (R568 to R570; log entry 105) -/

/-- Whether the link carries DOE messages: from the power-up on, in halt, in recovery and in D3hot too. -/
def State.linkReady (s : State) : Bool := s.released

/-- DOE_DISCOVERY: the protocol of an index and the next index; vendor 0x0001, types 0 to 2. -/
def execDoeDiscovery (index : BitVec 8) (s : State) : Host.Outcome State Fault Refusal :=
  if !s.linkReady then turnedAway s
  else
    let i := index.toNat
    let known := i ≤ 2
    .next (s.emit (.doe (bytesLE 2 (if known then 0x0001 else 0xFFFF) ++ bytesLE 1 (if known then i else 0xFF)
      ++ bytesLE 1 (if i < 2 then i + 1 else 0)))).bump

/-- An SPDM 1.2 response: version, code and the two parameters, then the payload. -/
def State.spdm (s : State) (code p1 p2 : Nat) (payload : List (BitVec 8)) : State :=
  s.emit (.spdm (bytesLE 1 0x12 ++ bytesLE 1 code ++ bytesLE 1 p1 ++ bytesLE 1 p2 ++ payload))

/-- An ERROR response of a code. -/
def State.spdmError (s : State) (code : Nat) : State := s.spdm 0x7F code 0 []

/-- The InvalidRequest and Unauthorised codes. -/
def invalidRequest : Nat := 1

/-- The slot with which the module signs: 1 while it is debug-opened. -/
def State.signingSlot (s : State) : Nat := if s.debugOpen then 1 else 0

/-- Bytes signed by the identity key, or by the debug key while the module is debug-opened. -/
def State.signs (s : State) (bs : List (BitVec 8)) : List (BitVec 8) := Config.signature s.signingSlot (sha256 bs)

/-- SPDM_CERT: slot 0 holds the identity chain, slot 1 the debug chain once the module is debug-opened. -/
def execSpdmCert (slot : BitVec 8) (s : State) : Host.Outcome State Fault Refusal :=
  if !s.linkReady then turnedAway s
  else if slot.toNat = 0 || (slot.toNat = 1 && s.debugOpen) then
    .next (s.spdm 0x02 slot.toNat 0 (Config.certChain slot.toNat)).bump
  else .next (s.spdmError invalidRequest).bump

/-- A signed response over a payload for a slot and a requester's nonce; InvalidRequest where the slot does not sign. -/
def State.signedReply (s : State) (code slot : Nat) (nonce payload : List (BitVec 8)) : State :=
  if slot ≠ s.signingSlot then s.spdmError invalidRequest
  else
    let body := payload ++ bytesLE 32 s.random256.toNat
    s.spdm code slot 0 (body ++ s.signs (nonce ++ body))

/-- SPDM_CHAL. -/
def execSpdmChal (slot : BitVec 8) (nonce : List Byte) (s : State) : Host.Outcome State Fault Refusal :=
  if !s.linkReady then turnedAway s
  else .next (s.signedReply 0x03 slot.toNat nonce (sha256 (Config.certChain slot.toNat))).bump

/-- SPDM_MEAS: the 12 measurement blocks. -/
def execSpdmMeas (slot : BitVec 8) (nonce : List Byte) (s : State) : Host.Outcome State Fault Refusal :=
  if !s.linkReady then turnedAway s
  else .next (s.signedReply 0x60 slot.toNat nonce ((rangeFrom 1 12).map (fun n => bytesLE 1 n ++ s.block n)).flatten).bump

/-- SPDM_KEY_EX: a secure session; owner-authenticated where the requester proves possession of the enrolled owner key. -/
def execSpdmKeyEx (mutualOwner : Bool) (ownerSig : List Byte) (s : State) : Host.Outcome State Fault Refusal :=
  if !s.linkReady then turnedAway s
  else
    let n := s.sec.nextSession
    let proof := match s.sec.owner with | some k => Config.verifies k (bytesLE 4 n) ownerSig | none => false
    if mutualOwner && !proof then .next (s.spdmError invalidRequest).bump
    else
      let s := { s with sec := { s.sec with sessions := insertAt s.sec.sessions n mutualOwner, nextSession := n + 1 } }.cntFrame 22 1
      .next (s.spdm 0x64 0 0 (bytesLE 4 n ++ s.signs (bytesLE 4 n))).bump

/-- Whether a session may change keys (R570). -/
def State.mayChange (s : State) (session : Nat) : Bool :=
  match look s.sec.sessions session with
  | none => false
  | some o => s.sec.owner.isNone || o

/-- The answer to a vendor-defined message: done, with its change, or refused. -/
def vendorReply (ok : Bool) (s : State) (f : State → State) : Host.Outcome State Fault Refusal :=
  if !s.linkReady then turnedAway s
  else if ok then .next ((f s).spdm 0x7E 0 0 []).bump
  else .next (s.spdmError invalidRequest).bump

/-- OWNER_ENROL (R571): the session is mutually authenticated with the key it carries. -/
def execOwnerEnrol (session : Nat) (key sig : List Byte) (s : State) : Host.Outcome State Fault Refusal :=
  vendorReply (!s.debugOpen && s.mayChange session && key.length == 384 && Config.verifies key (bytesLE 4 session) sig) s
    (fun s => { s with sec := { s.sec with
      owner := some key
      sessions := s.sec.sessions.map (fun kv => (kv.1, kv.1 == session)) } })

/-- OWNER_REMOVE. -/
def execOwnerRemove (session : Nat) (s : State) : Host.Outcome State Fault Refusal :=
  vendorReply (!s.debugOpen && s.sec.owner.isSome && look s.sec.sessions session == some true) s
    (fun s => { s with sec := { s.sec with owner := none } })

/-- Whether a release key may enter a slot. -/
def State.mayPutKey (s : State) (session p slot : Nat) : Bool :=
  !s.debugOpen && s.mayChange session && (s.paddock p).live && (look (s.paddock p).relKeys slot).isNone

/-- A release key in a slot. -/
def State.putKey (s : State) (p slot : Nat) (key : BitVec 256) : State :=
  s.onPaddock p (fun d => { d with relKeys := insertAt d.relKeys slot key })

/-- RELEASE_KEY_PUT. -/
def execReleaseKeyPut (session : Nat) (p : PaddockId) (slot : BitVec 2) (key : BitVec 256) (s : State) :
    Host.Outcome State Fault Refusal :=
  vendorReply (s.mayPutKey session p slot.toNat && p.val != 0) s (fun s => s.putKey p slot.toNat key)

/-- RELEASE_KEY_PUT_WRAPPED: the key unwrapped under an owner secret. -/
def execReleaseKeyPutWrapped (session : Nat) (p : PaddockId) (slot : BitVec 2) (secret : BitVec 3) (wrapped : List Byte)
    (s : State) : Host.Outcome State Fault Refusal :=
  match (look s.sec.secrets secret.toNat).bind (fun k => Config.unwrapKey k wrapped) with
  | none => vendorReply false s id
  | some key => vendorReply (s.mayPutKey session p slot.toNat && p.val != 0) s (fun s => s.putKey p slot.toNat key)

/-- OWNER_SECRET_PUT: a secret of 32 bytes. -/
def execOwnerSecretPut (session : Nat) (index : BitVec 3) (secret : List Byte) (s : State) : Host.Outcome State Fault Refusal :=
  vendorReply (!s.debugOpen && s.mayChange session && secret.length == 32) s
    (fun s => { s with sec := { s.sec with secrets := insertAt s.sec.secrets index.toNat secret } })

/-- IDE_KM: the key of an IDE stream, over any secure session (R573). -/
def execIdeKm (session : Nat) (stream : BitVec 8) (key : BitVec 256) (s : State) : Host.Outcome State Fault Refusal :=
  vendorReply (look s.sec.sessions session).isSome s
    (fun s => { s with sec := { s.sec with ideKeys := insertAt s.sec.ideKeys stream.toNat key } })

/-! ## The test access port (R580; log entry 106) -/

/-- TAP_BYPASS: one bit shifted through the bypass register. -/
def execTapBypass (tdi : Bool) (s : State) : Host.Outcome State Fault Refusal :=
  .next { s.emit (.tdo [s.tap.bypass]) with tap := { s.tap with bypass := tdi, extest := false } }.bump

/-- TAP_IDCODE: 32 bits, the least significant first: 1, the manufacturer's code, the part number, the version. -/
def execTapIdcode (s : State) : Host.Outcome State Fault Refusal :=
  let v := 1 + Config.makerCode.toNat * 2 + 0x7210 * 2 ^ 12 + 0xB * 2 ^ 28
  .next { s.emit (.tdo ((List.range 32).map (fun i => v.testBit i))) with tap := { s.tap with extest := false } }.bump

/-- Bits of the boundary register, which the specification does not give. -/
def State.boundary (s : State) : List Bool := (List.range 64).map (fun i => s.fresh.getLsbD i)

/-- TAP_SAMPLE_PRELOAD. -/
def execTapSamplePreload (s : State) : Host.Outcome State Fault Refusal :=
  .next { s.emit (.tdo s.boundary) with tap := { s.tap with extest := false } }.bump

/-- TAP_EXTEST: the boundary register drives the pins. -/
def execTapExtest (s : State) : Host.Outcome State Fault Refusal :=
  .next { s.emit (.tdo s.boundary) with tap := { s.tap with extest := true } }.bump

/-- TAP_PRIVATE: runs only under scope bit 0; what it returns is free. -/
def execTapPrivate (_opcode : BitVec 8) (s : State) : Host.Outcome State Fault Refusal :=
  if s.debugOpen && s.sec.scope.getLsbD 0 then .next (s.emit (.tdo s.boundary)).bump else turnedAway s

end Sys2Proof.Machine
end

