-- ==== Sys2Proof/Machine/Counters.lean ====
section
/-! DEFINITION. Counters, bandwidth windows and chassis monitoring (20, R582 to R595). -/

namespace Sys2Proof.Machine

/-! ## The counter read window (R587, R588) -/

/-- Whether a word of the window is a gauge, which has no wrap bit (Table 20.4). -/
def gaugeWord (key : Nat) : Bool :=
  if key < 0x2000 then key % 0x100 == 5
  else if key < 0x4000 then decide (3 ≤ key % 0x100) && decide (key % 0x100 ≤ 5)
  else if key < 0x6000 then key % 0x80 == 7 || key % 0x80 == 8
  else if key < 0x7000 then key % 0x80 == 6 || key % 0x80 == 7
  else false

/-- The words of a block that CNT_CLEAR selects: the first and how many (Table 20.7). -/
def clearBlock (scope instance_ : Nat) : Nat × Nat :=
  match scope with
  | 0 => (0x100 * instance_, if instance_ ≤ 28 then 0x100 else 0)
  | 1 => (0x2000 + 0x100 * instance_, if instance_ < 28 then 0x100 else 0)
  | 2 => (0x4000 + 0x80 * instance_, if instance_ < 24 then 0x80 else 0)
  | 3 => (0x5000 + 0x80 * instance_, if instance_ < 16 then 0x80 else 0)
  | 4 => (0x6000 + 0x80 * instance_, if instance_ < 30 then 0x80 else 0)
  | 5 => (0x7000 + 8 * instance_, 8)
  | 6 => (0x8000, 0x200)
  | _ => (0, 0)

/-- COUNTER_CLEAR: a write of CNT_CLEAR. -/
def execCounterClear (v : BitVec 64) (s : State) : Host.Outcome State Fault Refusal :=
  if !bitOf v 63 then .next s.bump
  else
    let (lo, n) := clearBlock (field v 16 3) (field v 0 8)
    let clear := fun (kv : Nat × BitVec 64) =>
      if lo ≤ kv.1 ∧ kv.1 < lo + n ∧ !gaugeWord kv.1 then (kv.1, clearWrap kv.2) else kv
    .next { s with cntWin := (s.cntWin.map clear).filter (fun kv => decide (kv.2 ≠ 0)) }.bump

/-- COUNTER_WRAP_CLEAR: a write of 1 to bit 63 of the word at a BAR0 offset of the window. -/
def execCounterWrapClear (offset : BitVec 32) (s : State) : Host.Outcome State Fault Refusal :=
  let o := offset.toNat
  if o < 0x400000 ∨ 0x441000 ≤ o ∨ o % 8 ≠ 0 ∨ gaugeWord ((o - 0x400000) / 8) then .next s.bump
  else .next { s with cntWin := modD 0 s.cntWin ((o - 0x400000) / 8) clearWrap }.bump

/-! ## Bandwidth windows (R590) -/

/-- The bandwidth gauges of the frame: near stacks, far devices, ports and yoke groups. -/
def bwWords : List Nat :=
  ((List.range 24).map (fun n => [0x4000 + 0x80 * n + 7, 0x4000 + 0x80 * n + 8])).flatten
    ++ ((List.range 16).map (fun n => [0x5000 + 0x80 * n + 7, 0x5000 + 0x80 * n + 8])).flatten
    ++ ((List.range 30).map (fun n => [0x6000 + 0x80 * n + 6, 0x6000 + 0x80 * n + 7])).flatten

/-- The flits that a tile's port sent in the window: packet flits (counter word 0) and circuit flits (word 2). -/
def Tile.closeWindow (t : Tile) : Tile :=
  (List.range 8).foldl (fun (t : Tile) i =>
    let now := getD 0 t.counters (0x400 + 0x160 + 16 * (i / 2) + 2 * (i % 2))
    let base := getD 0 t.counters (0x800 + 4 * (i / 2) + i % 2)
    let diff := (field now 0 48 + 2 ^ 48 - field base 0 48) % 2 ^ 48
    let m := putD 0 t.counters (0x800 + 4 * (i / 2) + i % 2) (BitVec.ofNat 64 (field now 0 48))
    { t with counters := putD 0 m (0x802 + 4 * (i / 2) + i % 2) (BitVec.ofNat 64 diff) }) t

/-- BW_WINDOW_END. -/
def execBwWindowEnd (s : State) : Host.Outcome State Fault Refusal :=
  if !s.released then turnedAway s
  else
    let s := { s with bwSeq := s.bwSeq + 1 }
    let s := bwWords.foldl (fun s k => { s with cntWin := putD 0 s.cntWin k (s.gauge ((getD 0 s.bw k : Nat) : Int)) }) s
    let tiles := s.tiles.map (fun kv => (kv.1, if s.sampled (regionOfTile kv.1) then kv.2.closeWindow else kv.2))
    .next { s with bw := [], tiles := tiles.filter (fun kv => decide (kv.2 ≠ Tile.reset)) }.bump

/-! ## Chassis monitoring (R594, R595; log entry 109) -/

/-- The module state sensor: 0 booting, 1 ready, 2 halted, 3 recovery, 4 boot failed. -/
def State.moduleState (s : State) : Nat :=
  if s.sec.recovery then 3 else if s.bootFailed then 4 else if s.halted then 2 else if s.ready then 1 else 0

/-- The health sensor: 0 normal, 1 service advised, 2 debug open. -/
def State.health (s : State) : Nat := if s.debugOpen then 2 else if s.serviceAdvised then 1 else 0

/-- A sensor's reading, numbered in the order of Table 20.8; one that no state holds is free. -/
def State.sensor (s : State) (n : Nat) : Option Int :=
  if n ≤ 2 ∨ n = 33 then some ((s.fresh.toNat % 2 ^ 31 : Nat) : Int)
  else if n = 3 then some (s.moduleCap : Int)
  else if n ≤ 31 then some ((s.region (n - 4)).tempC : Int)
  else if n = 32 then some (10 * s.pldm.inlet : Int)
  else if n = 34 then some (10 * s.coolantFlow : Int)
  else if n = 35 then some (s.moduleState : Int)
  else if n = 36 then some (s.health : Int)
  else none

/-- A PLDM reply: a completion code and a value. -/
def pldmReply (code : Nat) (v : Int) : Out := .pldm (bytesLE 1 code ++ bytesLE 4 (v % 2 ^ 32).toNat)

/-- Whether the sensors answer: from power-up step 3 on, but not in recovery. -/
def State.sensorsServed (s : State) : Bool := s.released && !s.sec.recovery

/-- PLDM_SENSOR_READ. -/
def execPldmSensorRead (sensor : Nat) (s : State) : Host.Outcome State Fault Refusal :=
  if !s.sensorsServed then turnedAway s
  else .next (match s.sensor sensor with
    | some v => s.emit (pldmReply 0 v)
    | none => s.emit (pldmReply 0x80 0)).bump

/-- PLDM_SET_THRESHOLD: of a numeric sensor. -/
def execPldmSetThreshold (sensor : Nat) (upper : Bool) (value : Int) (s : State) : Host.Outcome State Fault Refusal :=
  if !s.sensorsServed then turnedAway s
  else if 35 ≤ sensor then .next (s.emit (pldmReply 0x80 0)).bump
  else
    let k := 2 * sensor + (if upper then 1 else 0)
    .next ({ s with pldm := { s.pldm with thresholds := insertAt s.pldm.thresholds k value, crossed := s.pldm.crossed.filter (· != k) } }.emit
      (pldmReply 0 0)).bump

/-- An event queued, or lost beyond 64. -/
def State.queueEvent (s : State) (sensor : Nat) (v : Int) : State :=
  if 64 ≤ s.pldm.events.length then s.cntFrame 24 1
  else { s with pldm := { s.pldm with events := s.pldm.events ++ [(sensor, v)] } }

/-- A numeric sensor passes to a value: each threshold it newly crosses is an event. -/
def State.crossings (s : State) (sensor : Nat) (v : Int) : State :=
  [2 * sensor, 2 * sensor + 1].foldl (fun s k =>
    match look s.pldm.thresholds k with
    | none => s
    | some t =>
      let beyond := if k % 2 = 1 then decide (t < v) else decide (v < t)
      if beyond && !s.pldm.crossed.contains k then
        { s with pldm := { s.pldm with crossed := s.pldm.crossed ++ [k] } }.queueEvent sensor v
      else if beyond then s
      else { s with pldm := { s.pldm with crossed := s.pldm.crossed.filter (· != k) } }) s

/-- The two conditions of the health sensor: service_advised in bit 0, debug_open in bit 1. -/
def State.healthBits (s : State) : Nat := (if s.serviceAdvised then 1 else 0) + (if s.debugOpen then 2 else 0)

/-- Whether service_advised or debug_open sets between two values of the health sensor's conditions (R595). -/
def newlySet (old new : Nat) : Bool := [0, 1].any (fun n => new.testBit n && !old.testBit n)

/-- PLDM_EVENT: a sensor's reading, or the change of a state sensor; of the health sensor, only a condition that sets is an event. -/
def execPldmEvent (sensor : Nat) (value : Int) (s : State) : Host.Outcome State Fault Refusal :=
  if !s.sensorsServed then turnedAway s
  else if sensor ≤ 34 then .next (s.crossings sensor value).bump
  else if sensor ≤ 36 then
    let v := if sensor = 35 then s.moduleState else s.healthBits
    let old := getD 0 s.pldm.states sensor
    let now := ({ s with pldm := { s.pldm with states := putD 0 s.pldm.states sensor v } } : State)
    if old = v then turnedAway s
    else if sensor = 35 then .next (now.queueEvent sensor v).bump
    else .next (if newlySet old v then now.queueEvent sensor s.health else now).bump
  else turnedAway s

/-- PLDM_EVENT_READ: the oldest event; ALERT_N stays asserted while others wait. -/
def execPldmEventRead (s : State) : Host.Outcome State Fault Refusal :=
  if !s.sensorsServed then turnedAway s
  else match s.pldm.events with
    | [] => turnedAway s
    | (n, v) :: rest =>
      .next ({ s with pldm := { s.pldm with events := rest } }.emit (.pldm (bytesLE 1 0 ++ bytesLE 2 n ++ bytesLE 4 (v % 2 ^ 32).toNat))).bump

/-! ## Pins (21, Table 21.3, R603) -/

/-- ALERT_N asserted (driven low). -/
def State.alert (s : State) : Bool := !s.pldm.events.isEmpty

/-- HALT_OUT_N driven high. -/
def State.haltOut (s : State) : Bool := s.pwrGood && s.released && !s.halted && !s.sec.recovery && !s.bootFailed

end Sys2Proof.Machine
end

