-- ==== Sys2Proof/Machine/Module.lean ====
section
/-! DEFINITION. The module: power-up, the wafer scan, boot, reset (21, R611 to R617; 17, R507 to R509; 19, R561). -/

namespace Sys2Proof.Machine

/-! ## What a COLD reset leaves (R617; 19, Table 19.1) -/

/-- What the fuses, the flash and the persistent key store hold. -/
def Security.cold (x : Security) : Security :=
  { revoked := x.revoked, steps := x.steps, bankA := x.bankA, bankB := x.bankB, preferred := x.preferred, owner := x.owner
    secrets := x.secrets }

/-- The module without power in its regions: only what survives power is kept, with the outside. The tiers are as shipped until
the scan builds their site maps again (10, R316). -/
def State.cold (s : State) : State :=
  { pending := s.pending, free := s.free, feedA := s.feedA, feedB := s.feedB, pwrGood := s.pwrGood, converters := s.converters
    coolantFlow := s.coolantFlow, patina := s.patina, patinaSeq := s.patinaSeq, hostMem := s.hostMem, hostPoison := s.hostPoison
    out := s.out, cast := s.cast, retireDue := s.retireDue, sec := s.sec.cold, tap := s.tap
    regions := (s.regions.map (fun (kv : Nat × Region) => (kv.1, ({ phases := kv.2.phases } : Region)))).filter
      (fun kv => decide (kv.2 ≠ ({} : Region))) }

/-! ## The wafer scan (17, R507 to R509; R614) -/

/-- The physical rows of a field that are in use: a spare row takes the place of each row that its spare tiles cannot mend. -/
def scanRows (es : List PatinaEntry) (f : Nat) : List Nat :=
  let bad := (List.range 80).filter (fun r => decide (2 < (deadCols es f r).length))
  let spares := [78, 79].filter (fun r => !bad.contains r)
  let out := (bad.filter (fun r => decide (r < 78))).take spares.length
  (List.range 80).filter (fun r => (decide (r < 78) && !out.contains r) || (spares.take out.length).contains r)

/-- The columns of a segment with removed columns: spares first, then routed holes. -/
def scanCols (dead : List Nat) : List (Option Nat) :=
  (dead.foldl (fun (acc : List (Option Nat) × List Nat) c =>
    match acc.1.findIdx? (fun x => x == some c) with
    | none => acc
    | some i => giveUp acc i c) (shippedCols, [0, 71].filter (fun c => !dead.contains c))).1

/-- A field mapped: its rows, its segments, its routed holes. -/
def State.scanField (s : State) (es : List PatinaEntry) (f : Nat) : State :=
  let rows := scanRows es f
  let s := { s with rowMap := putD (List.range 78) s.rowMap f rows }
  ((List.range rows.length).zip rows).foldl (fun s x =>
    let dead := deadCols es f x.2
    if dead.isEmpty then s
    else
      let cols := scanCols dead
      let gone := (List.range 70).filter (fun j => (cols.getD j none).isNone)
      { s with
        segMap := putD shippedCols s.segMap (80 * f + x.2) cols
        holes := s.holes ++ gone.map (fun j => tileAt (70 * (f % 12) + j) (78 * (f / 12) + x.1)) }) s

/-- The entry of a tile that fails its self-test at a physical column and row. -/
def failEntry (t : Nat × Nat) : PatinaEntry :=
  { kind := 1, unit := t.1 / 72 + 12 * (t.2 / 80), place := BitVec.ofNat 32 (t.1 + t.2 * 2 ^ 16), pace := 0 }

/-- The field of a physical tile's entry. -/
def entryField (e : PatinaEntry) : Nat := e.place.toNat % 1024 / 72 + 12 * (e.place.toNat / 2 ^ 16 % 1024 / 80)

/-- The places of worn tiles, which the next power-up retires (R515). -/
def State.wornPlaces (s : State) : List (BitVec 32) := ((s.suspectPlaces ++ s.retireDue).eraseDups).filter s.worn

/-- Whether a scan finds a segment with no unused spare tile, or a field with no unused spare row (R509). -/
def State.scanAdvises (s : State) : Bool :=
  s.touchedSegs.any (fun x => (s.rowsOf x.1).contains x.2 && s.segSpares x.1 x.2 == 0)
    || ((s.touchedSegs.map Prod.fst).eraseDups).any (fun f => s.rowSpares f == 0)

/-- The maps built from the cast map, the patina map, the tiles that fail and those that are retired (R509, R515). -/
def State.scanTiles (s : State) (bad : List (Nat × Nat)) : State :=
  let known := fun (e : PatinaEntry) => s.defects.any (fun x => x.place == e.place && (x.kind == 1 || x.kind == 3))
  let dead := (bad.filter (fun t => decide (t.1 < 864 ∧ t.2 < 560))).map failEntry
  let worn := s.wornPlaces.map (fun x => { failEntry (x.toNat % 1024, x.toNat / 2 ^ 16 % 1024) with kind := 3 })
  let fresh := (dead ++ worn).filter (fun e => !known e)
  let s := { s with patinaDue := s.patinaDue ++ fresh }
  let es := (s.defects ++ fresh).filter (fun e => e.kind == 1 || e.kind == 3)
  let s := ((es.map entryField).eraseDups).foldl (fun s f => s.scanField es f) s
  { s with scanHoles := s.holes.length, segIdle := s.segMap, retireDue := [], scanAdvised := s.scanAdvises }

/-- The logical tile that stands on a physical position, if one does. -/
def State.tileOn (s : State) (x y : Nat) : Option Nat :=
  let f := x / 72 + 12 * (y / 80)
  match (s.rowsOf f).findIdx? (· == y % 80), (getD shippedCols s.segMap (80 * f + y % 80)).findIdx? (· == some (x % 72)) with
  | some i, some j => some (tileAt (70 * (f % 12) + j) (78 * (f / 12) + i))
  | _, _ => none

/-- A dead link: both ends mark their ports dead (09, R284). -/
def State.killLink (s : State) (k d : Nat) : State :=
  let dead := fun (d : Nat) (t : Tile) => { t with deadPorts := t.deadPorts ||| (1#4 <<< d) }
  let s := s.onTile k (dead d)
  match neighbour k d with | some j => s.onTile j (dead (opposite d)) | none => s

/-- The dead links of the cast map and of the patina map (Table 17.1, kind 5); a dead bypass path of the cast map is that of the
link which passes over a tile out of use, from the nearest tile in use on its other side (log entry 130). -/
def State.scanLinks (s : State) : State :=
  let marked : List PatinaEntry := s.patina.filter (fun e => e.kind == 5)
  let links := s.cast.links ++ marked.map (fun (e : PatinaEntry) => (e.place.toNat % 1024, e.place.toNat / 2 ^ 16 % 1024, e.place.toNat / 2 ^ 28 % 4))
  let s := links.foldl (fun s l => match s.tileOn l.1 l.2.1 with | some k => s.killLink k l.2.2 | none => s) s
  s.cast.bypasses.foldl (fun s l =>
    if (s.tileOn l.1 l.2.1).isSome then s
    else
      let west := ((List.range (l.1 % 72)).reverse).findSome? (fun c => s.tileOn (72 * (l.1 / 72) + c) l.2.1)
      match west with | some k => s.killLink k 1 | none => s) s

/-- The lanes that spares have replaced (R505; Table 17.1, kind 8), which the next power-up finds so. -/
def State.scanLanes (s : State) : State :=
  let lanes := (s.cast.lanes ++ (s.patina.filter (fun (e : PatinaEntry) => e.kind == 8)).map (fun (e : PatinaEntry) => (e.place.toNat % 256, e.place.toNat / 256 % 256))).eraseDups
  lanes.foldl (fun s l =>
    let n := if l.1 < 20 then l.1 else 20 + l.2 / 17 % 10
    { s with ports := putD {} s.ports n { (getD {} s.ports n : PortLink) with sparesUsed := (getD {} s.ports n : PortLink).sparesUsed + 1 } }) s

/-- A unit's spare site comes into use. -/
def State.useSpare (s : State) (far : Bool) (u site : Nat) : State :=
  let t := s.tier far
  s.setTier far { t with sites := modifyAt t.sites u (fun _ => site)
                         failed := t.failed.filter (· != u)
                         sparesUsed := if t.sparesUsed.contains site then t.sparesUsed else t.sparesUsed ++ [site] }

/-- A logical unit fails. -/
def State.unitFails (s : State) (far : Bool) (u : Nat) : State :=
  let t := s.tier far
  if t.failed.contains u then s else s.setTier far { t with failed := t.failed ++ [u] }

/-- The site maps of the tiers built again from the patina map (10, R316; Table 17.1, kinds 6 and 7). -/
def State.applySites (s : State) : State :=
  s.patina.foldl (fun s e =>
    let v := e.place.toNat
    if e.kind = 6 then s.useSpare (v % 2 == 1) (v / 2 ^ 8 % 32) (v / 2 ^ 16 % 32)
    else if e.kind = 7 then s.unitFails (v % 2 == 1) (v / 2 ^ 8 % 32)
    else s) s

/-- A tier site that fails: its unit takes the spare of its edge at once, or has failed (R614); a site of the cast map enters no
patina entry. -/
def State.scanSite (s : State) (far : Bool) (site : Nat) (cast : Bool) : State :=
  let t := s.tier far
  let spare := spareOf far site
  let due := fun (kind u site : Nat) (s : State) => if cast then s else s.dueUnit kind far u site
  match t.sites.findIdx? (· == site) with
  | none => if site = spare && !t.sparesFailed.contains site then s.setTier far { t with sparesFailed := t.sparesFailed ++ [site] } else s
  | some u =>
    if site ≠ spare && !t.sparesUsed.contains spare && !t.sparesFailed.contains spare then due 6 u spare (s.useSpare far u spare)
    else if t.failed.contains u then s
    else due 7 u site (s.unitFails far u)

/-- The tiers of the scan: the cast map's faulty sites, the patina map's changes, then the sites that fail training, 26 of the near
tier before 18 of the far tier (R509, R614). -/
def State.scanSites (s : State) (bad : List Nat) : State :=
  let s := (s.cast.sites.foldl (fun s x => s.scanSite x.1 x.2 true) s).applySites
  bad.foldl (fun s n => if n < 26 then s.scanSite false n false else if n < 44 then s.scanSite true (n - 26) false else s) s

/-- R507: with both copies of the patina map lost, the cast map alone is applied. -/
def State.readPatina (s : State) (lost : Bool) : State := if lost then { s with patina := [], castOnly := true } else s

/-- Every region powered for the scan, in SERVICE. -/
def State.serviceRegions (s : State) : State := (List.range 28).foldl (fun s r => s.onRegion r (fun g => { g with state := .service })) s

/-- Every region left GATED after the scan, with its working phases. -/
def State.gateRegions (s : State) : State :=
  (List.range 28).foldl (fun s r => s.onRegion r (fun g => { g with state := .gated, phases := if g.phases = 0 then 44 else g.phases })) s

/-! ## Power-up (R611, R612; Table 21.7) -/

/-- POWER_UP: the feeds named come into range, and with one of them or both PWR_GOOD asserts. -/
def execPowerUp (feedA feedB : Bool) (s : State) : Host.Outcome State Fault Refusal :=
  if s.pwrGood || !(feedA || feedB) then turnedAway s
  else .next { s.cold with feedA := feedA, feedB := feedB, pwrGood := true }.bump

/-- Whether the ROM can boot a bank: `good` says so of the image a bank left manufacture with (log entry 104). -/
def Security.boots (x : Security) (b good : Bool) : Bool :=
  good && (match if b then x.bankB else x.bankA with
    | .shipped => true
    | .empty => false
    | .written i => x.accepts i && (List.range 6).all (stageOk i))

/-- The bank that boots: the preferred one, then the other (R561). -/
def Security.bootBank (x : Security) (scan : ScanResult) : Option Bool :=
  let ok := fun (b : Bool) => x.boots b (if b then scan.bankBok else scan.bankAok)
  if ok x.preferred then some x.preferred else if ok (!x.preferred) then some (!x.preferred) else none

/-- Steps 6 to 8, with the coolant flowing. -/
def State.finishBoot (s : State) (scan : ScanResult) : State :=
  let s := ((((s.readPatina scan.patinaLost).scanSites scan.badSites).scanLanes).serviceRegions.scanTiles scan.badTiles).scanLinks
  let s := s.mergeHoles.moveContacts.gateRegions.installStirrups
  let s := { s with coolantFlow := appliedFlow scan.pairFlows }.setCaps
  if scan.refOk then s.becomeReady else { s.loseRef with bootStep := 8 }

/-- MOD_RESET_RELEASE: the power-up sequence, as far as it can run. -/
def execModResetRelease (scan : ScanResult) (s : State) : Host.Outcome State Fault Refusal :=
  if !s.pwrGood || s.ready || s.bootFailed || (s.released && s.bootStep != 6) then turnedAway s
  else
    let s := if s.released then s else s.cold
    match (if s.released then s.sec.booted else s.sec.bootBank scan) with
    | none =>
      .next { s with released := true, bootFailed := true, bootStep := 4
                     sec := { s.sec with recovery := true, nonce := s.random256 } }.bump
    | some b =>
      let s := { s with released := true, bootStep := 6
                        sec := { s.sec with booted := some b, nonce := if s.released then s.sec.nonce else s.random256,
                                            serviceNear := s.randomKey 904, serviceFar := s.randomKey 912 } }
      .next (if appliedFlow scan.pairFlows < 45 then s else s.finishBoot scan).bump

/-- BOOT_TIMEOUT (R616): a step that is waiting exceeds its limit. -/
def execBootTimeout (s : State) : Host.Outcome State Fault Refusal :=
  if s.released && !s.ready && !s.bootFailed && decide (s.bootStep < 8) then .next { s with bootFailed := true }.bump
  else turnedAway s

/-- MOD_RESET_ASSERT (R617): a COLD reset. -/
def execModResetAssert (s : State) : Host.Outcome State Fault Refusal :=
  if !s.pwrGood then turnedAway s else .next s.cold.bump

end Sys2Proof.Machine
end

