-- ==== Sys2Proof/Machine/Bar0View.lean ====
section
/-! DEFINITION. BAR0 as it reads: the registers, the capability list and the indirect windows (14, R415 to R419, R447,
with the register tables of each chapter). -/

namespace Sys2Proof.Machine

/-- A word of fields, each a value and its lowest bit. -/
def pack (l : List (Nat × Nat)) : BitVec 64 := BitVec.ofNat 64 (l.foldl (fun n x => n + x.1 * 2 ^ x.2) 0)

/-- A bit as a number. -/
def bitNat (b : Bool) : Nat := if b then 1 else 0

/-- All ones. -/
def ones64 : BitVec 64 := BitVec.ofNat 64 (2 ^ 64 - 1)

/-! ## The capability list (R418, R419) -/

/-- The length of a capability's body, ids 1 to 16. -/
def capLength (id : Nat) : Nat := if id = 1 then 24 else if id = 0xB then 8 else if id = 0x10 then 448 else 16

/-- The BAR0 offset of a capability's entry: in the order of their ids (log entry 114). -/
def capStart (id : Nat) : Nat := 0x100 + ((rangeFrom 1 (id - 1)).map (fun n => 16 + capLength n)).sum

/-- The header of a capability (Table 14.4); the health capability is volatile. -/
def capHeader (id : Nat) : List (BitVec 8) :=
  bytesLE 4 (id + 2 ^ 16 + (if id = 0x10 then 2 ^ 24 else 0)) ++ bytesLE 4 (if id = 0x10 then 0 else capStart (id + 1))
    ++ bytesLE 4 (capLength id) ++ bytesLE 4 0

/-- A field's bytes in the health body (Table 17.6). -/
def State.healthField (s : State) (f : Nat) : List (BitVec 8) :=
  bytesLE 1 (s.rowSpares f) ++ bytesLE 1 (s.segsWith f 0) ++ bytesLE 1 (s.segsWith f 1) ++ bytesLE 1 (min 255 (s.fieldHoles f))

/-- Tiles with a suspect entry, or awaiting retirement. -/
def State.suspectTiles (s : State) : Nat :=
  (s.suspectPlaces ++ s.retireDue.filter (fun x => !s.known.any (fun e => e.place == x && (e.kind == 1 || e.kind == 3)))).eraseDups.length

/-- The health and spare inventory body (17, R524). -/
def State.healthBody (s : State) : List (BitVec 8) :=
  let fields := List.range 84
  let segs := fun (n : Nat) => (fields.map (fun f => s.segsWith f n)).sum
  bytesLE 2 (segs 0) ++ bytesLE 2 (segs 1) ++ bytesLE 2 s.routedHoles ++ bytesLE 2 s.suspectTiles
    ++ bytesLE 1 (s.near.siteState 12 + 4 * s.near.siteState 25) ++ bytesLE 1 (s.far.siteState 8 + 4 * s.far.siteState 17)
    ++ bytesLE 1 s.converters ++ bytesLE 1 (4 - ((List.range 4).filter (fun n => s.sec.revoked.getLsbD n)).length)
    ++ bytesLE 1 s.sec.steps ++ bytesLE 1 s.yokeSpares ++ bytesLE 1 (bitNat s.serviceAdvised + 2 * bitNat s.castOnly) ++ bytesLE 1 0
    ++ bytesLE 2 (s.sensorPairs 1) ++ bytesLE 2 (s.sensorPairs 2) ++ bytesLE 4 s.patinaSeq ++ s.patinaDigest
    ++ ((List.range 20).map (fun n => bytesLE 1 (2 - (getD {} s.ports n).sparesUsed))).flatten
    ++ ((List.range 28).map (fun r => bytesLE 1 (s.region r).phaseSpares)).flatten
    ++ (fields.map s.healthField).flatten ++ bytesLE 8 0

/-- The body of a capability, ids 1 to 16. -/
def State.capBody (s : State) (id : Nat) : List (BitVec 8) :=
  let b := bytesLE
  match id with
  | 1 => b 2 0x7210 ++ b 1 0xB0 ++ b 1 1 ++ b 6 Config.serial.toNat ++ b 2 s.bootedFamily ++ b 4 s.bootedVersion ++ b 1 s.bootedSv
      ++ b 1 (bitNat (s.sec.booted == some true)) ++ b 1 (bitNat s.sec.recovery) ++ b 5 0
  | 2 => b 2 4 ++ b 2 256 ++ b 1 4 ++ b 1 32 ++ b 2 4096 ++ b 1 16 ++ b 1 0x1F ++ b 1 44 ++ b 1 20 ++ b 2 0x07FF ++ b 1 0x07 ++ b 1 0
  | 3 => b 2 0x03FF ++ b 2 0x1FFF ++ b 1 16 ++ b 1 4 ++ b 1 0x03 ++ b 1 0x07 ++ b 1 0x1F ++ b 1 0x01 ++ b 1 0x03 ++ b 1 0x01 ++ b 4 0
  | 4 => b 2 0x03FE ++ b 2 0x0098 ++ b 2 0x0006 ++ b 2 0x011F ++ b 1 2 ++ b 1 0x07 ++ b 1 32 ++ b 5 0
  | 5 => b 2 160 ++ b 1 10 ++ b 1 10 ++ b 1 0x07 ++ b 1 64 ++ b 2 200 ++ b 2 4000 ++ b 2 550 ++ b 4 0
  | 6 => b 1 20 ++ b 1 16 ++ b 1 2 ++ b 1 64 ++ b 2 200 ++ b 1 32 ++ b 1 32 ++ b 1 1 ++ b 7 0
  | 7 => b 2 16384 ++ b 1 16 ++ b 1 0x03 ++ b 2 128 ++ b 2 512 ++ b 1 36 ++ b 1 4 ++ b 1 0x03 ++ b 5 0
  | 8 => b 1 0x0F ++ b 1 32 ++ b 1 3 ++ b 1 0x32 ++ b 1 4 ++ b 11 0
  | 9 => b 1 16 ++ b 1 8 ++ b 1 16 ++ b 1 16 ++ b 2 1024 ++ b 1 48 ++ b 1 128 ++ b 2 4095 ++ b 1 64 ++ b 1 64 ++ b 1 0x03 ++ b 3 0
  | 0xA => b 1 0x07 ++ b 1 1 ++ b 1 10 ++ b 1 3 ++ b 2 0x03F8 ++ b 2 0x0007 ++ b 1 9 ++ b 1 8 ++ b 1 0 ++ b 1 1 ++ b 4 0
  | 0xB => b 1 0x03 ++ b 1 0x01 ++ b 1 16 ++ b 1 32 ++ b 1 64 ++ b 3 0
  | 0xC => b 1 1 ++ b 1 0x03 ++ b 2 64 ++ b 1 2 ++ b 1 28 ++ b 1 4 ++ b 1 8 ++ b 8 0
  | 0xD => b 1 48 ++ b 1 24 ++ b 2 0x01A8 ++ b 1 4 ++ b 1 16 ++ b 2 16 ++ b 2 65535 ++ b 2 1000 ++ b 1 3 ++ b 1 1 ++ b 2 0
  | 0xE => b 1 16 ++ b 1 29 ++ b 2 64 ++ b 4 512 ++ b 1 28 ++ b 7 0
  | 0xF => b 1 8 ++ b 1 0x03 ++ b 2 4096 ++ b 4 0x4443 ++ b 8 0
  | _ => s.healthBody

/-- A word of the capability list. -/
def State.capRead (s : State) (o : Nat) : BitVec 64 :=
  match (rangeFrom 1 16).find? (fun id => decide (capStart id ≤ o) && decide (o < capStart id + 16 + capLength id)) with
  | none => 0
  | some id =>
    let d := o - capStart id
    if d < 16 then wordAt (capHeader id) d else wordAt (s.capBody id) (d - 16)

/-! ## Collectors (16, R503) -/

/-- A word of a record held, or zero. -/
def recordWord (r : Option Record) (o : Nat) : BitVec 64 := match r with | some x => wordAt (x.bytes 0) o | none => 0

/-- FC_FIRST_CTRL. -/
def Collector.firstCtrl (c : Collector) : BitVec 64 := pack [(c.classOr.toNat, 0), (c.count, 32), (bitNat c.valid, 63)]

/-- FC_HIST_CTRL. -/
def Collector.histCtrl (c : Collector) : BitVec 64 := pack [(c.next, 0), (c.overwritten.toNat, 16)]

/-- FC_REACT of a source type. -/
def State.reactWord (s : State) (t : Nat) : BitVec 64 := s.frameReg (0x00300100 + 8 * t) (reactReset t)

/-- Fields with a repair that awaits its flip. -/
def State.repairFields (s : State) : Nat :=
  (s.repairs.map (fun (x : Repair) => tileX x.tile / 70 + 12 * (tileY x.tile / 78))).eraseDups.length

/-! ## The indirect region window (R416, R417) -/

/-- A region's clock step as PW_REGION reports it: 5 where it is gated or unpowered, as every region is in halt (16, R493). -/
def State.stepCode (s : State) (g : Region) : Nat :=
  if s.halted then 5 else match g.state with | .active | .transit | .service => g.step | _ => 5

/-- The wafer object of a number of the frame, with the paddock that holds it and its place there (07, R244). -/
def State.waferHolder (s : State) (n : Nat) : Option (Nat × Nat) :=
  (rangeFrom 1 28).findSome? (fun p =>
    let w := (s.paddock p).wafer
    if w.nums.contains n then some (p, w.nums.idxOf n) else none)

/-- An object's entry in the layout of R243. -/
def BarrierObj.tableWord (o : BarrierObj) : BitVec 64 := pack [(o.target.toNat, 0), (o.step, 32), (o.mode, 62)]

/-- A pace table entry's record (Table 2.3). -/
def PaceEntry.bytes (e : PaceEntry) : List (BitVec 8) :=
  bytesLE 4 (e.offset % 2 ^ 32).toNat ++ bytesLE 1 e.action ++ [0] ++ bytesLE 2 e.target ++ bytesLE 8 e.arg.toNat

/-- The record of a pace store entry; an unlisted one is zero. -/
def Region.storeBytes (g : Region) (i : Nat) : List (BitVec 8) :=
  match look g.store i with | some e => e.bytes | none => List.replicate 16 0

/-- A word of a collector's block in its region's window. -/
def State.fieldBlock (s : State) (n o : Nat) : BitVec 64 :=
  let c := s.collector n
  if o < 0x20 then recordWord c.first o
  else if o = 0x20 then c.firstCtrl
  else if o = 0x28 then c.histCtrl
  else if 0x100 ≤ o ∧ o < 0x500 then recordWord (look c.hist ((o - 0x100) / 32)) (o % 32)
  else 0

/-- The collector number of field `j` of a region: fields run along x, then y. -/
def collectorOf (r j : Nat) : Nat := 3 * (r % 4) + j + 12 * (r / 4)

/-- A word of a region's window. -/
def State.regionRead (s : State) (r o : Nat) : BitVec 64 :=
  let g := s.region r
  let gone := g.state == .off || g.state == .lost
  if gone || (g.state == .isolated && g.controllerFailed && !(decide (0x78000 ≤ o) && decide (o < 0x7B000))) then ones64
  else if o = 0 then pack [(g.state.code, 0), (g.owner, 8), (bitNat g.controllerFailed, 32)]
  else if o = 8 then BitVec.ofNat 64 (s.stepCode g)
  else if 0x10000 ≤ o ∧ o < 0x10080 then g.dirEntry ((o - 0x10000) / 8)
  else if 0x20000 ≤ o ∧ o < 0x30000 then wordAt (g.storeBytes ((o - 0x20000) / 16)) (o % 16)
  else if 0x30000 ≤ o ∧ o < 0x30800 then
    let i := (o - 0x30000) / 32
    wordAt ((getD {} g.barriers i).record 1 i r ((if g.deadlines.contains i then 2 ^ 14 else 0)
      + (if s.objectStuck g.owner 2 (.barrier r i) then 2 ^ 15 else 0))) (o % 32)
  else if 0x30800 ≤ o ∧ o < 0x30A00 then
    let n := (o - 0x30800) / 32
    match s.waferHolder n with
    | some (p, i) => wordAt ((getD {} (s.paddock p).wafer.objs i).record 2 n 0 (if s.objectStuck p 3 (.wafer p i) then 2 ^ 15 else 0)) (o % 32)
    | none => wordAt (({} : BarrierObj).record 2 n 0 0) (o % 32)
  else if 0x31000 ≤ o ∧ o < 0x31200 then (getD {} g.barriers ((o - 0x31000) / 8)).tableWord
  else if 0x70000 ≤ o ∧ o < 0x78000 then getD 0 g.unitEnergy ((o - 0x70000) / 8)
  else if 0x78000 ≤ o ∧ o < 0x7B000 then s.fieldBlock (collectorOf r ((o - 0x78000) / 0x1000)) (o % 0x1000)
  else 0

/-! ## The indirect tile window (R416) -/

/-- HI_TILE_SEL. -/
def State.tileSel (s : State) : BitVec 64 := s.frameReg 0x00028028 0

/-- The tile of a slot of the window that answers: a LOST, OFF or unreachable tile reads as a hole does (01, R32, R45). -/
def State.tileSlot (s : State) (k : Nat) : Option Nat :=
  let x := field s.tileSel 0 10 + k % 128
  let y := field s.tileSel 16 10 + k / 128
  if onGrid x y && s.reachable (tileAt x y) then some (tileAt x y) else none

/-- A word of the tile window. -/
def State.tileRead (s : State) (o : Nat) : BitVec 64 :=
  match s.tileSlot (o / 0x1000) with
  | none => ones64
  | some k => if o % 0x1000 / 8 < 0x200 then (s.csrRead k (s.tile k) (o % 0x1000 / 8) false).getD 0 else 0

/-! ## Registers -/

/-- GLOBAL_STATUS (Table 14.15; 21, R613): boot_step reads 8 once ready is set. -/
def State.globalStatus (s : State) : BitVec 64 :=
  pack [(bitNat s.ready, 0), (bitNat s.halted, 1), (bitNat s.debugOpen, 2), (bitNat s.bootFailed, 3),
    ((if s.bootStep = 8 && !s.ready then 7 else s.bootStep), 8)]

/-- A ring pair's registers (Table 14.16). -/
def State.ringRead (s : State) (n o : Nat) : BitVec 64 :=
  let r := s.ring n
  match o with
  | 0x00 => r.sq
  | 0x08 => r.cq
  | 0x10 => r.db
  | 0x18 => pack [(r.paddock, 0), (r.vector, 40), (bitNat r.enable, 63)]
  | 0x20 => pack [(r.sqHead, 0), (r.cqTail, 16), (r.sequence, 32), (bitNat r.phase, 61),
      (bitNat (s.descs.any (fun d => d.ring == n && !d.completed)), 62), (bitNat r.error, 63)]
  | _ => 0

/-- A paddock's pace registers (Tables 2.10 to 2.15). -/
def State.paceRead (s : State) (p o : Nat) : BitVec 64 :=
  let d := if p = 0 || (s.paddock p).live then s.paddock p else {}
  match o with
  | 0x00 => BitVec.ofNat 64 d.paceSrc
  | 0x08 => pack [(bitNat d.policyFault, 0)]
  | 0x10 => BitVec.ofNat 64 d.stretchMax
  | 0x18 => BitVec.ofNat 64 d.mMin
  | 0x20 => d.paceCount
  | 0x28 => pack [(d.m, 0), (d.mStep, 8), (bitNat d.mShared, 16)]
  | 0x30 => pack [(d.strideHeld, 0), (d.overrunTotal.toNat, 32)]
  | 0x38 => d.ckptLast
  | _ => 0

/-- The host interface's global registers (Table 14.15). -/
def State.hostRegs (s : State) (o : Nat) : BitVec 64 :=
  match o with
  | 0x00 => s.frameReg 0x00028000 0xC8
  | 0x08 => s.frameReg 0x00028008 0
  | 0x10 => s.frameReg 0x00028010 0
  | 0x18 => s.frameReg 0x00028018 4
  | 0x20 => pack [(s.eventHead, 0), (s.eventTail, 16), (min s.eventLost 0xFFFF, 32), (s.eventVector, 48),
      (bitNat s.eventOverflow, 62), (bitNat s.eventEnable, 63)]
  | 0x28 => s.tileSel
  | _ => 0

/-- The MSI-X table: an entry's vector control is masked until it is written. -/
def State.msixRead (s : State) (i : Nat) : BitVec 64 := if i % 2 = 0 then getD 0 s.msix i else getD (BitVec.ofNat 64 (2 ^ 32)) s.msix i

/-- A word of the MSI-X pending bit array. -/
def State.msixPend (s : State) (i : Nat) : BitVec 64 :=
  BitVec.ofNat 64 ((List.range 64).foldl (fun n j => if s.msixPending.contains (64 * i + j) then n + 2 ^ j else n) 0)

/-- The power registers (Tables 15.9 to 15.13); the input power and the feed voltages are free. -/
def State.powerRead (s : State) (o : Nat) : BitVec 64 :=
  if o = 0 then
    let regions := (List.range 28).map s.region
    pack [(bitNat s.feedA, 0), (bitNat s.feedB, 1), (bitNat (s.feedA != s.feedB), 8),
      (bitNat (regions.any (fun g => decide (g.duty < 8))), 9), (bitNat (regions.any (fun g => decide (85 < g.tempC))), 10),
      (bitNat s.coolantDerate, 11)]
  else if o = 8 then setField (s.freshAt 902) 48 16 s.moduleCap
  else if o = 0x10 then s.frameReg 0x00200010 0x0000320028202000
  else if 0x1000 ≤ o ∧ o < 0x1000 + 0x20 * 28 ∧ o % 0x20 = 0 then
    let g := s.region ((o - 0x1000) / 0x20)
    pack [(g.capW, 0), (s.stepCode g, 32), (g.phases, 40), (g.tempC, 48), (g.duty, 58), (bitNat (decide (g.duty < 8)), 62),
      (bitNat g.efuse, 63)]
  else if 0x2040 ≤ o ∧ o < 0x2000 + 0x40 * 29 ∧ o % 0x40 = 0 then
    let d := s.paddock ((o - 0x2000) / 0x40)
    let d := if d.live then d else {}
    pack [(d.latency, 0), (d.normal, 8), (d.background, 16)]
  else 0

/-- PD_REPAIR_CTRL (Table 17.8). -/
def State.repairRead (s : State) (p : Nat) : BitVec 64 :=
  let d := s.paddock p
  if !d.live then pack [(1, 0), (0x1F, 24)]
  else pack [(field (s.repairCtrl p) 0 2, 0), (d.excluded.getD 0x1F, 24), (d.replacements, 32)]

/-- The wafer collector's and the repair registers (Tables 16.12 to 16.16, 17.7, 17.8). -/
def State.faultRead (s : State) (o : Nat) : BitVec 64 :=
  let c := s.collector 84
  if o = 0 then s.fcCtrl
  else if o = 8 then pack [(c.seq.toNat, 0), (s.pathFaults, 32), (s.haltCause, 48), (bitNat s.halted, 63)]
  else if 0x10 ≤ o ∧ o < 0x30 then recordWord c.first (o - 0x10)
  else if o = 0x30 then c.firstCtrl
  else if o = 0x38 then c.histCtrl
  else if 0x100 ≤ o ∧ o < 0x180 then s.reactWord ((o - 0x100) / 8)
  else if 0x1000 ≤ o ∧ o < 0x1800 then recordWord (look c.hist ((o - 0x1000) / 32)) (o % 32)
  else if o = 0x4000 then pack [(s.repairFields, 0), (s.holesNew, 16), (s.repairsDone, 32)]
  else if 0x4040 ≤ o ∧ o < 0x4000 + 0x40 * 29 ∧ o % 0x40 = 0 then s.repairRead ((o - 0x4000) / 0x40)
  else 0

/-- The state code of a port: a group or port that is disabled reads 3. -/
def PortLink.word (x : PortLink) : BitVec 64 :=
  pack [(x.retries % 2 ^ 32, 0), (x.peer, 48), (2 - x.sparesUsed, 56), (x.state, 60), (bitNat x.enable, 63)]

/-- The yoke and fabric registers (Tables 18.9, 18.10). -/
def State.linkRead (s : State) (o : Nat) : BitVec 64 :=
  let y := s.yoke
  if o = 0 then s.frameReg 0x00500000 4
  else if o = 8 then
    pack [(bitNat y.attached, 0), (bitNat y.alive, 1), (bitNat y.degraded, 2), (bitNat y.copying, 3), (y.mode, 4),
      (((rangeFrom 20 10).filter (fun n => (s.link n).state == 2)).length, 12), ((if y.down then 0 else 2), 16), (y.attachFail, 60)]
  else if o = 0x10 then s.yokeRole
  else if o = 0x18 then pack [(y.lastTaken, 0), (y.carried, 16), (y.takeovers, 32)]
  else if o = 0x1000 then s.frameReg 0x00501000 0
  else if 0x1100 ≤ o ∧ o < 0x1100 + 8 * 20 then (s.link ((o - 0x1100) / 8)).word
  else if 0x1200 ≤ o ∧ o < 0x1400 then getD 0 s.fbRoute ((o - 0x1200) / 8)
  else if 0x1400 ≤ o ∧ o < 0x1500 then getD 0 s.fbWindows ((o - 0x1400) / 8)
  else 0

/-- The security registers (Table 19.10); the token window reads zero. -/
def State.secRead (s : State) (o : Nat) : BitVec 64 :=
  let x := s.sec
  match o with
  | 0x00 => pack [(bitNat s.debugOpen, 0), (bitNat x.owner.isSome, 1), (bitNat x.recovery, 2), (bitNat (x.booted == some true), 3),
      (bitNat x.preferred, 4), (x.revoked.toNat, 5), (x.steps, 9), (s.bootedSv, 16)]
  | 0x08 => BitVec.ofNat 64 (x.nonce.toNat % 2 ^ 64)
  | 0x10 => BitVec.ofNat 64 (x.nonce.toNat / 2 ^ 64 % 2 ^ 64)
  | 0x18 => BitVec.ofNat 64 (x.nonce.toNat / 2 ^ 128 % 2 ^ 64)
  | 0x20 => BitVec.ofNat 64 (x.nonce.toNat / 2 ^ 192)
  | 0x28 => pack [(field x.scope 0 4, 0), (x.signer, 6), (x.lastFail, 8), (x.attempts.toNat, 32)]
  | 0x40 => pack [(x.relSelect, 0),
      ((if 1 ≤ x.relSelect ∧ x.relSelect ≤ 28 then
        (List.range 4).foldl (fun n i => if (look (s.paddock x.relSelect).relKeys i).isSome then n + 2 ^ i else n) 0 else 0), 8)]
  | _ => 0

/-- A byte of a site map (Table 10.6). -/
def Tier.mapByte (t : Tier) (u : Nat) : Nat :=
  t.sites.getD u 0 + 2 ^ 6 * bitNat (t.migration.any (fun m => m.logical == u)) + 2 ^ 7 * bitNat (t.failed.contains u)

/-- A tier's registers (Tables 10.6 to 10.8). -/
def State.tierRead (s : State) (far : Bool) (o : Nat) : BitVec 64 :=
  let t := s.tier far
  if o < unitCount far then BitVec.ofNat 64 (natLE ((List.range 8).map (fun j => BitVec.ofNat 8 (t.mapByte (o + j)))))
  else if o = 0x20 then
    match t.migration with
    | some m => pack [(m.rows, 0), (m.fromSite, 40), (m.toSite, 48), (m.logical, 56), (1, 63)]
    | none => 0
  else if o = 0x40 then s.scrubCtrl far
  else if o = 0x80 ∧ !far then s.frameReg 0x00700080 0
  else if 0x1000 ≤ o ∧ o < 0x1000 + 0x40 * 29 ∧ o % 0x40 = 0 ∧ !far then
    let p := (o - 0x1000) / 0x40
    if (s.paddock p).live then setField (s.remountCtrl p) 8 5 (s.paddock p).remount.history.length else 0x14
  else 0

/-- A 64-bit register of BAR0 by its offset, a multiple of 8 (Table 14.3); an offset that holds none reads zero. -/
def State.bar0Read (s : State) (o : Nat) : BitVec 64 :=
  if o = 0 then idPart
  else if o = 8 then idSerial
  else if o = 0x10 then s.globalStatus
  else if 0x40 ≤ o ∧ o < 0x60 then s.regionMap ((o - 0x40) / 8)
  else if 0x100 ≤ o ∧ o < 0x8000 then s.capRead o
  else if 0x8000 ≤ o ∧ o < 0x8000 + 0x40 * 29 then
    let x := (s.paddock ((o - 0x8000) / 0x40)).seals
    if o % 0x40 = 0 then x.base
    else if o % 0x40 = 8 then pack [(x.log2, 0), (bitNat x.enable, 8), (x.sequence.toNat, 32)]
    else 0
  else if o = 0x10000 then s.frameReg 0x00010000 8
  else if o = 0x10008 then s.paceStatus
  else if o = 0x10010 then s.refCount
  else if o = 0x10018 then s.frameReg 0x00010018 0
  else if 0x11000 ≤ o ∧ o < 0x11000 + 0x40 * 29 then s.paceRead ((o - 0x11000) / 0x40) (o % 0x40)
  else if 0x20000 ≤ o ∧ o < 0x24000 then s.ringRead ((o - 0x20000) / 0x40) (o % 0x40)
  else if 0x28000 ≤ o ∧ o < 0x28030 then s.hostRegs (o - 0x28000)
  else if 0x2C080 ≤ o ∧ o < 0x2C000 + 0x80 * 29 then s.frameReg o 0
  else if 0x100000 ≤ o ∧ o < 0x108000 then s.msixRead ((o - 0x100000) / 8)
  else if 0x108000 ≤ o ∧ o < 0x108100 then s.msixPend ((o - 0x108000) / 8)
  else if 0x200000 ≤ o ∧ o < 0x300000 then s.powerRead (o - 0x200000)
  else if 0x300000 ≤ o ∧ o < 0x400000 then s.faultRead (o - 0x300000)
  else if 0x400000 ≤ o ∧ o < 0x441000 then s.counterWord ((o - 0x400000) / 8)
  else if o = 0x441000 then setField (s.frameReg 0x00441000 0x4E2) 48 16 s.bwSeq
  else if 0x441108 ≤ o ∧ o < 0x441100 + 8 * 29 then s.frameReg o 0
  else if 0x500000 ≤ o ∧ o < 0x600000 then s.linkRead (o - 0x500000)
  else if 0x600000 ≤ o ∧ o < 0x700000 then s.secRead (o - 0x600000)
  else if 0x700000 ≤ o ∧ o < 0x780000 then s.tierRead false (o - 0x700000)
  else if 0x780000 ≤ o ∧ o < 0x800000 then s.tierRead true (o - 0x780000)
  else if 0x1000000 ≤ o ∧ o < 0x1000000 + 28 * 0x80000 then s.regionRead ((o - 0x1000000) / 0x80000) (o % 0x80000)
  else if 0x2000000 ≤ o ∧ o < 0x4000000 then s.tileRead (o - 0x2000000)
  else 0

/-- An access of BAR0 that reads `len` bytes (R415): naturally aligned 4 or 8 bytes; any other is an Unsupported Request, answered
none. In halt BAR0 stays readable. -/
def State.bar0Load (s : State) (o len : Nat) : Option (BitVec 64) :=
  if len = 8 ∧ o % 8 = 0 then some (s.bar0Read o)
  else if len = 4 ∧ o % 4 = 0 then some (BitVec.ofNat 64 (field (s.bar0Read (o / 8 * 8)) (o % 8 * 8) 32))
  else none

/-! ## The result windows in BAR2 (R414, R444 to R446) -/

/-- A byte of a slot as the host reads it: its header at any time; the payload of a FINAL slot, zero from its length on, and all
ones of any other (R446). -/
def State.slotByte (s : State) (p k at_ : Nat) : BitVec 8 :=
  let d := s.paddock p
  let x := d.slot k
  if at_ < 64 then x.header.getD at_ 0
  else if x.state ≠ 2 then 0xFF
  else if x.length ≤ at_ - 64 then 0
  else (((s.shareBytes p false (d.payload k + (at_ - 64)) 1).map (fun b => BitVec.ofNat 8 b.1)).getD 0 0xFF)

/-- A byte of BAR2: offsets of ids with no paddock read all ones, and so does all of it in halt (R444; 16, Table 16.8). -/
def State.bar2Byte (s : State) (o : Nat) : BitVec 8 :=
  let p := o / 2 ^ 29 + 1
  let d := s.paddock p
  if s.halted || !d.live || decide (28 < p) then 0xFF
  else s.slotByte p (o % 2 ^ 29 / 2 ^ d.slotLog) (o % 2 ^ d.slotLog)

/-- A host read of BAR2. -/
def State.bar2Read (s : State) (o len : Nat) : List (BitVec 8) := (rangeFrom o len).map s.bar2Byte

/-! ## Configuration space (R412, Tables 14.1 and 14.2) -/

/-- The features of Table 14.1 that the endpoint implements, each with its capability; any other structure is absent. -/
inductive PcieFeature where
  | expressEndpoint
  | msix
  | serialNumber
  | advancedErrors
  | powerManagement
  | dataObjectExchange
  | ide
  deriving DecidableEq, Repr

/-- What the endpoint's configuration space says of it: the identity, the size in bytes and prefetchability of BAR0, BAR2 and BAR4,
the serial number, the MSI-X vectors, the payload and read request sizes, the tag bits, the features, and whether it is in D3hot. -/
structure ConfigSpace where
  vendor : BitVec 16
  device : BitVec 16
  revision : BitVec 8
  classCode : BitVec 24
  subVendor : BitVec 16
  subDevice : BitVec 16
  bars : List (Nat × Nat × Bool)
  serial : BitVec 64
  vectors : Nat
  maxPayload : Nat
  maxRead : Nat
  tagBits : Nat
  features : List PcieFeature
  d3hot : Bool
  deriving DecidableEq, Repr

/-- The configuration space of the module. -/
def State.configSpace (s : State) : ConfigSpace :=
  { vendor := Config.vendorId, device := 0x7210, revision := 0xB0, classCode := 0x120000
    subVendor := Config.vendorId, subDevice := 0x7210
    bars := [(0, 64 * 2 ^ 20, false), (2, 16 * 2 ^ 30, true), (4, 64 * 2 ^ 30, true)]
    serial := idSerial, vectors := 2048, maxPayload := 512, maxRead := 4096, tagBits := 10
    features := [.expressEndpoint, .msix, .serialNumber, .advancedErrors, .powerManagement, .dataObjectExchange, .ide]
    d3hot := s.d3hot }

end Sys2Proof.Machine
end

