-- ==== Sys2Proof/Machine/Links.lean ====
section
/-! DEFINITION. The links of the yoke and of the fabric ports: frames and their retry, lanes, halted peers, remote channels
and windows (18, R527 to R531, R548 to R555). -/

namespace Sys2Proof.Machine

/-! ## Packets in frames (09, Tables 9.1, 9.2; R530) -/

/-- The code of an op. -/
def PacketOp.code : PacketOp → Nat
  | .msg => 0 | .msgAnswer => 1 | .retryNotice => 2 | .get => 3 | .getData => 4 | .put => 5 | .putAck => 6 | .signal => 7
  | .wake => 8 | .gather => 9 | .nack => 10 | .reserved => 11

/-- The op of a code. -/
def opOf (n : Nat) : PacketOp :=
  [.msg, .msgAnswer, .retryNotice, .get, .getData, .put, .putAck, .signal, .wake, .gather, .nack].getD n .reserved

/-- A packet as the payload of a DATA frame. -/
def Packet.bytes (p : Packet) : List (BitVec 8) :=
  let bit := fun (b : Bool) n => if b then 2 ^ n else 0
  bytesLE 8 (p.destX + p.destY * 2 ^ 10 + p.queue * 2 ^ 20 + p.op.cls * 2 ^ 25 + bit p.epoch 27 + bit p.poison 28
      + p.length * 2 ^ 29 + p.paddock * 2 ^ 34 + bit p.frame 39 + p.op.code * 2 ^ 40 + p.srcX * 2 ^ 44 + p.srcY * 2 ^ 54)
    ++ bytesLE 8 p.operand.toNat ++ (p.data.map (fun w => bytesLE 8 w.val.toNat)).flatten

/-- The poison bits of a packet's frame: bit 0 the header flit, then one for each data flit. -/
def Packet.framePoison (p : Packet) : Nat := 2 * flitBits (bytesOfWords p.data) + (if p.poison then 1 else 0)

/-- The packet that a DATA frame carries. -/
def packetOfBytes (bs : List (BitVec 8)) (poison : Nat) : Packet :=
  let h := BitVec.ofNat 64 (natLE (bs.take 8))
  let words := piecesOf 8 (bs.length / 8) (bs.drop 16)
  { op := opOf (field h 40 4), operand := BitVec.ofNat 64 (natLE ((bs.drop 8).take 8)), srcX := field h 44 10
    srcY := field h 54 10, destX := field h 0 10, destY := field h 10 10, frame := bitOf h 39, queue := field h 20 5
    paddock := field h 34 5, length := field h 29 5, poison := bitOf h 28, epoch := bitOf h 27
    data := ((List.range words.length).zip words).map (fun x =>
      if poison / 2 ^ (x.1 / 2 + 1) % 2 = 1 then { poison := true } else { val := BitVec.ofNat 64 (natLE x.2) })
    tag := {}, pos := .frame, replays := 0 }

/-- The engine id of this module (R551). -/
def State.engineId (s : State) : Nat := field (s.frameReg 0x00501000 0) 0 6

/-- The engine at the other end of a link; 0 for the twin. -/
def State.peerOf (s : State) (n : Nat) : Nat := if 20 ≤ n then 0 else (s.link n).peer

/-- A packet sent on a link in a DATA frame. -/
def State.sendData (s : State) (n : Nat) (p : Packet) : State :=
  s.linkSend n { seq := 0, kind := 0x01, dest := s.peerOf n, cls := p.op.cls, paddock := p.paddock, poison := p.framePoison
                 body := p.bytes }

/-- An ADDRESS answer to a message of a remote channel (R554). -/
def State.refuseMessage (s : State) (n channel : Nat) : State :=
  let a : Packet := { op := .msgAnswer, operand := 3, srcX := 0x3FF, srcY := 0x3FF, destX := 0x3FF, destY := 0x3FF, frame := false,
                      queue := 0, paddock := 0, length := 0, poison := false, epoch := false, data := [], tag := {}, pos := .frame, replays := 0 }
  s.linkSend n { seq := 0, kind := 0x01, dest := s.peerOf n, cls := 1, channel := channel, body := a.bytes }

/-- A frame outside the sequence. -/
def State.sendPlain (s : State) (n kind seq : Nat) : State := s.putFrame n { seq := seq, kind := kind, dest := s.peerOf n }

/-! ## Retry (R549) -/

/-- Whether a link carries frames: in halt a fabric port carries none (16, Table 16.8). -/
def State.linkUp (s : State) (n : Nat) : Bool := (s.link n).state == 2 && (if n < 20 then !s.halted else !s.yoke.down)

/-- Frames up to a sequence number are acknowledged; those that waited behind the retry buffer are sent. -/
def State.ackLink (s : State) (n seq : Nat) : State :=
  let x := s.link n
  match x.unacked.findIdx? (fun f => f.seq == seq) with
  | none => s
  | some i =>
    let rest := x.unacked.drop (i + 1)
    let fresh := (rest.take retryFrames).drop (retryFrames - (i + 1))
    fresh.foldl (fun s f => s.putFrame n f) (s.setLink n { x with unacked := rest })

/-- Every frame not acknowledged is sent again. -/
def State.resendLink (s : State) (n : Nat) : State :=
  let x := s.link n
  let fs := x.unacked.take retryFrames
  let s := fs.foldl (fun s f => s.emit (.frame n f)) (s.setLink n { x with retries := (x.retries + fs.length) % 2 ^ 32 })
  s.cntPort n 3 fs.length

/-- ACK. -/
def execAck (link : Fin 30) (seq : Nat) (s : State) : Host.Outcome State Fault Refusal :=
  if s.linkUp link && (s.link link).unacked.any (fun f => f.seq == seq) then .next (s.ackLink link seq).bump else turnedAway s

/-- NAK: `seq` is the last sequence number received in order. -/
def execNak (link : Fin 30) (seq : Nat) (s : State) : Host.Outcome State Fault Refusal :=
  if s.linkUp link then .next ((s.ackLink link seq).resendLink link).bump else turnedAway s

/-- LINK_RETRY_TIMEOUT. -/
def execLinkRetryTimeout (link : Fin 30) (s : State) : Host.Outcome State Fault Refusal :=
  if s.linkUp link && !(s.link link).unacked.isEmpty then .next (s.resendLink link).bump else turnedAway s

/-! ## Packets from a peer (R555) -/

/-- The inbound window that allows a peer's access, with the share offset. -/
def State.inboundWindow (s : State) (n : Nat) (p : Packet) : Option (BitVec 64 × Bool × Nat) :=
  let twin := decide (20 ≤ n)
  let inner := if twin then field p.operand 56 4 else field p.operand 50 4
  let off := field p.operand 0 50
  let len := 16 * p.length
  if inner ≠ 1 ∧ inner ≠ 2 then none
  else
    ((List.range 32).map (getD 0 s.fbWindows)).findSome? (fun w =>
      if windowCovers w true (p.op == .put) (inner == 2) twin (s.peerOf n) (field w 48 5) off len
          && (s.paddock (field w 48 5)).live && decide (off + len ≤ ((s.paddock (field w 48 5)).units (inner == 2)).length * 2 ^ 30)
      then some (w, inner == 2, off) else none)

/-- The answer to a peer's request. -/
def Packet.answer (p : Packet) (op : PacketOp) (operand : BitVec 64) (data : List PWord) : Packet :=
  { p with op := op, operand := operand, srcX := 0x3FF, srcY := 0x3FF, destX := p.srcX, destY := p.srcY, queue := 0,
           frame := false, length := flitsOf (8 * data.length), data := data }

/-- A peer's get or put reaches a tier share, or is refused with a NACK; `none` while a granule is healed. The operand of
GET_DATA, the requester's local offset, is not in the request: it is free (log entry 97). -/
def State.peerRequest (s : State) (n : Nat) (p : Packet) : Option State :=
  match s.inboundWindow n p with
  | none => some (s.sendData n (p.answer .nack p.operand []))
  | some (w, far, off) =>
    let q := field w 48 5
    let len := 16 * p.length
    if s.shareLocked q far off len then none
    else if p.op = .put then
      some ((s.writeShare q far off (bytesOfWords p.data)).sendData n (p.answer .putAck 0 []))
    else
      let ws := s.shareWords q far off (2 * p.length)
      some ((((s.touchShare q far off len).countRead q far off len)).sendData n (p.answer .getData s.fresh (flitPoison ws)))

/-- The request that a peer's answer answers: the oldest of the tile that the link carries. -/
def State.waitFor (s : State) (n : Nat) (p : Packet) : Option (Nat × Packet) :=
  let hit := fun (w : PeerWait) => w.link == n && w.packet.srcX == p.destX && w.packet.srcY == p.destY
    && (match p.op with
      | .getData => w.packet.op == .get && w.packet.length == p.length
      | .putAck => w.packet.op == .put
      | _ => w.packet.operand == p.operand)
  match s.peerWaits.findIdx? hit with
  | none => none
  | some i => (s.peerWaits[i]?).map (fun w => (i, w.packet))

/-- A peer's answer goes to the tile that waits for it. -/
def State.peerAnswer (s : State) (n : Nat) (p : Packet) : State :=
  match s.waitFor n p with
  | none => s
  | some (i, q) =>
    let a := s.framePacket (linkStirrup n) p.op (if p.op = .getData then BitVec.ofNat 64 q.tag.loc else p.operand) q.srcX q.srcY q.paddock
    { s with peerWaits := s.peerWaits.eraseIdx i }.launch { a with data := p.data, length := p.length, tag := q.tag }

/-- A message of a tile answered by the frame: its channel's credit returns and its entry is settled (R554). -/
def State.settleMessage (s : State) (q : Nat) (c : Channel) (status : Nat) : State :=
  match c.inFlight with
  | [] => s
  | (k, ref) :: rest =>
    (s.onPaddock q (fun d => d.setChannel { c with inFlight := rest })).onTile k (fun t => s.takeAnswer k t ref status false)

/-- The outbound channels towards the peer of a link that have messages in flight. -/
def State.outChannels (s : State) (n : Nat) : List (Nat × Channel) :=
  ((rangeFrom 1 28).map (fun q => ((s.paddock q).channels.filter (fun c =>
    !c.inbound && !c.inFlight.isEmpty && (if 20 ≤ n then c.twin else !c.twin && c.engine == s.peerOf n))).map (fun c => (q, c)))).flatten

/-- A packet of a DATA frame delivered; a message's answer names its channel in the frame header (log entry 117). -/
def State.takeData (s : State) (n channel : Nat) (p : Packet) : Option State :=
  match p.op with
  | .get => s.peerRequest n p
  | .put => s.peerRequest n p
  | .getData => some (s.peerAnswer n p)
  | .putAck => some (s.peerAnswer n p)
  | .nack => some (s.peerAnswer n p)
  | .msgAnswer =>
    match (s.outChannels n).find? (fun x => x.2.id == channel) with
    | some (q, c) => some (s.settleMessage q c (field p.operand 0 2))
    | none => some s
  | _ => some s

/-- YOKE_DATA: a DATA frame arrives on a link. -/
def execYokeData (link : Fin 30) (f : LinkFrame) (s : State) : Host.Outcome State Fault Refusal :=
  let n := link.val
  let x := s.link n
  let engine := if 20 ≤ n then 0 else s.engineId
  if !s.linkUp n || s.halted then turnedAway s
  else if !f.good ∨ f.kind ≠ 0x01 ∨ f.dest.toNat ≠ engine then .next (s.cntPort n 2 1).bump
  else if f.seq % 4096 = x.expect then
    match s.takeData n f.channel.toNat (packetOfBytes f.body f.poison.toNat) with
    | none => turnedAway s
    | some s =>
      let s := (s.setLink n { s.link n with expect := (x.expect + 1) % 4096 }).tookFrame n f.body.length
      .next (s.sendPlain n 0x02 x.expect).bump
  else if (x.expect + 4096 - f.seq % 4096) % 4096 ≤ 2048 then
    .next ((s.cntPort n 2 1).sendPlain n 0x02 ((x.expect + 4095) % 4096)).bump
  else .next ((s.cntPort n 2 1).sendPlain n 0x03 ((x.expect + 4095) % 4096)).bump

/-- CREDIT: messages of a remote channel have been accepted by the peer (R554). -/
def execCredit (link : Fin 30) (channel n : Nat) (s : State) : Host.Outcome State Fault Refusal :=
  let one := fun (s : State) => match (s.outChannels link).find? (fun x => x.2.id == channel) with
    | some (q, c) => s.settleMessage q c 0
    | none => s
  if !s.linkUp link then turnedAway s
  else if !(s.outChannels link).any (fun x => x.2.id == channel) then turnedAway s
  else .next ((List.range (min n 256)).foldl (fun s _ => one s) s).bump

/-! ## Remote channel messages (R554) -/

/-- The inbound channel that a message of a link names, with its paddock. -/
def State.inChannel (s : State) (n channel : Nat) : Option (Nat × Channel) :=
  (rangeFrom 1 28).findSome? (fun q => ((s.paddock q).channels.find? (fun c =>
    c.inbound && c.id == channel && (if 20 ≤ n then c.twin else !c.twin && c.engine == s.peerOf n))).map (fun c => (q, c)))

/-- Messages held go into the mesh in sequence order. -/
def State.injectChannel (s : State) (n q : Nat) : Nat → Channel → State
  | 0, c => s.onPaddock q (fun d => d.setChannel c)
  | fuel + 1, c =>
    match look c.held c.expect with
    | none => s.onPaddock q (fun d => d.setChannel c)
    | some ws =>
      let m := s.framePacket (linkStirrup n) .msg 0 (field c.dest 30 10) (field c.dest 40 10) q
      let m := { m with queue := field c.dest 0 5, length := ws.length / 2, data := ws
                        tag := { ref := n, loc := c.id, flag := true } }
      State.injectChannel (s.launch m) n q fuel { c with held := drop c.held c.expect, expect := (c.expect + 1) % 2 ^ 16 }

/-- The frame of a message, the next in link order, is acknowledged (R549; log entry 98). -/
def State.ackMessage (s : State) (n : Nat) : State :=
  let x := s.link n
  (s.setLink n { x with expect := (x.expect + 1) % 4096 }).sendPlain n 0x02 x.expect

/-- REMOTE_CHANNEL_MSG. -/
def execRemoteChannelMsg (link : Fin 30) (channel chseq : Nat) (words : List (BitVec 64 × Bool)) (s : State) :
    Host.Outcome State Fault Refusal :=
  let n := link.val
  if !(Instr.remoteChannelMsg link channel chseq words).wellFormed then turnedAway s
  else if !s.linkUp n || s.halted then turnedAway s
  else
    let ws := flitPoison (words.map (fun w => if w.2 then { poison := true } else { val := w.1 }))
    match s.inChannel n channel with
    | none =>
      .next (((s.cntPort n 2 1).refuseMessage n channel).ackMessage n).bump
    | some (q, c) =>
      let ahead := (chseq + 2 ^ 16 - c.expect) % 2 ^ 16
      if 2 ^ 15 ≤ ahead ∨ (look c.held chseq).isSome then .next ((s.cntPort n 2 1).ackMessage n).bump
      else if c.credit ≤ c.held.length then turnedAway s
      else
        let c := { c with held := insertAt c.held chseq ws }
        .next (((s.injectChannel n q c.held.length c).tookFrame n (16 + 8 * ws.length)).ackMessage n).bump

/-! ## Heartbeats, lanes and halted peers (R528, R531, R550, R552) -/

/-- HEARTBEAT. -/
def execHeartbeat (link : Fin 30) (s : State) : Host.Outcome State Fault Refusal :=
  if !s.linkUp link then turnedAway s
  else .next (if 20 ≤ link.val then { s with yoke := { s.yoke with alive := true } } else s).bump

/-- HEARTBEAT_SEND. -/
def execHeartbeatSend (link : Fin 30) (s : State) : Host.Outcome State Fault Refusal :=
  if s.linkUp link && decide (20 ≤ link.val) then .next (s.sendPlain link 0x05 0).bump else turnedAway s

/-- YOKE_DOWN. -/
def execYokeDown (s : State) : Host.Outcome State Fault Refusal :=
  if s.yoke.down then turnedAway s else .next (s.dropYoke false).bump

/-- Yoke groups up. -/
def State.groupsUp (s : State) : Nat := ((rangeFrom 20 10).filter (fun n => (s.link n).state == 2)).length

/-- A get or put that a link carries is answered by the frame as a lost one. -/
def State.nackWait (s : State) (w : PeerWait) : State :=
  s.launch { s.framePacket (linkStirrup w.link) .nack w.packet.operand w.packet.srcX w.packet.srcY w.packet.paddock with tag := w.packet.tag }

/-- HALTED: gets to that engine complete with poison, puts are lost, messages are answered ADDRESS. -/
def execHalted (port : Fin 20) (s : State) : Host.Outcome State Fault Refusal :=
  if (s.link port).state ≠ 2 then turnedAway s
  else
    let e := s.peerOf port
    let s := { s with fbRoute := modD 0 s.fbRoute e (fun w => setField w 63 1 1) }
    let s := (s.setLink port { s.link port with halted := true }).raise (frameReport (0xB000 + port) 0x050A clsInfra 0 0)
    let mine := fun (w : PeerWait) => decide (w.link < 20) && s.peerOf w.link == e
    let s := (s.peerWaits.filter mine).foldl (fun s w => s.nackWait w) { s with peerWaits := s.peerWaits.filter (fun w => !mine w) }
    .next ((s.outChannels port).foldl (fun s x => x.2.inFlight.foldl (fun s _ =>
      match (s.outChannels port).find? (fun y => y.1 == x.1 && y.2.id == x.2.id) with
      | some (q, c) => s.settleMessage q c 3
      | none => s) s) s).bump

/-- The position of a lane's patina entry (17, Table 17.1, kind 8): the port and the lane, for a yoke group the lane among the 170 of
the yoke (18, R527; log entry 133). -/
def lanePlace (n : Nat) (lane : BitVec 8) : BitVec 32 :=
  BitVec.ofNat 32 (if n < 20 then n + lane.toNat * 2 ^ 8 else 20 + (17 * (n - 20) + lane.toNat % 17) * 2 ^ 8)

/-- LANE_SPARE: a lane that fails in use or in training is replaced; with no spare left the port or the group goes down, or stays
down. A port that is disabled does not train. -/
def execLaneSpare (link : Fin 30) (lane : BitVec 8) (s : State) : Host.Outcome State Fault Refusal :=
  let n := link.val
  let x := s.link n
  let spares := if n < 20 then 2 else 1
  if x.state = 3 || (x.state ≠ 2 && decide (spares ≤ x.sparesUsed)) then turnedAway s
  else if x.sparesUsed < spares then
    .next ((s.setLink n { x with sparesUsed := x.sparesUsed + 1 }).duePatina 8 (if n < 20 then n else 20)
      (lanePlace n lane)).bump
  else
    let s := s.linkDown n
    .next (if n < 20 then s.raise (frameReport (0xB000 + n) 0x050A clsInfra 0 0)
      else if s.groupsUp < 5 then s.dropYoke false else s).bump

/-- FABRIC_PORT_RETRAIN: an enabled port that is down comes up; the halted flag of its engine clears. -/
def execFabricPortRetrain (port : Fin 20) (peer : BitVec 6) (s : State) : Host.Outcome State Fault Refusal :=
  let x := s.link port
  if x.state = 2 || !x.enable || !s.ready || s.halted then turnedAway s
  else
    let s := s.setLink port { x with state := 2, peer := peer.toNat, halted := false }
    .next ({ s with fbRoute := modD 0 s.fbRoute peer.toNat (fun w => setField w 63 1 0) }.resendLink port).bump

/-- YOKE_RETRAIN: a group comes up; with five up the yoke carries frames. -/
def execYokeRetrain (group : Fin 10) (s : State) : Host.Outcome State Fault Refusal :=
  let n := 20 + group.val
  if (s.link n).state = 2 || !s.released || s.halted then turnedAway s
  else
    let s := s.setLink n { s.link n with state := 2 }
    .next { s with yoke := { s.yoke with down := s.yoke.down && decide (s.groupsUp < 5) } }.bump

end Sys2Proof.Machine
end

