-- ==== Sys2Proof/Machine/Twin.lean ====
section
/-! DEFINITION. The twin: attachment, copy and join, the shared pace's messages, forwards, takeover and detach (18, R532 to
R547). -/

namespace Sys2Proof.Machine

/-! ## Control messages received (R530, R531) -/

/-- A control message of the twin arrives: `len` is the length of its payload. It counts, it is acknowledged (log entry
98), and `f` is what it does. -/
def control (len : Nat) (s : State) (f : State → State) : Host.Outcome State Fault Refusal :=
  match s.yokeGroup with
  | none => turnedAway s
  | some n =>
    if s.halted then turnedAway s
    else
      let x := s.link n
      let s := (s.setLink n { x with expect := (x.expect + 1) % 4096 }).tookFrame n len
      .next ((f s).sendPlain n 0x02 x.expect).bump

/-! ## The shared pace (R539 to R542) -/

/-- M_PROPOSE: the newcomer of a pair takes its stride number from the first proposal (log entry 100). -/
def execMPropose (p : PaddockId) (stride m : Nat) (s : State) : Host.Outcome State Fault Refusal :=
  control 9 s (fun s =>
    if !s.shared p then s
    else s.onPaddock p (fun d =>
      let d := if d.primary || d.current.isSome || d.nextNumber == stride then d
        else { d with started := decide (0 < stride), paceCount := if stride = 0 then d.paceCount else paceCountOf (stride - 1) (beatOf d.paceCount) }
      { d with twin := { d.twin with twinM := some (stride, m) } }))

/-- CLOSE_REPORT: a standby answers it with its own. -/
def execCloseReport (p : PaddockId) (stride held : Nat) (fault : Bool) (digest : BitVec 64) (s : State) :
    Host.Outcome State Fault Refusal :=
  control 21 s (fun s =>
    if !s.shared p then s
    else
      let s := s.onPaddock p (fun d => { d with twin := { d.twin with close := some (stride, held, fault, digest) } })
      let s := match (s.paddock p).current with
        | some o => if s.standby p && !o.closeSent then
            (s.sendClose p false 0).onPaddock p (fun d => { d with current := some { o with closeSent := true } }) else s
        | none => s
      s.compareClose p)

/-- MARK: the standby's replay point. -/
def execMark (p : PaddockId) (stride beat : Nat) (s : State) : Host.Outcome State Fault Refusal :=
  control 8 s (fun s =>
    if s.standby p then s.onPaddock p (fun d => { d with twin := { d.twin with marked := paceCountOf stride beat } }) else s)

/-- PARTIALS (R542): `failures` are the tiles that fail the self-test of the regions whose partials differ; they are isolated
and the stride replays. -/
def execPartials (p : PaddockId) (digests : List (BitVec 64)) (failures : List TileIx) (s : State) :
    Host.Outcome State Fault Refusal :=
  control 232 s (fun s =>
    match (s.paddock p).current with
    | none => s
    | some o =>
      if !s.shared p || o.mismatches ≠ 2 || !o.stopped || o.replayDue then s
      else
        let differs := fun (k : TileIx) => s.ownerOf k == p.val && s.present k
          && ((s.paddock p).excluded.isSome || (s.region (regionOfTile k)).digest != digests.getD (regionOfTile k) 0)
        let s := (failures.filter differs).foldl (fun s k => s.isolateTile k) s
        s.onPaddock p (fun d => { d with current := d.current.map (fun o => { o with replayDue := true }) }))

/-! ## Forwards (R534, R535) -/

/-- A forwarded descriptor enters the paddock's work, with the host bytes forwarded with it. -/
def State.takeForward (s : State) (p n : Nat) (bs : List (Nat × Bool)) : State :=
  let raw := bs.map (fun b => BitVec.ofNat 8 b.1)
  let size := 64 * (1 + extensionsOf raw)
  let b := raw.take size
  let st := s.earlyStatus n p b
  let slot := if st.isSome then none else (s.destSlot p b).getD none
  let unsealed := descNat b 2 1 / 4 % 2 = 1 ∧ !(s.paddock p).seals.enable
  let staged := bs.drop size
  let d : Desc := { id := s.nextDesc, ring := n, paddock := p, bytes := b, status := st, slot := slot, staged := some staged
                    quiet := decide unsealed
                    records := if unsealed then [] else s.inputRecords b (some staged) }
  let s := { s with descs := s.descs ++ [d], nextDesc := s.nextDesc + 1 }
  let s := s.onPaddock p (fun x => { x with twin := { x.twin with forwarded := x.twin.forwarded ++ [d.id] } })
  match slot with
  | some k => s.setSlot p k { (s.paddock p).slot k with state := 1 }
  | none => s

/-- Staged bytes go to the oldest forwarded descriptor that is short of them. -/
def State.takeStaged (s : State) (p : Nat) (bs : List (Nat × Bool)) : State :=
  let short := fun (d : Desc) => (s.paddock p).twin.forwarded.contains d.id
    && (match d.staged with | some x => decide (x.length < d.hostLength) | none => false)
  match s.descs.find? short with
  | none => s
  | some d => s.onDesc d.id (fun x => { x with staged := x.staged.map (· ++ bs) })

/-- A forwarded tier write is applied to this module's share, whose read-only ranges take no write from any source (10, R321,
R329). -/
def State.applyForward (s : State) (p : Nat) (far : Bool) (off : Nat) (bs : List (Nat × Bool)) : State :=
  s.writePieces p far off bs (fun s _ _ => s)

/-- The primary's completion record of a forwarded descriptor. -/
def State.takeCompletion (s : State) (p : Nat) (bs : List (Nat × Bool)) : State :=
  let n := fun (off len : Nat) => natLE (((bs.drop off).take len).map (fun b => BitVec.ofNat 8 b.1))
  match (s.paddock p).twin.forwarded.find? (fun id =>
      (s.desc id).any (fun d => d.nat 4 4 == n 0 4 && d.ring == n 6 2)) with
  | none => s
  | some id => s.onPaddock p (fun x => { x with twin := { x.twin with forwarded := x.twin.forwarded.filter (· != id) } })

/-- FORWARD. -/
def execForward (p : PaddockId) (kind : Nat) (addr : BitVec 64) (data : List (Byte × Bool)) (s : State) :
    Host.Outcome State Fault Refusal :=
  let bs := data.map (fun b => (b.1.toNat, b.2))
  control (16 + bs.length) s (fun s =>
    let d := s.paddock p
    if d.primary || (d.pairMode ≠ 1 && d.pairMode ≠ 2) then s
    else match kind with
      | 0 => s.takeForward p addr.toNat bs
      | 1 => s.takeStaged p bs
      | 2 => s.applyForward p false addr.toNat bs
      | 3 => s.applyForward p true addr.toNat bs
      | 4 => s.takeCompletion p bs
      | _ => s)

/-! ## Attach (R536 to R538) -/

/-- The paddocks that a mask names. -/
def maskPaddocks (mask : BitVec 32) : List Nat := (rangeFrom 1 28).filter (fun p => mask.getLsbD p)

/-- Whether this module holds a loaded image in a masked paddock. -/
def State.holdsImage (s : State) (mask : BitVec 32) : Bool := (maskPaddocks mask).any (fun p => (s.paddock p).image.isSome)

/-- The first reason of Table 18.4 for which an attach fails. -/
def State.attachReason (s : State) (d : Desc) (a : AttachMsg) : Option Nat :=
  let mask := BitVec.ofNat 32 (d.nat 16 4)
  lowestCause [
    (s.yoke.down, 1),
    (!a.authentic, 2),
    (decide (a.serial.toNat ≠ d.nat 24 8), 3),
    (!a.profileSame, 4),
    (!a.familySame, 5),
    (decide (a.mode ≠ d.nat 8 1) || a.mask != mask || (maskPaddocks mask).any (fun p => !(s.paddock p).live) || !a.shapesSame, 6),
    (a.images && s.holdsImage mask, 7),
    (a.debug || s.debugOpen, 8),
    (a.attached || s.yoke.attached, 9)]

/-- The attachment of a mode and mask comes into force (R532, R537). -/
def State.attachNow (s : State) (id mode : Nat) (mask : BitVec 32) (a : AttachMsg) : State :=
  let ours := s.holdsImage mask
  let copy := mode ≠ 2 && (ours || a.images)
  let primary := mode = 2 || ours || (!a.images && Config.serial.toNat < a.serial.toNat)
  let s := (maskPaddocks mask).foldl (fun s p => s.onPaddock p (fun d =>
    { d with pairMode := mode + 1, primary := primary, twin := { joined := mode ≠ 2 && !copy } })) s
  let s := { s with yoke := { s.yoke with
    attached := true, mode := mode + 1, mask := mask, attachFail := 0, heard := none, twinSerial := a.serial
    copying := copy, copyAt := 0, attachDesc := if copy then some id else none } }
  if copy then s else s.finishDesc id 0 0

/-- An attach fails with a reason of Table 18.4. -/
def State.attachFails (s : State) (id reason : Nat) : State :=
  { s.finishDesc id 0x0200 0 with yoke := { s.yoke with attachDesc := none, attachFail := reason, heard := none } }

/-- Both sides' parameters are here: the attach succeeds or fails. -/
def State.tryAttach (s : State) : State :=
  match s.yoke.attachDesc, s.yoke.heard with
  | some id, some a =>
    match s.desc id with
    | none => s
    | some d => match s.attachReason d a with
      | some r => s.attachFails id r
      | none => s.attachNow id (d.nat 8 1) (BitVec.ofNat 32 (d.nat 16 4)) a
  | _, _ => s

/-- YOKE_ATTACH: at most one is in progress. -/
def execYokeAttach (id : Nat) (s : State) : Host.Outcome State Fault Refusal :=
  descWork id 0x0110 s (fun d s =>
    if s.yoke.attachDesc.isSome then none
    else
      let s := s.onDesc id (fun x => { x with started := true })
      let s := { s with yoke := { s.yoke with attachDesc := some id } }
      if s.yoke.down then some (s.attachFails id 1)
      else some (s.yokeSend 0x18 0 ((d.bytes.drop 8).take 24)).tryAttach)

/-- ATTACH. -/
def execAttach (a : AttachMsg) (s : State) : Host.Outcome State Fault Refusal :=
  control 24 s (fun s => { s with yoke := { s.yoke with heard := some a } }.tryAttach)

/-- ATTACH_TIMEOUT: no matching ATTACH within 10 s. -/
def execAttachTimeout (s : State) : Host.Outcome State Fault Refusal :=
  match s.yoke.attachDesc with
  | some id => if s.yoke.copying || (s.yoke.attached && s.yoke.heard.isNone && (maskPaddocks s.yoke.mask).any (fun p => !(s.paddock p).twin.joined && (s.paddock p).pairMode ≠ 0)) then turnedAway s
      else .next (s.attachFails id 1).bump
  | none => turnedAway s

/-- The granule of the copy at a place: paddock, tier and share offset, ascending. -/
def copyGranule : List (Nat × Bool × Nat) → Nat → Option (Nat × Bool × Nat)
  | [], _ => none
  | (p, far, n) :: l, i => if i < n then some (p, far, 4096 * i) else copyGranule l (i - n)

/-- The shares that the copy reads, with their granules of 4 KiB. -/
def State.copyPlan (s : State) : List (Nat × Bool × Nat) :=
  ((maskPaddocks s.yoke.mask).map (fun p => [(p, false, (s.paddock p).nearUnits.length * 2 ^ 18),
    (p, true, (s.paddock p).farUnits.length * 2 ^ 18)])).flatten

/-- ATTACH_COPY: the primary sends one granule; after the last the copy has finished. -/
def execAttachCopy (s : State) : Host.Outcome State Fault Refusal :=
  if !s.yoke.copying || s.yoke.down || s.halted || !(maskPaddocks s.yoke.mask).all (fun p => (s.paddock p).primary) then turnedAway s
  else match copyGranule s.copyPlan s.yoke.copyAt with
    | none => .next { s with yoke := { s.yoke with copying := false } }.bump
    | some (p, far, off) =>
      if s.shareLocked p far off 4096 then turnedAway s
      else
        let bs := s.shareBytes p far off 4096
        let s := ((s.touchShare p far off 4096).countRead p far off 4096).forward p (if far then 3 else 2) off bs
        .next { s with yoke := { s.yoke with copyAt := s.yoke.copyAt + 1 } }.bump

/-- The newcomer installs the image that stands in its share. -/
def State.installCopied (s : State) (p base len : Nat) : State :=
  let raw := (s.shareBytes p false base len).map (fun b => BitVec.ofNat 8 b.1)
  let i := Machine.readImage raw base len none
  (s.takeFactors p).install p i ((s.placementFor i).getD 0)

/-- The chains of a primary's ring pairs, by ring id, as the newcomer holds them. -/
def carriedChains (cs : List (Nat × BitVec 256 × BitVec 256 × BitVec 256)) : Map Ring :=
  cs.foldl (fun m c => insertAt m c.1 { chainIn := c.2.1, chainSeed := c.2.2.1, chainOut := c.2.2.2 }) []

/-- YOKE_JOIN: a paddock joins at a boundary between strides, the newcomer with what the primary has `sent` (12, R374; log entry
100). -/
def execYokeJoin (p : PaddockId) (sent : JoinSent) (s : State) : Host.Outcome State Fault Refusal :=
  let d := s.paddock p
  match s.yoke.attachDesc with
  | none => turnedAway s
  | some id =>
    if s.yoke.down || s.halted || (d.pairMode ≠ 1 && d.pairMode ≠ 2) || d.twin.joined || d.current.isSome
        || (d.primary && s.yoke.copying) then turnedAway s
    else
      let s := match sent.image with
        | some (base, len) => if d.primary then s else s.installCopied p base len
        | none => s
      let s := s.onPaddock p (fun d => { d with twin := { d.twin with
        joined := true
        chains := if d.primary then d.twin.chains else carriedChains sent.chains } })
      if (maskPaddocks s.yoke.mask).all (fun q => (s.paddock q).twin.joined) then
        .next { s.finishDesc id 0 0 with yoke := { s.yoke with attachDesc := none, copying := false } }.bump
      else .next { s with yoke := { s.yoke with copying := false } }.bump

/-! ## Failure of the twin (R543 to R546) -/

/-- A paddock for which this module is not primary is to be taken over. -/
def State.dueTakeover (s : State) (p : Nat) : State :=
  let d := s.paddock p
  if d.primary || !(d.pairMode == 1 || d.pairMode == 2) || !d.twin.joined || d.ended.isSome then s
  else s.onPaddock p (fun d => { d with twin := { d.twin with takeoverDue := true } })

/-- Every such paddock. -/
def State.dueTakeovers (s : State) : State := (rangeFrom 1 28).foldl (fun s p => s.dueTakeover p) s

/-- PADDOCK_FAIL. -/
def execPaddockFail (p : PaddockId) (s : State) : Host.Outcome State Fault Refusal := control 2 s (fun s => s.dueTakeover p)

/-- The report of a twin that has halted (R546). -/
def twinHalted : Report := frameReport 0xC000 0x050E clsInfra 0 0

/-- HALT_NOTICE: the yoke is down. -/
def execHaltNotice (s : State) : Host.Outcome State Fault Refusal :=
  control 0 s (fun s => ((s.raise twinHalted).dueTakeovers).dropYoke true)

/-- TWIN_HALT_IN_N asserted for 10 µs. -/
def execTwinHaltIn (s : State) : Host.Outcome State Fault Refusal :=
  if s.halted || !s.released then turnedAway s else .next (s.raise twinHalted).dueTakeovers.bump

/-- TAKE_OVER: a host write of YK_CTRL.take_over; no effect while the yoke is up. -/
def execTakeOver (s : State) : Host.Outcome State Fault Refusal :=
  .next (if s.yoke.down then s.dueTakeovers else s).bump

/-- TAKEOVER (Table 18.6). -/
def execTakeover (p : PaddockId) (s : State) : Host.Outcome State Fault Refusal :=
  let d := s.paddock p
  if !d.twin.takeoverDue || s.halted then turnedAway s
  else
    let standby := d.pairMode == 2
    let point := if standby && strideOf d.twin.marked == strideOf d.paceCount then d.twin.marked else d.ckptLast
    let s := (s.abandonStride p).onPaddock p (fun d => { d with
      primary := true
      ckptLast := point
      remount := { d.remount with history := [] }
      twin := { d.twin with joined := false, stopped := false, takeoverDue := false, close := none, proposal := none, twinM := none }
      current := d.current.map (fun o => { o with replayDue := true })
      seals := { d.seals with takeover := true, takeovers := d.seals.takeovers + 1 } })
    let s := s.setChains p (d.twin.chains.map (fun kv => (kv.2.chainIn, kv.2.chainSeed, kv.2.chainOut)))
    let s := { s with yoke := { s.yoke with takeovers := s.yoke.takeovers + 1, carried := d.twin.forwarded.length, lastTaken := p } }
    match standby, d.image with
    | true, some i =>
      let ks := (s.paddockTiles p).filter (fun k => (i.regionsIn d.placement).contains (regionOfTile k))
      let s := ks.foldl (fun s k => s.prepareTile p i d.placement k) s
      .next (if d.current.isSome then s else ks.foldl (fun s k => s.onTile k (i.startTile d.placement k)) s).bump
    | _, _ => .next s.bump

/-! ## Detach (R547) -/

/-- A paddock's pairing ends at the next boundary, at once where none is open or the yoke is down. -/
def State.detachPaddock (s : State) (p : Nat) : State :=
  let d := s.paddock p
  if d.pairMode = 0 then s
  else if d.pairMode = 3 || d.current.isNone || s.yoke.down || !d.twin.joined then s.endPairing p
  else s.onPaddock p (fun d => { d with twin := { d.twin with detaching := true } })

/-- DETACH. -/
def execDetach (p : PaddockId) (s : State) : Host.Outcome State Fault Refusal := control 0 s (fun s => s.detachPaddock p)

/-- YOKE_DETACH. -/
def execYokeDetach (id : Nat) (s : State) : Host.Outcome State Fault Refusal :=
  descWork id 0x0111 s (fun _ s =>
    if s.yoke.attachDesc.isSome || s.yoke.detachDesc.isSome then none
    else
      let ps := (rangeFrom 1 28).filter (fun p => (s.paddock p).pairMode != 0)
      if ps.isEmpty then
        some { s.finishDesc id 0 0 with yoke := { s.yoke with attached := false, mode := 0, mask := 0 } }
      else
        let s := s.onDesc id (fun x => { x with started := true })
        let s := { s with yoke := { s.yoke with detachDesc := some id } }
        some (ps.foldl (fun s p => (s.yokeSend 0x16 p []).detachPaddock p) s))

end Sys2Proof.Machine
end

