-- ==== Sys2Proof/Machine/Bar0.lean ====
section
/-! DEFINITION. BAR0 writes: the registers by their access codes, and the indirect windows (00, R14; 14, R415 to R417,
R447, with the register tables of each chapter). -/

namespace Sys2Proof.Machine

/-- The state that a command leaves. -/
def State.after (s : State) (o : Host.Outcome State Fault Refusal) : State := match o with | .next s' => s' | _ => s

/-- The bits of a word that a mask of bits keeps. -/
def keepBits (v : BitVec 64) (fs : List (Nat × Nat)) : BitVec 64 := pack (fs.map (fun x => (field v x.1 x.2 , x.1)))

/-! ## Host interface registers (R420, R422, R447) -/

/-- HI_STATUS.write_refused set. -/
def State.refuseRing (s : State) : State := s.setFrameReg 0x00028010 0 (s.frameReg 0x00028010 0 ||| 2)

/-- A ring address register written: the base, and a size in range. -/
def ringAddress (old v : BitVec 64) : BitVec 64 :=
  pack [(if 4 ≤ field v 0 5 ∧ field v 0 5 ≤ 16 then field v 0 5 else field old 0 5, 0), (field v 12 48, 12)]

/-- Whether a ring size is out of range. -/
def ringSizeBad (v : BitVec 64) : Bool := decide (field v 0 5 < 4) || decide (16 < field v 0 5)

/-- A ring pair's registers written. -/
def State.ringPut (s : State) (n o : Nat) (v : BitVec 64) : State :=
  let r := s.ring n
  if o = 0x18 then
    let s := s.setRing n { r with vector := field v 40 11 }
    if h : n < 256 then
      if bitOf v 63 && !r.enable then s.after (execRingEnable ⟨n, h⟩ s)
      else if !bitOf v 63 && r.enable then s.after (execRingDisable ⟨n, h⟩ s)
      else s
    else s
  else if 0x10 < o then s
  else if r.enable then s.refuseRing
  else if o = 0 then
    let s := s.setRing n { r with sq := ringAddress r.sq v }
    if ringSizeBad v then s.refuseRing else s
  else if o = 8 then
    let s := s.setRing n { r with cq := ringAddress r.cq v }
    if ringSizeBad v then s.refuseRing else s
  else s.setRing n { r with db := keepBits v [(6, 54)] }

/-- The global registers of the host interface written. -/
def State.hostPut (s : State) (o : Nat) (v : BitVec 64) : State :=
  if o = 0x00 then
    let old := field (s.frameReg 0x00028000 0xC8) 0 16
    let n := field v 0 16
    s.setFrameReg 0x00028000 0xC8 (pack [(if 50 ≤ n ∧ n ≤ 10000 then n else old, 0), (field v 16 1, 16)])
  else if o = 0x08 then s.setFrameReg 0x00028008 0 (keepBits v [(6, 54)])
  else if o = 0x10 then s.setFrameReg 0x00028010 0 (s.frameReg 0x00028010 0 &&& ~~~(keepBits v [(0, 2)]))
  else if o = 0x18 then
    if s.eventEnable then s
    else
      let s := s.setFrameReg 0x00028018 4 (ringAddress (s.frameReg 0x00028018 4) v)
      if ringSizeBad v then s.refuseRing else s
  else if o = 0x20 then s.after (execEventRingHeadWrite v s)
  else if o = 0x28 then s.setFrameReg 0x00028028 0 (keepBits v [(0, 10), (16, 10)])
  else s

/-- The MSI-X table written; unmasking a vector sends its pending message. -/
def State.msixPut (s : State) (i : Nat) (v : BitVec 64) : State :=
  if i % 2 = 0 then { s with msix := putD 0 s.msix i v }
  else
    let s := { s with msix := insertAt s.msix i (keepBits v [(0, 33)]) }
    if s.msixPending.contains (i / 2) && !bitOf v 32 then
      { s with msixPending := s.msixPending.filter (· != i / 2) }.emit (.msix (i / 2))
    else s

/-! ## Seal, pace, power, fault, link, security and tier registers -/

/-- Whether a sealed descriptor of a paddock is consumed or signing (12, R383). -/
def State.sealBusy (s : State) (p : Nat) : Bool := s.descs.any (fun d => d.paddock == p && d.isSealed && !d.completed)

/-- PD_SEAL_BASE and PD_SEAL_CTRL. -/
def State.sealPut (s : State) (p o : Nat) (v : BitVec 64) : State :=
  if !(s.paddock p).live || s.sealBusy p then s
  else if o = 0 then s.onPaddock p (fun d => { d with seals := { d.seals with base := keepBits v [(10, 50)] } })
  else if o = 8 then s.onPaddock p (fun d => { d with seals := { d.seals with
    enable := bitOf v 8, log2 := if field v 0 4 ≤ 10 then field v 0 4 else d.seals.log2 } })
  else s

/-- A paddock's pace registers; those of paddock 0 and of an id with no paddock take no write (log entry 115). -/
def State.pacePut (s : State) (p o : Nat) (v : BitVec 64) : State :=
  if p = 0 || !(s.paddock p).live then s
  else if o = 0 then (if h : p < 29 then s.after (execPaceSrcWrite ⟨p, h⟩ v s) else s)
  else if o = 8 then s.onPaddock p (fun d => { d with policyFault := bitOf v 0 })
  else if o = 0x10 then s.onPaddock p (fun d => { d with stretchMax := field v 0 16 })
  else if o = 0x18 then
    if 4 ≤ field v 0 6 ∧ field v 0 6 ≤ 32 then s.onPaddock p (fun d => { d with mMin := field v 0 6 }) else s.setPaceStatus 2
  else s

/-- PW_PLAN (Table 15.11). -/
def State.planPut (s : State) (v : BitVec 64) : State :=
  let old := s.frameReg 0x00200010 0x0000320028202000
  let factor := fun lo => if 16 ≤ field v lo 8 ∧ field v lo 8 ≤ 128 then field v lo 8 else field old lo 8
  s.setFrameReg 0x00200010 0x0000320028202000
    (pack [(factor 8, 8), (factor 16, 16), (factor 24, 24), (if field v 40 8 = 0 then field old 40 8 else field v 40 8, 40)])

/-- FC_CTRL (Table 16.12). -/
def State.fcPut (s : State) (v : BitVec 64) : State :=
  let s :=
    if bitOf s.fcCtrl 63 then s
    else
      let s := s.after (execFcModeWrite (bitOf v 0) s)
      { s with fcCtrl := setField (setField s.fcCtrl 8 7 (field v 8 7)) 63 1 (field v 63 1) }
  if bitOf v 32 then s.after (execHaltNow s) else s

/-- FC_REACT of a source type: a reserved code or one below the floor leaves its field (16, R487). -/
def State.reactPut (s : State) (t : Nat) (v : BitVec 64) : State :=
  if bitOf s.fcCtrl 63 then s
  else
    let old := s.reactWord t
    let code := fun c =>
      let n := field v (4 * c) 4
      if n ≤ 5 ∧ reactFloor s.compat false t c ≤ n then n else field old (4 * c) 4
    s.setFrameReg (0x00300100 + 8 * t) (reactReset t) (pack ((List.range 7).map (fun c => (code c, 4 * c))))

/-- The fault collector's and repair registers. -/
def State.faultPut (s : State) (o : Nat) (v : BitVec 64) : State :=
  if o = 0 then s.fcPut v
  else if o = 0x30 then (if bitOf v 63 then s.after (execFirstErrorClear none s) else s)
  else if 0x100 ≤ o ∧ o < 0x180 then s.reactPut ((o - 0x100) / 8) v
  else if 0x4040 ≤ o ∧ o < 0x4000 + 0x40 * 29 ∧ o % 0x40 = 0 then
    if (s.paddock ((o - 0x4000) / 0x40)).live then s.setFrameReg (0x300000 + o) 1 (keepBits v [(0, 2)]) else s
  else s

/-- FB_PORT: a port whose enable is cleared is disabled, one whose enable is set trains again. -/
def State.portPut (s : State) (n : Nat) (v : BitVec 64) : State :=
  let x := s.link n
  if bitOf v 63 then (if x.enable then s else s.setLink n { x with enable := true, state := 0 })
  else if !x.enable then s
  else
    let s := s.linkDown n
    s.setLink n { s.link n with enable := false, state := 3 }

/-- The yoke and fabric registers. -/
def State.linkPut (s : State) (o : Nat) (v : BitVec 64) : State :=
  if o = 0 then
    let s := if 1 ≤ field v 0 12 ∧ field v 0 12 ≤ 4000 then s.setFrameReg 0x00500000 4 (BitVec.ofNat 64 (field v 0 12)) else s
    if bitOf v 32 then s.after (execTakeOver s) else s
  else if o = 0x1000 then
    if bitOf (s.frameReg 0x00501000 0) 63 then s else s.setFrameReg 0x00501000 0 (keepBits v [(0, 6), (63, 1)])
  else if 0x1100 ≤ o ∧ o < 0x1100 + 8 * 20 then s.portPut ((o - 0x1100) / 8) v
  else if 0x1200 ≤ o ∧ o < 0x1400 then
    { s with fbRoute := modD 0 s.fbRoute ((o - 0x1200) / 8) (fun w => pack [(field v 0 20, 0), (field w 63 1, 63)]) }
  else if 0x1400 ≤ o ∧ o < 0x1500 then
    { s with fbWindows := putD 0 s.fbWindows ((o - 0x1400) / 8) (keepBits v [(0, 12), (24, 12), (48, 16)]) }
  else s

/-- The security registers; `mask` names the bytes of the token window that the write covers. -/
def State.secPut (s : State) (o : Nat) (v : BitVec 64) (mask : Nat) : State :=
  if o = 0x30 then (if bitOf v 63 then s.after (execTokenSubmit s) else s)
  else if o = 0x40 then s.after (execRelkeyErase v s)
  else if 0x1000 ≤ o ∧ o < 0x2000 then
    { s with sec := { s.sec with window := (List.range 8).foldl (fun m j =>
        if mask / 2 ^ j % 2 = 1 then putD 0 m (o - 0x1000 + j) (BitVec.ofNat 8 (field v (8 * j) 8)) else m) s.sec.window } }
  else s

/-- The tier registers. -/
def State.tierPut (s : State) (far : Bool) (o : Nat) (v : BitVec 64) : State :=
  if o = 0x40 then
    let n := field v 0 8
    s.setFrameReg (if far then 0x00780040 else 0x00700040) 0x118
      (pack [(if 1 ≤ n ∧ n ≤ 168 then n else field (s.scrubCtrl far) 0 8, 0), (field v 8 1, 8)])
  else if far then s
  else if o = 0x80 then s.setFrameReg 0x00700080 0 (keepBits v [(0, 12), (48, 5), (62, 2)])
  else if 0x1040 ≤ o ∧ o < 0x1000 + 0x40 * 29 ∧ o % 0x40 = 0 then
    let p := (o - 0x1000) / 0x40
    let n := field v 0 4
    if (s.paddock p).live then
      s.setFrameReg (0x700000 + o) 0x14 (pack [(if n ≤ 8 then n else field (s.remountCtrl p) 0 4, 0), (field v 4 1, 4)])
    else s
  else s

/-! ## The indirect windows (R416, R417; log entry 116) -/

/-- A word of a barrier or wafer object written (Table 7.8): value and target, last count, last signaller. -/
def BarrierObj.putRecord (o : BarrierObj) (i : Nat) (v : BitVec 64) : BarrierObj :=
  match i with
  | 0 => { o with value := BitVec.ofNat 32 (field v 0 32), target := BitVec.ofNat 32 (field v 32 32) }
  | 1 => { o with lastCount := v }
  | 2 => { o with lastX := BitVec.ofNat 10 (field v 0 10), lastY := BitVec.ofNat 10 (field v 16 10) }
  | _ => o

/-- A word of a pace store entry written. -/
def Region.putStore (g : Region) (i w : Nat) (v : BitVec 64) : Region :=
  let b := g.storeBytes i
  let b := if w = 0 then bytesLE 8 v.toNat ++ b.drop 8 else b.take 8 ++ bytesLE 8 v.toNat
  { g with store := insertAt g.store i (paceEntryOf b) }

/-- A word of a region's window written. -/
def State.regionPut (s : State) (r o : Nat) (v : BitVec 64) : State :=
  let g := s.region r
  if g.state == .off || g.state == .lost || (g.state == .isolated && g.controllerFailed && decide (o < 0x78000)) then s
  else if 0x10000 ≤ o ∧ o < 0x10080 then s.setRegion r { g with dir := putD 0 g.dir ((o - 0x10000) / 8) v }
  else if 0x20000 ≤ o ∧ o < 0x30000 then s.setRegion r (g.putStore ((o - 0x20000) / 16) (o % 16 / 8) v)
  else if 0x30000 ≤ o ∧ o < 0x30800 then
    s.setRegion r { g with barriers := modD {} g.barriers ((o - 0x30000) / 32) (fun b => b.putRecord (o % 32 / 8) v) }
  else if 0x30800 ≤ o ∧ o < 0x30A00 then
    match s.waferHolder ((o - 0x30800) / 32) with
    | some (p, i) => s.onPaddock p (fun d => { d with wafer := { d.wafer with
        objs := modD {} d.wafer.objs i (fun b => b.putRecord (o % 32 / 8) v) } })
    | none => s
  else if 0x31000 ≤ o ∧ o < 0x31200 then
    s.setRegion r { g with barriers := modD {} g.barriers ((o - 0x31000) / 8) (fun b =>
      { b with mode := field v 62 2, step := field v 32 30, target := BitVec.ofNat 32 (field v 0 32) }) }
  else if 0x70000 ≤ o ∧ o < 0x78000 then
    if bitOf v 63 then s.setRegion r { g with unitEnergy := modD 0 g.unitEnergy ((o - 0x70000) / 8) clearWrap } else s
  else if 0x78000 ≤ o ∧ o < 0x7B000 ∧ o % 0x1000 = 0x20 then
    if h : collectorOf r ((o - 0x78000) / 0x1000) < 84 then
      (if bitOf v 63 then s.after (execFirstErrorClear (some ⟨_, h⟩) s) else s)
    else s
  else s

/-- A word of the tile window written, as the host writes a CSR. -/
def State.tilePut (s : State) (o : Nat) (v : BitVec 64) : State :=
  match s.tileSlot (o / 0x1000) with
  | none => s
  | some k =>
    let t := s.tile k
    if 0x200 ≤ o % 0x1000 / 8 then s
    else match s.csrWrite k t (o % 0x1000 / 8) v false true with
      | .done t => s.setTile k t
      | .fault c a => s.setTile k (s.tileFault k t 6 c t.pc a)
      | .full => s

/-- A host write through a window: it takes effect only while the module is debug-opened with that function in the token's
scope; any other is discarded and recorded. -/
def State.indirectPut (s : State) (o : Nat) (v : BitVec 64) : State :=
  if !(s.debugOpen && s.sec.scope.getLsbD 1) then s.raise (frameReport 0xDFFF 0x0600 clsNote 0 (BitVec.ofNat 64 o))
  else if o < 0x2000000 then
    (if o < 0x1000000 + 28 * 0x80000 then s.regionPut ((o - 0x1000000) / 0x80000) (o % 0x80000) v else s)
  else s.tilePut (o - 0x2000000) v

/-! ## A write of BAR0 (R14, R415) -/

/-- A write of the 64-bit register at an offset that is a multiple of 8; one that holds none takes no effect. -/
def State.bar0Put (s : State) (o : Nat) (v : BitVec 64) (mask : Nat) : State :=
  if 0x8040 ≤ o ∧ o < 0x8000 + 0x40 * 29 then s.sealPut ((o - 0x8000) / 0x40) (o % 0x40) v
  else if o = 0x10000 then s.after (execPaceCtrlWrite v s)
  else if o = 0x10008 then { s with paceStatus := s.paceStatus &&& ~~~(keepBits v [(2, 3)]) }
  else if o = 0x10018 then s.setFrameReg 0x00010018 0 (keepBits v [(0, 6)])
  else if 0x11000 ≤ o ∧ o < 0x11000 + 0x40 * 29 then s.pacePut ((o - 0x11000) / 0x40) (o % 0x40) v
  else if 0x20000 ≤ o ∧ o < 0x24000 then s.ringPut ((o - 0x20000) / 0x40) (o % 0x40) v
  else if 0x28000 ≤ o ∧ o < 0x28030 then s.hostPut (o - 0x28000) v
  else if 0x2C080 ≤ o ∧ o < 0x2C000 + 0x80 * 29 then
    if !(s.paddock ((o - 0x2C000) / 0x80)).live then s
    else s.setFrameReg o 0 (if o % 16 = 0 then keepBits v [(12, 48), (61, 3)] else keepBits v [(0, 32)])
  else if 0x100000 ≤ o ∧ o < 0x108000 then s.msixPut ((o - 0x100000) / 8) v
  else if o = 0x200010 then s.planPut v
  else if 0x300000 ≤ o ∧ o < 0x400000 then s.faultPut (o - 0x300000) v
  else if 0x400000 ≤ o ∧ o < 0x441000 then (if bitOf v 63 then s.after (execCounterWrapClear (BitVec.ofNat 32 o) s) else s)
  else if o = 0x441000 then
    s.setFrameReg 0x00441000 0x4E2 (if 16 ≤ field v 0 16 then keepBits v [(0, 16)] else s.frameReg 0x00441000 0x4E2)
  else if o = 0x441008 then s.after (execCounterClear v s)
  else if 0x441108 ≤ o ∧ o < 0x441100 + 8 * 29 then s.setFrameReg o 0 (keepBits v [(0, 1)])
  else if 0x500000 ≤ o ∧ o < 0x600000 then s.linkPut (o - 0x500000) v
  else if 0x600000 ≤ o ∧ o < 0x700000 then s.secPut (o - 0x600000) v mask
  else if 0x700000 ≤ o ∧ o < 0x780000 then s.tierPut false (o - 0x700000) v
  else if 0x780000 ≤ o ∧ o < 0x800000 then s.tierPut true (o - 0x780000) v
  else if 0x1000000 ≤ o ∧ o < 0x4000000 then s.indirectPut o v
  else s

/-- The bits of a tile's CSR that act when they are written as 1. -/
def csrActs (n : Nat) : BitVec 64 :=
  if n = 0x010 then 0x80000000
  else if n = 0x0C4 then pack [(1, 63)]
  else if n = 0x0C2 ∨ n = 0x0E0 ∨ n = 0x119 ∨ n = 0x150 ∨ n = 0x151 ∨ (0x100 ≤ n ∧ n < 0x118) then ones64
  else 0

/-- The bits of a register that act when they are written as 1: the bytes that a 4-byte write leaves out write them as 0. -/
def actBits (o : Nat) : BitVec 64 :=
  if o = 0x10008 then 0x1C
  else if o = 0x28010 then 3
  else if o = 0x28020 then pack [(1, 62)]
  else if o = 0x300000 then pack [(1, 32), (1, 63)]
  else if o = 0x300030 ∨ o = 0x441008 ∨ (0x400000 ≤ o ∧ o < 0x441000) ∨ o = 0x501000 ∨ o = 0x600030 then pack [(1, 63)]
  else if o = 0x500000 then pack [(1, 32)]
  else if o = 0x600040 then pack [(0xF, 16), (1, 63)]
  else if 0x1000000 ≤ o ∧ o < 0x2000000 then
    (if 0x70000 ≤ o % 0x80000 ∧ (o % 0x80000 < 0x78000 ∨ o % 0x1000 = 0x20) then pack [(1, 63)] else 0)
  else if 0x2000000 ≤ o then csrActs (o % 0x1000 / 8)
  else 0

/-- A naturally aligned write of 8 bytes, or of 4, which writes only the bytes it covers; any other access is an Unsupported
Request and has no other effect (R415). -/
def State.bar0Write (s : State) (o : Nat) (four : Bool) (v : BitVec 64) : State :=
  if !four then (if o % 8 = 0 then s.bar0Put o v 0xFF else s.emit .unsupported)
  else if o % 4 ≠ 0 then s.emit .unsupported
  else
    let rest := s.bar0Read (o / 8 * 8) &&& ~~~(actBits (o / 8 * 8))
    if o % 8 = 0 then s.bar0Put o (setField rest 0 32 (field v 0 32)) 0x0F
    else s.bar0Put (o / 8 * 8) (setField rest 32 32 (field v 0 32)) 0xF0

/-- Whether the host's writes of BAR0 take effect: not before the link is up, in boot failure or in recovery (21, R616; log
entry 115). -/
def State.bar0Open (s : State) : Bool := s.released && !s.bootFailed && !s.sec.recovery

/-- REGISTER_WRITE. -/
def execRegisterWrite (offset : BitVec 32) (four : Bool) (v : BitVec 64) (s : State) : Host.Outcome State Fault Refusal :=
  if !s.bar0Open then turnedAway s else .next (s.bar0Write offset.toNat four v).bump

/-- INDIRECT_WINDOW_WRITE: `offset` counts from the start of the window. -/
def execIndirectWindowWrite (tileWindow : Bool) (offset : BitVec 32) (v : BitVec 64) (s : State) :
    Host.Outcome State Fault Refusal :=
  let o := (if tileWindow then 0x2000000 else 0x1000000) + offset.toNat
  if !s.bar0Open || decide (0x4000000 ≤ o) || (!tileWindow && decide (0x2000000 ≤ o)) then turnedAway s
  else .next (s.bar0Write o false v).bump

end Sys2Proof.Machine
end

