-- ==== Sys2Proof/Machine/Arrivals.lean ====
section
/-! DEFINITION. Arrivals: messages, their answers, gets, puts, acknowledgements and signals at a tile or at a frame agent
(03, R123 to R125; 07, R228 to R233, R241; 09, R286, R307; 10, R323, R334; 14, R620; 18, R541, R554, R555). -/

namespace Sys2Proof.Machine

/-- A packet ejected at a tile, first of its channel, with its router clocked; with it off the mesh the body answers what
becomes of it, `none` where it waits. -/
def ejectedOr (n : Nat) (op : PacketOp) (s : State) (body : Nat → Packet → State → Option State) :
    Host.Outcome State Fault Refusal :=
  match s.net[n]? with
  | none => turnedAway s
  | some p =>
    match p.pos with
    | .ejected k _ =>
      if p.op = op && s.firstInChannel n p && s.routed (regionOfTile k) then
        match body k p (s.takePacket n) with
        | some s' => .next s'.bump
        | none => turnedAway s
      else turnedAway s
    | _ => turnedAway s

/-- A packet from a tile at its frame agent, in the same manner. -/
def framed (n : Nat) (op : PacketOp) (s : State) (same : Packet → Packet → Bool) (body : Packet → State → Option State) :
    Host.Outcome State Fault Refusal :=
  match (if s.halted then none else s.atFrame n op same) with
  | none => turnedAway s
  | some p =>
    match body p (s.takePacket n) with
    | some s' => .next s'.bump
    | none => turnedAway s

/-- A packet ejected at a tile, or one at a frame agent. -/
def arrival (n : Nat) (op : PacketOp) (s : State) (same : Packet → Packet → Bool) (tile : Nat → Packet → State → Option State)
    (frame : Packet → State → Option State) : Host.Outcome State Fault Refusal :=
  match s.net[n]? with
  | none => turnedAway s
  | some p => if p.pos = .frame then framed n op s same frame else ejectedOr n op s tile

/-! ## Messages (R228 to R233, R554) -/

/-- The answer to a message's sender. -/
def State.answerMessage (s : State) (k : Nat) (p : Packet) (status : Nat) (listed : Bool) (t : Tile) : Tile :=
  t.send { s.packetOf k .msgAnswer (BitVec.ofNat 64 status) (p.srcX, p.srcY) with tag := { ref := p.tag.ref, flag := listed } }

/-- A tile's message at its queue. -/
def State.tileMessage (s : State) (k : Nat) (p : Packet) : State :=
  let (t, r) := s.arrive k (s.tile k) p.queue p.data (tileAt p.srcX p.srcY) p.tag.ref p.tag.flag
  s.setTile k (match r with
    | .accepted => s.answerMessage k p 0 false t
    | .applied => t
    | .refused listed => s.answerMessage k p 1 listed t
    | .discarded => s.answerMessage k p 3 false t)

/-- Nothing is owed to a sender for the last message of a queue. -/
def Tile.oweNothing (t : Tile) (q : Nat) : Tile :=
  let x := t.queue q
  t.setQueue q { x with items := modifyAt x.items (x.items.length - 1) (fun i => { i with owed := none }) }

/-- A message of a remote channel at its queue: accepted, its credit returns to the peer's frame; refused, the frame injects
it again (log entry 117). `ref` and `loc` of its tag are its link and channel. -/
def State.remoteMessage (s : State) (k : Nat) (p : Packet) : State :=
  let link := p.tag.ref
  let (t, r) := s.arrive k (s.tile k) p.queue p.data (tileAt p.srcX p.srcY) 0 true
  let taken := fun (t : Tile) =>
    let s := s.setTile k t
    if s.linkUp link then s.putFrame link { seq := 0, kind := 0x04, dest := s.peerOf link, channel := p.tag.loc, paddock := p.paddock } else s
  match r with
  | .accepted => taken t
  | .applied => taken (t.oweNothing p.queue)
  | .refused _ =>
    (s.setTile k t).launch { s.framePacket (linkStirrup link) .msg 0 p.destX p.destY p.paddock with
      queue := p.queue, length := p.length, data := p.data, tag := p.tag }
  | .discarded => (s.setTile k t).refuseMessage link p.tag.loc

/-- A tile's message to a remote queue leaves in a frame with its channel's next number (R554); with no link up it waits; to
an engine that has sent HALTED it is answered ADDRESS (R552). -/
def State.channelMessage (s : State) (p : Packet) : Option State :=
  match (s.paddock p.paddock).channels.find? (fun c => !c.inbound && c.id == p.tag.loc) with
  | none => some s
  | some c =>
    let k := tileAt p.srcX p.srcY
    let halted := !c.twin && bitOf (getD 0 s.fbRoute c.engine) 63
    if halted then
      some ((s.onPaddock p.paddock (fun d => d.setChannel { c with inFlight := c.inFlight.filter (fun m => m != (k, p.tag.ref)) })).launch
        { s.framePacket (s.peerHome c.dest c.id) .msgAnswer 3 p.srcX p.srcY p.paddock with tag := { ref := p.tag.ref } })
    else match s.portFor c.dest c.id with
      | none => none
      | some n =>
        some ((s.linkSend n { seq := 0, kind := 0x01, dest := s.peerOf n, cls := 2, channel := c.id, paddock := p.paddock,
                              chseq := c.nextOut, poison := p.framePoison, body := p.bytes }).onPaddock p.paddock
          (fun d => d.setChannel { c with nextOut := (c.nextOut + 1) % 2 ^ 16 }))

/-- MSG. -/
def execMsg (n : Nat) (s : State) : Host.Outcome State Fault Refusal :=
  arrival n .msg s (fun a p => a.tag.loc == p.tag.loc)
    (fun k p s => some (if p.srcX = 0x3FF then s.remoteMessage k p else s.tileMessage k p))
    (fun p s => s.channelMessage p)

/-- MSG_ANSWER (R226, R229 to R231): at its sender, or, for a remote channel's message that a router discarded, at the frame
agent that injected it, which answers the peer (R285, R554). -/
def execMsgAnswer (n : Nat) (s : State) : Host.Outcome State Fault Refusal :=
  arrival n .msgAnswer s (fun _ _ => false)
    (fun k p s => some (s.onTile k (fun t => s.takeAnswer k t p.tag.ref (field p.operand 0 2) p.tag.flag)))
    (fun p s => some (if s.linkUp p.tag.ref then s.refuseMessage p.tag.ref p.tag.loc else s))

/-! ## Gets (R124, R307) -/

/-- A get's words as GET_DATA carries them; at a tile they leave by its router. -/
def State.dataPacket (s : State) (k : Nat) (p : Packet) (ws : List PWord) : Packet :=
  { s.packetOf k .getData (BitVec.ofNat 64 p.tag.loc) (p.srcX, p.srcY) with
    length := p.length, data := flitPoison ws, tag := p.tag }

/-- Whether a get is of the kind that a serving router coalesces (R307). -/
def State.coalesces (s : State) (k : Nat) (p : Packet) : Bool :=
  decide ((s.regionsOf (s.ownerOf k)).length ≤ 4) && p.length == 4 && field p.operand 0 6 == 0

/-- A get of local memory served: from a merge entry, or by a read that opens one where there is room. -/
def State.serveMemory (s : State) (k : Nat) (p : Packet) (t : Tile) : Tile :=
  let off := addrOff p.operand
  let n := p.tag.bytes / 8
  let merged := if s.coalesces k p then t.merges.find? (fun m => m.half == off / 64) else none
  match merged with
  | some m =>
    let rest := t.merges.filter (fun x => x.half != off / 64)
    let kept := if 32 ≤ m.served + 1 then rest else
      t.merges.map (fun (x : MergeEntry) => if x.half = off / 64 then { x with served := x.served + 1 } else x)
    let t := { t with merges := kept }
    (t.countIdx 0x1A3 1).send (s.dataPacket k p (m.words.take n))
  | none =>
    let ws := t.words (off / 8) n
    let t := s.touchAll k t (rangeFrom (off / 8) n)
    let t := if s.coalesces k p && decide (t.merges.length < 4) then
        { t with merges := t.merges ++ [{ half := off / 64, words := t.words (off / 8) 8, served := 1 }] } else t
    t.send (s.dataPacket k p ws)

/-- A get at a tile: local memory, the pose store, or the control registers (Table 1.8). -/
def State.serveGet (s : State) (k : Nat) (p : Packet) (t : Tile) : Tile :=
  let off := addrOff p.operand
  let n := p.tag.bytes / 8
  if off < memEnd then s.serveMemory k p t
  else if off < 0x32000 then
    t.send (s.dataPacket k p ((List.range n).map (fun i => (getD {} t.poseMem ((off - memEnd) / 8 + i)).read)))
  else if 0x38000 ≤ off then
    t.send (s.dataPacket k p ((List.range n).map (fun i => { val := (s.csrRead k t ((off - 0x38000) / 8 + i) false).getD 0 })))
  else t.send { s.packetOf k .nack p.operand (p.srcX, p.srcY) with tag := p.tag }

/-- A word of the remount window as it reads (Table 10.4). -/
def Remount.windowWord (m : Remount) (off : Nat) : PWord :=
  let entries := fun (d : Nat) (mp : Map Nat) (e : Nat) =>
    (List.range 4).foldl (fun n j => n + getD d mp (e + j) * 2 ^ (16 * j)) 0
  if off < 0x4000 then { val := BitVec.ofNat 64 (entries 0 m.choices (off / 2)) }
  else if off < 0x8000 then { val := BitVec.ofNat 64 (entries 0x8000 m.placements ((off - 0x4000) / 2)) }
  else {}

/-- A get from a tier share. -/
def State.tierGet (s : State) (p : Packet) (far : Bool) : Option State :=
  let q := p.paddock
  let off := field p.operand 0 48
  let n := p.tag.bytes
  match (s.paddock q).inWindow p.operand with
  | some o => some (s.frameAnswer p .getData ((List.range (n / 8)).map (fun i => (s.paddock q).remount.windowWord (o + 8 * i))))
  | none =>
    if s.shareLocked q far off n then none
    else
      let ws := flitPoison (s.shareWords q far off (n / 8))
      some (((s.touchShare q far off n).countRead q far off n).frameAnswer p .getData ws)

/-- A get from host space marks the paddock's next seal (12, R376). -/
def State.hostGet (s : State) (p : Packet) : Option State :=
  if s.d3hot then none
  else
    let n := p.tag.bytes
    let a := field p.operand 0 60
    let ws := (List.range (n / 8)).map (fun i => wordOf (s.hostBytes (a + 8 * i) 8))
    some ((s.onPaddock p.paddock (fun d => { d with seals := { d.seals with unsealedIn := true } })).frameAnswer p .getData (flitPoison ws))

/-- A get or put for a peer goes out on a link, which holds it until its answer; one for an engine that has sent HALTED is
answered as lost (18, R551, R552, R555). -/
def State.peerSend (s : State) (p : Packet) : Option State :=
  if s.peerHalted p.operand then some (s.frameAnswer p .nack [])
  else match s.portFor p.operand (field p.operand 12 38) with
    | none => none
    | some n => some { s.sendData n p with peerWaits := (s.sendData n p).peerWaits ++ [{ link := n, packet := p }] }

/-- A get of control space reads BAR0 words. -/
def State.controlGet (s : State) (p : Packet) : State :=
  s.frameAnswer p .getData ((List.range (p.tag.bytes / 8)).map (fun i => { val := s.bar0Read (field p.operand 0 32 + 8 * i) }))

/-- GET. -/
def execGet (n : Nat) (s : State) : Host.Outcome State Fault Refusal :=
  arrival n .get s s.sameAgent
    (fun k p s => some (s.onTile k (s.serveGet k p)))
    (fun p s =>
      match selectorOf p.operand with
      | 1 => s.tierGet p false
      | 2 => s.tierGet p true
      | 4 => s.hostGet p
      | 15 => some (s.controlGet p)
      | _ => s.peerSend p)

/-! ## Puts (R115, R123, R496) -/

/-- The acknowledgement of a put at a tile. -/
def State.ackPut (s : State) (k : Nat) (p : Packet) (t : Tile) : Tile :=
  t.send { s.packetOf k .putAck 0 (p.srcX, p.srcY) with tag := p.tag }

/-- Words of a put written to a tile's control registers; a poisoned word is dropped; `none` while a router queue is full. -/
def State.putCsrs (s : State) (k n : Nat) : Nat → List PWord → Tile → Option Tile
  | _, [], t => some t
  | i, w :: ws, t =>
    if w.poison then s.putCsrs k n (i + 1) ws t
    else match s.csrWrite k t (n + i) w.val false true with
      | .done t => s.putCsrs k n (i + 1) ws t
      | .fault c a => s.putCsrs k n (i + 1) ws (s.tileFault k t 6 c t.pc a)
      | .full => none

/-- A put at a tile: local memory or the control registers. A write that would enter the protected area is discarded and
recorded with the writer's tile and the offset (R115). -/
def State.servePut (s : State) (k : Nat) (p : Packet) (t : Tile) : Option Tile :=
  let off := addrOff p.operand
  let ws := p.data.take (p.tag.bytes / 8)
  if off < memEnd then
    let note := { s.tileReport k 0x0006 0x0600 clsNote (BitVec.ofNat 64 off) 0 with x := BitVec.ofNat 10 p.srcX, y := BitVec.ofNat 10 p.srcY }
    some (s.ackPut k p (if t.protects off (8 * ws.length) then t.raise note else t.putWords (off / 8) ws))
  else if 0x38000 ≤ off then (s.putCsrs k ((off - 0x38000) / 8) 0 ws t).map (s.ackPut k p)
  else some (s.ackPut k p t)

/-- A put to a tier share; the choice entries and release words of the remount window are other commands' (R334). -/
def State.storePut (s : State) (p : Packet) (far : Bool) : Option State :=
  let off := field p.operand 0 48
  match (s.paddock p.paddock).inWindow p.operand with
  | some o => if o < 0x4000 ∨ (0x8000 ≤ o ∧ o < 0x8080) then none else some (s.frameAnswer p .putAck [])
  | none =>
    if s.shareLocked p.paddock far off p.tag.bytes then none
    else some ((s.writeShare p.paddock far off ((bytesOfWords p.data).take p.tag.bytes)).frameAnswer p .putAck [])

/-- A put to host space: one memory write, dropped where a flit is poisoned, which ends the job (R125, R496); suppressed on
a module that is not primary (18, R533). -/
def State.hostPutData (s : State) (p : Packet) : Option State :=
  if s.d3hot then none
  else
    let q := p.paddock
    let a := field p.operand 0 60
    let s := s.onPaddock q (fun d => { d with seals := { d.seals with unsealedOut := true } })
    let bs := (bytesOfWords p.data).take p.tag.bytes
    let s :=
      if p.data.any (fun (w : PWord) => w.poison) then s.egress q 0xDFFF p.operand
      else if (s.paddock q).primary then s.hostWrite a (bs.map (fun b => BitVec.ofNat 8 b.1))
      else s
    some (s.frameAnswer p .putAck [])

/-- A put of control space writes BAR0 words; the windows take a tile's writes, since only the host's are gated (R416; log
entry 116). A poisoned word is dropped. -/
def State.controlPut (s : State) (p : Packet) : State :=
  let ws := p.data.take (p.tag.bytes / 8)
  (((List.range ws.length).zip ws).foldl (fun s (x : Nat × PWord) =>
    let o := field p.operand 0 32 + 8 * x.1
    if x.2.poison then s
    else if 0x2000000 ≤ o ∧ o < 0x4000000 then s.tilePut (o - 0x2000000) x.2.val
    else if 0x1000000 ≤ o ∧ o < 0x1000000 + 28 * 0x80000 then s.regionPut ((o - 0x1000000) / 0x80000) (o % 0x80000) x.2.val
    else s.bar0Write o false x.2.val) s).frameAnswer p .putAck []

/-- PUT. -/
def execPut (n : Nat) (s : State) : Host.Outcome State Fault Refusal :=
  arrival n .put s s.sameAgent
    (fun k p s => (s.servePut k p (s.tile k)).map (s.setTile k))
    (fun p s =>
      match selectorOf p.operand with
      | 1 => s.storePut p false
      | 2 => s.storePut p true
      | 4 => s.hostPutData p
      | 15 => some (s.controlPut p)
      | _ => s.peerSend p)

/-- PUT_ACK: of a remote put, or of a remount lane's burst (10, R338). -/
def execPutAck (n : Nat) (s : State) : Host.Outcome State Fault Refusal :=
  arrival n .putAck s (fun _ _ => true)
    (fun k p s => some (s.onTile k (fun t => s.remoteProgress k t p.tag.ref p.tag.bytes)))
    (fun p s => some (s.laneAcked p.paddock p.tag))

/-! ## Signals (R240 to R246) -/

/-- A packet of the SIGNAL op at the controller of an object: a signal, or a request of the tile that sent it (R621). -/
def State.atController (s : State) (o : ObjRef) (p : Packet) : State :=
  let k := tileAt p.srcX p.srcY
  match p.tag.ask with
  | 0 => s.signalObject o (BitVec.ofNat 32 (field p.operand 0 32)) p.srcX p.srcY p.paddock
  | 1 => s.waitObject o k
  | n => s.readObject o k (n == 3)

/-- SIGNAL: at a tile's object, a region's at its contact router, or a wafer object's at the frame controller. -/
def execSignal (n : Nat) (s : State) : Host.Outcome State Fault Refusal :=
  arrival n .signal s (fun _ _ => true)
    (fun k p s =>
      let obj := field p.operand 32 6
      if field p.operand 38 2 = 2 then some (s.atController (.barrier (regionOfTile k) obj) p)
      else some (s.onTile k (fun t => t.applySignal (obj % 16) (BitVec.ofNat 32 (field p.operand 0 32)) p.srcX p.srcY (s.paceOf k))))
    (fun p s => some (s.atController (.wafer p.paddock (field p.operand 32 6)) p))

end Sys2Proof.Machine
end

