-- ==== Sys2Proof/Machine/Vector.lean ====
section
/-! DEFINITION. The vector engine: issue of its instructions, its queue and their execution (06; 13). -/

namespace Sys2Proof.Machine

/-! ## Issue (R99, R164, R174, R193, R196, R198) -/

/-- Whether a rounding code is one a target does not allow (Table 5.5, R174). -/
def badRounding (code : Nat) (dst : Format) : Bool :=
  match code with
  | 0 => false
  | 1 => !(dst == .int8 || dst == .int32 || dst == .int64)
  | 2 => dst.isInt || dst == .fp32 || dst == .fp64
  | _ => true

/-- The rounding code of a conversion: bits [5:4]. -/
def roundCode (f : VFields) : Nat := f.mask.toNat % 4

/-- Whether a field of a word is one its instruction does not allow: ILLEGAL_INSTR (R99, R198, R174). A field that no
rule requires to be zero is not looked at (log entry 39). -/
def vxIllegal (kind : VxKind) (f : VFields) : Bool :=
  let fmt := Format.ofCode f.fmt
  let noFmt := f.fmt != 0
  let noMask := f.mask != 0
  let bigD := decide (8 ≤ f.vd.toNat)
  let big1 := decide (8 ≤ f.vs1.toNat)
  let big2 := decide (8 ≤ f.vs2.toNat)
  match kind with
  | .setvl => noFmt || noMask
  | .maskLogic _ => noFmt || noMask || bigD || big1 || big2
  | .mnot => noFmt || noMask || bigD || big1
  | .mfromg => noFmt || noMask || bigD
  | .mfirst => fmt.isNone || noMask || bigD
  | .acc => fmt.isNone || decide (16 ≤ f.vs1.toNat)
  | .cvt =>
    decide (16 ≤ f.vs2.toNat) || (Format.ofCode (f.vs2.setWidth 4)).isNone
      || (match fmt with | none => true | some d => badRounding (roundCode f) d)
  | .ldw => fmt.isNone || noMask
  | .stn => match fmt with | none => true | some d => badRounding (roundCode f) d
  | .quant _ _ _ =>
    decide (4 ≤ f.mask.toNat) || (match fmt with
      | none => true
      | some d => roundCode f == 3 || (roundCode f == 1 && d != .int8)
        || (roundCode f == 2 && (d.isInt || d == .fp32 || d == .fp64)))
  | .compare _ => fmt.isNone || bigD
  | .sel => fmt.isNone || f.mask == 0
  | .shuf => fmt.isNone || decide (4 < f.vs2.toNat)
  | .any | .all => fmt.isNone || big2
  | .tally => fmt.isNone || f.vd != 0
  | .qsig => fmt.isNone || !(f.vs2.toNat == 2 || f.vs2.toNat == 3)
  | _ => fmt.isNone

/-- The g registers a vector instruction reads at issue (R196). -/
def vxReads (kind : VxKind) (f : VFields) : List (BitVec 5) :=
  match kind with
  | .ld | .st | .ldx | .stx | .splat | .mfromg | .setvl | .ldw | .stn => [f.vs1]
  | .lds | .sts => [f.vs1, f.vs2]
  | .dequant _ => [f.vs1, f.vs2]
  | .quant _ _ _ => [f.vd, f.vs2]
  | .lane => [f.vs2]
  | _ => []

/-- The g register a vector instruction writes. -/
def vxWritesG (kind : VxKind) : Bool :=
  match kind with
  | .setvl | .any | .all | .redg | .lane | .mtog => true
  | _ => false

/-- The fault of the core's own checks at issue: an illegal field, and for vx.setvl a marked or poisoned length (R99,
R107, R120, R193); poisoned addresses are the engine's to find (R213, R214). -/
def vxIssueCause (kind : VxKind) (f : VFields) (t : Tile) : Option Nat :=
  let gs := (vxReads kind f).map t.reg
  lowestCause [(vxIllegal kind f, 0x01), (kind == .setvl && t.markFault gs, 0x08), (kind == .setvl && anyPoison gs, 0x0C)]

/-- An entry of the queue for an instruction. -/
def vxEntry (kind : VxKind) (f : VFields) (t : Tile) : VxEntry :=
  let gs := (vxReads kind f).map t.reg
  { kind := kind, f := f, g1 := gs.getD 0 {}, g2 := gs.getD 1 {}, pc := t.pc, seq := t.seq, srBase := t.srBase, srPass := t.srPass }

/-- An instruction handed to the vector engine (R196). -/
def Tile.enqueueVx (t : Tile) (kind : VxKind) (f : VFields) : Tile :=
  { t with
    vxQueue := t.vxQueue ++ [vxEntry kind f t]
    seq := t.seq + 1
    gPending := if vxWritesG kind && f.vd != 0 then t.gPending ++ [{ reg := f.vd, seq := t.seq }] else t.gPending }

/-! ## Execution -/

/-- Whether the personality in force admits an instruction (R194, Table 6.2): summaries run in either. -/
def vxAdmitted (shape : Bool) (kind : VxKind) : Bool :=
  match kind with
  | .arith _ | .minmax _ | .sign _ | .logic _ | .shift _ | .rsum | .compare _ | .sel | .function _
  | .tally | .bandedit | .jw | .qsig | .popcnt | .geom | .dgauss => !shape
  | .perm | .shuf | .pack | .unpack | .pack2of4 _ | .expand _ => shape
  | _ => true

/-- Whether an instruction is a summary (R212). -/
def vxSummary (kind : VxKind) : Bool :=
  match kind with
  | .any | .all | .redg | .lane | .mtog => true
  | _ => false

/-- Lanes of any format (R191). -/
def withLanes (fmt : Format) (r : VxRun) : VxRun := if fmt.hasLanes then r else .fault 0x41 0

/-- A load or store: lanes of any format. A contiguous base that is no multiple of 64 has the lower cause (R122, R198,
R199). -/
def withLanesAt (e : VxEntry) (fmt : Format) (r : VxRun) : VxRun :=
  let contiguous := match e.kind with | .ld | .st => true | _ => false
  if !fmt.hasLanes && contiguous && e.g1.val.toNat % 64 != 0 then .fault 0x03 e.g1.val else withLanes fmt r

/-- The mask register of a field. -/
def maskNo (v : BitVec 5) : Nat := v.toNat % 8

/-- vx.mand, vx.mor, vx.mxor, vx.mandn. -/
def maskOpBits (op : MaskOp) (a b : BitVec 64) : BitVec 64 :=
  match op with
  | .mand => a &&& b
  | .mor => a ||| b
  | .mxor => a ^^^ b
  | .mandn => a &&& ~~~b

/-- A lane function of two source lanes over the active lanes (R192, R213). -/
def Tile.mapLanes (t : Tile) (f : VFields) (fmt : Format) (two : Bool) (g : Nat → Nat → Nat × Flags) : Tile :=
  t.writeActive f fmt (fun k =>
    let (a, ba) := (t.vreg f.vs1.toNat).lane fmt.width k
    let (b, bb) := if two then (t.vreg f.vs2.toNat).lane fmt.width k else (0, false)
    let (r, fl) := g a b
    { bits := r, bad := ba || bb, flags := fl })

/-- vx.fma reads its destination too. -/
def Tile.fmaLanes (t : Tile) (f : VFields) (fmt : Format) : Tile :=
  t.writeActive f fmt (fun k =>
    let (a, ba) := (t.vreg f.vs1.toNat).lane fmt.width k
    let (b, bb) := (t.vreg f.vs2.toNat).lane fmt.width k
    let (c, bc) := (t.vreg f.vd.toNat).lane fmt.width k
    let (r, fl) := arithLane .fma fmt a b c
    { bits := r, bad := ba || bb || bc, flags := fl })

/-- A compare (R205). -/
def Tile.compareLanes (t : Tile) (op : CmpOp) (f : VFields) (fmt : Format) : Tile :=
  let ks := (List.range fmt.lanes).filter (t.active f.mask fmt.lanes)
  let rs := ks.map (fun k =>
    let (a, ba) := (t.vreg f.vs1.toNat).lane fmt.width k
    let (b, bb) := (t.vreg f.vs2.toNat).lane fmt.width k
    let (r, fl) := compareLane op fmt a b
    (k, r, ba || bb || t.maskBad f.mask k, fl))
  let d := maskNo f.vd
  let m := rs.foldl (fun (m : MReg) r =>
    { bits := setField m.bits r.1 1 (if r.2.1 then 1 else 0)
      poison := setField m.poison r.1 1 (if r.2.2.1 then 1 else 0) }) (t.mreg d)
  (t.setM d m).raiseVx (rs.foldl (fun fl r => if r.2.2.1 then fl else fl.or r.2.2.2) Flags.none)

/-- The function of R184 that an operand names. -/
def fnOf (op : FnOp) : VFn :=
  match op with
  | .recip => .recip | .sqrt => .sqrt | .rsqrt => .rsqrt | .exp2 => .exp2 | .log2 => .log2

/-- Active lanes copied from lanes that a function names (R208, R209). -/
def Tile.copyLanes (t : Tile) (f : VFields) (fmt : Format) (from_ : Nat → Nat × Bool) : Tile :=
  t.writeActive f fmt (fun k => let (v, bad) := from_ k; { bits := v, bad := bad })

/-- The execution of an instruction whose format code names `fmt` (R198 to R212; 13). -/
def runVx (s : State) (k : Nat) (t : Tile) (e : VxEntry) (fmt : Format) : VxRun :=
  let f := e.f
  let v1 := t.vreg f.vs1.toNat
  let v2 := t.vreg f.vs2.toNat
  let mode := e.roundMode t.srKey (roundCode f)
  let arith := fun (t' : Tile) => if arithFormat fmt then VxRun.done t' else .fault 0x41 0
  let ints := fun (t' : Tile) => if laneInt fmt then VxRun.done t' else .fault 0x41 0
  let only := fun (x : Format) (t' : Tile) => if fmt == x then VxRun.done t' else .fault 0x41 0
  match e.kind with
  | .ld => withLanesAt e fmt (runLoad s k t e fmt)
  | .lds => withLanesAt e fmt (runLoad s k t e fmt)
  | .ldx => withLanesAt e fmt (runLoad s k t e fmt)
  | .st => withLanesAt e fmt (runStore s k t e fmt)
  | .sts => withLanesAt e fmt (runStore s k t e fmt)
  | .stx => withLanesAt e fmt (runStore s k t e fmt)
  | .splat => withLanes fmt (.done (t.copyLanes f fmt (fun _ => (e.g1.val.toNat, e.g1.poison))))
  | .mov => withLanes fmt (.done (t.copyLanes f fmt (fun l => v1.lane fmt.width l)))
  | .setvl =>
    let n := min e.g1.val.toNat 64
    .done (({ t with vl := n }).giveG e.seq f.vd n false)
  | .acc =>
    only .fp32 (t.copyLanes f .fp32 (fun l =>
      let a := t.acc (f.vs1.toNat % 4) (16 * (f.vs1.toNat / 4 % 4) + l)
      (a.bits.toNat, a.poison)))
  | .maskLogic op =>
    let a := t.mreg (maskNo f.vs1)
    let b := t.mreg (maskNo f.vs2)
    .done (t.setM (maskNo f.vd) { bits := maskOpBits op a.bits b.bits, poison := a.poison ||| b.poison })
  | .mnot =>
    let a := t.mreg (maskNo f.vs1)
    .done (t.setM (maskNo f.vd) { bits := ~~~a.bits, poison := a.poison })
  | .mfromg =>
    .done (t.setM (maskNo f.vd)
      { bits := e.g1.val, poison := if e.g1.poison then BitVec.allOnes 64 else 0 })
  | .mfirst => withLanes fmt (.done (t.setM (maskNo f.vd) { bits := BitVec.ofNat 64 (2 ^ (min t.vl fmt.lanes) - 1) }))
  | .cvt => runCvt t e fmt mode
  | .ldw => runLdw s k t e fmt
  | .stn => runStn s k t e fmt mode
  | .dequant b16 => runDequant s k t e fmt b16
  | .quant bf16 b16 fit => runQuant s k t e fmt bf16 b16 fit mode
  | .arith .fma => arith (t.fmaLanes f fmt)
  | .arith op => arith (t.mapLanes f fmt true (fun a b => arithLane op fmt a b 0))
  | .minmax isMax => arith (t.mapLanes f fmt true (minmaxLane isMax fmt))
  | .sign op => arith (t.mapLanes f fmt (op == .csgn) (signLane op fmt))
  | .logic op => ints (t.mapLanes f fmt true (fun a b => (logicLane op a b, Flags.none)))
  | .shift op => ints (t.mapLanes f fmt true (fun a b => (shiftLane op fmt.width a b, Flags.none)))
  | .rsum => arith (t.writeLanes f.vd.toNat fmt (· == 0) (fun _ => t.laneSum v1 fmt f.mask))
  | .compare op => arith (t.compareLanes op f fmt)
  | .sel =>
    let m := t.mreg f.mask.toNat
    withLanes fmt (.done (t.writeLanes f.vd.toNat fmt (t.counted fmt.lanes) (fun l =>
      let (v, bad) := if m.bit l then v1.lane fmt.width l else v2.lane fmt.width l
      { bits := v, bad := bad || m.bad l })))
  | .function op => only .fp32 (t.mapLanes f .fp32 false (fun a _ => evalFn (fnOf op) a))
  | .perm =>
    withLanes fmt (.done (t.copyLanes f fmt (fun l =>
      let (i, bi) := v2.lane fmt.width l
      let (v, bad) := v1.lane fmt.width (i % fmt.lanes)
      (v, bad || bi))))
  | .shuf => withLanes fmt (.done (t.copyLanes f fmt (fun l => v1.lane fmt.width (shufLane f.vs2.toNat fmt.lanes l))))
  | .pack =>
    let h := fmt.lanes / 2
    withLanes fmt (.done (t.copyLanes f fmt (fun l =>
      if l < h then v1.lane fmt.width (2 * l) else v2.lane fmt.width (2 * (l - h)))))
  | .unpack =>
    withLanes fmt (.done (t.copyLanes f fmt (fun l =>
      if l % 2 = 0 then v1.lane fmt.width (l / 2) else v2.lane fmt.width (l / 2))))
  | .pack2of4 one => runPack24 t e fmt one
  | .expand one => runExpand t e fmt one
  | .any =>
    let m := t.mreg (maskNo f.vs2)
    let ks := (List.range fmt.lanes).filter (t.active f.mask fmt.lanes)
    withLanes fmt (.done (t.giveG e.seq f.vd (if ks.any m.bit then 1 else 0)
      (ks.any (fun l => m.bad l || t.maskBad f.mask l))))
  | .all =>
    let m := t.mreg (maskNo f.vs2)
    let ks := (List.range fmt.lanes).filter (t.counted fmt.lanes)
    withLanes fmt (.done (t.giveG e.seq f.vd (if ks.all m.bit then 1 else 0) (ks.any m.bad)))
  | .redg =>
    let r := t.laneSum v1 fmt f.mask
    arith ((t.raiseVx r.flags).giveG e.seq f.vd r.bits r.bad)
  | .lane =>
    let (v, bad) := v1.lane fmt.width (e.g1.val.toNat % fmt.lanes)
    withLanes fmt (.done (t.giveG e.seq f.vd v (bad || e.g1.poison)))
  | .mtog =>
    let m := t.mreg (maskNo f.vs1)
    .done (t.giveG e.seq f.vd m.bits.toNat (m.poison != 0))
  | .tally => runTally s k t e fmt
  | .bandedit => only .int32 (t.comparePairs f .int32 true (fun a b => (bandEdit a b, Flags.none)))
  | .jw => only .fp16 (t.comparePairs f .fp16 true jaroWinkler)
  | .qsig => only .int64 (t.comparePairs f .int64 false (fun a _ => (qSignature f.vs2.toNat a, Flags.none)))
  | .popcnt => ints (t.mapLanes f fmt false (fun a _ => (popCount fmt.width a, Flags.none)))
  | .geom => runNoise s k t e fmt 1
  | .dgauss => runNoise s k t e fmt 2

/-- The instruction with the engine's checks that come before its own in code order (R194, R198, R212). -/
def checkedVx (s : State) (k : Nat) (t : Tile) (e : VxEntry) : VxRun :=
  if vxSummary e.kind && !t.service then .fault 0x0A 0
  else
    match Format.ofCode e.f.fmt with
    | none => .fault 0x41 0
    | some fmt =>
      let r := runVx s k t e fmt
      if vxAdmitted t.shape e.kind then r
      else match r with
        | .fault c a => if c < 0x40 then .fault c a else .fault 0x40 0
        | _ => .fault 0x40 0

/-- Whether the head of the queue may start: no earlier matrix instruction is to touch its lines, and for vx.acc none
is to update its bank (R94, R140, R196). -/
def Tile.vxReady (t : Tile) (e : VxEntry) : Bool :=
  let mem := (vxExtent e).any (fun x => t.mxQueue.any (fun m =>
    decide (m.seq < e.seq) && (mxExtent m.op).any (fun y => linesMeet x.1 (x.2 - x.1) y)))
  let bank := match e.kind with
    | .acc => t.mxQueue.any (fun m => decide (m.seq < e.seq) && m.op.updates (e.f.vs1.toNat % 4))
    | _ => false
  !mem && !bank

/-- The head of the queue executes: it leaves the queue, or a vx.tally waits in it, or a fault discards the queue and
parks the core (R214). -/
def State.startVx (s : State) (k : Nat) (t : Tile) : Option Tile :=
  match t.vxQueue with
  | [] => none
  | e :: rest =>
    if !t.vxReady e then none
    else
      let fresh := !(e.kind == .tally && e.lane != 0)
      match checkedVx s k t e with
      | .done t' => some ({ t' with vxQueue := rest }.count 5 (if fresh then 1 else 0))
      | .more t' l =>
        some ({ t' with vxQueue := { e with lane := l } :: rest }.count 5 (if fresh then 1 else 0))
      | .fault c a =>
        some (s.tileFault k ({ t with vxQueue := [], gPending := [] }.count 5 (if fresh then 1 else 0)) 5 c e.pc a)

/-- An instruction of the vector engine at issue: the core's checks, a place in the queue, and its start at once where
`now` is set and the engine is free (R196). -/
def vxIssue (k : TileIx) (i : Instr) (now : Bool) (kind : VxKind) (f : VFields) (s : State) : Host.Outcome State Fault Refusal :=
  issue k i (vxReads kind f) s (fun t =>
    match vxIssueCause kind f t with
    | some c => .fault 0 c 0
    | none =>
      if 8 ≤ t.vxQueue.length then .stall
      else
        let t' := t.enqueueVx kind f
        if now && t.vxQueue.isEmpty then .retire ((s.startVx k t').getD t') else .retire t')

/-- VX_INSTR_START: the engine starts the instruction at the head of its queue (R196). -/
def execVxInstrStart (k : TileIx) (s : State) : Host.Outcome State Fault Refusal := engine k s (s.startVx k)

/-! ## One meaning for each row (Table 6.4; 13) -/

/-- vx.ld (R199). -/
def execVxLd (k : TileIx) (now : Bool) (f : VFields) (s : State) : Host.Outcome State Fault Refusal :=
  vxIssue k (.vxLd k now f) now .ld f s

/-- vx.st (R199). -/
def execVxSt (k : TileIx) (now : Bool) (f : VFields) (s : State) : Host.Outcome State Fault Refusal :=
  vxIssue k (.vxSt k now f) now .st f s

/-- vx.lds (R199). -/
def execVxLds (k : TileIx) (now : Bool) (f : VFields) (s : State) : Host.Outcome State Fault Refusal :=
  vxIssue k (.vxLds k now f) now .lds f s

/-- vx.sts (R199). -/
def execVxSts (k : TileIx) (now : Bool) (f : VFields) (s : State) : Host.Outcome State Fault Refusal :=
  vxIssue k (.vxSts k now f) now .sts f s

/-- vx.ldx (R199). -/
def execVxLdx (k : TileIx) (now : Bool) (f : VFields) (s : State) : Host.Outcome State Fault Refusal :=
  vxIssue k (.vxLdx k now f) now .ldx f s

/-- vx.stx (R199). -/
def execVxStx (k : TileIx) (now : Bool) (f : VFields) (s : State) : Host.Outcome State Fault Refusal :=
  vxIssue k (.vxStx k now f) now .stx f s

/-- vx.splat (R198). -/
def execVxSplat (k : TileIx) (now : Bool) (f : VFields) (s : State) : Host.Outcome State Fault Refusal :=
  vxIssue k (.vxSplat k now f) now .splat f s

/-- vx.mov (R198). -/
def execVxMov (k : TileIx) (now : Bool) (f : VFields) (s : State) : Host.Outcome State Fault Refusal :=
  vxIssue k (.vxMov k now f) now .mov f s

/-- vx.setvl (R193). -/
def execVxSetvl (k : TileIx) (now : Bool) (f : VFields) (s : State) : Host.Outcome State Fault Refusal :=
  vxIssue k (.vxSetvl k now f) now .setvl f s

/-- vx.acc (R207). -/
def execVxAcc (k : TileIx) (now : Bool) (f : VFields) (s : State) : Host.Outcome State Fault Refusal :=
  vxIssue k (.vxAcc k now f) now .acc f s

/-- vx.mand, vx.mor, vx.mxor, vx.mandn (R198). -/
def execVxMaskLogic (k : TileIx) (now : Bool) (op : MaskOp) (f : VFields) (s : State) : Host.Outcome State Fault Refusal :=
  vxIssue k (.vxMaskLogic k now op f) now (.maskLogic op) f s

/-- vx.mnot (R198). -/
def execVxMnot (k : TileIx) (now : Bool) (f : VFields) (s : State) : Host.Outcome State Fault Refusal :=
  vxIssue k (.vxMnot k now f) now .mnot f s

/-- vx.mfromg (R198). -/
def execVxMfromg (k : TileIx) (now : Bool) (f : VFields) (s : State) : Host.Outcome State Fault Refusal :=
  vxIssue k (.vxMfromg k now f) now .mfromg f s

/-- vx.mfirst (R198). -/
def execVxMfirst (k : TileIx) (now : Bool) (f : VFields) (s : State) : Host.Outcome State Fault Refusal :=
  vxIssue k (.vxMfirst k now f) now .mfirst f s

/-- vx.cvt (R200). -/
def execVxCvt (k : TileIx) (now : Bool) (f : VFields) (s : State) : Host.Outcome State Fault Refusal :=
  vxIssue k (.vxCvt k now f) now .cvt f s

/-- vx.ldw (R200). -/
def execVxLdw (k : TileIx) (now : Bool) (f : VFields) (s : State) : Host.Outcome State Fault Refusal :=
  vxIssue k (.vxLdw k now f) now .ldw f s

/-- vx.stn (R200). -/
def execVxStn (k : TileIx) (now : Bool) (f : VFields) (s : State) : Host.Outcome State Fault Refusal :=
  vxIssue k (.vxStn k now f) now .stn f s

/-- vx.dequant.b32, vx.dequant.b16 (R202). -/
def execVxDequant (k : TileIx) (now : Bool) (b16 : Bool) (f : VFields) (s : State) : Host.Outcome State Fault Refusal :=
  vxIssue k (.vxDequant k now b16 f) now (.dequant b16) f s

/-- vx.quant (R201). -/
def execVxQuant (k : TileIx) (now : Bool) (bf16 b16 fit : Bool) (f : VFields) (s : State) : Host.Outcome State Fault Refusal :=
  vxIssue k (.vxQuant k now bf16 b16 fit f) now (.quant bf16 b16 fit) f s

/-- vx.add, vx.sub, vx.mul, vx.fma (R180). -/
def execVxArith (k : TileIx) (now : Bool) (op : ArithOp) (f : VFields) (s : State) : Host.Outcome State Fault Refusal :=
  vxIssue k (.vxArith k now op f) now (.arith op) f s

/-- vx.min, vx.max (R181). -/
def execVxMinmax (k : TileIx) (now : Bool) (isMax : Bool) (f : VFields) (s : State) : Host.Outcome State Fault Refusal :=
  vxIssue k (.vxMinmax k now isMax f) now (.minmax isMax) f s

/-- vx.abs, vx.neg, vx.csgn (R182). -/
def execVxSign (k : TileIx) (now : Bool) (op : SignOp) (f : VFields) (s : State) : Host.Outcome State Fault Refusal :=
  vxIssue k (.vxSign k now op f) now (.sign op) f s

/-- vx.and, vx.or, vx.xor. -/
def execVxLogic (k : TileIx) (now : Bool) (op : LaneLogic) (f : VFields) (s : State) : Host.Outcome State Fault Refusal :=
  vxIssue k (.vxLogic k now op f) now (.logic op) f s

/-- vx.shl, vx.shr, vx.sra. -/
def execVxShift (k : TileIx) (now : Bool) (op : ShiftOp) (f : VFields) (s : State) : Host.Outcome State Fault Refusal :=
  vxIssue k (.vxShift k now op f) now (.shift op) f s

/-- vx.rsum (R204). -/
def execVxRsum (k : TileIx) (now : Bool) (f : VFields) (s : State) : Host.Outcome State Fault Refusal :=
  vxIssue k (.vxRsum k now f) now .rsum f s

/-- vx.cmpeq, vx.cmplt, vx.cmple (R205). -/
def execVxCompare (k : TileIx) (now : Bool) (op : CmpOp) (f : VFields) (s : State) : Host.Outcome State Fault Refusal :=
  vxIssue k (.vxCompare k now op f) now (.compare op) f s

/-- vx.sel (R205). -/
def execVxSel (k : TileIx) (now : Bool) (f : VFields) (s : State) : Host.Outcome State Fault Refusal :=
  vxIssue k (.vxSel k now f) now .sel f s

/-- vx.recip, vx.sqrt, vx.rsqrt, vx.exp2, vx.log2 (R184). -/
def execVxFunction (k : TileIx) (now : Bool) (op : FnOp) (f : VFields) (s : State) : Host.Outcome State Fault Refusal :=
  vxIssue k (.vxFunction k now op f) now (.function op) f s

/-- vx.perm (R209). -/
def execVxPerm (k : TileIx) (now : Bool) (f : VFields) (s : State) : Host.Outcome State Fault Refusal :=
  vxIssue k (.vxPerm k now f) now .perm f s

/-- vx.shuf (R209). -/
def execVxShuf (k : TileIx) (now : Bool) (f : VFields) (s : State) : Host.Outcome State Fault Refusal :=
  vxIssue k (.vxShuf k now f) now .shuf f s

/-- vx.pack (R209). -/
def execVxPack (k : TileIx) (now : Bool) (f : VFields) (s : State) : Host.Outcome State Fault Refusal :=
  vxIssue k (.vxPack k now f) now .pack f s

/-- vx.unpack (R209). -/
def execVxUnpack (k : TileIx) (now : Bool) (f : VFields) (s : State) : Host.Outcome State Fault Refusal :=
  vxIssue k (.vxUnpack k now f) now .unpack f s

/-- vx.pack2of4, vx.pack1of4 (R210). -/
def execVxPack2of4 (k : TileIx) (now : Bool) (one : Bool) (f : VFields) (s : State) : Host.Outcome State Fault Refusal :=
  vxIssue k (.vxPack2of4 k now one f) now (.pack2of4 one) f s

/-- vx.expand.2of4, vx.expand.1of4 (R211). -/
def execVxExpand (k : TileIx) (now : Bool) (one : Bool) (f : VFields) (s : State) : Host.Outcome State Fault Refusal :=
  vxIssue k (.vxExpand k now one f) now (.expand one) f s

/-- vx.any (R212). -/
def execVxAny (k : TileIx) (now : Bool) (f : VFields) (s : State) : Host.Outcome State Fault Refusal :=
  vxIssue k (.vxAny k now f) now .any f s

/-- vx.all (R212). -/
def execVxAll (k : TileIx) (now : Bool) (f : VFields) (s : State) : Host.Outcome State Fault Refusal :=
  vxIssue k (.vxAll k now f) now .all f s

/-- vx.redg (R212). -/
def execVxRedg (k : TileIx) (now : Bool) (f : VFields) (s : State) : Host.Outcome State Fault Refusal :=
  vxIssue k (.vxRedg k now f) now .redg f s

/-- vx.lane (R212). -/
def execVxLane (k : TileIx) (now : Bool) (f : VFields) (s : State) : Host.Outcome State Fault Refusal :=
  vxIssue k (.vxLane k now f) now .lane f s

/-- vx.mtog (R212). -/
def execVxMtog (k : TileIx) (now : Bool) (f : VFields) (s : State) : Host.Outcome State Fault Refusal :=
  vxIssue k (.vxMtog k now f) now .mtog f s

/-- vx.tally (R390). -/
def execVxTally (k : TileIx) (now : Bool) (f : VFields) (s : State) : Host.Outcome State Fault Refusal :=
  vxIssue k (.vxTally k now f) now .tally f s

/-- vx.bandedit (R406). -/
def execVxBandedit (k : TileIx) (now : Bool) (f : VFields) (s : State) : Host.Outcome State Fault Refusal :=
  vxIssue k (.vxBandedit k now f) now .bandedit f s

/-- vx.jw (R407). -/
def execVxJw (k : TileIx) (now : Bool) (f : VFields) (s : State) : Host.Outcome State Fault Refusal :=
  vxIssue k (.vxJw k now f) now .jw f s

/-- vx.qsig (R408). -/
def execVxQsig (k : TileIx) (now : Bool) (f : VFields) (s : State) : Host.Outcome State Fault Refusal :=
  vxIssue k (.vxQsig k now f) now .qsig f s

/-- vx.popcnt (R409). -/
def execVxPopcnt (k : TileIx) (now : Bool) (f : VFields) (s : State) : Host.Outcome State Fault Refusal :=
  vxIssue k (.vxPopcnt k now f) now .popcnt f s

/-- nz.geom (R402). -/
def execNzGeom (k : TileIx) (now : Bool) (f : VFields) (s : State) : Host.Outcome State Fault Refusal :=
  vxIssue k (.nzGeom k now f) now .geom f s

/-- nz.dgauss (R402). -/
def execNzDgauss (k : TileIx) (now : Bool) (f : VFields) (s : State) : Host.Outcome State Fault Refusal :=
  vxIssue k (.nzDgauss k now f) now .dgauss f s

end Sys2Proof.Machine
end

