-- ==== Sys2Proof/Machine/Dispatch.lean ====
section
/-! DEFINITION. One arm per command: each is one call of the command's meaning. -/

namespace Sys2Proof.Machine

/-- The effect of a command on everything but the queue of commands. -/
def exec (i : Instr) (s : State) : Host.Outcome State Fault Refusal :=
  match i with
  | .baseRegisterAlu k rd rs1 rs2 func => Sys2Proof.Machine.execBaseRegisterAlu k rd rs1 rs2 func s
  | .gAddi k rd rs1 imm => Sys2Proof.Machine.execGAddi k rd rs1 imm s
  | .gLogicImm k op rd rs1 imm => Sys2Proof.Machine.execGLogicImm k op rd rs1 imm s
  | .gShi k rd rs1 imm => Sys2Proof.Machine.execGShi k rd rs1 imm s
  | .gLhi k rd rs1 imm => Sys2Proof.Machine.execGLhi k rd rs1 imm s
  | .gLti k signed rd rs1 imm => Sys2Proof.Machine.execGLti k signed rd rs1 imm s
  | .branch k op rd rs1 imm => Sys2Proof.Machine.execBranch k op rd rs1 imm s
  | .jLink k rd rs1 imm => Sys2Proof.Machine.execJLink k rd rs1 imm s
  | .jReg k rd rs1 imm => Sys2Proof.Machine.execJReg k rd rs1 imm s
  | .ld k op rd rs1 imm => Sys2Proof.Machine.execLd k op rd rs1 imm s
  | .st k op rd rs1 imm => Sys2Proof.Machine.execSt k op rd rs1 imm s
  | .rGet k rd rs1 rs2 func => Sys2Proof.Machine.execRGet k rd rs1 rs2 func s
  | .rPut k rd rs1 rs2 func => Sys2Proof.Machine.execRPut k rd rs1 rs2 func s
  | .rFence k rd rs1 rs2 func => Sys2Proof.Machine.execRFence k rd rs1 rs2 func s
  | .cRd k rd rs1 imm => Sys2Proof.Machine.execCRd k rd rs1 imm s
  | .cXchg k rd rs1 imm => Sys2Proof.Machine.execCXchg k rd rs1 imm s
  | .cSet k rd rs1 imm => Sys2Proof.Machine.execCSet k rd rs1 imm s
  | .cClr k rd rs1 imm => Sys2Proof.Machine.execCClr k rd rs1 imm s
  | .sysBrk k rd rs1 rs2 func => Sys2Proof.Machine.execSysBrk k rd rs1 rs2 func s
  | .reservedMajorOpcode k w => Sys2Proof.Machine.execReservedMajorOpcode k w s
  | .fcTileCauseClear k => Sys2Proof.Machine.execFcTileCauseClear k s
  | .ceWriteback k w => Sys2Proof.Machine.execCeWriteback k w s
  | .memScrub k => Sys2Proof.Machine.execMemScrub k s
  | .mxLda k f => Sys2Proof.Machine.execMxLda k f s
  | .mxLdb k f => Sys2Proof.Machine.execMxLdb k f s
  | .mxLdat k f => Sys2Proof.Machine.execMxLdat k f s
  | .mxMma k f => Sys2Proof.Machine.execMxMma k f s
  | .mxMmv k f => Sys2Proof.Machine.execMxMmv k f s
  | .mxZero k f => Sys2Proof.Machine.execMxZero k f s
  | .mxSta k f => Sys2Proof.Machine.execMxSta k f s
  | .mxWait k f => Sys2Proof.Machine.execMxWait k f s
  | .mxLoadRun k => Sys2Proof.Machine.execMxLoadRun k s
  | .mxComputeStart k => Sys2Proof.Machine.execMxComputeStart k s
  | .mxComputeDone k miss => Sys2Proof.Machine.execMxComputeDone k miss s
  | .vxLd k now f => Sys2Proof.Machine.execVxLd k now f s
  | .vxSt k now f => Sys2Proof.Machine.execVxSt k now f s
  | .vxLds k now f => Sys2Proof.Machine.execVxLds k now f s
  | .vxSts k now f => Sys2Proof.Machine.execVxSts k now f s
  | .vxLdx k now f => Sys2Proof.Machine.execVxLdx k now f s
  | .vxStx k now f => Sys2Proof.Machine.execVxStx k now f s
  | .vxSplat k now f => Sys2Proof.Machine.execVxSplat k now f s
  | .vxMov k now f => Sys2Proof.Machine.execVxMov k now f s
  | .vxSetvl k now f => Sys2Proof.Machine.execVxSetvl k now f s
  | .vxAcc k now f => Sys2Proof.Machine.execVxAcc k now f s
  | .vxMaskLogic k now op f => Sys2Proof.Machine.execVxMaskLogic k now op f s
  | .vxMnot k now f => Sys2Proof.Machine.execVxMnot k now f s
  | .vxMfromg k now f => Sys2Proof.Machine.execVxMfromg k now f s
  | .vxMfirst k now f => Sys2Proof.Machine.execVxMfirst k now f s
  | .vxCvt k now f => Sys2Proof.Machine.execVxCvt k now f s
  | .vxLdw k now f => Sys2Proof.Machine.execVxLdw k now f s
  | .vxStn k now f => Sys2Proof.Machine.execVxStn k now f s
  | .vxDequant k now b16 f => Sys2Proof.Machine.execVxDequant k now b16 f s
  | .vxQuant k now bf16 b16 fit f => Sys2Proof.Machine.execVxQuant k now bf16 b16 fit f s
  | .vxArith k now op f => Sys2Proof.Machine.execVxArith k now op f s
  | .vxMinmax k now isMax f => Sys2Proof.Machine.execVxMinmax k now isMax f s
  | .vxSign k now op f => Sys2Proof.Machine.execVxSign k now op f s
  | .vxLogic k now op f => Sys2Proof.Machine.execVxLogic k now op f s
  | .vxShift k now op f => Sys2Proof.Machine.execVxShift k now op f s
  | .vxRsum k now f => Sys2Proof.Machine.execVxRsum k now f s
  | .vxCompare k now op f => Sys2Proof.Machine.execVxCompare k now op f s
  | .vxSel k now f => Sys2Proof.Machine.execVxSel k now f s
  | .vxFunction k now op f => Sys2Proof.Machine.execVxFunction k now op f s
  | .vxPerm k now f => Sys2Proof.Machine.execVxPerm k now f s
  | .vxShuf k now f => Sys2Proof.Machine.execVxShuf k now f s
  | .vxPack k now f => Sys2Proof.Machine.execVxPack k now f s
  | .vxUnpack k now f => Sys2Proof.Machine.execVxUnpack k now f s
  | .vxPack2of4 k now one f => Sys2Proof.Machine.execVxPack2of4 k now one f s
  | .vxExpand k now one f => Sys2Proof.Machine.execVxExpand k now one f s
  | .vxAny k now f => Sys2Proof.Machine.execVxAny k now f s
  | .vxAll k now f => Sys2Proof.Machine.execVxAll k now f s
  | .vxRedg k now f => Sys2Proof.Machine.execVxRedg k now f s
  | .vxLane k now f => Sys2Proof.Machine.execVxLane k now f s
  | .vxMtog k now f => Sys2Proof.Machine.execVxMtog k now f s
  | .vxTally k now f => Sys2Proof.Machine.execVxTally k now f s
  | .vxBandedit k now f => Sys2Proof.Machine.execVxBandedit k now f s
  | .vxJw k now f => Sys2Proof.Machine.execVxJw k now f s
  | .vxQsig k now f => Sys2Proof.Machine.execVxQsig k now f s
  | .vxPopcnt k now f => Sys2Proof.Machine.execVxPopcnt k now f s
  | .nzGeom k now f => Sys2Proof.Machine.execNzGeom k now f s
  | .nzDgauss k now f => Sys2Proof.Machine.execNzDgauss k now f s
  | .qSend k f => Sys2Proof.Machine.execQSend k f s
  | .qTrysend k f => Sys2Proof.Machine.execQTrysend k f s
  | .qRecv k f => Sys2Proof.Machine.execQRecv k f s
  | .qPeek k f => Sys2Proof.Machine.execQPeek k f s
  | .qPop k f => Sys2Proof.Machine.execQPop k f s
  | .qWord k f => Sys2Proof.Machine.execQWord k f s
  | .qSelect k f => Sys2Proof.Machine.execQSelect k f s
  | .qCount k f => Sys2Proof.Machine.execQCount k f s
  | .sWait k f => Sys2Proof.Machine.execSWait k f s
  | .sSignal k f => Sys2Proof.Machine.execSSignal k f s
  | .sSet k f => Sys2Proof.Machine.execSSet k f s
  | .sTrywait k f => Sys2Proof.Machine.execSTrywait k f s
  | .sRead k f => Sys2Proof.Machine.execSRead k f s
  | .poseSwitchInsn k f => Sys2Proof.Machine.execPoseSwitchInsn k f s
  | .poseYield k f => Sys2Proof.Machine.execPoseYield k f s
  | .poseId k f => Sys2Proof.Machine.execPoseId k f s
  | .poseSwitchRun k => Sys2Proof.Machine.execPoseSwitchRun k s
  | .poseStart k slot service top => Sys2Proof.Machine.execPoseStart k slot service top s
  | .tileModeWrite k byController service top => Sys2Proof.Machine.execTileModeWrite k byController service top s
  | .tileReset k => Sys2Proof.Machine.execTileReset k s
  | .poseLoadStart k => Sys2Proof.Machine.execPoseLoadStart k s
  | .poseLoadDone k => Sys2Proof.Machine.execPoseLoadDone k s
  | .steerFire k => Sys2Proof.Machine.execSteerFire k s
  | .outboundSend k entry => Sys2Proof.Machine.execOutboundSend k entry s
  | .msgResendTimeout k entry => Sys2Proof.Machine.execMsgResendTimeout k entry s
  | .syncStuck k entry => Sys2Proof.Machine.execSyncStuck k entry s
  | .packetRoute p => Sys2Proof.Machine.execPacketRoute p s
  | .flitReceive n crcError => Sys2Proof.Machine.execFlitReceive n crcError s
  | .linkHeartbeatTimeout k d => Sys2Proof.Machine.execLinkHeartbeatTimeout k d s
  | .msg n => Sys2Proof.Machine.execMsg n s
  | .msgAnswer n => Sys2Proof.Machine.execMsgAnswer n s
  | .retryNotice n => Sys2Proof.Machine.execRetryNotice n s
  | .get n => Sys2Proof.Machine.execGet n s
  | .coalesceEntryExpire k => Sys2Proof.Machine.execCoalesceEntryExpire k s
  | .getData n => Sys2Proof.Machine.execGetData n s
  | .put n => Sys2Proof.Machine.execPut n s
  | .putAck n => Sys2Proof.Machine.execPutAck n s
  | .nack n => Sys2Proof.Machine.execNack n s
  | .signal n => Sys2Proof.Machine.execSignal n s
  | .wake n => Sys2Proof.Machine.execWake n s
  | .gather n => Sys2Proof.Machine.execGather n s
  | .rtSrcWrite k v => Sys2Proof.Machine.execRtSrcWrite k v s
  | .reinBurstSend k d => Sys2Proof.Machine.execReinBurstSend k d s
  | .reinTapWrite n => Sys2Proof.Machine.execReinTapWrite n s
  | .rtGsendWrite k v => Sys2Proof.Machine.execRtGsendWrite k v s
  | .tallyApply k => Sys2Proof.Machine.execTallyApply k s
  | .paceNop r => Sys2Proof.Machine.execPaceNop r s
  | .reinOpen r => Sys2Proof.Machine.execReinOpen r s
  | .reinReady p rein => Sys2Proof.Machine.execReinReady p rein s
  | .reinClose r => Sys2Proof.Machine.execReinClose r s
  | .poseSwitch r => Sys2Proof.Machine.execPoseSwitch r s
  | .poseLoad r => Sys2Proof.Machine.execPoseLoad r s
  | .remountIssueDemand r => Sys2Proof.Machine.execRemountIssueDemand r s
  | .remountIssuePredict r => Sys2Proof.Machine.execRemountIssuePredict r s
  | .gatherOpen r => Sys2Proof.Machine.execGatherOpen r s
  | .ckptMark r => Sys2Proof.Machine.execCkptMark r s
  | .deadline r => Sys2Proof.Machine.execDeadline r s
  | .deadlineTest p => Sys2Proof.Machine.execDeadlineTest p s
  | .windowMark r => Sys2Proof.Machine.execWindowMark r s
  | .ledgerTick r measured => Sys2Proof.Machine.execLedgerTick r measured s
  | .beatBoundary p => Sys2Proof.Machine.execBeatBoundary p s
  | .strideOpen p => Sys2Proof.Machine.execStrideOpen p s
  | .strideClose p => Sys2Proof.Machine.execStrideClose p s
  | .replay p => Sys2Proof.Machine.execReplay p s
  | .deviceStride => Sys2Proof.Machine.execDeviceStride s
  | .paceSyncInPulse p => Sys2Proof.Machine.execPaceSyncInPulse p s
  | .paceRefLost => Sys2Proof.Machine.execPaceRefLost s
  | .paceRefRestored => Sys2Proof.Machine.execPaceRefRestored s
  | .paceRefFreqCheck ppm => Sys2Proof.Machine.execPaceRefFreqCheck ppm s
  | .paceCtrlWrite v => Sys2Proof.Machine.execPaceCtrlWrite v s
  | .paceSrcWrite p v => Sys2Proof.Machine.execPaceSrcWrite p v s
  | .registerWrite offset four v => Sys2Proof.Machine.execRegisterWrite offset four v s
  | .remountBind n => Sys2Proof.Machine.execRemountBind n s
  | .slotRelease n => Sys2Proof.Machine.execSlotRelease n s
  | .remountGranuleSend p lane => Sys2Proof.Machine.execRemountGranuleSend p lane s
  | .tierHealComplete far granule goodMirror => Sys2Proof.Machine.execTierHealComplete far granule goodMirror s
  | .tierScrub far uncorrectable corrected => Sys2Proof.Machine.execTierScrub far uncorrectable corrected s
  | .siteMigrationStart far logical => Sys2Proof.Machine.execSiteMigrationStart far logical s
  | .siteMigrationComplete far => Sys2Proof.Machine.execSiteMigrationComplete far s
  | .apertureRead offset len => Sys2Proof.Machine.execApertureRead offset len s
  | .apertureWrite offset data => Sys2Proof.Machine.execApertureWrite offset data s
  | .bar2Write offset data => Sys2Proof.Machine.execBar2Write offset data s
  | .indirectWindowWrite tileWindow offset v => Sys2Proof.Machine.execIndirectWindowWrite tileWindow offset v s
  | .hiPoll fails => Sys2Proof.Machine.execHiPoll fails s
  | .ringEnable n => Sys2Proof.Machine.execRingEnable n s
  | .ringDisable n => Sys2Proof.Machine.execRingDisable n s
  | .eventRingHeadWrite v => Sys2Proof.Machine.execEventRingHeadWrite v s
  | .linkReset => Sys2Proof.Machine.execLinkReset s
  | .descriptorComplete id => Sys2Proof.Machine.execDescriptorComplete id s
  | .nop id => Sys2Proof.Machine.execNop id s
  | .pad id => Sys2Proof.Machine.execPad id s
  | .fence id => Sys2Proof.Machine.execFence id s
  | .stageIn id => Sys2Proof.Machine.execStageIn id s
  | .stageOut id => Sys2Proof.Machine.execStageOut id s
  | .loadImage id => Sys2Proof.Machine.execLoadImage id s
  | .loadImageShared id => Sys2Proof.Machine.execLoadImageShared id s
  | .unloadImage id => Sys2Proof.Machine.execUnloadImage id s
  | .stride id => Sys2Proof.Machine.execStride id s
  | .decodeOpen id => Sys2Proof.Machine.execDecodeOpen id s
  | .decodeStepPrefill id session => Sys2Proof.Machine.execDecodeStepPrefill id session s
  | .decodeStepPlain id session => Sys2Proof.Machine.execDecodeStepPlain id session s
  | .decodeStepOutrider id session maquette => Sys2Proof.Machine.execDecodeStepOutrider id session maquette s
  | .decodeClose id => Sys2Proof.Machine.execDecodeClose id s
  | .tallyRun id => Sys2Proof.Machine.execTallyRun id s
  | .tallyFinish id => Sys2Proof.Machine.execTallyFinish id s
  | .checkpoint id => Sys2Proof.Machine.execCheckpoint id s
  | .restore id => Sys2Proof.Machine.execRestore id s
  | .screenSelfTest id failures => Sys2Proof.Machine.execScreenSelfTest id failures s
  | .screenGeneratorKa id => Sys2Proof.Machine.execScreenGeneratorKa id s
  | .screenSamplerKa id => Sys2Proof.Machine.execScreenSamplerKa id s
  | .dumpSync id => Sys2Proof.Machine.execDumpSync id s
  | .releaseWindow id => Sys2Proof.Machine.execReleaseWindow id s
  | .paddockCreate id => Sys2Proof.Machine.execPaddockCreate id s
  | .paddockDestroy id => Sys2Proof.Machine.execPaddockDestroy id s
  | .budgetSet id => Sys2Proof.Machine.execBudgetSet id s
  | .yokeAttach id => Sys2Proof.Machine.execYokeAttach id s
  | .yokeDetach id => Sys2Proof.Machine.execYokeDetach id s
  | .fwStage id => Sys2Proof.Machine.execFwStage id s
  | .fwActivate id => Sys2Proof.Machine.execFwActivate id s
  | .debugOpen id => Sys2Proof.Machine.execDebugOpen id s
  | .sealIssue id => Sys2Proof.Machine.execSealIssue id s
  | .errorReport r => Sys2Proof.Machine.execErrorReport r s
  | .pathFault source k => Sys2Proof.Machine.execPathFault source k s
  | .lineWithoutReport source k => Sys2Proof.Machine.execLineWithoutReport source k s
  | .ackTimeout source k => Sys2Proof.Machine.execAckTimeout source k s
  | .haltNow => Sys2Proof.Machine.execHaltNow s
  | .fcModeWrite compat => Sys2Proof.Machine.execFcModeWrite compat s
  | .firstErrorClear field => Sys2Proof.Machine.execFirstErrorClear field s
  | .tableFlipRequest detours => Sys2Proof.Machine.execTableFlipRequest detours s
  | .tableFlipComplete => Sys2Proof.Machine.execTableFlipComplete s
  | .rePlacement p => Sys2Proof.Machine.execRePlacement p s
  | .tileRetire k => Sys2Proof.Machine.execTileRetire k s
  | .patinaWrite entry => Sys2Proof.Machine.execPatinaWrite entry s
  | .ledgerPeriod temps => Sys2Proof.Machine.execLedgerPeriod temps s
  | .regionPowerLimit r => Sys2Proof.Machine.execRegionPowerLimit r s
  | .modulePowerLimit => Sys2Proof.Machine.execModulePowerLimit s
  | .throttleRelease r cause => Sys2Proof.Machine.execThrottleRelease r cause s
  | .feedLost b => Sys2Proof.Machine.execFeedLost b s
  | .feedRestored b => Sys2Proof.Machine.execFeedRestored b s
  | .bothFeedsLost => Sys2Proof.Machine.execBothFeedsLost s
  | .converterFail => Sys2Proof.Machine.execConverterFail s
  | .phaseFail r => Sys2Proof.Machine.execPhaseFail r s
  | .efuseTrip r => Sys2Proof.Machine.execEfuseTrip r s
  | .coolantInletLimit => Sys2Proof.Machine.execCoolantInletLimit s
  | .coolantFlowLimit => Sys2Proof.Machine.execCoolantFlowLimit s
  | .yokeData link f => Sys2Proof.Machine.execYokeData link f s
  | .ack link seq => Sys2Proof.Machine.execAck link seq s
  | .nak link seq => Sys2Proof.Machine.execNak link seq s
  | .linkRetryTimeout link => Sys2Proof.Machine.execLinkRetryTimeout link s
  | .credit link channel n => Sys2Proof.Machine.execCredit link channel n s
  | .heartbeat link => Sys2Proof.Machine.execHeartbeat link s
  | .heartbeatSend link => Sys2Proof.Machine.execHeartbeatSend link s
  | .yokeDown => Sys2Proof.Machine.execYokeDown s
  | .halted port => Sys2Proof.Machine.execHalted port s
  | .laneSpare link lane => Sys2Proof.Machine.execLaneSpare link lane s
  | .remoteChannelMsg link channel chseq words => Sys2Proof.Machine.execRemoteChannelMsg link channel chseq words s
  | .mPropose p stride m => Sys2Proof.Machine.execMPropose p stride m s
  | .closeReport p stride held fault digest => Sys2Proof.Machine.execCloseReport p stride held fault digest s
  | .mark p stride beat => Sys2Proof.Machine.execMark p stride beat s
  | .partials p digests failures => Sys2Proof.Machine.execPartials p digests failures s
  | .paddockFail p => Sys2Proof.Machine.execPaddockFail p s
  | .haltNotice => Sys2Proof.Machine.execHaltNotice s
  | .detach p => Sys2Proof.Machine.execDetach p s
  | .forward p kind addr data => Sys2Proof.Machine.execForward p kind addr data s
  | .attach a => Sys2Proof.Machine.execAttach a s
  | .attachTimeout => Sys2Proof.Machine.execAttachTimeout s
  | .attachCopy => Sys2Proof.Machine.execAttachCopy s
  | .yokeJoin p sent => Sys2Proof.Machine.execYokeJoin p sent s
  | .twinHaltIn => Sys2Proof.Machine.execTwinHaltIn s
  | .takeOver => Sys2Proof.Machine.execTakeOver s
  | .takeover p => Sys2Proof.Machine.execTakeover p s
  | .tokenSubmit => Sys2Proof.Machine.execTokenSubmit s
  | .relkeyErase v => Sys2Proof.Machine.execRelkeyErase v s
  | .doeDiscovery index => Sys2Proof.Machine.execDoeDiscovery index s
  | .spdmCert slot => Sys2Proof.Machine.execSpdmCert slot s
  | .spdmChal slot nonce => Sys2Proof.Machine.execSpdmChal slot nonce s
  | .spdmMeas slot nonce => Sys2Proof.Machine.execSpdmMeas slot nonce s
  | .spdmKeyEx mutualOwner ownerSig => Sys2Proof.Machine.execSpdmKeyEx mutualOwner ownerSig s
  | .ownerEnrol session key sig => Sys2Proof.Machine.execOwnerEnrol session key sig s
  | .ownerRemove session => Sys2Proof.Machine.execOwnerRemove session s
  | .releaseKeyPut session p slot key => Sys2Proof.Machine.execReleaseKeyPut session p slot key s
  | .releaseKeyPutWrapped session p slot secret wrapped => Sys2Proof.Machine.execReleaseKeyPutWrapped session p slot secret wrapped s
  | .ownerSecretPut session index secret => Sys2Proof.Machine.execOwnerSecretPut session index secret s
  | .ideKm session stream key => Sys2Proof.Machine.execIdeKm session stream key s
  | .pldmSensorRead sensor => Sys2Proof.Machine.execPldmSensorRead sensor s
  | .pldmSetThreshold sensor upper value => Sys2Proof.Machine.execPldmSetThreshold sensor upper value s
  | .pldmEventRead => Sys2Proof.Machine.execPldmEventRead s
  | .pldmEvent sensor value => Sys2Proof.Machine.execPldmEvent sensor value s
  | .firmwareUpdate image => Sys2Proof.Machine.execFirmwareUpdate image s
  | .tapBypass tdi => Sys2Proof.Machine.execTapBypass tdi s
  | .tapIdcode => Sys2Proof.Machine.execTapIdcode s
  | .tapSamplePreload => Sys2Proof.Machine.execTapSamplePreload s
  | .tapExtest => Sys2Proof.Machine.execTapExtest s
  | .tapPrivate opcode => Sys2Proof.Machine.execTapPrivate opcode s
  | .counterClear v => Sys2Proof.Machine.execCounterClear v s
  | .counterWrapClear offset => Sys2Proof.Machine.execCounterWrapClear offset s
  | .bwWindowEnd => Sys2Proof.Machine.execBwWindowEnd s
  | .powerUp feedA feedB => Sys2Proof.Machine.execPowerUp feedA feedB s
  | .modResetRelease scan => Sys2Proof.Machine.execModResetRelease scan s
  | .bootTimeout => Sys2Proof.Machine.execBootTimeout s
  | .modResetAssert => Sys2Proof.Machine.execModResetAssert s
  | .fetchFault k => Sys2Proof.Machine.execFetchFault k s
  | .vxInstrStart k => Sys2Proof.Machine.execVxInstrStart k s
  | .d3hotTransition enter => Sys2Proof.Machine.execD3hotTransition enter s
  | .fabricPortRetrain port peer => Sys2Proof.Machine.execFabricPortRetrain port peer s
  | .yokeRetrain group => Sys2Proof.Machine.execYokeRetrain group s

end Sys2Proof.Machine
end

