-- ==== Sys2Proof/Safety.lean ====
section
/-! DEFINITION. The terms in which statements about the engine are written: when a tile's core issues, what a retired or a
faulted instruction leaves, what two states share, and when a storage is in its one form. -/

namespace Sys2Proof.Machine

/-! ## A core at an instruction (03, R96, R127; 06, R196) -/

/-- The core of a tile issues an instruction that reads these registers: it can issue, the fetch at its program counter is
good, the word there is the instruction's, and no vector instruction is still to write one of the registers. -/
abbrev State.atInsn (s : State) (k : TileIx) (i : Instr) (reads : List (BitVec 5)) : Prop :=
  s.canIssue k = true ∧ (s.tile k).fetchCause = none ∧ i.tileWord = some (s.tile k).insnWord
    ∧ (s.tile k).gPending.any (fun p => reads.contains p.reg) = false

/-- The tile that an instruction finds: its fetch has filled the buffer from the line of the program counter on. -/
def State.fetched (s : State) (k : TileIx) : Tile := s.fetch k (s.tile k)

/-- The state a retired instruction leaves: its tile is `t` at the next instruction, one more instruction is counted. -/
def State.retires (s : State) (k : TileIx) (t : Tile) : State :=
  (s.setTile k { t with pc := (s.fetched k).pc + 4, instret := t.instret + 1 }).bump

/-- The state a taken jump leaves. -/
def State.jumps (s : State) (k : TileIx) (t : Tile) (target : BitVec 18) : State :=
  (s.setTile k { t with pc := target, instret := t.instret + 1 }).bump

/-- The state an instruction leaves that ends in a tile fault. -/
def State.faults (s : State) (k : TileIx) (unit cause : Nat) (addr : BitVec 64) : State :=
  (s.setTile k (s.tileFault k (s.fetched k) unit cause (s.fetched k).pc addr)).bump

/-- A tile whose engines act: it exists and is clocked. -/
abbrev State.runs (s : State) (k : TileIx) : Prop := s.present k = true ∧ s.clocked (regionOfTile k) = true

/-- The state an engine of a tile leaves. -/
def State.engineStep (s : State) (k : TileIx) (t : Tile) : State := (s.setTile k t).bump

/-! ## What two states share -/

/-- Everything but the tiles and the model's counter of free values is the same. -/
abbrev State.sameFrame (s t : State) : Prop := { t with tiles := s.tiles, free := s.free } = s

/-- Every tile but one is the same. -/
def State.otherTiles (s t : State) (k : Nat) : Prop := ∀ j, j ≠ k → t.tile j = s.tile j

/-- Every word of a tile's local memory reads the same. -/
def Tile.sameMem (a b : Tile) : Prop := ∀ i, b.word i = a.word i

/-- Every general register but one is the same. -/
def Tile.sameRegsBut (a b : Tile) (rd : BitVec 5) : Prop := ∀ r, r ≠ rd → b.reg r = a.reg r

/-- The stores of a tile's units other than the core, its status and its local memory are the same: operand buffers,
accumulators, vector and mask registers, queues, sync objects, pose slots, router tables. -/
abbrev Tile.sameUnits (a b : Tile) : Prop :=
  b.aBufs = a.aBufs ∧ b.bBufs = a.bBufs ∧ b.banks = a.banks ∧ b.mxQueue = a.mxQueue ∧ b.vregs = a.vregs
    ∧ b.mregs = a.mregs ∧ b.vl = a.vl ∧ b.vxQueue = a.vxQueue ∧ b.shape = a.shape ∧ b.mxFlags = a.mxFlags
    ∧ b.vxFlags = a.vxFlags ∧ b.srBase = a.srBase ∧ b.srPass = a.srPass ∧ b.queues = a.queues
    ∧ b.outbound = a.outbound ∧ b.syncs = a.syncs ∧ b.slots = a.slots ∧ b.inForce = a.inForce
    ∧ b.poseMem = a.poseMem ∧ b.detourA = a.detourA ∧ b.detourB = a.detourB ∧ b.taps = a.taps
    ∧ b.service = a.service ∧ b.protTop = a.protTop

/-! ## Vector instructions (06, R191, R192, R213) -/

/-- A core at a vector instruction whose engine is free and waits for no matrix instruction. -/
abbrev State.atVector (s : State) (k : TileIx) (i : Instr) (reads : List (BitVec 5)) : Prop :=
  s.atInsn k i reads ∧ (s.fetched k).vxQueue = [] ∧ (s.fetched k).mxQueue = []

/-- The active lanes of the destination become these values, poisoned as said or as their mask bits are; the others stay
as they were. -/
def Tile.lanesBecome (a b : Tile) (f : VFields) (fmt : Format) (out : Nat → Nat × Bool) : Prop :=
  ∀ j, j < fmt.lanes → (b.vreg f.vd.toNat).lane fmt.width j =
    if a.active f.mask fmt.lanes j then ((out j).1 % 2 ^ fmt.width, (out j).2 || a.maskBad f.mask j)
    else (a.vreg f.vd.toNat).lane fmt.width j

/-- Nothing but one vector register, the flags, the count of instructions started and the place in the issue order
changed. -/
def Tile.vectorOnly (a b : Tile) (vd : BitVec 5) : Prop :=
  (∀ i, i < 32 → i ≠ vd.toNat → b.vreg i = a.vreg i) ∧ b.mregs = a.mregs ∧ b.vl = a.vl ∧ a.sameMem b
    ∧ (∀ r, b.reg r = a.reg r) ∧ b.banks = a.banks ∧ b.vxQueue = [] ∧ b.parked = a.parked ∧ b.outbound = a.outbound

/-- Nothing but one mask register changed, as above. -/
def Tile.maskOnly (a b : Tile) (md : Nat) : Prop :=
  (∀ i, i ≠ md → b.mreg i = a.mreg i) ∧ b.vregs = a.vregs ∧ b.vl = a.vl ∧ a.sameMem b
    ∧ (∀ r, b.reg r = a.reg r) ∧ b.banks = a.banks ∧ b.vxQueue = [] ∧ b.parked = a.parked

/-- Two source lanes at a format: their bits, and whether either is poisoned. -/
def Tile.twoLanes (t : Tile) (f : VFields) (fmt : Format) (j : Nat) : (Nat × Nat) × Bool :=
  let a := (t.vreg f.vs1.toNat).lane fmt.width j
  let b := (t.vreg f.vs2.toNat).lane fmt.width j
  ((a.1, b.1), a.2 || b.2)

/-! ## Packets and frame agents (09, R286 to R293) -/

/-- A packet stands ejected at a tile, the first of its channel, and the tile's router is clocked. -/
abbrev State.arrived (s : State) (n : Nat) (op : PacketOp) (p : Packet) (k inPort : Nat) : Prop :=
  s.net[n]? = some p ∧ p.op = op ∧ p.pos = .ejected k inPort ∧ s.firstInChannel n p = true
    ∧ s.routed (regionOfTile k) = true

/-- A packet stands in a router, the first of its channel, well formed and admitted, and the router is clocked. -/
abbrev State.inRouter (s : State) (n : Nat) (p : Packet) (k inPort : Nat) (escape : Bool) : Prop :=
  s.net[n]? = some p ∧ p.op ≠ .reserved ∧ p.lengthOk = true ∧ p.pos = .router k inPort escape
    ∧ s.firstInChannel n p = true ∧ s.routed (regionOfTile k) = true

/-- The stores of a tile that packets in transit do not change. -/
abbrev Tile.sameButRouter (a b : Tile) : Prop :=
  b.mem = a.mem ∧ b.regs = a.regs ∧ b.pc = a.pc ∧ b.parked = a.parked ∧ b.queues = a.queues ∧ b.outbound = a.outbound
    ∧ b.syncs = a.syncs ∧ b.banks = a.banks ∧ b.vregs = a.vregs ∧ b.slots = a.slots ∧ b.wait = a.wait

/-- A word as it reads back after a write. -/
def PWord.stored (w : PWord) : PWord := if w.poison then { poison := true } else w

/-! ## Descriptors (14, R427 to R433) -/

/-- A consumed descriptor of an opcode whose work is still to be done, with none of its paddock before it that has no
status, on a module that is not in halt, nor in D3hot where the work needs host memory (Table 14.1). -/
abbrev State.atDesc (s : State) (id op : Nat) (d : Desc) : Prop :=
  s.desc id = some d ∧ d.opcode = op ∧ d.status = none ∧ d.started = false ∧ s.halted = false
    ∧ (s.d3hot = true → hostOpcode op = false) ∧ ∀ x ∈ s.descs, x.id < id → x.paddock = d.paddock → x.status ≠ none

/-- A descriptor's work has ended with a status and a result. -/
def State.ended (s : State) (id status : Nat) (result : BitVec 64) : Prop :=
  ∃ x, s.desc id = some x ∧ x.status = some status ∧ x.result = result

/-- A granule of a share that takes a whole write: it lies at this tier address, is not locked and not read-only. -/
abbrev State.takesGranule (s : State) (p : Nat) (far : Bool) (off a : Nat) : Prop :=
  off % 64 = 0 ∧ (s.paddock p).shareAddr far off = some a ∧ s.readOnlyShare p far off = false
    ∧ s.shareLocked p far off 64 = false ∧ s.forwardsWrites p = false

/-! ## Fuses (19, R564, R565, Table 19.1) -/

/-- The fuses as they may be: not every root-key slot is revoked, and at most 64 anti-rollback steps are blown. -/
abbrev State.fusesOk (s : State) : Prop := s.sec.revoked ≠ 0xF ∧ s.sec.steps ≤ 64

/-- Fuses are only ever blown: no revocation bit clears and the count of steps does not fall. -/
abbrev State.fusesGrow (s t : State) : Prop := s.sec.steps ≤ t.sec.steps ∧ s.sec.revoked &&& t.sec.revoked = s.sec.revoked

/-! ## Storages in canonical form -/

/-- Local memory in its one form: rising word numbers, no word that equals a word of reset. -/
def Memory.wf (m : Map MWord) : Bool := canonical {} m

end Sys2Proof.Machine
end

