-- ==== Sys2Proof/Certificates/Slice0/Obligations.lean ====
section
/-! DEFINITION. The statements about the engine. Each is about the commands, the step and the state of the model, and cites
the rules it rests on in OBLIGATIONS.json. -/

open Sys2Proof Sys2Proof.Machine

/-- A step with a command at the front of the queue is that command's effect on the state with the rest of the queue. -/
def Obligations.StepTakesFrontCommand : Prop :=
  ∀ (c : Instr) (rest : List Instr) (s : State),
    step { s with pending := c :: rest } = exec c { s with pending := rest }

/-- R100, R106: the immediate operations. The next state is stated whole: nothing else changes. -/
def Obligations.CoreImmediates : Prop :=
  ∀ (k : TileIx) (rd rs1 : BitVec 5) (imm : BitVec 16) (s : State),
    let t := s.fetched k
    let runs := fun (c : Instr) (u : State) => s.atInsn k c [rs1] → exec c s = .next u
    let a := t.reg rs1
    let result := fun (v : BitVec 64) => s.retires k (t.setReg rd { val := v, mark := a.mark, poison := a.poison })
    runs (.gAddi k rd rs1 imm) (result (a.val + imm.signExtend 64))
      ∧ runs (.gLogicImm k .andi rd rs1 imm) (result (a.val &&& imm.setWidth 64))
      ∧ runs (.gLogicImm k .ori rd rs1 imm) (result (a.val ||| imm.setWidth 64))
      ∧ runs (.gLogicImm k .xori rd rs1 imm) (result (a.val ^^^ imm.setWidth 64))
      ∧ runs (.gLhi k rd rs1 imm) (result (a.val + (imm.signExtend 64 <<< 16)))
      ∧ runs (.gLti k true rd rs1 imm) (result (if a.val.toInt < (imm.signExtend 64).toInt then 1 else 0))
      ∧ runs (.gLti k false rd rs1 imm) (result (if a.val.toNat < (imm.signExtend 64).toNat then 1 else 0))
      ∧ (imm.toNat / 256 ≠ 0 → runs (.gShi k rd rs1 imm) (s.faults k 0 0x01 0))
      ∧ (imm.toNat < 64 → runs (.gShi k rd rs1 imm) (result (a.val <<< imm.toNat)))
      ∧ (imm.toNat / 64 = 1 → runs (.gShi k rd rs1 imm) (result (a.val >>> (imm.toNat % 64))))
      ∧ (imm.toNat / 64 = 2 → runs (.gShi k rd rs1 imm) (result (a.val.sshiftRight (imm.toNat % 64))))
      ∧ (imm.toNat / 64 = 3 → runs (.gShi k rd rs1 imm) (result (a.val.rotateRight (imm.toNat % 64))))

/-- R101, Table 3.4: the base register ALU operations, every func code. -/
def Obligations.CoreAlu : Prop :=
  ∀ (k : TileIx) (rd rs1 rs2 : BitVec 5) (s : State),
    let t := s.fetched k
    let runs := fun (c : Instr) (u : State) => s.atInsn k c [rs1, rs2] → exec c s = .next u
    let a := (t.reg rs1).val
    let b := (t.reg rs2).val
    let result := fun (v : BitVec 64) => (s.retires k (t.setReg rd
      { val := v, mark := (t.reg rs1).mark || (t.reg rs2).mark, poison := (t.reg rs1).poison || (t.reg rs2).poison }))
    let illegal := s.faults k 0 0x01 0
    runs (.baseRegisterAlu k rd rs1 rs2 0x000) (result (a + b))
      ∧ runs (.baseRegisterAlu k rd rs1 rs2 0x001) (result (a - b))
      ∧ runs (.baseRegisterAlu k rd rs1 rs2 0x002) (result (a &&& b))
      ∧ runs (.baseRegisterAlu k rd rs1 rs2 0x003) (result (a ||| b))
      ∧ runs (.baseRegisterAlu k rd rs1 rs2 0x004) (result (a ^^^ b))
      ∧ runs (.baseRegisterAlu k rd rs1 rs2 0x005) (result (a <<< (b.toNat % 64)))
      ∧ runs (.baseRegisterAlu k rd rs1 rs2 0x006) (result (a >>> (b.toNat % 64)))
      ∧ runs (.baseRegisterAlu k rd rs1 rs2 0x007) (result (a.sshiftRight (b.toNat % 64)))
      ∧ runs (.baseRegisterAlu k rd rs1 rs2 0x008) (result (if a.toInt < b.toInt then 1 else 0))
      ∧ runs (.baseRegisterAlu k rd rs1 rs2 0x009) (result (if a.toNat < b.toNat then 1 else 0))
      ∧ runs (.baseRegisterAlu k rd rs1 rs2 0x00A) (result (if a.toInt < b.toInt then a else b))
      ∧ runs (.baseRegisterAlu k rd rs1 rs2 0x00B) (result (if a.toInt < b.toInt then b else a))
      ∧ runs (.baseRegisterAlu k rd rs1 rs2 0x00C) (result (if a.toNat < b.toNat then a else b))
      ∧ runs (.baseRegisterAlu k rd rs1 rs2 0x00D) (result (if a.toNat < b.toNat then b else a))
      ∧ runs (.baseRegisterAlu k rd rs1 rs2 0x00E) (result (a.rotateRight (b.toNat % 64)))
      ∧ runs (.baseRegisterAlu k rd rs1 rs2 0x010) (result (a * b))
      ∧ runs (.baseRegisterAlu k rd rs1 rs2 0x011) (result (BitVec.ofInt 64 (a.toInt * b.toInt / 2 ^ 64)))
      ∧ runs (.baseRegisterAlu k rd rs1 rs2 0x012) (result (BitVec.ofInt 64 (a.toInt * b.toNat / 2 ^ 64)))
      ∧ runs (.baseRegisterAlu k rd rs1 rs2 0x013) (result (BitVec.ofInt 64 (a.toNat * b.toInt / 2 ^ 64)))
      ∧ runs (.baseRegisterAlu k rd rs1 rs2 0x014) (result (BitVec.ofNat 64 (a.toNat * b.toNat / 2 ^ 64)))
      ∧ runs (.baseRegisterAlu k rd rs1 rs2 0x018) (result (BitVec.ofInt 64 (a.toInt.tdiv b.toInt)))
      ∧ runs (.baseRegisterAlu k rd rs1 rs2 0x019) (result (BitVec.ofNat 64 (a.toNat / b.toNat)))
      ∧ runs (.baseRegisterAlu k rd rs1 rs2 0x01A) (result (BitVec.ofInt 64 (a.toInt.tmod b.toInt)))
      ∧ runs (.baseRegisterAlu k rd rs1 rs2 0x01B) (result (BitVec.ofNat 64 (a.toNat % b.toNat)))
      ∧ (rs2 = 0 → runs (.baseRegisterAlu k rd rs1 rs2 0x020) (result (BitVec.ofNat 64 (leadingZeros a))))
      ∧ (rs2 = 0 → runs (.baseRegisterAlu k rd rs1 rs2 0x021) (result (BitVec.ofNat 64 (trailingZeros a))))
      ∧ (rs2 = 0 → runs (.baseRegisterAlu k rd rs1 rs2 0x022) (result (BitVec.ofNat 64 (popCount 64 a.toNat))))
      ∧ (rs2 = 0 → runs (.baseRegisterAlu k rd rs1 rs2 0x023) (result (byteSwap a)))
      ∧ (∀ f ∈ [0x020#11, 0x021#11, 0x022#11, 0x023#11], rs2 ≠ 0 →
          runs (.baseRegisterAlu k rd rs1 rs2 f) illegal)
      ∧ (∀ f : BitVec 11, f.toNat = 0x00F ∨ (0x015 ≤ f.toNat ∧ f.toNat < 0x018) ∨ (0x01C ≤ f.toNat ∧ f.toNat < 0x020)
          ∨ 0x024 ≤ f.toNat → runs (.baseRegisterAlu k rd rs1 rs2 f) illegal)

/-- Table 3.4 and R101's reason: the bit counts and the byte reversal by what they mean, and a = q × b + r for every a and
b, in the signed and the unsigned forms. -/
def Obligations.AluMeansArithmetic : Prop :=
  (∀ a : BitVec 64,
    (leadingZeros a ≤ 64 ∧ (∀ i, 64 - leadingZeros a ≤ i → a.getLsbD i = false)
        ∧ (leadingZeros a < 64 → a.getLsbD (63 - leadingZeros a) = true))
      ∧ (trailingZeros a ≤ 64 ∧ (∀ i, i < trailingZeros a → a.getLsbD i = false)
        ∧ (trailingZeros a < 64 → a.getLsbD (trailingZeros a) = true))
      ∧ popCount 64 a.toNat = ((List.range 64).filter (fun i => a.getLsbD i)).length
      ∧ (∀ j, j < 8 → field (byteSwap a) (8 * j) 8 = field a (8 * (7 - j)) 8))
  ∧ (∀ (k : TileIx) (rd rs1 rs2 : BitVec 5) (s s' q r : State) (signed : Bool), rd ≠ 0 →
    ((s'.fetched k).reg rs1).val = ((s.fetched k).reg rs1).val → ((s'.fetched k).reg rs2).val = ((s.fetched k).reg rs2).val →
    ((s.fetched k).reg rs1).poison = false → ((s.fetched k).reg rs2).poison = false →
    ((s'.fetched k).reg rs1).poison = false → ((s'.fetched k).reg rs2).poison = false →
    s.atInsn k (.baseRegisterAlu k rd rs1 rs2 (if signed then 0x018 else 0x019)) [rs1, rs2] →
    s'.atInsn k (.baseRegisterAlu k rd rs1 rs2 (if signed then 0x01A else 0x01B)) [rs1, rs2] →
    exec (.baseRegisterAlu k rd rs1 rs2 (if signed then 0x018 else 0x019)) s = .next q →
    exec (.baseRegisterAlu k rd rs1 rs2 (if signed then 0x01A else 0x01B)) s' = .next r →
    ((s.tile k).reg rs1).val = ((q.tile k).reg rd).val * ((s.tile k).reg rs2).val + ((r.tile k).reg rd).val)

/-- R102: branches and jumps. -/
def Obligations.CoreBranches : Prop :=
  ∀ (k : TileIx) (rd rs1 : BitVec 5) (imm : BitVec 16) (s : State),
    let t := s.fetched k
    let a := t.reg rd
    let b := t.reg rs1
    let target := t.pc + imm.signExtend 18 * 4
    let far := b.val + imm.signExtend 64 * 4
    let link : GReg := { val := (t.pc + 4).setWidth 64 }
    let goes := fun (op : BrOp) (c : Prop) =>
      (c → s.atInsn k (.branch k op rd rs1 imm) [rd, rs1] → exec (.branch k op rd rs1 imm) s = .next (s.jumps k t target))
        ∧ (¬c → s.atInsn k (.branch k op rd rs1 imm) [rd, rs1] → exec (.branch k op rd rs1 imm) s = .next (s.retires k t))
    let at_ := fun (c : Instr) (reads : List (BitVec 5)) (u : State) => s.atInsn k c reads → exec c s = .next u
    ((t.service = true ∨ (a.mark = false ∧ b.mark = false)) → a.poison = false → b.poison = false →
      goes .eq (a.val = b.val) ∧ goes .ne (a.val ≠ b.val)
        ∧ goes .lt (a.val.toInt < b.val.toInt) ∧ goes .ge (b.val.toInt ≤ a.val.toInt)
        ∧ goes .ltu (a.val.toNat < b.val.toNat) ∧ goes .geu (b.val.toNat ≤ a.val.toNat))
      ∧ (rs1 = 0 → at_ (.jLink k rd rs1 imm) [] (s.jumps k (t.setReg rd link) target))
      ∧ (rs1 ≠ 0 → at_ (.jLink k rd rs1 imm) [] (s.faults k 0 0x01 0))
      ∧ (far.toNat % 4 ≠ 0 → at_ (.jReg k rd rs1 imm) [rs1] (s.faults k 0 0x03 far))
      ∧ (far.toNat % 4 = 0 → (t.service = true ∨ b.mark = false) → b.poison = false →
          at_ (.jReg k rd rs1 imm) [rs1] (s.jumps k (t.setReg rd link) (far.setWidth 18)))

/-- R107, R120: marks and poison never steer the core. -/
def Obligations.MarkedControlFaults : Prop :=
  ∀ (k : TileIx) (rd rs1 rs2 : BitVec 5) (imm : BitVec 16) (func : BitVec 11) (op : BrOp) (s : State),
    let t := s.fetched k
    let a := t.reg rd
    let b := t.reg rs1
    let c := t.reg rs2
    let far := b.val + imm.signExtend 64 * 4
    let at_ := fun (c : Instr) (reads : List (BitVec 5)) (u : State) => s.atInsn k c reads → exec c s = .next u
    (t.service = false → (a.mark || b.mark) = true →
        at_ (.branch k op rd rs1 imm) [rd, rs1] (s.faults k 0 0x07 0))
      ∧ ((t.service = true ∨ (a.mark || b.mark) = false) → (a.poison || b.poison) = true →
        at_ (.branch k op rd rs1 imm) [rd, rs1] (s.faults k 0 0x0C 0))
      ∧ (far.toNat % 4 = 0 → t.service = false → b.mark = true →
        at_ (.jReg k rd rs1 imm) [rs1] (s.faults k 0 0x07 0))
      ∧ (far.toNat % 4 = 0 → (t.service = true ∨ b.mark = false) → b.poison = true →
        at_ (.jReg k rd rs1 imm) [rs1] (s.faults k 0 0x0C 0))
      ∧ (func.toNat < 32 → t.service = false → c.mark = true →
        at_ (.rGet k rd rs1 rs2 func) [rd, rs1, rs2] (s.faults k 0 0x08 0)
          ∧ at_ (.rPut k rd rs1 rs2 func) [rd, rs1, rs2] (s.faults k 0 0x08 0))
      ∧ (func.toNat < 32 → t.service = false → c.mark = false → b.mark = true →
        at_ (.rGet k rd rs1 rs2 func) [rd, rs1, rs2] (s.faults k 0 0x09 b.val)
          ∧ at_ (.rPut k rd rs1 rs2 func) [rd, rs1, rs2] (s.faults k 0 0x09 b.val))

/-- Table 3.3, R106, R116, R119, R120: local loads, each by the bits of the word read. -/
def Obligations.CoreLoads : Prop :=
  ∀ (k : TileIx) (op : LdOp) (rd rs1 : BitVec 5) (imm : BitVec 16) (s : State),
    let t := s.fetched k
    let runs := fun (c : Instr) (u : State) => s.atInsn k c [rs1] → exec c s = .next u
    let addr := (t.reg rs1).val + imm.signExtend 64
    let off := addr.toNat
    let w := t.word (off / 8)
    let v := w.val >>> (8 * (off % 8))
    let value : BitVec 64 := match op with
      | .ld64 => v
      | .ld32s => (v.setWidth 32).signExtend 64
      | .ld32u => (v.setWidth 32).setWidth 64
      | .ld16s => (v.setWidth 16).signExtend 64
      | .ld16u => (v.setWidth 16).setWidth 64
      | .ld8s => (v.setWidth 8).signExtend 64
      | .ld8u => (v.setWidth 8).setWidth 64
    (off % loadSize op ≠ 0 → runs (.ld k op rd rs1 imm) (s.faults k 0 0x03 addr))
      ∧ (off % loadSize op = 0 → 0x30000 ≤ off → runs (.ld k op rd rs1 imm) (s.faults k 0 0x04 addr))
      ∧ (off % loadSize op = 0 → off < 0x30000 → (t.reg rs1).poison = true →
          runs (.ld k op rd rs1 imm) (s.faults k 0 0x0C addr))
      ∧ (off % loadSize op = 0 → off < 0x30000 → (t.reg rs1).poison = false →
          t.mustWait t.seq off (loadSize op) = false →
          runs (.ld k op rd rs1 imm) (s.retires k ((s.touch k t (off / 8)).setReg rd
            { val := value, mark := decide (t.protTop.toNat * 4096 ≤ off), poison := w.poison })))

/-- Table 3.3, R114 to R116, R119: local stores, the stored bytes and the frame. -/
def Obligations.CoreStores : Prop :=
  ∀ (k : TileIx) (op : StOp) (rd rs1 : BitVec 5) (imm : BitVec 16) (s : State),
    let t := s.fetched k
    let runs := fun (c : Instr) (u : State) => s.atInsn k c [rd, rs1] → exec c s = .next u
    let addr := (t.reg rs1).val + imm.signExtend 64
    let off := addr.toNat
    let n := storeSize op
    let d := t.reg rd
    let old := t.word (off / 8)
    let aligned := off % n = 0
    let guarded := t.service = false ∧ off < t.protTop.toNat * 4096
    (¬aligned → runs (.st k op rd rs1 imm) (s.faults k 0 0x03 addr))
      ∧ (aligned → 0x30000 ≤ off → runs (.st k op rd rs1 imm) (s.faults k 0 0x04 addr))
      ∧ (aligned → off < 0x30000 → guarded → runs (.st k op rd rs1 imm) (s.faults k 0 0x06 addr))
      ∧ (aligned → off < 0x30000 → ¬guarded → (t.reg rs1).poison = true →
          runs (.st k op rd rs1 imm) (s.faults k 0 0x0C addr))
      ∧ (aligned → off < 0x30000 → ¬guarded → (t.reg rs1).poison = false → t.mustWait t.seq off n = false →
          ∃ t', runs (.st k op rd rs1 imm) (s.retires k t')
            ∧ (t'.word (off / 8)).poison = (d.poison || (decide (n < 8) && old.poison))
            ∧ ((t'.word (off / 8)).poison = false → ∀ j, j < 8 → field (t'.word (off / 8)).val (8 * j) 8
                = if off % 8 ≤ j ∧ j < off % 8 + n then field d.val (8 * (j - off % 8)) 8 else field old.val (8 * j) 8)
            ∧ (∀ i, i ≠ off / 8 → t'.word i = t.word i)
            ∧ (∀ r, t'.reg r = t.reg r) ∧ t.sameUnits t')

/-- R96, R99, R120, R123 and Table 3.3: what the core does besides arithmetic. -/
def Obligations.CoreSystem : Prop :=
  ∀ (k : TileIx) (s : State),
    let t := s.fetched k
    let pc := (s.tile k).pc.toNat
    let out := 0x30000 ≤ pc ∨ ((s.tile k).service = false ∧ (s.tile k).protTop.toNat * 4096 ≤ pc)
    let runs := fun (c : Instr) (u : State) => s.atInsn k c [] → exec c s = .next u
    (t.service = true → runs (.sysBrk k 0 0 0 0) (s.retires k { t with parked := true }))
      ∧ (t.service = false → runs (.sysBrk k 0 0 0 0) (s.faults k 0 0x01 0))
      ∧ (∀ rd rs1 rs2 func, (rd ≠ 0 ∨ rs1 ≠ 0 ∨ rs2 ≠ 0 ∨ func ≠ 0) →
          runs (.sysBrk k rd rs1 rs2 func) (s.faults k 0 0x01 0)
            ∧ runs (.rFence k rd rs1 rs2 func) (s.faults k 0 0x01 0))
      ∧ (t.remote = [] → (∀ e ∈ t.outbound, e.tally = false) → (∀ e ∈ t.vxQueue, e.kind ≠ .tally) →
          runs (.rFence k 0 0 0 0) (s.retires k t))
      ∧ (∀ w : BitVec 32, (Instr.reservedMajorOpcode k w).wellFormed = true →
          runs (.reservedMajorOpcode k w) (s.faults k 0 0x01 0))
      ∧ (s.canIssue k = true → out → exec (.fetchFault k) s = .next (s.faults k 0 0x05 0))
      ∧ (s.canIssue k = true → ¬out → (s.tile k).fetchWord.poison = true →
          exec (.fetchFault k) s = .next (s.faults k 0 0x0B 0))

/-- R108 and Table 3.3: c.rd, c.xchg, c.set and c.clr. -/
def Obligations.CoreCsrs : Prop :=
  ∀ (k : TileIx) (rd rs1 : BitVec 5) (imm : BitVec 16) (s : State),
    let t := s.fetched k
    let g := t.reg rs1
    let n := imm.toNat
    let at_ := fun (c : Instr) (reads : List (BitVec 5)) (u : State) => s.atInsn k c reads → exec c s = .next u
    (n < 4096 → rs1 = 0 → ∀ v, s.csrRead k t n (!t.service) = some v →
        at_ (.cRd k rd rs1 imm) [] (s.retires k (t.setReg rd { val := v, mark := csrMarked n })))
      ∧ ((4096 ≤ n ∨ rs1 ≠ 0) → at_ (.cRd k rd rs1 imm) [] (s.faults k 0 0x01 0))
      ∧ (∀ c ∈ [Instr.cXchg k rd rs1 imm, .cSet k rd rs1 imm, .cClr k rd rs1 imm],
          (4096 ≤ n → at_ c [rs1] (s.faults k 0 0x01 0))
          ∧ (n < 4096 → s.csrRead k t n (!t.service) = none → at_ c [rs1] (s.faults k 0 0x02 0)))
      ∧ (n = 0x0E2 → g.poison = true →
          ∀ c ∈ [Instr.cXchg k rd rs1 imm, .cSet k rd rs1 imm, .cClr k rd rs1 imm],
            at_ c [rs1] (s.faults k 0 0x0C 0))
      ∧ (n = 0x0E2 → g.poison = false →
          at_ (.cXchg k rd rs1 imm) [rs1] (s.retires k ({ t with srBase := g.val }.setReg rd { val := t.srBase }))
          ∧ at_ (.cSet k rd rs1 imm) [rs1]
            (s.retires k ({ t with srBase := t.srBase ||| g.val }.setReg rd { val := t.srBase }))
          ∧ at_ (.cClr k rd rs1 imm) [rs1]
            (s.retires k ({ t with srBase := t.srBase &&& ~~~g.val }.setReg rd { val := t.srBase })))

/-- R122, R123: the checks of r.get and r.put in order, and their start. -/
def Obligations.RemoteOperations : Prop :=
  ∀ (k : TileIx) (rd rs1 rs2 : BitVec 5) (func : BitVec 11) (s : State), func.toNat < 32 →
    let t := s.fetched k
    let loc := t.reg rd
    let addr := t.reg rs1
    let len := t.reg rs2
    let n := len.val.toNat
    let unmarked := t.service = true ∨ (len.mark = false ∧ addr.mark = false)
    let clean := unmarked ∧ (loc.poison || addr.poison || len.poison) = false
    let short := clean ∧ n ≠ 0 ∧ n ≤ 65536
    let aligned := short ∧ n % 8 = 0 ∧ loc.val.toNat % 8 = 0 ∧ addr.val.toNat % 8 = 0
    let inside := aligned ∧ loc.val.toNat + n ≤ 0x30000
    let guarded := t.service = false ∧ loc.val.toNat < t.protTop.toNat * 4096
    let free := t.remote.length < 16 ∧ t.mustWait t.seq loc.val.toNat n = false
    let access := fun (isGet : Bool) =>
      ({ tile := k, service := t.service, isPut := !isGet, isMsg := false, addr := addr.val, len := n } : Access)
    let sig := if func.toNat / 16 = 1 then some (func.setWidth 4) else none
    let started := fun (isGet : Bool) (t' : Tile) =>
      ∃ ps, ps ≠ [] ∧ t'.inject = t.inject ++ ps
        ∧ t'.remote = t.remote ++ [RemoteOp.mk t.nextRef isGet loc.val.toNat n addr.val sig n]
        ∧ (∀ r, t'.reg r = t.reg r) ∧ t.sameMem t' ∧ t.sameUnits t'
    (∀ c ∈ [Instr.rGet k rd rs1 rs2 func, .rPut k rd rs1 rs2 func], s.atInsn k c [rd, rs1, rs2] →
      (unmarked → (loc.poison || addr.poison || len.poison) = true → exec c s = .next (s.faults k 0 0x0C 0))
        ∧ (clean → 65536 < n → exec c s = .next (s.faults k 2 0x0D 0))
        ∧ (short → n % 8 ≠ 0 → exec c s = .next (s.faults k 2 0x03 0))
        ∧ (short → n % 8 = 0 → loc.val.toNat % 8 ≠ 0 → exec c s = .next (s.faults k 2 0x03 loc.val))
        ∧ (short → n % 8 = 0 → loc.val.toNat % 8 = 0 → addr.val.toNat % 8 ≠ 0 →
            exec c s = .next (s.faults k 2 0x03 addr.val))
        ∧ (aligned → 0x30000 < loc.val.toNat + n → exec c s = .next (s.faults k 2 0x04 loc.val))
        ∧ (clean → n = 0 → exec c s = .next (s.retires k (s.remoteDone k (t.count 8 1) sig))))
      ∧ (s.atInsn k (.rGet k rd rs1 rs2 func) [rd, rs1, rs2] → inside → guarded →
          exec (.rGet k rd rs1 rs2 func) s = .next (s.faults k 2 0x06 loc.val))
      ∧ (s.atInsn k (.rGet k rd rs1 rs2 func) [rd, rs1, rs2] → inside → ¬guarded → free → s.addrError (access true) = false →
          ∃ t', exec (.rGet k rd rs1 rs2 func) s = .next (s.retires k t') ∧ started true t')
      ∧ (s.atInsn k (.rPut k rd rs1 rs2 func) [rd, rs1, rs2] → inside → free → s.addrError (access false) = false →
          ∃ t', exec (.rPut k rd rs1 rs2 func) s = .next (s.retires k t') ∧ started false t')

/-- R112, R117, R127: the steps of local memory and the clearing of a tile's cause. -/
def Obligations.LocalMemorySteps : Prop :=
  ∀ (k : TileIx) (s : State),
    let t := s.tile k
    (∀ w, s.runs k → w < 24576 → w ∈ t.ceFound → ∃ t', exec (.ceWriteback k w) s = .next (s.engineStep k t')
        ∧ (getD {} t'.mem w).ecc = .good ∧ w ∉ t'.ceFound ∧ (∀ i, i ≠ w → t'.word i = t.word i))
      ∧ (s.runs k → ∃ t', exec (.memScrub k) s = .next (s.engineStep k t') ∧ t.sameMem t'
        ∧ t'.scrubLine = (t.scrubLine + 1) % 1536 ∧ (∀ r, t'.reg r = t.reg r) ∧ t.sameUnits t')
      ∧ (s.present k = true →
        exec (.fcTileCauseClear k) s = .next (s.setTile k { t with fcValid := false, fcCount := 0 }))

/-- R127, R128: what a tile fault records. -/
def Obligations.TileFaultRecord : Prop :=
  ∀ (s : State) (k : Nat) (t : Tile) (unit cause : Nat) (pc : BitVec 18) (addr : BitVec 64),
    let f := s.tileFault k t unit cause pc addr
    f.parked = true ∧ f.wait = .none ∧ f.raised.length = t.raised.length + 1 ∧ f.fcValid = true
      ∧ f.pc = t.pc ∧ f.instret = t.instret ∧ (∀ r, f.reg r = t.reg r) ∧ f.mem = t.mem ∧ t.sameUnits f
      ∧ (t.fcValid = false → f.fcMode = t.service ∧ f.fcUnit = BitVec.ofNat 8 unit ∧ f.fcCause = BitVec.ofNat 8 cause
          ∧ f.fcPc = pc ∧ f.fcAddr = addr ∧ f.fcCount = t.fcCount)
      ∧ (t.fcValid = true → f.fcMode = t.fcMode ∧ f.fcUnit = t.fcUnit ∧ f.fcCause = t.fcCause ∧ f.fcPc = t.fcPc
          ∧ f.fcAddr = t.fcAddr
          ∧ f.fcCount = if t.fcCount = 0xFFFF then t.fcCount else t.fcCount + 1)

/-- The frame of the operations that write one general register at most. -/
def Obligations.RegisterOnlyFrame : Prop :=
  ∀ (k : TileIx) (rd rs1 rs2 : BitVec 5) (imm : BitVec 16) (func : BitVec 11) (lop : LogicImm) (lt : Bool) (ld : LdOp)
    (br : BrOp) (c : Instr) (s t : State),
    c ∈ [Instr.baseRegisterAlu k rd rs1 rs2 func, .gAddi k rd rs1 imm, .gLogicImm k lop rd rs1 imm, .gShi k rd rs1 imm,
      .gLhi k rd rs1 imm, .gLti k lt rd rs1 imm, .cRd k rd rs1 imm, .ld k ld rd rs1 imm, .branch k br rd rs1 imm,
      .jLink k rd rs1 imm, .jReg k rd rs1 imm] →
    exec c s = .next t →
    s.sameFrame t ∧ s.otherTiles t k ∧ (s.tile k).sameMem (t.tile k) ∧ (s.tile k).sameUnits (t.tile k)
      ∧ (∀ r, r ≠ rd ∨ c = .branch k br rd rs1 imm → (t.tile k).reg r = (s.tile k).reg r)

/-- R139, R140, R142: what the core hands to the matrix unit. -/
def Obligations.MatrixIssue : Prop :=
  ∀ (k : TileIx) (f : VFields) (s : State),
    let t := s.fetched k
    let a := (t.reg f.vs1).val
    let room := t.mxQueued < 8
    let enters := fun (op : MxOp) (bad : Bool) => Host.Outcome.next (s.retires k
      { t with mxQueue := t.mxQueue ++ [MxEntry.mk op t.pc t.seq false 0 bad], seq := t.seq + 1 })
    let ready := fun (c : Instr) => s.atInsn k c [f.vs1] ∧ room
    let p := (t.reg f.vs1).poison
    let b := decide (f.vd.toNat % 2 = 1)
    let small := f.vd.toNat < 4 ∧ f.vs1.toNat < 2 ∧ f.vs2.toNat < 2 ∧ f.fmt = 0 ∧ f.mask = 0
    (∀ fmt, ready (.mxLda k f) → loadFormat f.fmt = some fmt → f.mask = 0 → f.vd.toNat < 8 → f.vs2 = 0 →
        exec (.mxLda k f) s = enters (.lda b (f.vd.toNat / 2) false fmt a 0) p)
      ∧ (∀ fmt, s.atInsn k (.mxLda k f) [f.vs1, f.vs2] → room → loadFormat f.fmt = some fmt → f.mask = 1 → f.vd.toNat < 2 →
        exec (.mxLda k f) s = enters (.lda b 0 true fmt a (t.reg f.vs2).val) (p || (t.reg f.vs2).poison))
      ∧ (∀ fmt, ready (.mxLdb k f) → loadFormat f.fmt = some fmt → f.mask.toNat < 2 → f.vd.toNat < 2 → f.vs2 = 0 →
        exec (.mxLdb k f) s = enters (.ldb b (f.mask == 1) fmt a) p)
      ∧ (∀ fmt, ready (.mxLdat k f) → loadFormat f.fmt = some fmt → f.mask.toNat < 4 → f.vd.toNat < 2 → f.vs2 = 0 →
        exec (.mxLdat k f) s = enters (.ldat b (decide (f.mask.toNat % 2 = 1)) (decide (2 ≤ f.mask.toNat)) fmt a) p)
      ∧ (∀ fmt, ready (.mxSta k f) → staFormat f.fmt = some fmt → f.vd.toNat < 4 → f.vs2 = 0 → f.mask = 0 →
        exec (.mxSta k f) s = enters (.sta f.vd.toNat fmt a) p)
      ∧ (∀ mv, let c := if mv then Instr.mxMmv k f else .mxMma k f
        s.atInsn k c [] →
        (small → room → exec c s = enters (.mma mv f.vd.toNat (f.vs1 == 1) (f.vs2 == 1)) false)
          ∧ (small → ¬room → exec c s = .next s)
          ∧ (¬small → exec c s = .next (s.faults k 0 0x01 0)))
      ∧ (s.atInsn k (.mxZero k f) [] → f = VFields.mk f.vd 0 0 0 0 → f.vd.toNat < 4 → room →
        exec (.mxZero k f) s = enters (.zero f.vd.toNat) false)
      ∧ (s.atInsn k (.mxWait k f) [] → f = VFields.mk 0 0 0 0 0 →
        (t.mxQueue = [] → exec (.mxWait k f) s = .next (s.retires k t))
          ∧ (t.mxQueue ≠ [] → exec (.mxWait k f) s = .next s))

/-- R134, R140, R143: the loader and the array, for a queue of one entry. -/
def Obligations.MatrixUnitSteps : Prop :=
  ∀ (k : TileIx) (s : State) (e : MxEntry), s.runs k → (s.tile k).mxQueue = [e] → (s.tile k).vxQueue = [] →
    let t := s.tile k
    let slot := fun (b : Bool) => if b then 1 else 0
    (∀ buf q fmt a0 a1 h, e.op = .lda buf q false fmt a0 a1 → e.bad = false → a0.toNat % 8 = 0 →
        (t.word (a0.toNat / 8)).poison = false → parseHead (t.word (a0.toNat / 8)).val fmt = some h →
        a0.toNat + h.size fmt ≤ 0x30000 →
        ∃ t' b, exec (.mxLoadRun k) s = .next (s.engineStep k t') ∧ t'.mxQueue = []
          ∧ getD none t'.aBufs (slot buf) = some b ∧ b.mv = false ∧ b.fmt = fmt ∧ b.s = h.s ∧ b.group = h.group
          ∧ b.rows.length = 8 ∧ (∀ i, i < 8 → (b.rows[i]?).map (·.valid) = some (decide (8 * q + i < h.rowsValid)))
          ∧ t'.bBufs = t.bBufs ∧ t'.banks = t.banks ∧ t.sameMem t' ∧ (∀ r, t'.reg r = t.reg r))
      ∧ (∀ buf q fmt a0 a1, e.op = .lda buf q false fmt a0 a1 → e.bad = true → a0.toNat % 8 = 0 →
        a0.toNat + 8 ≤ 0x30000 →
        exec (.mxLoadRun k) s = .next (s.engineStep k (s.tileFault k { t with mxQueue := [] } 4 0x0C e.pc a0)))
      ∧ (∀ buf q fmt a0 a1, e.op = .lda buf q false fmt a0 a1 → e.bad = false → a0.toNat % 8 = 0 →
        a0.toNat + 8 ≤ 0x30000 →
        (t.word (a0.toNat / 8)).poison = false → parseHead (t.word (a0.toNat / 8)).val fmt = none →
        exec (.mxLoadRun k) s = .next (s.engineStep k (s.tileFault k { t with mxQueue := [] } 4 0x20 e.pc a0)))
      ∧ (∀ mv bank x y a b, e.op = .mma mv bank x y → e.running = false → getD none t.aBufs (slot x) = some a →
        getD none t.bBufs (slot y) = some b → a.mv = mv → b.mv = mv → b.span = 32 * a.s → formatsPair a.fmt b.fmt = true →
        exec (.mxComputeStart k) s = .next (s.engineStep k
          { t with mxQueue := [{ e with running := true, index := t.opIndex.toNat }], opIndex := t.opIndex + 1 }))
      ∧ (∀ mv bank x y, e.op = .mma mv bank x y → e.running = false →
        (getD none t.aBufs (slot x) = none ∨ getD none t.bBufs (slot y) = none) →
        exec (.mxComputeStart k) s = .next (s.engineStep k (s.tileFault k { t with mxQueue := [] } 4 0x21 e.pc 0)))
      ∧ (∀ bank miss, e.op = .zero bank → e.running = true →
        ∃ t', exec (.mxComputeDone k miss) s = .next (s.engineStep k t') ∧ t'.mxQueue = []
          ∧ (∀ i, i < 64 → t'.acc bank i = {}) ∧ (∀ c i, c ≠ bank → i < 64 → t'.acc c i = t.acc c i)
          ∧ t'.mem = t.mem ∧ t'.regs = t.regs ∧ t'.opIndex = t.opIndex)
      ∧ (∀ mv bank x y a b miss, e.op = .mma mv bank x y → e.running = true → getD none t.aBufs (slot x) = some a →
        getD none t.bBufs (slot y) = some b → bank < 4 → a.rows.length ≤ (if a.mv then 64 else 8) → b.cols.length ≤ 8 →
        (a.mv = true → b.cols.length ≤ 1) →
        ∃ t', exec (.mxComputeDone k miss) s = .next (s.engineStep k t') ∧ t'.mxQueue = []
          ∧ t'.banks = (t.applyOp bank a b).banks ∧ (∀ c i, c ≠ bank → c < 4 → i < 64 → t'.acc c i = t.acc c i)
          ∧ t'.mem = t.mem ∧ t'.regs = t.regs ∧ t'.aBufs = t.aBufs ∧ t'.bBufs = t.bBufs)

/-- R196: the queue of the vector engine; R194, R212: two checks at the start of its head. -/
def Obligations.VectorIssue : Prop :=
  (∀ (k : TileIx) (f : VFields) (b16 bf16 fit one isMax : Bool) (mop : MaskOp) (aop : ArithOp) (sop : SignOp)
      (lop : LaneLogic) (hop : ShiftOp) (cop : CmpOp) (fop : FnOp) (kind : VxKind) (c : Instr) (s : State),
    (c, kind) ∈ [(Instr.vxLd k false f, VxKind.ld), (.vxSt k false f, .st), (.vxLds k false f, .lds),
      (.vxSts k false f, .sts), (.vxLdx k false f, .ldx), (.vxStx k false f, .stx), (.vxSplat k false f, .splat),
      (.vxMov k false f, .mov), (.vxSetvl k false f, .setvl), (.vxAcc k false f, .acc),
      (.vxMaskLogic k false mop f, .maskLogic mop), (.vxMnot k false f, .mnot), (.vxMfromg k false f, .mfromg),
      (.vxMfirst k false f, .mfirst), (.vxCvt k false f, .cvt), (.vxLdw k false f, .ldw), (.vxStn k false f, .stn),
      (.vxDequant k false b16 f, .dequant b16), (.vxQuant k false bf16 b16 fit f, .quant bf16 b16 fit),
      (.vxArith k false aop f, .arith aop), (.vxMinmax k false isMax f, .minmax isMax), (.vxSign k false sop f, .sign sop),
      (.vxLogic k false lop f, .logic lop), (.vxShift k false hop f, .shift hop), (.vxRsum k false f, .rsum),
      (.vxCompare k false cop f, .compare cop), (.vxSel k false f, .sel), (.vxFunction k false fop f, .function fop),
      (.vxPerm k false f, .perm), (.vxShuf k false f, .shuf), (.vxPack k false f, .pack), (.vxUnpack k false f, .unpack),
      (.vxPack2of4 k false one f, .pack2of4 one), (.vxExpand k false one f, .expand one), (.vxAny k false f, .any),
      (.vxAll k false f, .all), (.vxRedg k false f, .redg), (.vxLane k false f, .lane), (.vxMtog k false f, .mtog),
      (.vxTally k false f, .tally), (.vxBandedit k false f, .bandedit), (.vxJw k false f, .jw), (.vxQsig k false f, .qsig),
      (.vxPopcnt k false f, .popcnt), (.nzGeom k false f, .geom), (.nzDgauss k false f, .dgauss)] →
    s.atInsn k c (vxReads kind f) →
    let t := s.fetched k
    (vxIssueCause kind f t = none → t.vxQueue.length < 8 →
        exec c s = .next (s.retires k (t.enqueueVx kind f)) ∧ (t.enqueueVx kind f).vxQueue.length = t.vxQueue.length + 1)
      ∧ (vxIssueCause kind f t = none → 8 ≤ t.vxQueue.length → exec c s = .next s)
      ∧ (vxIllegal kind f = true → exec c s = .next (s.faults k 0 0x01 0)))
  ∧ (∀ (k : TileIx) (s : State) (e : VxEntry) (rest : List VxEntry) (fmt : Format), s.runs k →
      (s.tile k).vxQueue = e :: rest → (s.tile k).mxQueue = [] → Format.ofCode e.f.fmt = some fmt →
      let t := s.tile k
      (∀ op, e.kind = .logic op → laneInt fmt = true → t.shape = false →
          ∃ t', exec (.vxInstrStart k) s = .next (s.engineStep k t') ∧ t'.vxQueue = rest
            ∧ t.lanesBecome t' e.f fmt (fun j => let p := t.twoLanes e.f fmt j; (logicLane op p.1.1 p.1.2, p.2)))
        ∧ (∀ op, e.kind = .logic op → laneInt fmt = true → t.shape = true →
          ∃ t', exec (.vxInstrStart k) s = .next (s.engineStep k t') ∧ t'.vxQueue = [] ∧ t'.parked = true
            ∧ (t.fcValid = false → t'.fcUnit = 5 ∧ t'.fcCause = 0x40 ∧ t'.fcPc = e.pc)))

/-- Table 6.4: moves, the vector length, masks and selections. -/
def Obligations.VectorMovesAndMasks : Prop :=
  ∀ (k : TileIx) (f : VFields) (fmt : Format) (s : State),
    let t := s.fetched k
    let g := t.reg f.vs1
    let m1 := t.mreg (f.vs1.toNat % 8)
    let m2 := t.mreg (f.vs2.toNat % 8)
    let md := f.vd.toNat
    let gives := fun (c : Instr) (reads : List (BitVec 5)) (v p : BitVec 64) => s.atVector k c reads →
      ∃ t', exec c s = .next (s.retires k t') ∧ t'.mreg md = ⟨v, p⟩ ∧ t.maskOnly t' md
    let ok := Format.ofCode f.fmt = some fmt ∧ fmt.hasLanes = true
    let noFields := f.fmt = 0 ∧ f.mask = 0 ∧ f.vd.toNat < 8 ∧ f.vs1.toNat < 8 ∧ f.vs2.toNat < 8
    (s.atVector k (.vxSplat k true f) [f.vs1] → ok → ∃ t', exec (.vxSplat k true f) s = .next (s.retires k t')
        ∧ t.lanesBecome t' f fmt (fun _ => (g.val.toNat, g.poison)) ∧ t.vectorOnly t' f.vd)
      ∧ (s.atVector k (.vxMov k true f) [] → ok → ∃ t', exec (.vxMov k true f) s = .next (s.retires k t')
        ∧ t.lanesBecome t' f fmt (fun j => (t.vreg f.vs1.toNat).lane fmt.width j) ∧ t.vectorOnly t' f.vd)
      ∧ (s.atVector k (.vxAcc k true f) [] → f.fmt = 0 → f.vs1.toNat < 16 → ∃ t', exec (.vxAcc k true f) s = .next (s.retires k t')
        ∧ t.lanesBecome t' f .fp32 (fun j =>
            let a := t.acc (f.vs1.toNat % 4) (16 * (f.vs1.toNat / 4) + j)
            (a.bits.toNat, a.poison)) ∧ t.vectorOnly t' f.vd)
      ∧ (s.atVector k (.vxSetvl k true f) [f.vs1] → f.fmt = 0 → f.mask = 0 → (t.service = true ∨ g.mark = false) → g.poison = false →
        f.vd ≠ 0 → ∃ t', exec (.vxSetvl k true f) s = .next (s.retires k t') ∧ t'.vl = min g.val.toNat 64
          ∧ t'.reg f.vd = ⟨BitVec.ofNat 64 (min g.val.toNat 64), true, false⟩ ∧ (∀ r, r ≠ f.vd → t'.reg r = t.reg r)
          ∧ t'.vregs = t.vregs ∧ t'.mregs = t.mregs ∧ t.sameMem t')
      ∧ (noFields → gives (.vxMaskLogic k true .mand f) [] (m1.bits &&& m2.bits) (m1.poison ||| m2.poison)
        ∧ gives (.vxMaskLogic k true .mor f) [] (m1.bits ||| m2.bits) (m1.poison ||| m2.poison)
        ∧ gives (.vxMaskLogic k true .mxor f) [] (m1.bits ^^^ m2.bits) (m1.poison ||| m2.poison)
        ∧ gives (.vxMaskLogic k true .mandn f) [] (m1.bits &&& ~~~m2.bits) (m1.poison ||| m2.poison)
        ∧ gives (.vxMnot k true f) [] (~~~m1.bits) m1.poison)
      ∧ (f.fmt = 0 → f.mask = 0 → f.vd.toNat < 8 →
        gives (.vxMfromg k true f) [f.vs1] g.val (if g.poison then BitVec.allOnes 64 else 0))
      ∧ (ok → f.mask = 0 → f.vd.toNat < 8 →
        gives (.vxMfirst k true f) [] (BitVec.ofNat 64 (2 ^ (min t.vl fmt.lanes) - 1)) 0)
      ∧ (∀ op, s.atVector k (.vxCompare k true op f) [] → ok → arithFormat fmt = true → t.shape = false → f.vd.toNat < 8 →
        ∃ t', exec (.vxCompare k true op f) s = .next (s.retires k t') ∧ t.maskOnly t' md
          ∧ (∀ j, j < 64 →
            let p := t.twoLanes f fmt j
            (t'.mreg md).bit j = (if t.active f.mask fmt.lanes j && decide (j < fmt.lanes)
              then (compareLane op fmt p.1.1 p.1.2).1 else (t.mreg md).bit j)
            ∧ (t'.mreg md).bad j = (if t.active f.mask fmt.lanes j && decide (j < fmt.lanes)
              then p.2 || t.maskBad f.mask j else (t.mreg md).bad j)))
      ∧ (s.atVector k (.vxSel k true f) [] → ok → t.shape = false → f.mask ≠ 0 → ∃ t', exec (.vxSel k true f) s = .next (s.retires k t')
        ∧ t.vectorOnly t' f.vd
        ∧ (∀ j, j < fmt.lanes → (t'.vreg f.vd.toNat).lane fmt.width j =
          if decide (j < t.vl) then
            let l := if (t.mreg f.mask.toNat).bit j then (t.vreg f.vs1.toNat).lane fmt.width j
              else (t.vreg f.vs2.toNat).lane fmt.width j
            (l.1, l.2 || (t.mreg f.mask.toNat).bad j)
          else (t.vreg f.vd.toNat).lane fmt.width j))

/-- Table 6.4: the arithmetic of lanes. -/
def Obligations.VectorArithmetic : Prop :=
  ∀ (k : TileIx) (f : VFields) (fmt : Format) (s : State), Format.ofCode f.fmt = some fmt →
    (s.fetched k).shape = false →
    let t := s.fetched k
    let gives := fun (c : Instr) (out : Nat → Nat × Bool) => s.atVector k c [] → ∃ t', exec c s = .next (s.retires k t')
      ∧ t.lanesBecome t' f fmt out ∧ t.vectorOnly t' f.vd
    let two := fun (g : Nat → Nat → Nat) (j : Nat) => let p := t.twoLanes f fmt j; (g p.1.1 p.1.2, p.2)
    let one := fun (g : Nat → Nat) (j : Nat) => let a := (t.vreg f.vs1.toNat).lane fmt.width j; (g a.1, a.2)
    (arithFormat fmt = true →
        gives (.vxArith k true .add f) (two fun a b => (arithLane .add fmt a b 0).1)
        ∧ gives (.vxArith k true .sub f) (two fun a b => (arithLane .sub fmt a b 0).1)
        ∧ gives (.vxArith k true .mul f) (two fun a b => (arithLane .mul fmt a b 0).1)
        ∧ gives (.vxArith k true .fma f) (fun j =>
            let p := t.twoLanes f fmt j
            let c := (t.vreg f.vd.toNat).lane fmt.width j
            ((arithLane .fma fmt p.1.1 p.1.2 c.1).1, p.2 || c.2))
        ∧ (∀ isMax, gives (.vxMinmax k true isMax f) (two fun a b => (minmaxLane isMax fmt a b).1))
        ∧ gives (.vxSign k true .abs f) (one fun a => (signLane .abs fmt a 0).1)
        ∧ gives (.vxSign k true .neg f) (one fun a => (signLane .neg fmt a 0).1)
        ∧ gives (.vxSign k true .csgn f) (two fun a b => (signLane .csgn fmt a b).1))
      ∧ (laneInt fmt = true →
        (∀ op, gives (.vxLogic k true op f) (two (logicLane op)))
        ∧ (∀ op, gives (.vxShift k true op f) (two (shiftLane op fmt.width)))
        ∧ gives (.vxPopcnt k true f) (one (popCount fmt.width)))
      ∧ (fmt = .fp32 → ∀ op, gives (.vxFunction k true op f) (one fun a => (evalFn (fnOf op) a).1))

/-- R170: the integer formats, as bit vectors of the lane width. -/
def Obligations.IntegerLanesWrap : Prop :=
  ∀ (fmt : Format), laneInt fmt = true → ∀ a b c : BitVec fmt.width,
    (arithLane .add fmt a.toNat b.toNat 0).1 = (a + b).toNat
      ∧ (arithLane .sub fmt a.toNat b.toNat 0).1 = (a - b).toNat
      ∧ (arithLane .mul fmt a.toNat b.toNat 0).1 = (a * b).toNat
      ∧ (arithLane .fma fmt a.toNat b.toNat c.toNat).1 = (a * b + c).toNat
      ∧ (minmaxLane false fmt a.toNat b.toNat).1 = (if a.toInt < b.toInt then a else b).toNat
      ∧ (minmaxLane true fmt a.toNat b.toNat).1 = (if a.toInt < b.toInt then b else a).toNat
      ∧ (signLane .neg fmt a.toNat 0).1 = (-a).toNat
      ∧ (signLane .abs fmt a.toNat 0).1 = (if a.toInt < 0 then -a else a).toNat
      ∧ shiftLane .shl fmt.width a.toNat b.toNat = (a <<< (b.toNat % fmt.width)).toNat
      ∧ shiftLane .shr fmt.width a.toNat b.toNat = (a >>> (b.toNat % fmt.width)).toNat
      ∧ shiftLane .sra fmt.width a.toNat b.toNat = (a.sshiftRight (b.toNat % fmt.width)).toNat

/-- R208 to R211: the shape operations. -/
def Obligations.VectorShapes : Prop :=
  ∀ (k : TileIx) (f : VFields) (fmt : Format) (s : State), Format.ofCode f.fmt = some fmt →
    fmt.hasLanes = true → (s.fetched k).shape = true →
    let t := s.fetched k
    let v1 := t.vreg f.vs1.toNat
    let v2 := t.vreg f.vs2.toNat
    let w := fmt.width
    let n := fmt.lanes
    let gives := fun (c : Instr) (out : Nat → Nat × Bool) => s.atVector k c [] → ∃ t', exec c s = .next (s.retires k t')
      ∧ t.lanesBecome t' f fmt out ∧ t.vectorOnly t' f.vd
    gives (.vxPerm k true f) (fun j =>
        let i := v2.lane w j
        ((v1.lane w (i.1 % n)).1, (v1.lane w (i.1 % n)).2 || i.2))
      ∧ (f.vs2 = 0 → gives (.vxShuf k true f) (fun j => v1.lane w (n - 1 - j)))
      ∧ (f.vs2 = 1 → gives (.vxShuf k true f) (fun j => v1.lane w (j ^^^ 1)))
      ∧ (f.vs2 = 2 → gives (.vxShuf k true f) (fun j => v1.lane w (j ^^^ 2)))
      ∧ (f.vs2 = 3 → gives (.vxShuf k true f) (fun j => v1.lane w (j ^^^ 4)))
      ∧ (f.vs2 = 4 → gives (.vxShuf k true f) (fun j => v1.lane w (j ^^^ (n / 2))))
      ∧ gives (.vxPack k true f) (fun j => if j < n / 2 then v1.lane w (2 * j) else v2.lane w (2 * (j - n / 2)))
      ∧ gives (.vxUnpack k true f) (fun j => if j % 2 = 0 then v1.lane w (j / 2) else v2.lane w (j / 2))
      ∧ (∀ one, s.atVector k (.vxPack2of4 k true one f) [] → shapeFormat fmt = true → ∃ t', exec (.vxPack2of4 k true one f) s = .next (s.retires k t')
          ∧ (∀ i, i < 32 → i ≠ f.vd.toNat → t'.vreg i = t.vreg i) ∧ (∀ i, i ≠ f.mask.toNat → t'.mreg i = t.mreg i)
          ∧ t.sameMem t' ∧ (∀ r, t'.reg r = t.reg r)
          ∧ (∀ j, n * (if one then 1 else 2) / 4 ≤ j → j < n → (t'.vreg f.vd.toNat).lane w j = (0, false)))
      ∧ (∀ one, s.atVector k (.vxExpand k true one f) [] → shapeFormat fmt = true → ∃ t', exec (.vxExpand k true one f) s = .next (s.retires k t')
          ∧ t.vectorOnly t' f.vd
          ∧ (∀ j, j < n → (∀ i, i < n * (if one then 1 else 2) / 4 →
              4 * (i / (if one then 1 else 2)) + field (t.mreg f.mask.toNat).bits (2 * i) 2 ≠ j) →
            (t'.vreg f.vd.toNat).lane w j = (0, false)))

/-- R199 to R202: memory access and conversions of the vector engine. -/
def Obligations.VectorMemory : Prop :=
  ∀ (k : TileIx) (f : VFields) (fmt : Format) (s : State), Format.ofCode f.fmt = some fmt →
    let t := s.fetched k
    let g1 := t.reg f.vs1
    let g2 := t.reg f.vs2
    let b := fmt.width / 8
    let entry := fun (kind : VxKind) => vxEntry kind f t
    let outside := fun (kind : VxKind) (i : Nat) => ∀ j, t.active f.mask fmt.lanes j = true →
      ∀ n, n < b → ((t.laneOffset (entry kind) fmt j).toNat + n) / 8 ≠ i
    let loads := fun (c : Instr) (off : Nat → BitVec 64) => ∃ t', exec c s = .next (s.retires k t')
      ∧ t.lanesBecome t' f fmt (fun j => t.bytesAt (off j).toNat b) ∧ t.vectorOnly t' f.vd
    let keeps := fun (c : Instr) (out : Nat → Prop) => ∃ t', exec c s = .next (s.retires k t')
      ∧ (∀ i, out i → t'.word i = t.word i) ∧ (∀ r, t'.reg r = t.reg r) ∧ t'.mregs = t.mregs ∧ t'.vxQueue = []
    (s.atVector k (.vxLd k true f) [f.vs1] → fmt.hasLanes = true → g1.poison = false → t.accessCause (entry .ld) fmt = none →
        loads (.vxLd k true f) (fun j => g1.val + BitVec.ofNat 64 (j * b)))
      ∧ (s.atVector k (.vxLd k true f) [f.vs1] → fmt.hasLanes = true → g1.poison = false → g1.val.toNat % 64 ≠ 0 →
        ∃ t', exec (.vxLd k true f) s = .next (s.retires k t') ∧ t'.parked = true
          ∧ (t.fcValid = false → t'.fcUnit = 5 ∧ t'.fcCause = 0x03 ∧ t'.fcAddr = g1.val))
      ∧ (s.atVector k (.vxLds k true f) [f.vs1, f.vs2] → fmt.hasLanes = true → t.accessCause (entry .lds) fmt = none →
        loads (.vxLds k true f) (fun j => g1.val + BitVec.ofNat 64 j * g2.val))
      ∧ (s.atVector k (.vxLdx k true f) [f.vs1] → fmt.hasLanes = true → 32 ≤ fmt.width → t.accessCause (entry .ldx) fmt = none →
        loads (.vxLdx k true f) (fun j => t.laneOffset (entry .ldx) fmt j))
      ∧ (s.atVector k (.vxSt k true f) [f.vs1] → fmt.hasLanes = true → g1.poison = false → t.accessCause (entry .st) fmt = none →
        keeps (.vxSt k true f) (outside .st) ∧ ∃ t', exec (.vxSt k true f) s = .next (s.retires k t') ∧ t'.vregs = t.vregs)
      ∧ (s.atVector k (.vxSts k true f) [f.vs1, f.vs2] → fmt.hasLanes = true → t.accessCause (entry .sts) fmt = none →
        keeps (.vxSts k true f) (outside .sts))
      ∧ (s.atVector k (.vxStx k true f) [f.vs1] → fmt.hasLanes = true → t.accessCause (entry .stx) fmt = none →
        keeps (.vxStx k true f) (outside .stx))
      ∧ (s.atVector k (.vxLdw k true f) [f.vs1] → f.mask = 0 → g1.poison = false → packedFormat fmt = true → g1.val.toNat % 8 = 0 →
        g1.val.toNat + 64 ≤ 0x30000 → keeps (.vxLdw k true f) (fun _ => True))
      ∧ (s.atVector k (.vxStn k true f) [f.vs1] → f.mask = 0 → g1.poison = false → packedFormat fmt = true → g1.val.toNat % 8 = 0 →
        g1.val.toNat + 64 ≤ 0x30000 →
        keeps (.vxStn k true f) (fun i => i < g1.val.toNat / 8 ∨ g1.val.toNat / 8 + 8 ≤ i))
      ∧ (∀ src, s.atVector k (.vxCvt k true f) [] → f.vs2.toNat < 16 → Format.ofCode (f.vs2.setWidth 4) = some src → f.mask = 0 →
        fmt.hasLanes = true → src.hasLanes = true →
        keeps (.vxCvt k true f) (fun _ => True) ∧ ∃ t', exec (.vxCvt k true f) s = .next (s.retires k t')
          ∧ (∀ j, j < min t.vl (min fmt.lanes src.lanes) → (src.isInt = false ∨ fmt.isInt = false) →
            let l := (t.vreg f.vs1.toNat).lane src.width j
            (t'.vreg f.vd.toNat).lane fmt.width j = ((convertElem src fmt .rne false l.1).1 % 2 ^ fmt.width, l.2)))
      ∧ (s.atVector k (.vxDequant k true true f) [f.vs1, f.vs2] → fmt.isMx = true → (g1.poison || g2.poison) = false → g1.val.toNat % 8 = 0 →
        g1.val.toNat + 32 ≤ 0x30000 → g2.val.toNat < 0x30000 → keeps (.vxDequant k true true f) (fun _ => True))
      ∧ (s.atVector k (.vxQuant k true false true false f) [f.vd, f.vs2] → fmt.isMx = true → f.mask = 0 → ((t.reg f.vd).poison || g2.poison) = false →
        (t.reg f.vd).val.toNat % 8 = 0 → (t.reg f.vd).val.toNat + 16 ≤ 0x30000 → g2.val.toNat < 0x30000 →
        keeps (.vxQuant k true false true false f) (fun i => i ≠ g2.val.toNat / 8
          ∧ (i < (t.reg f.vd).val.toNat / 8 ∨ (t.reg f.vd).val.toNat / 8 + 2 ≤ i)))

/-- R204, R212, R390, R402, R405: results that leave the lanes, tallies, noise and linkage. -/
def Obligations.VectorSummariesAndLinkage : Prop :=
  ∀ (k : TileIx) (f : VFields) (fmt : Format) (s : State), Format.ofCode f.fmt = some fmt → (s.fetched k).shape = false →
    let t := s.fetched k
    let v1 := t.vreg f.vs1.toNat
    let active := t.active f.mask fmt.lanes
    let summary := fun (c : Instr) (reads : List (BitVec 5)) (v : Nat) (bad : Bool) => s.atVector k c reads → ∃ t', exec c s = .next (s.retires k t')
      ∧ t'.reg f.vd = ⟨if bad then 0 else BitVec.ofNat 64 v, true, bad⟩ ∧ (∀ r, r ≠ f.vd → t'.reg r = t.reg r)
      ∧ t'.vregs = t.vregs ∧ t'.mregs = t.mregs ∧ t.sameMem t' ∧ t'.vxQueue = []
    let some2 := fun (c : Instr) (g : Nat → Nat × Bool) => s.atVector k c [] → ∃ t', exec c s = .next (s.retires k t') ∧ t.vectorOnly t' f.vd
      ∧ (∀ j, j < fmt.lanes → (t'.vreg f.vd.toNat).lane fmt.width j =
        if decide (j < 2) && active j then ((g j).1 % 2 ^ fmt.width, (g j).2 || t.maskBad f.mask j)
        else (t.vreg f.vd.toNat).lane fmt.width j)
    let serve := t.service = true ∧ f.vd ≠ 0
    let m2 := t.mreg (f.vs2.toNat % 8)
    let lanes := List.range fmt.lanes
    (serve → fmt.hasLanes = true → f.vs2.toNat < 8 →
        summary (.vxAny k true f) [] (if (lanes.filter active).any m2.bit then 1 else 0)
            ((lanes.filter active).any (fun l => m2.bad l || t.maskBad f.mask l))
          ∧ summary (.vxAll k true f) [] (if (lanes.filter (fun l => decide (l < t.vl))).all m2.bit then 1 else 0)
            ((lanes.filter (fun l => decide (l < t.vl))).any m2.bad))
      ∧ (serve → arithFormat fmt = true →
        summary (.vxRedg k true f) [] (t.laneSum v1 fmt f.mask).bits (t.laneSum v1 fmt f.mask).bad)
      ∧ (serve → fmt.hasLanes = true →
        let l := v1.lane fmt.width ((t.reg f.vs2).val.toNat % fmt.lanes)
        summary (.vxLane k true f) [f.vs2] l.1 (l.2 || (t.reg f.vs2).poison))
      ∧ (serve →
        summary (.vxMtog k true f) [] (t.mreg (f.vs1.toNat % 8)).bits.toNat ((t.mreg (f.vs1.toNat % 8)).poison != 0))
      ∧ (t.service = false → f.vs2.toNat < 8 →
        ∀ c ∈ [Instr.vxAny k true f, .vxAll k true f, .vxRedg k true f, .vxMtog k true f], s.atVector k c [] →
          ∃ t', exec c s = .next (s.retires k t') ∧ t'.parked = true
            ∧ (t.fcValid = false → t'.fcUnit = 5 ∧ t'.fcCause = 0x0A))
      ∧ (s.atVector k (.vxRsum k true f) [] → arithFormat fmt = true → ∃ t', exec (.vxRsum k true f) s = .next (s.retires k t')
        ∧ t.vectorOnly t' f.vd
        ∧ (t'.vreg f.vd.toNat).lane fmt.width 0
          = ((t.laneSum v1 fmt f.mask).bits % 2 ^ fmt.width, (t.laneSum v1 fmt f.mask).bad)
        ∧ (∀ j, 0 < j → j < fmt.lanes → (t'.vreg f.vd.toNat).lane fmt.width j = (t.vreg f.vd.toNat).lane fmt.width j))
      ∧ (let a := fun (j : Nat) => v1.string j
        let b := fun (j : Nat) => (t.vreg f.vs2.toNat).string j
        (fmt = .int32 → some2 (.vxBandedit k true f) (fun j => (bandEdit (a j).1 (b j).1, (a j).2 || (b j).2)))
          ∧ (fmt = .fp16 → some2 (.vxJw k true f) (fun j => ((jaroWinkler (a j).1 (b j).1).1, (a j).2 || (b j).2)))
          ∧ (fmt = .int64 → f.vs2 = 2 ∨ f.vs2 = 3 →
            some2 (.vxQsig k true f) (fun j => (qSignature f.vs2.toNat (a j).1, (a j).2))))
      ∧ (s.atVector k (.vxTally k true f) [] → f.vd = 0 → fmt = .int32 ∨ fmt = .int64 → t.pairPoison f fmt = false →
        ((∀ j, j < fmt.lanes → active j = false) → ∃ t', exec (.vxTally k true f) s = .next (s.retires k t')
            ∧ t'.outbound = t.outbound ∧ t'.vregs = t.vregs ∧ t'.vxQueue = [])
          ∧ (∀ dest ws, active 0 = true → (∀ j, 0 < j → j < fmt.lanes → active j = false) → t.outbound = [] →
            s.tallyMessage k t (signedOf fmt.width (v1.lane fmt.width 0).1)
              (signedOf fmt.width ((t.vreg f.vs2.toNat).lane fmt.width 0).1) = some (dest, ws) →
            ∃ t' o, exec (.vxTally k true f) s = .next (s.retires k t') ∧ t'.outbound = [o] ∧ o.dest = dest
              ∧ o.words = ws ∧ o.tally = true ∧ t'.vxQueue = []))
      ∧ (∀ ctx, fmt = .int64 → t.tally = some ctx → t.pairPoison f fmt = false →
        let lane := fun (j : Nat) => noiseLane ctx (v1.lane 64 j).1 ((t.vreg f.vs2.toNat).lane 64 j).1
        let gives := fun (c : Instr) => s.atVector k c [] → ∃ t', exec c s = .next (s.retires k t')
          ∧ t.lanesBecome t' f .int64 (fun j => ((lane j).bits, (lane j).bad)) ∧ t.vectorOnly t' f.vd
        (ctx.sampler = 1 → gives (.nzGeom k true f)) ∧ (ctx.sampler = 2 → gives (.nzDgauss k true f)))

/-- R225 to R227, R230, R231: sending. -/
def Obligations.QueueSending : Prop :=
  (∀ (k : TileIx) (f : QFields) (s : State), f.flags.toNat < 2 →
    let at_ := fun (c : Instr) => s.atInsn k c [f.rs1, f.qs]
    let t := s.fetched k
    let image := t.reg f.rs1
    let dest := t.reg f.qs
    let long := f.flags == 1
    let n := if f.flags = 1 then 32 else 16
    let off := image.val.toNat
    let clean := off % n = 0 ∧ off + n ≤ 0x30000 ∧ (t.service = true ∨ dest.mark = false)
      ∧ (image.poison || dest.poison) = false ∧ t.mustWait t.seq off n = false
    let entry := fun (try_ : Bool) => OutEntry.mk t.nextRef dest.val long (t.words (off / 8) (n / 8)) .waiting try_ false
    let same := fun (t' : Tile) => t.sameMem t' ∧ (∀ r, t'.reg r = t.reg r) ∧ t'.queues = t.queues
    (at_ (.qSend k f) → clean → f.rd = 0 → t.outbound.length < 8 → ∃ t', exec (.qSend k f) s = .next (s.retires k t')
        ∧ t'.outbound = t.outbound ++ [entry false] ∧ t'.nextRef = t.nextRef + 1 ∧ same t')
      ∧ (at_ (.qSend k f) → clean → f.rd = 0 → 8 ≤ t.outbound.length → exec (.qSend k f) s
        = .next (s.setTile k { t with wait := .sendFull dest.val long image.val }).bump)
      ∧ (at_ (.qTrysend k f) → clean → t.outbound.length < 8 → ∃ t', exec (.qTrysend k f) s = .next (s.setTile k t').bump
        ∧ t'.outbound = t.outbound ++ [entry true] ∧ t'.wait = .trySend f.rd t.nextRef ∧ t'.pc = t.pc ∧ same t')
      ∧ (at_ (.qTrysend k f) → clean → 8 ≤ t.outbound.length →
        exec (.qTrysend k f) s = .next (s.retires k (t.setReg f.rd { val := 2 })))
      ∧ (f.rd = 0 → off % n ≠ 0 → ∀ c ∈ [Instr.qSend k f, .qTrysend k f], at_ c →
        exec c s = .next (s.faults k 3 0x03 image.val)))
  ∧ (∀ (k : TileIx) (s : State) (e : OutEntry) (rest : List OutEntry), s.runs k → (s.tile k).stopped = false →
      (s.tile k).outbound = e :: rest → s.destError k e.dest = false → selectorOf e.dest = 0 →
      tileAt (field e.dest 30 10) (field e.dest 40 10) ≠ k → (∀ x ∈ rest, x.ref ≠ e.ref) →
      s.channelOf (s.ownerOf k) e.dest = none →
      let leaves := fun (c : Instr) => ∃ t, exec c s = .next t ∧ s.otherTiles t k
        ∧ (t.tile k).outbound = { e with state := .sent } :: rest
        ∧ ∃ p, (t.tile k).inject = (s.tile k).inject ++ [p] ∧ p.op = .msg ∧ p.data = flitPoison e.words
          ∧ p.queue = field e.dest 0 5 ∧ p.tag.ref = e.ref
      (e.state = .waiting → leaves (.outboundSend k 0)) ∧ (e.state = .refused false → leaves (.msgResendTimeout k 0)))

/-- R219, R234 to R236: receiving. -/
def Obligations.QueueReceiving : Prop :=
  ∀ (k : TileIx) (f : QFields) (s : State),
    let t := s.fetched k
    let q := f.qs.toNat
    let x := t.queue q
    let may := qEnabled x.entry = true ∧ (qShared x.entry = true ∨ t.inForce = some (qTag x.entry))
    let mine := fun (c : Instr) => s.atInsn k c [] ∧ may ∧ t.steered q = false
    let waits := fun (c : Instr) (w : CoreWait) => mine c → exec c s = .next (s.setTile k { t with wait := w }).bump
    (∀ i, f.flags = 0 → x.items = [i] → x.retry = [] →
        let a := t.word (ringWord x i.slot 0)
        let l := t.word (ringWord x i.slot 1)
        let returns := fun (t' : Tile) => (f.rd ≠ 0 → f.rd ≠ f.rs1 → t'.reg f.rd = ⟨a.val, false, a.poison⟩)
          ∧ (f.rs1 ≠ 0 → t'.reg f.rs1 = ⟨BitVec.ofNat 64 (field l.val 0 32), false, l.poison⟩)
          ∧ (∀ r, r ≠ f.rd → r ≠ f.rs1 → t'.reg r = t.reg r) ∧ t.sameMem t'
        (mine (.qRecv k f) → ∃ t', exec (.qRecv k f) s = .next (s.retires k t') ∧ returns t' ∧ (t'.queue q).items = []
            ∧ (x.occ ≤ i.slots → (t'.queue q).occ = 0 ∧ (t'.queue q).head = 0 ∧ (t'.queue q).tail = 0))
          ∧ (mine (.qPeek k f) → ∃ t', exec (.qPeek k f) s = .next (s.retires k t') ∧ returns t' ∧ t'.queue q = x)
          ∧ (mine (.qPop k f) → f.rd = 0 → f.rs1 = 0 → ∃ t', exec (.qPop k f) s = .next (s.retires k t') ∧ (t'.queue q).items = []
            ∧ (∀ r, t'.reg r = t.reg r) ∧ t.sameMem t'))
      ∧ (f.flags = 0 → x.items = [] → waits (.qRecv k f) (.recv q f.rd f.rs1 true)
        ∧ waits (.qPeek k f) (.recv q f.rd f.rs1 false)
        ∧ (mine (.qPop k f) → f.rd = 0 → f.rs1 = 0 → exec (.qPop k f) s = .next (s.faults k 3 0x62 0)))
      ∧ (∀ i rest, mine (.qWord k f) → f.rs1 = 0 → f.flags.toNat < 4 → x.items = i :: rest →
        (2 * i.slots ≤ f.flags.toNat →
            exec (.qWord k f) s = .next (s.retires k (t.setReg f.rd { val := 0, mark := true })))
          ∧ (f.flags.toNat < 2 * i.slots →
            let w := ringWord x i.slot f.flags.toNat
            exec (.qWord k f) s = .next (s.retires k ((s.touch k t w).setReg f.rd
              { val := (t.word w).val, mark := true, poison := (t.word w).poison }))))
      ∧ (s.atInsn k (.qCount k f) [] → may → f.rs1 = 0 → f.flags = 0 →
        exec (.qCount k f) s = .next (s.retires k (t.setReg f.rd
          { val := BitVec.ofNat 64 ((x.items.filter (fun i => !i.isPad)).length) })))
      ∧ (qEnabled x.entry = false → f.flags = 0 → f.rs1 = 0 → f.rd = 0 →
        ∀ c ∈ [Instr.qRecv k f, .qPeek k f, .qPop k f, .qWord k f, .qCount k f], s.atInsn k c [] →
          exec c s = .next (s.faults k 3 0x61 0))
      ∧ (∀ n, n < 32 → s.atInsn k (.qSelect k f) [f.rs1] → f.qs = 0 → f.flags = 0 → (t.reg f.rs1).val = BitVec.ofNat 64 (2 ^ n) →
        (t.service = true ∨ (t.reg f.rs1).mark = false) → (t.reg f.rs1).poison = false →
        qEnabled (t.queue n).entry = true → (qShared (t.queue n).entry = true ∨ t.inForce = some (qTag (t.queue n).entry)) →
        t.steered n = false →
        ((t.queue n).items ≠ [] → exec (.qSelect k f) s = .next (s.retires k
            { t.setReg f.rd { val := BitVec.ofNat 64 n } with selectLast := BitVec.ofNat 5 n }))
          ∧ ((t.queue n).items = [] → exec (.qSelect k f) s
            = .next (s.setTile k { t with wait := .select (BitVec.ofNat 64 (2 ^ n)) f.rd }).bump))

/-- R239 to R242, R246: sync objects. -/
def Obligations.SyncObjects : Prop :=
  ∀ (k : TileIx) (f : QFields) (s : State),
    let t := s.fetched k
    let n := f.qs.toNat
    let o := t.sync n
    let w := t.reg f.rs1
    let amount := t.reg f.rd
    let own := f.flags = 0 ∧ f.rs1 = 0 ∧ n < 16
    let hit := (o.value - o.target).toNat < 2 ^ 31
    let plain := fun (g : GReg) => (t.service = true ∨ g.mark = false) ∧ g.poison = false
    let level := f.flags.toNat
    let distant := (level = 2 ∨ level = 3) ∧ f.qs = 0 ∧ plain w ∧ s.badObjectWord k level w.val = false
    (s.atInsn k (.sWait k f) [f.rs1] → own → f.rd = 0 → (hit → exec (.sWait k f) s = .next (s.retires k t))
        ∧ (¬hit → ∃ t', exec (.sWait k f) s = .next (s.setTile k t').bump ∧ t'.wait = .sync n ∧ t'.pc = t.pc
          ∧ t'.sync n = { o with waiting := true } ∧ (∀ i, i ≠ n → t'.sync i = t.sync i)))
      ∧ (own →
        (s.atInsn k (.sTrywait k f) [f.rs1] →
            exec (.sTrywait k f) s = .next (s.retires k (t.setReg f.rd { val := if hit then 1 else 0 })))
          ∧ (s.atInsn k (.sRead k f) [f.rs1] → exec (.sRead k f) s = .next (s.retires k (t.setReg f.rd { val := o.value.setWidth 64 }))))
      ∧ (s.atInsn k (.sSignal k f) [f.rd, f.rs1] → own → plain amount → o.waiting = false →
        ∃ t', exec (.sSignal k f) s = .next (s.retires k t') ∧ (t'.sync n).value = o.value + amount.val.setWidth 32
          ∧ (t'.sync n).target = o.target ∧ (t'.sync n).lastX = BitVec.ofNat 10 (tileX k)
          ∧ (t'.sync n).lastY = BitVec.ofNat 10 (tileY k) ∧ (t'.sync n).lastCount = s.paceOf k
          ∧ (∀ i, i ≠ n → t'.sync i = t.sync i) ∧ t'.inject = t.inject ∧ (∀ r, t'.reg r = t.reg r))
      ∧ (s.atInsn k (.sSet k f) [f.rd, f.rs1] → f.flags = 0 → n < 16 → plain amount → plain w →
        ∃ t', exec (.sSet k f) s = .next (s.retires k t')
          ∧ t'.sync n = { o with value := amount.val.setWidth 32, target := w.val.setWidth 32 }
          ∧ (∀ i, i ≠ n → t'.sync i = t.sync i) ∧ (∀ r, t'.reg r = t.reg r))
      ∧ (s.atInsn k (.sSignal k f) [f.rd, f.rs1] → (distant ∨ (level = 1 ∧ f.qs = 0 ∧ plain w ∧ s.badObjectWord k 1 w.val = false
          ∧ onGrid (field w.val 30 10) (field w.val 40 10) = true
          ∧ s.present (tileAt (field w.val 30 10) (field w.val 40 10)) = true
          ∧ s.ownerOf (tileAt (field w.val 30 10) (field w.val 40 10)) = s.ownerOf k)) → plain amount →
        ∃ p, exec (.sSignal k f) s = .next (s.retires k { t with inject := t.inject ++ [p] }) ∧ p.op = .signal
          ∧ field p.operand 0 32 = (amount.val.setWidth 32).toNat ∧ field p.operand 38 2 = level)
      ∧ (let asks := fun (c : Instr) (ask : Nat) (x : CoreWait) => s.atInsn k c [f.rs1] → distant →
          exec c s = .next (s.setTile k { t.send (s.askPacket k level w.val ask) with wait := x }).bump
        (f.rd = 0 → asks (.sWait k f) 1 (.remoteSync level w.val))
          ∧ asks (.sTrywait k f) 2 (.reply f.rd false w.val) ∧ asks (.sRead k f) 3 (.reply f.rd true w.val))

/-- R240, R242: what one signal does to a tile. -/
def Obligations.SignalsWakeWaiters : Prop :=
  ∀ (t : Tile) (i : Nat) (amount : BitVec 32) (x y : Nat) (count : BitVec 64),
    let o := t.sync i
    let t' := t.applySignal i amount x y count
    let hits := o.waiting = true ∧ (o.value + amount - o.target).toNat < 2 ^ 31
    let wakes := hits ∧ t.wait = .sync i
    (t'.sync i).value = o.value + amount ∧ (t'.sync i).target = o.target ∧ (t'.sync i).lastCount = count
      ∧ (t'.sync i).lastX = BitVec.ofNat 10 x ∧ (t'.sync i).lastY = BitVec.ofNat 10 y
      ∧ (∀ j, j ≠ i → t'.sync j = t.sync j) ∧ t'.regs = t.regs ∧ t'.mem = t.mem
      ∧ (wakes → t'.wait = .none ∧ t'.pc = t.pc + 4 ∧ t'.instret = t.instret + 1)
      ∧ (¬wakes → t'.wait = t.wait ∧ t'.pc = t.pc ∧ t'.instret = t.instret)
      ∧ (hits → (t'.sync i).waiting = false) ∧ (¬hits → (t'.sync i).waiting = o.waiting)

/-- Table 8.3: the pose instructions. -/
def Obligations.PoseInstructions : Prop :=
  ∀ (k : TileIx) (f : QFields) (s : State), f.rs1 = 0 → f.flags = 0 →
    let t := s.fetched k
    let slot := f.qs.toNat
    let switches := s.atInsn k (.poseSwitchInsn k f) []
    (switches → f.rd = 0 → slot < 16 → t.slot slot ≠ .empty →
        ∃ t', exec (.poseSwitchInsn k f) s = .next (s.retires k t') ∧ t'.ended = true ∧ t'.slots = t.slots
          ∧ (∀ p, t.pendingSwitch = some p → p.fromPace = true → t'.pendingSwitch = some p)
          ∧ ((∀ p, t.pendingSwitch = some p → p.fromPace = false) → t'.pendingSwitch = some { slot := slot, fromPace := false })
          ∧ (∀ r, t'.reg r = t.reg r) ∧ t'.mem = t.mem)
      ∧ (switches → f.rd = 0 → slot < 16 → t.slot slot = .empty → exec (.poseSwitchInsn k f) s = .next (s.faults k 3 0x70 0))
      ∧ (switches → f.rd = 0 → 16 ≤ slot → exec (.poseSwitchInsn k f) s = .next (s.faults k 3 0x71 0))
      ∧ (s.atInsn k (.poseYield k f) [] → f.rd = 0 → f.qs = 0 → exec (.poseYield k f) s = .next (s.retires k { t with ended := true }))
      ∧ (∀ p, s.atInsn k (.poseId k f) [] → f.qs = 0 → t.inForce = some p →
        exec (.poseId k f) s = .next (s.retires k (t.setReg f.rd { val := BitVec.ofNat 64 p })))

/-- Table 8.4, R260 to R269, R104, R118: the pose engine of a tile. -/
def Obligations.PoseEngine : Prop :=
  ∀ (k : TileIx) (s : State),
    let t := s.tile k
    let inForce := fun (t' : Tile) (slot : Nat) => t'.inForce = some slot ∧ t'.slot slot = .inForce
      ∧ (∀ p, t.inForce = some p → p ≠ slot → t'.slot p = .resident)
      ∧ t'.ended = false ∧ t'.parked = false ∧ t'.pendingSwitch = none ∧ t'.aBufs = [] ∧ t'.bBufs = [] ∧ t'.opIndex = 0
      ∧ t'.regs = t.regs ∧ t'.mem = t.mem ∧ t'.queues = t.queues ∧ t'.vregs = t.vregs ∧ t'.banks = t.banks
    (∀ p, s.runs k → t.pendingSwitch = some p → t.ended = true → t.parked = false → t.mxQueue = [] → t.vxQueue = [] →
        t.loadRun = none → t.slot p.slot ≠ .empty →
        ∃ t', exec (.poseSwitchRun k) s = .next (s.engineStep k t') ∧ inForce t' p.slot ∧ t'.service = t.service)
      ∧ (∀ (slot : BitVec 4) (service : Bool) (top : BitVec 6), s.runs k → t.parked = true → t.mxQueue = [] →
        t.vxQueue = [] → t.loadRun = none → t.slot slot.toNat ≠ .empty → top.toNat ≤ 48 →
        ∃ t', exec (.poseStart k slot service top) s = .next (s.engineStep k t') ∧ inForce t' slot.toNat
          ∧ t'.service = service ∧ t'.protTop = top ∧ t'.stopped = false)
      ∧ (∀ q rest, s.runs k → t.loadRun = none → t.loadQueue = q :: rest → q.near = false →
        (t.slot q.slot = .inForce → ∃ u, exec (.poseLoadStart k) s = .next u ∧ (u.tile k).loadQueue = rest
            ∧ (u.tile k).loadRun = none ∧ (u.tile k).slots = t.slots
            ∧ q.barrier ∈ (u.region (regionOfTile k)).refusedLoads)
          ∧ (t.slot q.slot ≠ .inForce → t.partition q.slot = [] → q.force = false →
            ∃ u, exec (.poseLoadStart k) s = .next u ∧ (u.tile k).loadQueue = rest
              ∧ (u.tile k).loadRun = some { req := q, words := t.words (q.source / 8) 64, discarded := 0 } ∧ t.sameMem (u.tile k)))
      ∧ (∀ r, s.runs k → t.loadRun = some r → r.words.any (·.poison) = false →
        (descValid t.protTop.toNat r.req.slot (r.words.map (·.val)) = false →
          ∃ u, exec (.poseLoadDone k) s = .next u ∧ (u.tile k).loadRun = none ∧ (u.tile k).poseMem = t.poseMem
            ∧ (u.tile k).slots = t.slots ∧ r.req.barrier ∈ (u.region (regionOfTile k)).refusedLoads)
        ∧ (descValid t.protTop.toNat r.req.slot (r.words.map (·.val)) = true →
          t.ringCheck r.req.slot (r.words.map (·.val)) = true → r.req.force = true →
          ∃ u, exec (.poseLoadDone k) s = .next u ∧ (u.tile k).loadRun = none ∧ s.otherTiles u k
            ∧ (u.tile k).slot r.req.slot = .resident
            ∧ (∀ i, i < 64 → (u.tile k).descWord r.req.slot i = descAt (r.words.map (·.val)) i)))
      ∧ (∀ (service : Bool) (top : BitVec 6), s.present k = true → t.parked = true → top.toNat ≤ 48 →
        exec (.tileModeWrite k true service top) s
          = .next (s.setTile k { t with service := service, protTop := top }).bump)
      ∧ (∀ (by_ service : Bool) (top : BitVec 6), s.present k = true → (by_ = false ∨ t.parked = false) →
        ∃ r, exec (.tileModeWrite k by_ service top) s = .next (s.setTile k { t with raised := t.raised ++ [r] }).bump
          ∧ r.code = 0x0600)
      ∧ (s.present k = true → ∃ t', exec (.tileReset k) s = .next (s.engineStep k t') ∧ t'.parked = true
        ∧ t'.service = true ∧ t'.pc = 0 ∧ t'.protTop = 0 ∧ (∀ r, t'.reg r = {}) ∧ (∀ i, t'.word i = {})
        ∧ (∀ i, t'.slot i = .empty) ∧ t'.poseMem = [] ∧ t'.queues = [] ∧ t'.vl = 0 ∧ t'.deadPorts = t.deadPorts
        ∧ t'.detourA = t.detourA ∧ t'.detourB = t.detourB)

/-- R274, R391, R238: three steps of the queue engine. -/
def Obligations.SteeringTallyAndStuck : Prop :=
  ∀ (k : TileIx) (s : State), s.runs k →
    let t := s.tile k
    (∀ rule rules c d, t.parked = false → t.stopped = false → t.steerRules = rule :: rules → bitOf rule 63 = true →
        field rule 0 5 ≠ field rule 5 5 →
        (t.queue (field rule 0 5)).items = [c] → (t.queue (field rule 5 5)).items = [d] →
        (t.queue (field rule 0 5)).retry = [] → (t.queue (field rule 5 5)).retry = [] →
        let ctrl := t.word (ringWord (t.queue (field rule 0 5)) c.slot 1)
        let tag := field ctrl.val 32 16
        ctrl.poison = false → tag < 2 ^ 15 → tag % 16 ≤ field rule 40 4 → t.outbound = [] →
        ∃ t' o, exec (.steerFire k) s = .next (s.engineStep k t') ∧ t'.outbound = [o]
          ∧ o.dest = t.destination (field rule 48 4 + tag % 16)
          ∧ o.words = t.words (ringWord (t.queue (field rule 5 5)) d.slot 0) (2 * d.slots)
          ∧ (t'.queue (field rule 0 5)).items = [] ∧ (t'.queue (field rule 5 5)).items = [] ∧ t.sameMem t')
      ∧ (∀ q ctx item decl, t.stopped = false → s.tallyQueue k t = some q → t.tally = some ctx → (t.queue q).items = [item] →
        (t.queue q).retry = [] → item.owed = none → (s.paddock (s.ownerOf k)).tallyDecl ctx.decl = some decl →
        let ws := t.words (ringWord (t.queue q) item.slot 0) 4
        let cell := signedOf 64 (ws.getD 0 {}).val.toNat - (ctx.base : Int)
          - (((s.paddock (s.ownerOf k)).groupRank decl.group k * decl.cpo : Nat) : Int)
        let w := decl.table / 8 + cell.toNat
        let sum := signedOf 64 (t.word w).val.toNat + signedOf 64 (ws.getD 2 {}).val.toNat
        ws.any (·.poison) = false → 0 ≤ cell → cell < (decl.cpo : Int) → t.protects (8 * w) 8 = false → (t.word w).poison = false →
        -(2 ^ 63 : Int) ≤ sum → sum < (2 ^ 63 : Int) →
        ∃ t', exec (.tallyApply k) s = .next (s.engineStep k t') ∧ t'.word w = ⟨BitVec.ofInt 64 sum, false⟩
          ∧ (∀ i, i ≠ w → t'.word i = t.word i) ∧ (t'.queue q).items = [])
      ∧ (∀ i, t.waitBeats ≠ 0 → t.wait = .sync i →
        exec (.syncStuck k none) s = .next (s.engineStep k
          { s.tileFault k t 3 0x10 t.pc (BitVec.ofNat 64 i) with
            stopped := true, stuckAt := some (0, BitVec.ofNat 64 i) }))
      ∧ (∀ e rest, t.sendBeats ≠ 0 → t.outbound = e :: rest →
        exec (.syncStuck k (some 0)) s = .next (s.engineStep k
          { s.tileFault k t 3 0x10 t.pc e.dest with stopped := true }))

/-- R285, R287, R289, R293, R294: one hop of a packet. -/
def Obligations.PacketRouting : Prop :=
  (∀ (k i : Nat) (p : Packet) (s : State), (s.tile k).detour p.epoch p.destX p.destY i = none →
    s.output k i p = if p.destX < tileX k then some (3, false) else if tileX k < p.destX then some (1, false)
      else if p.destY < tileY k then some (0, false) else if tileY k < p.destY then some (2, false) else none)
  ∧ (∀ (n k i : Nat) (e : Bool) (p : Packet) (s : State), s.inRouter n p k i e →
    s.flip = false ∨ p.epoch = s.epoch →
    let rest := s.net.eraseIdx n
    let goes := fun (q : Packet) => exec (.packetRoute (.inFlight n)) s = .next { s with net := rest ++ [q] }.bump
    let discards := fun (code : Nat) => ∃ u r, exec (.packetRoute (.inFlight n)) s = .next u
      ∧ u.net = rest ++ (s.discardAnswer k p).toList ∧ r.code = BitVec.ofNat 16 code ∧ r.paddock = p.paddock
      ∧ (u.tile k).raised = (s.tile k).raised ++ [r] ∧ (s.tile k).sameButRouter (u.tile k) ∧ s.otherTiles u k
    (s.admitted k i e p = false → discards 0x0601)
      ∧ (s.admitted k i e p = true →
        (s.output k i p = none → p.frame = true → goes { p with pos := .frame })
        ∧ (s.output k i p = none → p.frame = false → p.paddock = s.ownerOf k → goes { p with pos := .ejected k i })
        ∧ (s.output k i p = none → p.frame = false → p.paddock ≠ s.ownerOf k → discards 0x0601)
        ∧ (∀ d esc k', s.output k i p = some (d, esc) → neighbour k d = some k' →
          ((s.tile k).deadPort d = true ∨ s.present k' = false → discards 0x060C)
          ∧ ((s.tile k).deadPort d = false → s.present k' = true → s.routed (regionOfTile k') = true →
            let q := { p with pos := .router k' (opposite d) esc, replays := 0 }
            let off := { s with net := rest }
            (off.credit q = false → exec (.packetRoute (.inFlight n)) s = .next s)
              ∧ (off.credit q = true → ∃ u, exec (.packetRoute (.inFlight n)) s = .next u ∧ u.net = rest ++ [q]
                ∧ ∀ j, (s.tile j).sameButRouter (u.tile j) ∧ (u.tile j).raised = (s.tile j).raised)))))
  ∧ (∀ (k : TileIx) (p : Packet) (rest : List Packet) (s : State), (s.tile k).inject = p :: rest → s.present k = true →
    s.routed (regionOfTile k) = true → p.op ≠ .reserved → p.lengthOk = true →
    s.flip = false ∨ (s.region (regionOfTile k)).epoch = s.epoch →
    let q := { p with paddock := s.ownerOf k, epoch := (s.region (regionOfTile k)).epoch }
    let sends := fun (pos : PacketPos) (r : Nat) => ∃ u, exec (.packetRoute (.injected k)) s = .next u
      ∧ u.net = s.net ++ [{ q with pos := pos, replays := r }] ∧ (u.tile k).inject = rest
      ∧ ∀ j, (s.tile j).sameButRouter (u.tile j)
    (∀ d esc k', s.output k 4 q = some (d, esc) → neighbour k d = some k' → (s.tile k).deadPort d = false →
        s.present k' = true → s.routed (regionOfTile k') = true →
        s.credit { q with pos := .router k' (opposite d) esc, replays := 0 } = true → sends (.router k' (opposite d) esc) 0)
      ∧ (s.output k 4 q = none → sends (if p.frame = true then .frame else .ejected k 4) p.replays))

/-- R284, R285, R307: flits, ports and merge entries. -/
def Obligations.LinksAndPorts : Prop :=
  (∀ (n k i up : Nat) (e : Bool) (p : Packet) (s : State), s.net[n]? = some p → p.pos = .router k i e → i < 4 →
    neighbour k i = some up → s.routed (regionOfTile k) = true →
    exec (.flitReceive n false) s = .next { s with net := modifyAt s.net n (fun p => { p with replays := 0 }) }.bump
      ∧ (p.replays < 4 → ∃ u r, exec (.flitReceive n true) s = .next u
        ∧ u.net = modifyAt s.net n (fun p => { p with replays := p.replays + 1 })
        ∧ (∀ j, j ≠ k → j ≠ up → u.tile j = s.tile j) ∧ (s.tile up).sameButRouter (u.tile up)
        ∧ (u.tile k).raised = (s.tile k).raised ++ [r] ∧ r.code = 0x0100 ∧ r.cls = clsCE
        ∧ r.source = BitVec.ofNat 16 (0x1002 + i) ∧ (s.tile k).sameButRouter (u.tile k)
        ∧ (u.tile k).deadPorts = (s.tile k).deadPorts)
      ∧ (4 ≤ p.replays → (s.tile k).deadPort i = false → ∃ u, exec (.flitReceive n true) s = .next u
        ∧ u.net = s.net.eraseIdx n ++ (s.discardAnswer up p).toList ∧ (u.tile k).deadPort i = true
        ∧ (u.tile up).deadPort (opposite i) = true))
  ∧ (∀ (k : TileIx) (d : Dir) (k' : Nat) (s : State), s.present k = true → s.routed (regionOfTile k) = true →
    neighbour k d.ctorIdx = some k' → (s.tile k).deadPort d.ctorIdx = false →
    ∃ u r r', exec (.linkHeartbeatTimeout k d) s = .next u
      ∧ (u.tile k).deadPorts = (s.tile k).deadPorts ||| (1#4 <<< d.ctorIdx)
      ∧ (u.tile k').deadPorts = (s.tile k').deadPorts ||| (1#4 <<< opposite d.ctorIdx)
      ∧ (u.tile k).raised = (s.tile k).raised ++ [r] ∧ (u.tile k').raised = (s.tile k').raised ++ [r']
      ∧ r.code = 0x050A ∧ r'.code = 0x050A ∧ r.cls = clsInfra ∧ r'.cls = clsInfra
      ∧ (∀ j, (s.tile j).sameButRouter (u.tile j)) ∧ u.net = s.net)
  ∧ (∀ (k : TileIx) (m : MergeEntry) (ms : List MergeEntry) (s : State), s.runs k → (s.tile k).merges = m :: ms →
    exec (.coalesceEntryExpire k) s = .next (s.engineStep k { s.tile k with merges := ms }))

/-- R220, R226, R228 to R230, R242: messages and their answers at a tile. -/
def Obligations.MessageArrival : Prop :=
  ∀ (n : Nat) (k : TileIx) (i : Nat) (p : Packet) (s : State),
    let t := s.tile k
    let off := { s with net := s.net.eraseIdx n }
    let x := t.queue p.queue
    let answers := fun (t' : Tile) (status : Nat) (listed : Bool) => ∃ a, t'.inject = t.inject ++ [a] ∧ a.op = .msgAnswer
      ∧ a.operand = BitVec.ofNat 64 status ∧ a.destX = p.srcX ∧ a.destY = p.srcY ∧ a.tag.ref = p.tag.ref
      ∧ a.tag.flag = listed ∧ a.frame = false
    (s.arrived n .msg p k i → p.srcX ≠ 0x3FF → t.wait = .none →
      (∀ a b slot, p.data = [a, b] → qEnabled x.entry = true → x.closed = false → x.place 1 = some (slot, false) →
          s.tallyQueue k t ≠ some p.queue → t.protects (8 * ringWord x slot 0) 16 = false →
          ∃ t', exec (.msg n) s = .next (off.setTile k t').bump ∧ answers t' 0 false
            ∧ t'.word (ringWord x slot 0) = a.stored
            ∧ t'.word (ringWord x slot 0 + 1) = (if b.poison then { poison := true }
                else { val := BitVec.ofNat 64 (field b.val 0 48 + 2 ^ 48) })
            ∧ (∀ j, j ≠ ringWord x slot 0 → j ≠ ringWord x slot 0 + 1 → t'.word j = t.word j)
            ∧ (t'.queue p.queue).items = x.items ++ [⟨slot, 1, false, none⟩] ∧ (t'.queue p.queue).occ = x.occ + 1
            ∧ (t'.queue p.queue).tail = (slot + 1) % qSize x.entry
            ∧ (∀ q, q ≠ p.queue → t'.queue q = t.queue q) ∧ t'.regs = t.regs)
        ∧ (qEnabled x.entry = true → x.place (p.data.length / 2) = none → p.tag.flag = false →
          ∃ t', exec (.msg n) s = .next (off.setTile k t').bump ∧ t'.mem = t.mem ∧ (t'.queue p.queue).items = x.items
            ∧ (x.retry.length < 4 → answers t' 1 true
              ∧ (t'.queue p.queue).retry = x.retry ++ [⟨tileAt p.srcX p.srcY, p.tag.ref⟩])
            ∧ (4 ≤ x.retry.length → answers t' 1 false ∧ (t'.queue p.queue).retry = x.retry))
        ∧ (qEnabled x.entry = false → ∃ t', exec (.msg n) s = .next (off.setTile k t').bump ∧ t'.mem = t.mem
          ∧ t'.queues = t.queues ∧ answers t' 3 false))
      ∧ (∀ e, s.arrived n .msgAnswer p k i → t.wait = .none → t.outbound = [e] → e.ref = p.tag.ref → e.trySend = false →
        (field p.operand 0 2 = 0 → ∃ t', exec (.msgAnswer n) s = .next (off.setTile k t').bump ∧ t'.outbound = []
            ∧ t.sameButRouter { t' with outbound := t.outbound })
          ∧ (field p.operand 0 2 = 1 → exec (.msgAnswer n) s = .next (off.setTile k
            { t with outbound := [{ e with state := .refused p.tag.flag }] }).bump))
      ∧ (s.arrived n .retryNotice p k i → exec (.retryNotice n) s = .next (off.setTile k
          { t with outbound := t.outbound.map (fun e => if e.ref = p.tag.ref then { e with state := .waiting } else e) }).bump)
      ∧ (s.arrived n .signal p k i → field p.operand 38 2 ≠ 2 → exec (.signal n) s = .next (off.setTile k
          (t.applySignal (field p.operand 32 6 % 16) (BitVec.ofNat 32 (field p.operand 0 32)) p.srcX p.srcY (s.paceOf k))).bump)
      ∧ (s.arrived n .wake p k i →
        (∀ level w, t.wait = .remoteSync level w → p.data = [] →
            p.operand = BitVec.ofNat 64 (field w 0 (if level = 2 then 6 else 4) + level * 64) →
            exec (.wake n) s = .next (off.setTile k
              { t with wait := .none, pc := t.pc + 4, instret := t.instret + 1 }).bump)
          ∧ (∀ rd isRead w v, t.wait = .reply rd isRead w → p.data = [v] →
            ∃ t', exec (.wake n) s = .next (off.setTile k t').bump ∧ t'.wait = .none ∧ t'.pc = t.pc + 4
              ∧ (rd ≠ 0 → v.poison = false → t'.reg rd = { val := v.val }) ∧ (∀ r, r ≠ rd → t'.reg r = t.reg r)
              ∧ t'.mem = t.mem))

/-- R115, R123 to R125, R285, R286: remote operations at a tile. -/
def Obligations.RemoteArrival : Prop :=
  ∀ (n : Nat) (k : TileIx) (i : Nat) (p : Packet) (s : State),
    let t := s.tile k
    let off := { s with net := s.net.eraseIdx n }
    let m := p.tag.bytes / 8
    let first := addrOff p.operand / 8
    let sends := fun (t' : Tile) (op : PacketOp) => ∃ a, t'.inject = t.inject ++ [a] ∧ a.op = op ∧ a.destX = p.srcX
      ∧ a.destY = p.srcY ∧ a.tag = p.tag ∧ (op = .getData → a.data = flitPoison (t.words first m) ∧ a.length = p.length)
    let wrote := fun (t' : Tile) (w : Nat) (ws : List PWord) =>
      (∀ j v, ws[j]? = some v → t'.word (w + j) = v.stored) ∧ (∀ j, j < w ∨ w + ws.length ≤ j → t'.word j = t.word j)
    (s.arrived n .put p k i → addrOff p.operand < 0x30000 → p.data.length = m →
      (t.protects (addrOff p.operand) (8 * m) = false →
          ∃ t', exec (.put n) s = .next (off.setTile k t').bump ∧ wrote t' first p.data ∧ sends t' .putAck
            ∧ t'.regs = t.regs)
        ∧ (t.protects (addrOff p.operand) (8 * m) = true →
          ∃ t' r, exec (.put n) s = .next (off.setTile k t').bump ∧ t'.mem = t.mem ∧ sends t' .putAck
            ∧ t'.raised = t.raised ++ [r] ∧ r.code = 0x0600 ∧ r.x = BitVec.ofNat 10 p.srcX ∧ r.y = BitVec.ofNat 10 p.srcY))
      ∧ (s.arrived n .get p k i → addrOff p.operand < 0x30000 → s.coalesces k p = false →
        ∃ t', exec (.get n) s = .next (off.setTile k t').bump ∧ t.sameMem t' ∧ sends t' .getData ∧ t'.regs = t.regs)
      ∧ (∀ o, t.remote = [o] → o.ref = p.tag.ref → o.signal = none →
        let ends := fun (t' : Tile) => t'.remote = (if o.left ≤ p.tag.bytes then [] else [{ o with left := o.left - p.tag.bytes }])
          ∧ t'.regs = t.regs ∧ t'.inject = t.inject
        (s.arrived n .getData p k i → p.data.length = m →
            ∃ t', exec (.getData n) s = .next (off.setTile k t').bump ∧ wrote t' (p.tag.loc / 8) p.data ∧ ends t')
          ∧ (s.arrived n .nack p k i → o.isGet = true → ∃ t', exec (.nack n) s = .next (off.setTile k t').bump
            ∧ wrote t' (p.tag.loc / 8) (List.replicate m { poison := true }) ∧ ends t')
          ∧ (s.arrived n .nack p k i → o.isGet = false → ∃ t' r, exec (.nack n) s = .next (off.setTile k t').bump
            ∧ t'.mem = t.mem ∧ ends t' ∧ t'.raised = t.raised ++ [r] ∧ r.code = 0x060C)
          ∧ (s.arrived n .putAck p k i → ∃ t', exec (.putAck n) s = .next (off.setTile k t').bump
            ∧ t'.mem = t.mem ∧ ends t'))

/-- R304, R305, R310, R311: reins and gather nodes. -/
def Obligations.ReinsAndGathers : Prop :=
  ∀ (k : TileIx) (s : State),
    let t := s.tile k
    (∀ v : BitVec 64, s.runs k →
      let port := field v 62 2
      let q := getD [] t.srcBursts port
      let good := t.sources port = true ∧ (s.sourceRein k port false).isSome = true ∧ srcFlits v ≤ 4096
        ∧ field v 0 18 + 16 * srcFlits v ≤ 0x30000
      (field v 0 18 % 16 ≠ 0 → exec (.rtSrcWrite k v) s
          = .next (s.engineStep k (s.tileFault k t 6 0x03 t.pc (BitVec.ofNat 64 (field v 0 18)))))
        ∧ (field v 0 18 % 16 = 0 → field v 42 18 % 16 = 0 → (s.sourceRein k port false) = none → exec (.rtSrcWrite k v) s
          = .next (s.engineStep k (s.tileFault k t 6 0x82 t.pc (BitVec.ofNat 64 (field v 0 18)))))
        ∧ (field v 0 18 % 16 = 0 → field v 42 18 % 16 = 0 → good → q.length < 4 → bitOf v 24 = false →
          exec (.rtSrcWrite k v) s = .next (s.engineStep k
            { t with srcBursts := putD [] t.srcBursts port (q ++
              [{ src := field v 0 18, dest := field v 42 18, flits := srcFlits v, signal := none }]) })))
      ∧ (∀ (v : BitVec 64) (l : LeafEntry), s.runs k → t.leaf (field v 18 10) = some l → field v 0 18 % 16 = 0 →
        field v 0 18 + 16 * l.flits ≤ 0x30000 → bitOf v 36 = false →
        ∃ t' a, exec (.rtGsendWrite k v) s = .next (s.engineStep k t') ∧ t'.inject = t.inject ++ [a] ∧ a.op = .gather
          ∧ field a.operand 0 10 = field v 18 10 ∧ a.destX = l.node.toNat % 1024 ∧ a.destY = l.node.toNat / 1024 % 1024
          ∧ a.length = l.flits ∧ a.data = flitPoison (t.words (field v 0 18 / 8) (2 * l.flits)) ∧ t.sameMem t'
          ∧ t'.regs = t.regs)
      ∧ (∀ (d : Dir) (b : SrcBurst) (rest : List SrcBurst) (r : Rein), s.runs k →
        getD [] t.srcBursts d.ctorIdx = b :: rest → b.sent = false → t.sources d.ctorIdx = true →
        s.sourceRein k d.ctorIdx true = some r → b.signal = none → r.taps ≠ [] →
        let x : ReinBurst := { paddock := s.ownerOf k, rein := r.id, dest := b.dest, words := flitPoison (t.words (b.src / 8) (2 * b.flits)) }
        let on_ := { s with bursts := s.bursts ++ [x] }
        ∃ u, exec (.reinBurstSend k d) s = .next u ∧ u.bursts = on_.bursts ∧ t.sameMem (u.tile k)
          ∧ getD [] (u.tile k).srcBursts d.ctorIdx
            = if on_.sourcePassed (s.ownerOf k) r then rest else { b with sent := true } :: rest)
      ∧ (∀ (b : ReinBurst) (bs : List ReinBurst) (r : Rein) (port : Nat) (w w' : PWord) (ws : List PWord),
        s.bursts = b :: bs → s.rein b.paddock b.rein = some r → r.taps[b.tap]? = some (k.val, port) →
        (s.liveHops r.hops).any (fun h => h.dest == k.val) = true → s.clocked (regionOfTile k) = true → t.sinks port = true →
        let tap := getD 0 t.taps (t.tapChannel port)
        let off := b.dest + 16 * b.flit
        let addr := 128 * field tap 0 11 + off
        (r.frameSource = true ∨ getD [] (s.tile (tileAt r.x r.y)).srcBursts r.dir = []) →
        bitOf tap 63 = true → off + 16 ≤ 128 * field tap 32 11 → addr + 16 ≤ 0x30000 → t.protects addr 16 = false → addr % 8 = 0 →
        b.words.drop (2 * b.flit) = w :: w' :: ws → ws ≠ [] →
        ∃ t', exec (.reinTapWrite 0) s = .next { s.setTile k t' with bursts :=
            (if r.taps.length ≤ b.tap + 1 then { b with tap := 0, flit := b.flit + 1, replays := 0 }
              else { b with tap := b.tap + 1, replays := 0 }) :: bs }.bump
          ∧ t'.word (addr / 8) = w.stored ∧ t'.word (addr / 8 + 1) = w'.stored
          ∧ (∀ j, j ≠ addr / 8 → j ≠ addr / 8 + 1 → t'.word j = t.word j) ∧ t'.regs = t.regs)
      ∧ (∀ (n i : Nat) (p : Packet) (nd : NodeSlot), s.arrived n .gather p k i →
        getD none t.nodes (field p.operand 10 3) = some nd → nd.tree = field p.operand 0 10 → nd.paddock = p.paddock →
        look nd.bufs (field p.operand 13 2) = none → p.length = nd.flits →
        let off := { s with net := s.net.eraseIdx n }
        let nd' := { nd with bufs := insertAt nd.bufs (field p.operand 13 2) p.data }
        let full := (List.range nd.inputs).all (fun j => (look nd'.bufs j).isSome)
        (full = false → exec (.gather n) s
            = .next (off.setTile k { t with nodes := putD none t.nodes (field p.operand 10 3) (some nd') }).bump)
          ∧ (full = true → nd.bad = false → nd.parentInput = 0xFF →
            let base := nd.parent.toNat % 2 ^ 18
            let sum := nd'.combine.1
            t.protects base (8 * sum.length) = false →
            ∃ t', exec (.gather n) s = .next (off.setTile k t').bump
              ∧ getD none t'.nodes (field p.operand 10 3) = some { nd with bufs := [], bad := false }
              ∧ (∀ j v, sum[j]? = some v → t'.word (base / 8 + j) = v.stored)
              ∧ (∀ j, j < base / 8 ∨ base / 8 + sum.length ≤ j → t'.word j = t.word j)))

/-- Table 2.4, R71, R73, R75, R83, R302, R303, R309, R336, R342: the actions. -/
def Obligations.PaceEntriesOfThePlan : Prop :=
  (∀ (r : RegionIx) (e : PaceEntry) (rest : List PaceEntry) (s : State),
    let g := s.region r
    let p := g.owner
    let off := s.setRegion r { g with due := rest }
    let takes := fun (act : Nat) => g.opens = [] ∧ g.due = e :: rest ∧ e.action = act ∧ s.issues p = true
    (takes 0x00 → exec (.paceNop r) s = .next off.bump)
      ∧ (∀ x, takes 0x01 → s.rein p e.target = some x →
        (x.state = .closed → s.linksHeld p x = false → exec (.reinOpen r) s
            = .next ((off.setRein p e.target .opening).stampRein p e.target).bump)
        ∧ (x.state = .ready → exec (.reinOpen r) s = .next (off.cntRegion r 8 1).bump))
      ∧ (∀ x, takes 0x02 → s.rein p e.target = some x →
        (x.state = .closed → exec (.reinClose r) s = .next (off.cntRegion r 8 1).bump)
        ∧ (x.state = .ready → ∃ u, exec (.reinClose r) s = .next u ∧ u.region r = { g with due := rest }
          ∧ (s.bursts.any (fun b => b.paddock == p && b.rein == x.id) = true →
              u.rein p e.target = some { x with state := .closing })
          ∧ (s.bursts.any (fun b => b.paddock == p && b.rein == x.id) = false →
              getD [] (s.tile (tileAt x.x x.y)).srcBursts x.dir = [] →
              u.rein p e.target = some { x with state := .closed, shifts := [] })))
      ∧ (∀ t n, takes 0x06 → (s.paddock p).trees.find? (fun t => t.id == e.target) = some t → t.nodesIn r = [n] →
        t.leavesIn r = [] → getD none (s.tile (placeTile n.place)).nodes (nodeSlot n.place) = none →
        exec (.gatherOpen r) s = .next (off.setTile (placeTile n.place) { s.tile (placeTile n.place) with
          nodes := putD none (s.tile (placeTile n.place)).nodes (nodeSlot n.place) (some
            ⟨t.id, p, !bitOf e.arg 0, field e.arg 1 2 + 1, n.inputs, n.parentInput, n.parent, n.rootSync, [], false⟩) }).bump)
      ∧ (∀ o, takes 0x07 → (s.paddock p).current = some o → ∃ u, exec (.ckptMark r) s = .next u
        ∧ (u.paddock p).ckptLast = paceCountOf (strideOf (s.paddock p).paceCount)
            (if e.offset < 0 then ((s.tableLength p o.table : Int) + e.offset).toNat else e.offset.toNat)
        ∧ (u.paddock p).wafer.marked = (s.paddock p).wafer.objs ∧ (u.paddock p).paceCount = (s.paddock p).paceCount
        ∧ (∀ q ∈ s.regionsOf p, (u.region q).marked = (s.region q).barriers) ∧ u.tiles = s.tiles)
      ∧ (takes 0x08 → exec (.deadline r) s
        = .next ((off.setRegion r { g with due := rest, deadlines := g.deadlines ++ [e.target] }).onPaddock p
            (fun d => { d with current := d.current.map OpenStride.untest })).bump)
      ∧ (takes 0x09 → exec (.windowMark r) s
        = .next (if s.flip = true then off.setRegion r { g with due := rest, epoch := !s.epoch } else off).bump)
      ∧ (takes 0x05 → bitOf e.arg 62 = false → ∃ m, exec (.remountIssueDemand r) s
          = .next (off.onPaddock p (fun d => { d with remount := m })).bump
        ∧ (e.offset < 0 → m = { (s.paddock p).remount with
            armedNext := (s.paddock p).remount.armedNext ++ [field e.arg 0 7] })
        ∧ (0 ≤ e.offset → m.armed = (s.paddock p).remount.armed ++ [field e.arg 0 7]
            ∧ m.slots = ((s.paddock p).remount.beginLayer (field e.arg 0 7)).slots))
      ∧ (takes 0x05 → bitOf e.arg 62 = true →
        (bitOf (s.remountCtrl p) 4 = false → exec (.remountIssuePredict r) s = .next off.bump)
        ∧ (bitOf (s.remountCtrl p) 4 = true → (s.paddock p).remount.history.length < 16 →
          exec (.remountIssuePredict r) s = .next (off.cntPaddock p 6 1).bump)
        ∧ (∀ l, bitOf (s.remountCtrl p) 4 = true → 16 ≤ (s.paddock p).remount.history.length →
          look (s.paddock p).remount.layers (field e.arg 0 7) = some l →
          let m := (s.paddock p).remount
          let layer := field e.arg 0 7
          let slots := ((look m.groups l.group).map RemountGroup.slots).getD 0
          let chosen := (m.ranked layer l.experts).take (field (s.remountCtrl p) 0 4)
          ((∀ x ∈ chosen, (m.holder l.group slots layer x).isSome = true) →
              exec (.remountIssuePredict r) s = .next off.bump)
            ∧ (∀ x n, chosen = [x] → m.holder l.group slots layer x = none → m.victim l.group slots = some n →
              ∃ u c, exec (.remountIssuePredict r) s = .next u ∧ u.tiles = s.tiles
                ∧ getD none (u.paddock p).remount.slots (16 * l.group + n) = some c
                ∧ c.layer = layer ∧ c.expert = x ∧ c.pinned = false ∧ c.begun = true ∧ c.predicted = true
                ∧ (∀ j, j ≠ 16 * l.group + n → getD none (u.paddock p).remount.slots j = getD none m.slots j)))))
  ∧ (∀ (p : PaddockId) (rein : BitVec 12) (x : Rein) (s : State), s.rein p rein.toNat = some x → x.state = .opening →
    s.linksHeld p x = false → x.hops.all s.hopLive = true →
    exec (.reinReady p rein) s = .next (s.setRein p x.id .ready).bump)

/-- R251, R261, R265, R457, R461: entries that reach tiles and ledgers. -/
def Obligations.PosesAndLedgersOfThePlan : Prop :=
  ∀ (r : RegionIx) (e : PaceEntry) (rest : List PaceEntry) (s : State),
    let g := s.region r
    let p := g.owner
    let members := s.membersIn p e.target r
    let takes := fun (act : Nat) => g.opens = [] ∧ g.due = e :: rest ∧ e.action = act ∧ s.issues p = true
    let slot := field e.arg 0 4
    (takes 0x03 → members.Nodup → ∃ u, exec (.poseSwitch r) s = .next u ∧ u.region r = { g with due := rest }
        ∧ (∀ k, k ∉ members → u.tile k = s.tile k)
        ∧ (∀ k ∈ members, (s.tile k).sameButRouter (u.tile k)
          ∧ ((s.tile k).parked = false → (s.tile k).slot slot ≠ .empty → (u.tile k).pendingSwitch
              = some { slot := slot, fromPace := true, ahead := decide (e.offset < 0) })
          ∧ ((s.tile k).parked = true ∨ (s.tile k).slot slot = .empty → u.tile k = (s.tile k).count 17 1)))
      ∧ (takes 0x04 → members.Nodup → ∃ u, exec (.poseLoad r) s = .next u ∧ (∀ k, k ∉ members → u.tile k = s.tile k)
        ∧ (∀ k ∈ members, (s.tile k).loadQueue.length < 4 → ∃ q, u.tile k
              = { s.tile k with loadQueue := (s.tile k).loadQueue ++ [q] }
            ∧ q.slot = field e.arg 48 4 ∧ q.force = bitOf e.arg 52 ∧ (q.near = true ↔ field e.arg 53 3 = 1)
            ∧ q.source = field e.arg 0 48 ∧ q.barrier = (s.paddock p).partBarrier e.target r))
      ∧ (∀ i x (uj : Nat), takes 0x0A → (s.paddock p).image = some i →
        (i.units (s.paddock p).placement r).find? (fun x => x.id == e.target) = some x →
        let cut := fun (b : Int) => max (-10 * (g.capW : Int) * 100) (b - uj)
        ∃ u, exec (.ledgerTick r uj) s = .next u
          ∧ (u.region r).latencyUj = (if x.cls = 0 then cut g.latencyUj else g.latencyUj)
          ∧ (u.region r).normalUj = (if x.cls = 1 then cut g.normalUj else g.normalUj)
          ∧ (u.region r).backgroundUj = (if 2 ≤ x.cls then cut g.backgroundUj else g.backgroundUj)
          ∧ getD 0 (u.region r).unitEnergy x.id = countUp (getD 0 g.unitEnergy x.id) uj
          ∧ (u.region r).due = rest ∧ (u.region r).owner = g.owner ∧ u.tiles = s.tiles)

/-- R71, R76 to R79: the boundary of a beat and its deadline test. -/
def Obligations.BeatsAndDeadlines : Prop :=
  ∀ (p : PaddockId) (o : OpenStride) (s : State), p.val ≠ 0 → s.running p = some o → s.shared p = false →
    let d := s.paddock p
    let sets := fun (c : Instr) (o' : OpenStride) (held : Nat) => ∃ u, exec c s = .next u ∧ u.tiles = s.tiles
      ∧ (u.paddock p).current = some o' ∧ (u.paddock p).strideHeld = held ∧ (u.paddock p).paceCount = d.paceCount
      ∧ (u.paddock p).overrunTotal = d.overrunTotal + (if c = .deadlineTest p ∧ s.unmet p ≠ [] ∧ o.inHeld = false then 1 else 0)
      ∧ u.regions = s.regions
    (o.test = .held → sets (.beatBoundary p) { o with test := .untested, inHeld := true } d.strideHeld)
      ∧ ((s.hasDeadline p = false ∨ o.test = .passed) → o.test ≠ .held → s.lastBeat p o = false →
        ∃ u, exec (.beatBoundary p) s = .next u ∧ (u.paddock p).paceCount = d.paceCount + 1
          ∧ (u.paddock p).current = some { o with test := .untested, inHeld := false }
          ∧ (∀ r ∈ s.regionsOf p, (u.region r).deadlines = []) ∧ (∀ r, (u.region r).owner = (s.region r).owner)
          ∧ u.tiles = s.tiles)
      ∧ (o.test = .untested → s.hasDeadline p = true → (s.lastBeat p o = true → s.dueDone p = true) →
        (s.unmet p = [] → ∃ u, exec (.deadlineTest p) s = .next u ∧ u.tiles = s.tiles
          ∧ (u.paddock p).current = some { o with
              test := .passed, reconf := o.reconf.filter (fun x => decide (beatOf d.paceCount < x.1)) }
          ∧ (u.paddock p).strideHeld = d.strideHeld ∧ (u.paddock p).paceCount = d.paceCount
          ∧ (u.paddock p).overrunTotal = d.overrunTotal
          ∧ (∀ r ∈ s.regionsOf p, (u.region r).refusedLoads
              = (s.region r).refusedLoads.filter (fun i => !(s.region r).deadlines.contains i))
          ∧ ∀ r, (u.region r).barriers = (s.region r).barriers ∧ (u.region r).due = (s.region r).due)
        ∧ (∀ x xs, s.unmet p = x :: xs →
          let refused := (s.unmet p).any (fun y => (s.region y.1).refusedLoads.contains y.2)
          let o' : OpenStride := { o with reconf := some (o.reconf.getD (beatOf d.paceCount, refused)) }
          (o.policyFault = false → d.strideHeld + 1 ≤ o.stretchMax →
              sets (.deadlineTest p) { o' with test := .held } (d.strideHeld + 1))
          ∧ (o.policyFault = true ∨ o.stretchMax < d.strideHeld + 1 → o.overrunReplays < 2 →
              sets (.deadlineTest p) { o' with faulted := true } d.strideHeld)))

/-- R53, R56, R58, R60, R64, R66, R84, R245: strides. -/
def Obligations.StridesOpenCloseReplay : Prop :=
  (∀ (p : PaddockId) (n : PendingStride) (s : State),
    let d := s.paddock p
    d.nextStride = some n → d.current = none → d.ended = none → d.image.isSome = true → d.run = none →
    d.twin.stopped = false → d.twin.detaching = false → s.halted = false → s.refLost = false → d.pairMode = 0 →
    s.decodeRefused p n = none →
    (∀ st, s.admittedStep p n.table = some st → ∃ u o, exec (.strideOpen p) s = .next u ∧ (u.paddock p).current = some o
        ∧ o.table = n.table ∧ o.kind = n.kind ∧ o.desc = n.desc ∧ o.test = .untested ∧ o.stretchMax = d.stretchMax
        ∧ (u.paddock p).paceCount = paceCountOf (if d.started = true then (strideOf d.paceCount + 1) % 2 ^ 44 else 0) 0
        ∧ (u.paddock p).ckptLast = (u.paddock p).paceCount ∧ (u.paddock p).started = true
        ∧ (u.paddock p).mStep = st ∧ (u.paddock p).m = max (stepM st) d.mMin ∧ (u.paddock p).strideHeld = 0)
      ∧ (s.admittedStep p n.table = none → exec (.strideOpen p) s = .next (s.cntPaddock p 1 1).bump))
  ∧ (∀ (p : PaddockId) (o : OpenStride) (id : Nat) (x : Desc) (s : State), s.running p = some o → s.shared p = false →
    s.lastBeat p o = true → o.test = .passed → s.dueDone p = true → o.desc = some id → s.desc id = some x →
    x.decode = none → (s.paddock p).next = none → (s.paddock p).twin.detaching = false →
    ∃ u, exec (.strideClose p) s = .next u ∧ (u.paddock p).current = none
      ∧ (u.paddock p).paceCount = (s.paddock p).paceCount
      ∧ (o.kind = .stride → ∃ y, u.desc id = some y ∧ y.count = some (s.paddock p).paceCount
        ∧ y.status = some (if x.replayed = true then 2 else if x.stretched = true ∨ 0 < (s.paddock p).strideHeld then 1 else 0)))
  ∧ (∀ (p : PaddockId) (o : OpenStride) (s : State), (s.paddock p).current = some o → (s.paddock p).image.isSome = true →
    o.faulted = true → s.halted = false → s.refLost = false →
    ∃ u, exec (.replay p) s = .next u
      ∧ (u.paddock p).paceCount = paceCountOf (strideOf (s.paddock p).paceCount) (beatOf (s.paddock p).ckptLast)
      ∧ (u.paddock p).strideHeld = 0 ∧ (u.paddock p).seals.replays = (s.paddock p).seals.replays + 1
      ∧ (∀ o', (u.paddock p).current = some o' → o'.faulted = false ∧ o'.test = .untested
        ∧ o'.overrunReplays = o.overrunReplays + 1)
      ∧ (∀ a ∈ u.net, a.paddock = p → a.op = .putAck)
      ∧ (∀ r ∈ s.regionsOf p, (u.region r).barriers = restoreObjects (s.region r).barriers (s.region r).marked))
  ∧ (∀ s : State, s.refLost = false → s.released = true → strideOf (s.paddock 0).paceCount < 2 ^ 44 - 1 →
    ∃ u, exec .deviceStride s = .next u ∧ strideOf (u.paddock 0).paceCount = strideOf (s.paddock 0).paceCount + 1
      ∧ beatOf (u.paddock 0).paceCount = beatOf (s.paddock 0).paceCount ∧ u.tiles = s.tiles
      ∧ (s.flip = false → u.regions = s.regions))
  ∧ (∀ s : State, s.refLost = false → s.released = true → beatOf (s.paddock 0).paceCount < 2 ^ 20 - 1 →
    ∃ u, exec (.beatBoundary ⟨0, Nat.zero_lt_succ _⟩) s = .next u
      ∧ strideOf (u.paddock 0).paceCount = strideOf (s.paddock 0).paceCount
      ∧ beatOf (u.paddock 0).paceCount = beatOf (s.paddock 0).paceCount + 1 ∧ u.tiles = s.tiles
      ∧ (s.flip = false → u.regions = s.regions)
      ∧ (s.flip = true → ∀ r, r < 28 → (u.region r).epoch
          = if (s.region r).owner = 0 then !s.epoch else (s.region r).epoch))

/-- R52, R62, R65, R80, R605, R415, R14: the reference and the pace registers. -/
def Obligations.PaceReference : Prop :=
  ∀ s : State,
    let lost := ({ s with paceStatus := s.paceStatus ||| 3, raised := s.raised ++ [{ frameReport 0xE006 0x0508 clsInfra 0 0 with pace := (s.paddock 0).paceCount }] } : State)
    let sticky := fun (n : Nat) => ({ s with paceStatus := s.paceStatus ||| BitVec.ofNat 64 (2 ^ n) } : State)
    (bitOf s.paceStatus 0 = false → exec .paceRefLost s = .next lost.bump
        ∧ (∀ ppm, 200 < ppm → exec (.paceRefFreqCheck ppm) s = .next lost.bump))
      ∧ (bitOf s.paceStatus 0 = true → exec .paceRefLost s = .next s.bump)
      ∧ (∀ ppm, ppm ≤ 200 → exec (.paceRefFreqCheck ppm) s = .next s.bump)
      ∧ (s.ready = true → exec .paceRefRestored s = .next { s with paceStatus := s.paceStatus &&& ~~~3#64 }.bump)
      ∧ (∀ v : BitVec 64,
        (4 ≤ field v 0 9 ∧ field v 0 9 ≤ 256 ∧ s.paddocks.any (fun x => x.2.paceBusy) = false → exec (.paceCtrlWrite v) s
            = .next { s with regs := putD 8 s.regs (0x10000 / 8) (BitVec.ofNat 64 (field v 0 9)) }.bump)
        ∧ (field v 0 9 < 4 ∨ 256 < field v 0 9 ∨ s.paddocks.any (fun x => x.2.paceBusy) = true →
          exec (.paceCtrlWrite v) s = .next (sticky 2).bump))
      ∧ (∀ (p : PaddockId) (v : BitVec 64), p.val ≠ 0 → (s.paddock p).live = true →
        (field v 0 2 < 3 → (s.paddock p).paceBusy = false → exec (.paceSrcWrite p v) s
            = .next (s.setPaddock p { s.paddock p with paceSrc := field v 0 2 }).bump)
        ∧ (field v 0 2 = 3 ∨ (s.paddock p).paceBusy = true → exec (.paceSrcWrite p v) s = .next (sticky 2).bump))
      ∧ (∀ p : PaddockId, p.val ≠ 0 → (s.paddock p).live = true → (s.paddock p).paceSrc = 1 → (s.paddock p).ended = none →
        ((s.paddock p).pulse = false → (s.paddock p).next.isSome = true ∨ (s.paddock p).lastRun.isSome = true →
          ∃ u, exec (.paceSyncInPulse p) s = .next u ∧ (u.paddock p).pulse = true ∧ u.tiles = s.tiles
            ∧ (u.paddock p).paceCount = (s.paddock p).paceCount ∧ u.paceStatus = s.paceStatus)
        ∧ ((s.paddock p).pulse = true → ∃ u r, exec (.paceSyncInPulse p) s = .next u ∧ u.paddocks = s.paddocks
            ∧ u.paceStatus = s.paceStatus ||| 8 ∧ u.raised = s.raised ++ [r] ∧ r.code = 0x0509))
      ∧ (∀ v : BitVec 64, s.bar0Open = true →
        (∀ o ∈ ([0, 8, 16, 0x10010] : List Nat), exec (.registerWrite (BitVec.ofNat 32 o) false v) s = .next s.bump)
        ∧ (∀ (o : BitVec 32) (four : Bool), o.toNat % (if four then 4 else 8) ≠ 0 →
          exec (.registerWrite o four v) s = .next { s with out := s.out ++ [Out.unsupported] }.bump)
        ∧ exec (.registerWrite 0x10008 false v) s = .next { s with paceStatus := s.paceStatus &&& ~~~(v &&& 0x1C) }.bump
        ∧ (∀ p, 1 ≤ p → p ≤ 28 → (s.paddock p).live = true →
          exec (.registerWrite (BitVec.ofNat 32 (0x11010 + 0x40 * p)) false v) s
            = .next (s.setPaddock p { s.paddock p with stretchMax := field v 0 16 }).bump))
      ∧ (∀ o four v, s.released = false → exec (.registerWrite o four v) s = .next s)

/-- R335, R337, R339: binding, sending and releasing. -/
def Obligations.RemountBinding : Prop :=
  (∀ (n off : Nat) (p : Packet) (s : State), s.atFrame n .put s.sameAgent = some p →
    (s.paddock p.paddock).inWindow p.operand = some off → off < 0x4000 → p.taken % 2 = 0 →
    let i := p.taken / 2
    let w := p.data.getD (i / 4) {}
    let m := (s.paddock p.paddock).remount
    let key := off / 2 + i
    let v := field w.val (16 * (i % 4)) 16
    let layer := key / 64
    let expert := v % 2 ^ 12
    w.poison = false → i + 1 < 4 * p.data.length → choiceValid (getD 0 m.choices key) = false →
    let binds := fun (g slot : Nat) => ∃ u c, exec (.remountBind n) s = .next u
      ∧ getD 0 (u.paddock p.paddock).remount.choices key = v
      ∧ getD 0x8000 (u.paddock p.paddock).remount.placements key = slot
      ∧ getD none (u.paddock p.paddock).remount.slots (16 * g + slot) = some c
      ∧ c.layer = layer ∧ c.expert = expert ∧ c.pinned = true ∧ c.predicted = false ∧ u.tiles = s.tiles
    (choiceValid v = false → ∃ u, exec (.remountBind n) s = .next u
        ∧ getD 0x8000 (u.paddock p.paddock).remount.placements key = 0x8000
        ∧ (u.paddock p.paddock).remount.slots = m.slots)
      ∧ (∀ l gr, choiceValid v = true → v / 2 ^ 12 % 8 = 0 → look m.layers layer = some l → expert < l.experts →
        look m.groups l.group = some gr → m.boundLower layer (key % 64) expert = none →
        (∀ slot c, m.holder l.group gr.slots layer expert = some slot → m.slot l.group slot = some c → c.layer = layer →
            c.expert = expert → binds l.group slot)
          ∧ (∀ slot, m.holder l.group gr.slots layer expert = none → m.victim l.group gr.slots = some slot →
            binds l.group slot)
          ∧ (m.holder l.group gr.slots layer expert = none → m.victim l.group gr.slots = none →
            exec (.remountBind n) s = .next { s.cntPaddock p.paddock 11 1 with
              net := modifyAt s.net n (fun p => { p with taken := p.taken + 1 }) }.bump)))
  ∧ (∀ (n g i : Nat) (p : Packet) (c : RemountSlot) (s : State), s.atFrame n .put s.sameAgent = some p →
    (s.paddock p.paddock).inWindow p.operand = some (0x8000 + 8 * g) → g < 16 → i < 16 →
    p.data = [⟨BitVec.ofNat 64 (2 ^ i), false⟩] →
    getD none (s.paddock p.paddock).remount.slots (16 * g + i) = some c → c.pinned = true → c.poisoned = false →
    ∃ u a, exec (.slotRelease n) s = .next u ∧ u.net = s.net.eraseIdx n ++ [a] ∧ a.op = .putAck ∧ a.destX = p.srcX
      ∧ a.destY = p.srcY
      ∧ getD none (u.paddock p.paddock).remount.slots (16 * g + i) = some { c with pinned := false }
      ∧ (∀ j, j ≠ 16 * g + i → getD none (u.paddock p.paddock).remount.slots j = getD none (s.paddock p.paddock).remount.slots j))
  ∧ (∀ (p : PaddockId) (lane j : Nat) (c : RemountSlot) (gr : RemountGroup) (l : RemountLane) (layer : RemountLayer) (r : Rein)
      (s : State),
    let m := (s.paddock p).remount
    let g := lane / 16384
    let slot := lane / 1024 % 16
    let i := lane % 1024
    m.slot g slot = some c → look m.groups g = some gr → (gr.lanesOf slot)[i]? = some l → look m.layers c.layer = some layer →
    (l.granulesOf gr.granules layer.granules)[c.sent.getD i 0]? = some j → s.rein p l.rein = some r → c.begun = true →
    r.state = .ready → r.taps ≠ [] →
    let off := layer.offsets.getD c.expert 0 + 4096 * j
    s.shareLocked p false off 4096 = false → s.laneNext p l.stack (laneTurn g slot l.order) = true →
    ∃ u b c', exec (.remountGranuleSend p lane) s = .next u ∧ u.bursts = s.bursts ++ [b]
      ∧ b.words = flitPoison (s.shareWords p false off 512) ∧ b.rein = r.id ∧ b.dest = l.dest + 4096 * c.sent.getD i 0
      ∧ getD none (u.paddock p).remount.slots (16 * g + slot) = some c' ∧ c'.sent = modifyAt c.sent i (· + 1)
      ∧ c'.layer = c.layer ∧ c'.expert = c.expert ∧ c'.acked = c.acked)

/-- R324, R325, R328, R330, R345, R346: healing, scrubbing, migration. -/
def Obligations.TierUpkeep : Prop :=
  ∀ (far : Bool) (s : State),
    let t := s.tier far
    (∀ g good, t.heals.contains g = true → ∃ u, exec (.tierHealComplete far g good) s = .next u
        ∧ (u.tier far).heals = t.heals.filter (· != g)
        ∧ (∀ h, h ≠ g → (u.tier far).granule h = t.granule h) ∧ (u.tier far).sites = t.sites
        ∧ (∀ c, good = true → s.goodCopy far g = some c → (u.tier far).granule g = t.whole far g c.bits
          ∧ u.tier (!far) = s.tier (!far)
          ∧ ∃ r, u.raised = s.raised ++ [r] ∧ r.code = 0x0103 ∧ r.cls = clsCE ∧ r.addr = BitVec.ofNat 64 (64 * g))
        ∧ (good = false ∨ s.goodCopy far g = none → (u.tier far).granule g = { t.whole far g 0 with poison := true })
        ∧ (s.mirrorOf far (64 * g) = none → u.raised = s.raised ∧ u.tier (!far) = s.tier (!far)))
      ∧ (∀ bad fixed, bitOf (s.scrubCtrl far) 8 = true → t.heals.contains t.scrubAt = false → s.halted = false →
        (t.granule t.scrubAt).poison = false →
        let told := (s.notePass far).raised
        (s.scrubOverrun far = false → told = s.raised)
          ∧ (s.scrubOverrun far = true → ∃ r, told = s.raised ++ [r] ∧ r.code = 0x050F ∧ r.cls = clsInfra) ∧
        ∃ u, exec (.tierScrub far bad fixed) s = .next u ∧ (u.tier far).scrubAt = (t.scrubAt + 1) % tierGranules far
          ∧ (∀ h, h ≠ t.scrubAt → (u.tier far).granule h = t.granule h) ∧ u.tiles = s.tiles
          ∧ ((t.granule t.scrubAt).ecc = .good → bad = false → fixed = false →
            (u.tier far).granule t.scrubAt = t.granule t.scrubAt ∧ u.raised = told)
          ∧ (bad = false → fixed = true → (u.tier far).granule t.scrubAt = { t.granule t.scrubAt with ecc := .good }
            ∧ ∃ r, u.raised = told ++ [r] ∧ r.code = 0x0100 ∧ r.cls = clsCE)
          ∧ (bad = true → s.mirrorOf far (64 * t.scrubAt) = none →
            (u.tier far).granule t.scrubAt = { t.whole far t.scrubAt 0 with poison := true }
            ∧ ∃ r, u.raised = told ++ [r] ∧ r.code = 0x0101 ∧ r.cls = clsUE))
      ∧ (∀ unit site, unit < (if far then 16 else 24) → t.sites[unit]? = some site → t.migration = none →
        s.migrationDue far unit = true → t.failed.contains unit = false →
        let spare := spareOf far site
        (t.sparesUsed.contains spare = false → t.sparesFailed.contains spare = false →
            ∃ r, exec (.siteMigrationStart far unit) s = .next ((s.setTier far { t with
              migration := some ⟨unit, spare, site, 0⟩ }).raise r).bump ∧ r.code = 0x050B)
          ∧ (t.sparesUsed.contains spare = true ∨ t.sparesFailed.contains spare = true →
            ∃ u, exec (.siteMigrationStart far unit) s = .next u
              ∧ u.tier far = { t with failed := t.failed ++ [unit] }
              ∧ ∀ g, unitOf far (64 * g) = unit → u.granuleBad far g = true))
      ∧ (∀ m, t.migration = some m → ∃ u, exec (.siteMigrationComplete far) s = .next u
        ∧ (u.tier far).sites = modifyAt t.sites m.logical (fun _ => m.toSite)
        ∧ (u.tier far).sparesUsed = t.sparesUsed ++ [m.toSite] ∧ (u.tier far).migration = none
        ∧ ∃ r, r ∈ u.raised ∧ r.code = 0x050C)

/-- R347, R348, R416, R417, R444: the host's windows. -/
def Obligations.Apertures : Prop :=
  ∀ (offset : BitVec 36) (s : State), offset.toNat % 4096 ≤ 4032 →
    (s.halted = true → ∀ len, len ≤ 64 → (exec (.apertureRead offset len) s = .next (s.emit (.aperture (List.replicate len 0xFF) false)).bump
        ∧ ∀ data : List Byte, exec (.apertureWrite offset data) s = .next s.bump))
      ∧ (s.halted = false → ∀ len, len ≤ 64 →
      (s.apertureTarget offset.toNat len = none → ∃ u, exec (.apertureRead offset len) s = .next u
          ∧ u.out = s.out ++ [.aperture (List.replicate len 0xFF) false] ∧ u.tiles = s.tiles ∧ u.near = s.near
          ∧ u.far = s.far ∧ u.paddocks = s.paddocks)
        ∧ (∀ p far off, s.apertureTarget offset.toNat len = some (p, far, off) → s.shareLocked p far off len = false →
          let bs := s.shareBytes p far off len
          ∃ u, exec (.apertureRead offset len) s = .next u ∧ u.tiles = s.tiles ∧ u.paddocks = s.paddocks
            ∧ (bs.any Prod.snd = false → u.out = s.out ++ [.aperture (bs.map (fun b => BitVec.ofNat 8 b.1)) false])
            ∧ (bs.any Prod.snd = true → u.out = s.out ++ [.aperture (List.replicate len 0xFF) true])))
      ∧ (s.halted = false → ∀ data : List Byte, data.length = 64 →
        (s.apertureTarget offset.toNat 64 = none → exec (.apertureWrite offset data) s = .next s.apertureMiss.bump)
          ∧ (∀ p far off a, s.apertureTarget offset.toNat 64 = some (p, far, off) → s.takesGranule p far off a →
            ∃ u, exec (.apertureWrite offset data) s = .next u
              ∧ (u.tier far).granule (a / 64) = (s.tier far).whole far (a / 64) (BitVec.ofNat 512 (natLE data))
              ∧ (∀ g, g ≠ a / 64 → (u.tier far).granule g = (s.tier far).granule g)
              ∧ (u.paddock p).seals.unsealedIn = true ∧ u.tiles = s.tiles))
      ∧ (∀ at_ data, at_ + data.length ≤ 2 ^ 34 → exec (.bar2Write at_ data) s = .next (s.cntFrame 11 1).bump)
      ∧ (∀ v, s.bar0Open = true →
        (s.debugOpen = false → ∀ at_, at_ % 8 = 0 → at_ < 2 ^ 24 →
            exec (.indirectWindowWrite false (BitVec.ofNat 32 at_) v) s = .next { s with
              raised := s.raised ++ [{ frameReport 0xDFFF 0x0600 clsNote 0 (BitVec.ofNat 64 (2 ^ 24 + at_)) with
                pace := (s.paddock 0).paceCount }] }.bump)
          ∧ (s.debugOpen = true → s.sec.scope.getLsbD 1 = true →
            (∀ r table, r < 28 → table < 16 → (s.region r).state = .active →
              exec (.indirectWindowWrite false (BitVec.ofNat 32 (0x80000 * r + 0x10000 + 8 * table)) v) s
                = .next (s.setRegion r { s.region r with dir := putD 0 (s.region r).dir table v }).bump)
            ∧ (∀ slot k, slot < 0x2000 → s.tileSlot slot = some k →
              exec (.indirectWindowWrite true (BitVec.ofNat 32 (0x1000 * slot + 8 * 0xE2)) v) s
                = .next (s.setTile k { s.tile k with srBase := v }).bump)))

/-- R413, R422 to R432, R442, R443: polling, rings, the link and completion records. -/
def Obligations.HostRings : Prop :=
  (∀ (n : RingIx) (s : State),
    let s1 := s.readDoorbell n
    let r := s1.ring n
    let b := s1.hostRead (ringBase r.sq + 64 * r.sqHead) 64
    s.ready = true → s.halted = false → s.d3hot = false → bitOf (s.frameReg 0x00028000 0xC8) 16 = true →
    (∀ j, j < 256 → j ≠ n.val → (s.ring j).enable = false) → r.enable = true → r.error = false →
    (n.val ≠ 0 → r.paddock ≠ 0) → r.sqTail = r.sqHead + 1 → r.sqTail < ringSize r.sq → descNat b 0 2 ≠ 2 →
    extensionsOf b = 0 → s1.mayConsume n b = true → (n.val = 0 ∨ s1.shared r.paddock = false) →
    ∀ fails : BitVec 4, ∃ u d, exec (.hiPoll fails) s = .next u ∧ u.descs = s.descs ++ [d] ∧ d.id = s.nextDesc ∧ u.nextDesc = s.nextDesc + 1
      ∧ d.ring = n.val ∧ d.paddock = (if n.val = 0 then descNat b 3 1 else r.paddock) ∧ d.bytes = b ∧ d.completed = false
      ∧ d.status = s1.earlyStatus n d.paddock b ∧ (u.ring n).sqHead = r.sqTail ∧ u.tiles = s.tiles ∧ u.hostMem = s.hostMem)
  ∧ (∀ (n : RingIx) (s : State),
    ((s.ring n).enable = false → ∃ u, exec (.ringEnable n) s = .next u
        ∧ u.ring n = { s.ring n with enable := true, error := false, phase := true, cqTail := 0, sqHead := 0, sqTail := 0, cqHead := 0, unread := 0 }
        ∧ (∀ j, j ≠ n.val → u.ring j = s.ring j) ∧ { u with rings := s.rings, free := s.free } = s)
      ∧ ∃ u, exec (.ringDisable n) s = .next u ∧ u.ring n = { s.ring n with enable := false }
        ∧ (∀ j, j ≠ n.val → u.ring j = s.ring j) ∧ { u with rings := s.rings, free := s.free } = s)
  ∧ (∀ (v : BitVec 64) (s : State),
    let t := { s with
      eventEnable := bitOf v 63, eventOverflow := s.eventOverflow && !bitOf v 62, eventVector := field v 48 11
      eventUnread := s.eventLeft (field v 0 16), eventHead := field v 0 16 }
    (s.eventLost = 0 → exec (.eventRingHeadWrite v) s = .next t.bump)
      ∧ (bitOf v 63 = true → 0 < s.eventLost → t.eventFull = false → s.d3hot = false → ∃ u, exec (.eventRingHeadWrite v) s = .next u
        ∧ u.hostRead (ringBase (s.frameReg 0x00028018 4) + 32 * s.eventTail) 32
            = s.lostBytes.take 31 ++ [if s.eventPhase then 1 else 0]
        ∧ u.eventLost = 0 ∧ u.eventHead = field v 0 16
        ∧ u.eventTail = (if s.eventTail + 1 = s.eventSize then 0 else s.eventTail + 1)
        ∧ (u.eventPhase = s.eventPhase ↔ s.eventTail + 1 ≠ s.eventSize) ∧ u.tiles = s.tiles))
  ∧ (∀ s : State, canonical {} s.rings = true → ∃ u, exec .linkReset s = .next u
      ∧ (∀ n, u.ring n = { ({} : Ring) with
          paddock := (s.ring n).paddock, chainIn := (s.ring n).chainIn, chainSeed := (s.ring n).chainSeed
          chainOut := (s.ring n).chainOut })
      ∧ u.msix = [] ∧ u.msixPending = [] ∧ u.eventEnable = false ∧ u.eventOverflow = false ∧ u.eventHead = 0 ∧ u.eventTail = 0 ∧ u.eventUnread = 0
      ∧ u.eventPhase = true ∧ u.eventLost = 0 ∧ u.d3hot = false ∧ u.tiles = s.tiles ∧ u.paddocks = s.paddocks
      ∧ u.descs = s.descs.map (fun (d : Desc) => { d with mute := true }) ∧ u.frameReg 0x00028000 0xC8 = 0xC8)
  ∧ (∀ (id : Nat) (d : Desc) (s : State), s.desc id = some d →
    (d.status = none → exec (.descriptorComplete id) s = .next s)
      ∧ (∀ st, d.status = some st → st ≤ 2 → d.opcode ≠ 2 → d.completed = false → s.sealDue d = false → s.d3hot = false → s.halted = false →
        d.slot = none → d.staged = none → (s.paddock d.paddock).primary = true → s.shared d.paddock = false →
        d.mute = false → 8 ≤ d.bytes.length →
        let r := s.ring d.ring
        let wrap := r.cqTail + 1 = ringSize r.cq
        ∃ u, exec (.descriptorComplete id) s = .next u
          ∧ u.hostRead (ringBase r.cq + 32 * r.cqTail) 32
              = completionBytes d st (d.count.getD (s.paddock d.paddock).paceCount) r.phase
          ∧ (∀ a, a < ringBase r.cq + 32 * r.cqTail ∨ ringBase r.cq + 32 * r.cqTail + 32 ≤ a →
              u.hostByte a = s.hostByte a)
          ∧ (u.ring d.ring).cqTail = (if wrap then 0 else r.cqTail + 1) ∧ (u.ring d.ring).unread = r.unread + 1
          ∧ ((u.ring d.ring).phase = r.phase ↔ ¬ wrap)
          ∧ (∀ x, u.desc id = some x → x.completed = true ∧ x.status = some st)
          ∧ (d.flags / 2 % 2 = 0 → u.out = s.out)
          ∧ (d.flags / 2 % 2 = 1 → s.msixMasked r.vector = false → u.out = s.out ++ [.msix r.vector])
          ∧ u.tiles = s.tiles))

/-- R428, R430, R434, R445, R247, R374: what descriptors that open no stride do. -/
def Obligations.DescriptorsMoving : Prop :=
  ∀ (id : Nat) (d : Desc) (s : State),
    let p := d.paddock
    let pd := s.paddock p
    (s.atDesc id 0x0001 d → ∃ u, exec (.nop id) s = .next u ∧ u.ended id 0 0 ∧ { u with descs := s.descs, free := s.free } = s)
    ∧ (s.atDesc id 0x0002 d → ∃ u, exec (.pad id) s = .next u ∧ (∀ x, u.desc id = some x → x.completed = true)
      ∧ u.hostMem = s.hostMem ∧ u.out = s.out ∧ u.tiles = s.tiles ∧ u.paddocks = s.paddocks)
    ∧ (s.atDesc id 0x0003 d →
      ((∀ x ∈ s.descs, x.id < id → x.paddock = p → x.completed = true) → ∃ u, exec (.fence id) s = .next u ∧ u.ended id 0 0
          ∧ { u with descs := s.descs, free := s.free } = s)
        ∧ ((∃ x ∈ s.descs, x.id < id ∧ x.paddock = p ∧ x.completed = false) → exec (.fence id) s = .next s))
    ∧ (s.atDesc id 0x0010 d → d.staged = none → s.shared p = false → d.nat 24 8 = 64 → ∀ a,
      let far := d.nat 8 1 == 1
      pd.inShare far (d.nat 16 8) 64 = true → s.takesGranule p far (d.nat 16 8) a →
      (∀ i, i < 64 → s.hostPoison.contains (d.nat 32 8 + i) = false) →
      ∃ u, exec (.stageIn id) s = .next u ∧ u.ended id 0 64
        ∧ (u.tier far).granule (a / 64) = (s.tier far).whole far (a / 64) (BitVec.ofNat 512 (s.hostNat (d.nat 32 8) 64))
        ∧ (∀ g, g ≠ a / 64 → (u.tier far).granule g = (s.tier far).granule g) ∧ u.hostMem = s.hostMem ∧ u.tiles = s.tiles)
    ∧ (s.atDesc id 0x0011 d → d.slot = none → pd.primary = true →
      let far := d.nat 8 1 == 1
      let len := d.nat 24 8
      let bs := s.shareBytes p far (d.nat 16 8) len
      pd.inShare far (d.nat 16 8) len = true → s.shareLocked p far (d.nat 16 8) len = false →
      ∃ u, exec (.stageOut id) s = .next u ∧ u.tiles = s.tiles ∧ u.paddocks = s.paddocks
        ∧ (bs.any Prod.snd = false → u.ended id 0 (BitVec.ofNat 64 len)
            ∧ u.hostRead (d.nat 32 8) len = bs.map (fun b => BitVec.ofNat 8 b.1))
        ∧ (bs.any Prod.snd = true → u.ended id 0x0100 0))
    ∧ (s.atDesc id 0x0070 d →
      let lo := d.nat 8 2
      let n := d.nat 10 2
      lo + n ≤ 2 ^ (29 - pd.slotLog) → (∀ k, lo ≤ k → k < lo + n → (pd.slot k).state ≠ 1) →
      ∃ u, exec (.releaseWindow id) s = .next u
        ∧ u.ended id 0 (BitVec.ofNat 64 ((rangeFrom lo n).filter (fun k => (pd.slot k).state == 2)).length)
        ∧ (∀ k, (u.paddock p).slot k =
            if lo ≤ k ∧ k < lo + n ∧ (pd.slot k).state = 2 then { pd.slot k with state := 3 } else pd.slot k)
        ∧ u.tiles = s.tiles)
    ∧ (s.atDesc id 0x0061 d → pd.primary = true →
      let recs := (s.syncRecords p).take (d.nat 24 8 / 32)
      ∃ u, exec (.dumpSync id) s = .next u ∧ u.ended id 0 (BitVec.ofNat 64 recs.length)
        ∧ u.hostRead (d.nat 16 8) recs.flatten.length = recs.flatten ∧ u.tiles = s.tiles ∧ u.paddocks = s.paddocks)
    ∧ (s.atDesc id 0x0050 d → pd.inShare true (d.nat 16 8) (d.nat 24 8) = true → s.chainsReady d = false →
      exec (.checkpoint id) s = .next s)
    ∧ (s.atDesc id 0x0050 d → pd.inShare true (d.nat 16 8) (d.nat 24 8) = true → s.chainsReady d = true →
      ∃ u n c, exec (.checkpoint id) s = .next u ∧ n ≤ d.nat 24 8 ∧ u.ended id 0 (BitVec.ofNat 64 n) ∧ u.tiles = s.tiles
        ∧ look (u.paddock p).checkpoints (d.nat 16 8) = some c ∧ c.wafer = pd.wafer.objs ∧ c.sessions = pd.sessions
        ∧ c.chains = (s.chainsOf p).map (fun r => (r.chainIn, r.chainSeed, r.chainOut))
        ∧ (∀ k ∈ s.listedTiles p, look c.tiles k = some (s.tile k).mem)
        ∧ (∀ r ∈ s.regionsOf p, look c.barriers r = some (s.region r).barriers))
    ∧ (s.atDesc id 0x0051 d →
      (look pd.checkpoints (d.nat 16 8) = none → ∃ u, exec (.restore id) s = .next u ∧ u.ended id 0x0200 0
          ∧ { u with descs := s.descs, free := s.free } = s)
        ∧ (∀ c, look pd.checkpoints (d.nat 16 8) = some c → s.chainsReady d = false → exec (.restore id) s = .next s)
        ∧ (∀ c, look pd.checkpoints (d.nat 16 8) = some c → s.chainsReady d = true → (c.tiles.map Prod.fst).Nodup → (c.barriers.map Prod.fst).Nodup →
          ∃ u, exec (.restore id) s = .next u ∧ u.ended id 0 0 ∧ (u.paddock p).sessions = c.sessions
            ∧ (u.paddock p).wafer.objs = c.wafer ∧ (u.paddock p).seals.restored = true
            ∧ (u.paddock p).seals.restores = pd.seals.restores + 1
            ∧ (pd.primary = true → ∀ x ∈ (s.ringsOf p).zip c.chains, (u.ring x.1).chainIn = x.2.1 ∧ (u.ring x.1).chainSeed = x.2.2.1
                ∧ (u.ring x.1).chainOut = x.2.2.2)
            ∧ (∀ k m, look c.tiles k = some m → u.tile k = { s.tile k with mem := m })
            ∧ (∀ k ∈ s.listedTiles p, look c.tiles k = none → u.tile k = { s.tile k with mem := [] })
            ∧ (∀ r b, look c.barriers r = some b → u.region r = { s.region r with barriers := b })))

/-- R435, R437, R42, R45, R320, R321, R459: images and paddocks. -/
def Obligations.DescriptorsImages : Prop :=
  ∀ (id : Nat) (d : Desc) (s : State),
    (s.atDesc id 0x0020 d →
      let p := d.paddock
      let pd := s.paddock p
      let source := d.nat 8 1
      let len := d.nat 16 8
      let base := d.nat 32 8
      pd.current = none →
      (source ≤ 1 → pd.inShare false base len = true → (source = 1 → pd.inShare true (d.nat 24 8) len = true) →
        (source = 1 → s.shareLocked p true (d.nat 24 8) len = false) →
        (source = 0 → d.staged = none ∧ s.shared p = false) →
        let bytes := if source = 0 then s.hostBytes (d.nat 24 8) len else s.shareBytes p true (d.nat 24 8) len
        let s1 := if source = 0 then s else (s.touchShare p true (d.nat 24 8) len).countRead p true (d.nat 24 8) len
        let raw := bytes.map (fun b => BitVec.ofNat 8 b.1)
        let i := readImage raw base len none
        (imageBytesOk raw pd.rect len false = false → ∃ u, exec (.loadImage id) s = .next u ∧ u.ended id 0x0200 0
            ∧ (u.paddock p).image = pd.image ∧ u.tiles = s.tiles)
          ∧ (∀ pl, imageBytesOk raw pd.rect len false = true → s1.imageRefused p i raw = none → s1.placementFor i = some pl →
            ∃ u, exec (.loadImage id) s = .next u ∧ u.ended id 0 (BitVec.ofNat 64 len) ∧ (u.paddock p).image = some i
              ∧ (u.paddock p).reins = i.reins pl ∧ (u.paddock p).channels = i.channels pl
              ∧ (u.paddock p).groups = i.groups pl ∧ (u.paddock p).mirrors = i.mirrorRanges pl
              ∧ (∀ r ∈ i.regionsIn pl, (u.region r).barriers = objectMap (wordsOf (i.sec pl 3 r)) ∧ (u.region r).due = [])))
      ∧ (∀ i0, source = 2 → d.staged = none → s.shared p = false → (s.paddock (d.nat 9 1)).image = some i0 →
        let src := s.paddock (d.nat 9 1)
        let raw := (s.hostBytes (d.nat 24 8) len).map (fun b => BitVec.ofNat 8 b.1)
        let i := { readImage raw base i0.length (some (d.nat 9 1)) with
          sections := (readImage raw base i0.length none).sections ++ i0.sections.filter (fun x => x.kind == 8) }
        let content := (s.shareBytes (d.nat 9 1) false i0.base i0.length).map (fun b => BitVec.ofNat 8 b.1)
        imageBytesOk raw pd.rect len true = true → i.digest = i0.digest → d.nat 9 1 ≠ p → mayMap src pd i0 base = true →
        s.imageRefused p i content = none →
        ∃ u, exec (.loadImageShared id) s = .next u ∧ u.ended id 0 (BitVec.ofNat 64 i0.length)
          ∧ (u.paddock p).image = some i ∧ i.shared = some (d.nat 9 1) ∧ u.hostMem = s.hostMem
          ∧ (∀ n, n < (i0.tierUnits src).length →
              (u.paddock p).nearUnits.getD (base / 2 ^ 30 + n) 0 = (i0.tierUnits src).getD n 0)))
    ∧ (s.atDesc id 0x0021 d →
      let p := d.paddock
      (s.paddock p).current = none → (s.paddock p).pairMode = 0 →
      ∃ u, exec (.unloadImage id) s = .next u ∧ u.ended id 0 0 ∧ (u.paddock p).image = none ∧ (u.paddock p).ended = none
        ∧ (u.paddock p).reins = [] ∧ (u.paddock p).channels = [] ∧ (u.paddock p).wafer = {} ∧ u.tiles = s.tiles
        ∧ (∀ q, q ≠ p → u.paddock q = s.paddock q))
    ∧ (s.atDesc id 0x0100 d → ∀ near far,
      let p := d.nat 3 1
      s.createBad d = false →
      allotUnits false (tierUnitCount false) (d.nat 12 2) 0 (s.unitsHeld false) = some near →
      allotUnits true (tierUnitCount true) (d.nat 14 2) 0 (s.unitsHeld true) = some far →
      ∃ u, exec (.paddockCreate id) s = .next u ∧ u.ended id 0 0 ∧ u.paddock p = s.newPaddock d near far
        ∧ (∀ q, q ≠ p → u.paddock q = s.paddock q)
        ∧ (∀ r ∈ rectRegions (s.newPaddock d near far).rect, (u.region r).state = .active ∧ (u.region r).owner = p)
        ∧ (∀ n ∈ ringMask d, (u.ring n).paddock = p ∧ (u.ring n).chainIn = 0 ∧ (u.ring n).chainSeed = 0 ∧ (u.ring n).chainOut = 0)
        ∧ (∀ g, near.contains (g / 2 ^ 24) = true → u.near.granule g = {})
        ∧ (∀ g, near.contains (g / 2 ^ 24) = false → u.near.granule g = s.near.granule g)
        ∧ (∀ g, far.contains (g / 2 ^ 24) = true → u.far.granule g = {})
        ∧ (∀ k, (rectRegions (s.newPaddock d near far).rect).contains (regionOfTile k) = true → u.tile k = (s.tile k).afterReset)
        ∧ (∀ k, (rectRegions (s.newPaddock d near far).rect).contains (regionOfTile k) = false → s.ownerOf k ≠ p →
            u.tile k = s.tile k))
    ∧ (s.atDesc id 0x0101 d → canonical {} s.rings = true →
      let p := d.nat 3 1
      1 ≤ p → p ≤ 28 → (s.paddock p).live = true → (s.paddock p).pairMode = 0 →
      (∀ x ∈ s.descs, x.paddock = p → x.id = id ∨ x.completed = true) →
      ∃ u, exec (.paddockDestroy id) s = .next u ∧ u.ended id 0 0 ∧ u.paddock p = {}
        ∧ (∀ q, q ≠ p → u.paddock q = s.paddock q)
        ∧ (∀ r ∈ s.regionsOf p, (u.region r).owner = 0 ∧ (u.region r).state ≠ .active)
        ∧ (∀ k ∈ s.listedTiles p, (s.region (regionOfTile k)).zeroises = true →
            (u.tile k).mem = [] ∧ (u.tile k).poseMem = [] ∧ (u.tile k).queues = [] ∧ (u.tile k).syncs = [])
        ∧ (∀ n, (u.ring n).paddock = if (s.ring n).paddock = p then 0 else (s.ring n).paddock))
    ∧ (s.atDesc id 0x0102 d →
      let p := d.nat 3 1
      1 ≤ p → p ≤ 28 → (s.paddock p).live = true →
      (∀ c, c < 3 → d.nat (8 + c) 1 = 0 → ∀ i, (s.paddock p).image = some i → i.usesClass c = false) →
      ∃ u, exec (.budgetSet id) s = .next u ∧ u.ended id 0 0
        ∧ u.paddock p = { s.paddock p with latency := d.nat 8 1, normal := d.nat 9 1, background := d.nat 10 1 }
        ∧ { u with paddocks := s.paddocks, descs := s.descs, free := s.free } = s)

/-- R60, R61, R352, R354, R377, R382, R386, R389, R403, R439: strides, sessions, runs, screens and seals. -/
def Obligations.DescriptorsStrides : Prop :=
  ∀ (id : Nat) (d : Desc) (s : State),
    let p := d.paddock
    let pd := s.paddock p
    let begins := fun (c : Instr) (n : PendingStride) (work : Option DecodeWork) => ∃ u x, exec c s = .next u ∧ (u.paddock p).next = some n
      ∧ u.desc id = some x ∧ x.started = true ∧ x.status = none ∧ x.decode = work ∧ u.tiles = s.tiles ∧ (∀ q, q ≠ p → u.paddock q = s.paddock q)
    (∀ i, s.atDesc id 0x0030 d → pd.image = some i → pd.strideWaits = false → s.tableUsed p (d.nat 8 1) = true →
      (pd.paceSrc = 0 → d.nat 10 4 = 1) →
      begins (.stride id) { table := d.nat 8 1, kind := .stride, desc := some id, key := BitVec.ofNat 64 (d.nat 16 8), left := d.nat 10 4 } d.decode)
    ∧ (∀ i capacity a b, s.atDesc id 0x0032 d → pd.image = some i → i.decodePlan pd.placement = some (capacity, a, b) →
      look pd.sessions (d.nat 8 1) = none → d.nat 10 1 ≤ 8 → (1 ≤ d.nat 10 1 → i.maquette = true) →
      (d.nat 9 1 = 1 → positiveFinite (d.nat 12 4) = true) →
      ((pd.sessions.map (fun kv => kv.2.limit)).sum + d.nat 28 4 ≤ capacity → ∃ u x, exec (.decodeOpen id) s = .next u
          ∧ u.ended id 0 0 ∧ look (u.paddock p).sessions (d.nat 8 1) = some x ∧ x.seed = BitVec.ofNat 64 (d.nat 16 8)
          ∧ (x.sample = true ↔ d.nat 9 1 = 1) ∧ x.k = d.nat 10 1 ∧ x.maxNew = d.nat 24 4 ∧ x.limit = d.nat 28 4 ∧ x.pos = 0
          ∧ x.made = 0 ∧ x.finished = false ∧ u.tiles = s.tiles)
        ∧ (capacity < (pd.sessions.map (fun kv => kv.2.limit)).sum + d.nat 28 4 → ∃ u, exec (.decodeOpen id) s = .next u
          ∧ u.ended id 0x0201 0 ∧ { u with descs := s.descs, free := s.free } = s))
    ∧ (∀ x, s.atDesc id 0x0034 d → look pd.sessions (d.nat 8 1) = some x → ∃ u, exec (.decodeClose id) s = .next u
      ∧ u.ended id 0 0 ∧ look (u.paddock p).sessions (d.nat 8 1) = none
      ∧ (∀ n, n ≠ d.nat 8 1 → look (u.paddock p).sessions n = look pd.sessions n) ∧ u.tiles = s.tiles)
    ∧ (∀ i x plan table kind maquette, s.atDesc id 0x0033 d → pd.image = some i → look pd.sessions (d.nat 8 1) = some x →
      i.decodePlan pd.placement = some plan → kind ≤ 2 → d.nat 9 1 = kind → pd.strideWaits = false → (kind = 2 → x.k ≠ 0) →
      x.finished = false → (∀ o, pd.current = some o → o.kind ≠ .decode (d.nat 8 1)) →
      let w : DecodeWork := { kind := kind, session := d.nat 8 1, k := x.k, prompt := (if kind = 0 then s.stepTokens d.bytes d.staged else []), maquette := (if kind = 2 then maquette else []), last := d.nat 11 1 == 1 }
      (planTable plan.2.2 kind x.k (w.stop x x.pos)).or (lastTable plan.2.2 kind x.k) = some table → s.tableUsed p table = true →
      let n : PendingStride := { table := table, kind := .decode (d.nat 8 1), desc := some id, key := x.seed, left := 1 }
      (kind = 0 → begins (.decodeStepPrefill id (d.nat 8 1)) n (some w))
        ∧ (kind = 1 → begins (.decodeStepPlain id (d.nat 8 1)) n (some w))
        ∧ (kind = 2 → begins (.decodeStepOutrider id (d.nat 8 1) maquette) n (some w)))
    ∧ (∀ i x, s.atDesc id 0x0033 d → pd.image = some i → look pd.sessions (d.nat 8 1) = some x → x.finished = true →
      d.nat 9 1 = 1 → ∃ u, exec (.decodeStepPlain id (d.nat 8 1)) s = .next u
        ∧ u.ended id 0 (BitVec.ofNat 64 (x.pos * 2 ^ 32)) ∧ { u with descs := s.descs, free := s.free } = s)
    ∧ (∀ i t key, s.atDesc id 0x0040 d → look pd.tallies (d.nat 8 1) = some t →
      (if d.nat 10 1 = 0 then some 0 else look pd.relKeys (d.nat 11 1)) = some key → t.enable = true →
      d.nat 16 8 + t.cpo * (pd.tallyOwners (d.nat 8 1)).length ≤ 2 ^ 36 →
      samplerOk (d.nat 10 1) (d.nat 24 4) (d.nat 28 4) = true → pd.image = some i → s.tableUsed p (d.nat 32 1) = true →
      pd.strideWaits = false →
      begins (.tallyRun id) { table := d.nat 32 1, kind := .tally { ctx := { decl := d.nat 8 1, base := d.nat 16 8, sampler := d.nat 10 1, p1 := d.nat 24 4, p2 := d.nat 28 4, k0 := (noiseKey key (d.nat 12 4)).1, k1 := (noiseKey key (d.nat 12 4)).2 }, clear := d.nat 9 1 % 2 == 1, slot := d.nat 11 1, desc := id }, desc := some id, key := BitVec.ofNat 64 (d.nat 36 8), left := d.nat 34 2 } d.decode)
    ∧ (∀ run t k, s.desc id = some d → pd.run = some run → run.desc = id → look pd.tallies run.ctx.decl = some t → t.cpo = 1 →
      pd.tallyOwners run.ctx.decl = [k] → (s.tile k).word (t.prot / 8) = ⟨pendingCell, false⟩ →
      ((s.tile k).word (t.table / 8)).poison = false →
      let z := noiseUnbounded run.ctx.sampler run.ctx.p1 run.ctx.p2 run.ctx.k0 run.ctx.k1 (BitVec.ofNat 64 run.ctx.base)
      ∃ u x, exec (.tallyFinish id) s = .next u ∧ (u.paddock p).run = none ∧ (u.paddock p).eraseDue = []
        ∧ (u.paddock p).relKeys = pd.eraseDue.foldl (fun m k => drop m k) pd.relKeys
        ∧ u.desc id = some x ∧ x.status = some (d.status.getD d.strideStatus) ∧ x.result = 1
        ∧ (u.tile k).word (t.prot / 8) = (noisyCount ((s.tile k).word (t.table / 8)).val z).1.stored
        ∧ u.otherTiles s k)
    ∧ (s.atDesc id 0x0060 d → pd.current = none → s.screenMaskOk d = true → d.slot = none → (pd.primary = true ∨ d.ring = 0) →
      let tested := BitVec.ofNat 64 ((screenTiles d).filter s.standing).length
      let recs := recordsOf 24 (s.hostRead (d.nat 32 8) (24 * d.nat 40 4))
      let out := (recs.map (fun b =>
        let w := fun i => BitVec.ofNat 32 (descNat b (4 * i) 4)
        ((generator (w 0) (w 1) (w 2) (w 3) (w 4) (w 5)).map (fun x => bytesLE 4 x.toNat)).flatten)).flatten
      (d.nat 8 1 = 0 → ∃ u, exec (.screenSelfTest id []) s = .next u ∧ u.ended id 0 tested
          ∧ (p ≠ 0 → { u with descs := s.descs, hostPoison := s.hostPoison, free := s.free } = s) ∧ u.tiles = s.tiles)
        ∧ (d.nat 8 1 = 1 → ∃ u, exec (.screenGeneratorKa id) s = .next u ∧ u.ended id 0 tested
          ∧ u.hostRead (d.nat 48 8) out.length = out ∧ u.tiles = s.tiles)
        ∧ (d.nat 8 1 = 2 → (∀ b ∈ recordsOf 32 (s.hostRead (d.nat 32 8) (32 * d.nat 40 4)), descNat b 24 1 ≠ 0
            ∧ samplerOk (descNat b 24 1) (d.nat 56 4) (d.nat 60 4) = true) →
          ∃ u st r, exec (.screenSamplerKa id) s = .next u ∧ u.ended id st r ∧ u.tiles = s.tiles
            ∧ (st = 0 ∧ r = tested ∨ st = 0x0100 ∧ r = 0)))
    ∧ (∀ st, s.desc id = some d → d.status = some st → s.sealDue d = true → s.halted = false → s.d3hot = false → d.slot = none → d.staged = none →
      let s0 := s.addLate d
      let e := { (s0.desc id).getD d with status := some st }
      let s1 := s0.setRing d.ring (e.chainRecords.foldl Ring.addRecord (s0.ring d.ring))
      let at_ := pd.seals.base.toNat + 1024 * ((pd.seals.sequence.toNat + 1) % 2 ^ pd.seals.log2)
      let seals := pd.seals
      ∃ u x, exec (.sealIssue id) s = .next u ∧ u.hostRead at_ (s1.sealRecord e).length = s1.sealRecord e
        ∧ (u.paddock p).seals = { seals with sequence := seals.sequence + 1, unsealedIn := false, unsealedOut := false, replayed := false, restored := false, takeover := false, stretched := false, spanStart := d.count.getD pd.paceCount, held := 0 }
        ∧ u.desc id = some x ∧ x.sealed = true ∧ x.status = some st ∧ u.tiles = s.tiles)

/-- R536, R537, R547, R563, R576 to R578: the admin ring's own descriptors. -/
def Obligations.DescriptorsAdmin : Prop :=
  ∀ (id : Nat) (d : Desc) (s : State),
    (s.atDesc id 0x0110 d → s.yoke.attachDesc = none →
      (s.yoke.down = true → ∃ u, exec (.yokeAttach id) s = .next u ∧ u.ended id 0x0200 0 ∧ u.yoke.attachFail = 1
          ∧ u.yoke.attachDesc = none ∧ u.paddocks = s.paddocks ∧ u.tiles = s.tiles)
        ∧ (s.yoke.down = false → s.yoke.heard = none → ∃ u x, exec (.yokeAttach id) s = .next u
          ∧ u.yoke.attachDesc = some id ∧ u.desc id = some x ∧ x.started = true ∧ x.status = none ∧ u.paddocks = s.paddocks)
        ∧ (∀ a r, s.yoke.down = false → s.yoke.heard = some a → s.attachReason d a = some r →
          ∃ u, exec (.yokeAttach id) s = .next u ∧ u.ended id 0x0200 0 ∧ u.yoke.attachFail = r ∧ u.yoke.attachDesc = none
            ∧ u.paddocks = s.paddocks)
        ∧ (∀ a, s.yoke.down = false → s.yoke.heard = some a → s.attachReason d a = none →
          let mask := BitVec.ofNat 32 (d.nat 16 4)
          ∃ u, exec (.yokeAttach id) s = .next u ∧ u.yoke.attached = true ∧ u.yoke.mode = d.nat 8 1 + 1 ∧ u.yoke.mask = mask
            ∧ (∀ q ∈ maskPaddocks mask, (u.paddock q).pairMode = d.nat 8 1 + 1)
            ∧ (∀ q, q ∉ maskPaddocks mask → u.paddock q = s.paddock q)
            ∧ (d.nat 8 1 = 2 → u.ended id 0 0)))
    ∧ (s.atDesc id 0x0111 d → s.yoke.attachDesc = none → s.yoke.detachDesc = none →
      ((∀ q, 1 ≤ q → q ≤ 28 → (s.paddock q).pairMode = 0) → ∃ u, exec (.yokeDetach id) s = .next u ∧ u.ended id 0 0
          ∧ u.yoke.attached = false ∧ u.yoke.mode = 0 ∧ u.yoke.mask = 0 ∧ u.paddocks = s.paddocks)
        ∧ (∀ p, 1 ≤ p → p ≤ 28 → (s.paddock p).pairMode ≠ 0 → (s.paddock p).primary = true → s.yoke.down = true →
          (∀ q, 1 ≤ q → q ≤ 28 → q ≠ p → (s.paddock q).pairMode = 0) → ∃ u, exec (.yokeDetach id) s = .next u ∧ u.ended id 0 0
          ∧ u.yoke.attached = false ∧ u.paddock p = { s.paddock p with pairMode := 0, primary := true, twin := {} }
          ∧ (∀ q, q ≠ p → u.paddock q = s.paddock q)))
    ∧ (s.atDesc id 0x0120 d → s.bankBusy id = false →
      let b := d.nat 8 1 == 1
      let image := s.hostRead (d.nat 24 8) (d.nat 16 8)
      (s.stageRefused b image = true → ∃ u, exec (.fwStage id) s = .next u ∧ u.ended id 0x0200 0
          ∧ { u with descs := s.descs, free := s.free } = s)
        ∧ (d.nat 16 8 ≤ 2 ^ 26 → s.stageRefused b image = false → ∃ u, exec (.fwStage id) s = .next u
          ∧ u.ended id 0 (BitVec.ofNat 64 (d.nat 16 8)) ∧ u.sec = s.sec.setBank b (.written image) ∧ u.tiles = s.tiles))
    ∧ (s.atDesc id 0x0121 d → s.bankBusy id = false →
      let b := d.nat 8 1 == 1
      (s.sec.bankEmpty b = true → ∃ u, exec (.fwActivate id) s = .next u ∧ u.ended id 0x0200 0 ∧ u.sec = s.sec)
        ∧ (s.sec.bankEmpty b = false → ∃ u, exec (.fwActivate id) s = .next u ∧ u.ended id 0 0
          ∧ u.sec = { s.sec with preferred := b } ∧ u.tiles = s.tiles))
    ∧ (s.atDesc id 0x0130 d →
      let t := s.hostRead (d.nat 24 8) (d.nat 16 8)
      (∀ c, s.tokenFail t = some c → ∃ u, exec (.debugOpen id) s = .next u ∧ u.ended id 0x0200 0
          ∧ u.sec = { s.sec with attempts := s.sec.attempts + 1, nonce := s.random256, lastFail := c }
          ∧ u.debugOpen = s.debugOpen ∧ u.paddocks = s.paddocks ∧ u.tiles = s.tiles)
        ∧ (s.tokenFail t = none → ∃ u, exec (.debugOpen id) s = .next u ∧ u.debugOpen = true
          ∧ u.sec.scope = BitVec.ofNat 64 (descNat t 48 8) ∧ u.sec.signer = descNat t 6 1 ∧ u.sec.attempts = s.sec.attempts + 1
          ∧ u.sec.secrets = [] ∧ u.sec.sessions = [] ∧ u.sec.ideKeys = []
          ∧ (∀ p, (u.paddock p).live = true → (u.paddock p).keyless = true ∧ (u.paddock p).relKeys = [])
          ∧ ((∀ p, 1 ≤ p → p ≤ 28 → (s.paddock p).live = false) → u.ended id 0 0)))

/-- R477 to R492: reports, collectors and reactions. -/
def Obligations.ErrorReports : Prop :=
  let taken := fun (c : Instr) (s s0 : State) (r : Report) =>
    let x := s0.reactionOf r
    let old := s0.collector (homeOf r)
    (x ≤ 1 → (isPath r = true → s0.compat = true) → (s0.compat && old.valid) = false → ∃ u w, exec c s = .next u
        ∧ (u.collector (homeOf r)).valid = true ∧ (u.collector (homeOf r)).seq = old.seq + 1
        ∧ look (u.collector (homeOf r)).hist old.next = some w ∧ w.report = r ∧ w.seq = old.seq + 1
        ∧ (u.collector (homeOf r)).next = (old.next + 1) % histSize (homeOf r)
        ∧ (old.valid = false → (u.collector (homeOf r)).first = some w)
        ∧ (old.valid = true → (u.collector (homeOf r)).first = old.first)
        ∧ u.tiles = s0.tiles ∧ u.raised = s0.raised ∧ u.halted = s0.halted)
      ∧ (x = 2 → s0.halted = false → r.paddock ≠ 0 → (s0.paddock r.paddock).live = true → (s0.paddock r.paddock).ended = none →
        ∃ u, exec c s = .next u ∧ (u.paddock r.paddock).ended = some (killStatus r)
          ∧ (u.paddock r.paddock).current = none ∧ (u.paddock r.paddock).next = none
          ∧ ∀ k ∈ s0.listedTiles r.paddock, (u.tile k).parked = true)
      ∧ (∀ k, x = 3 → s0.halted = false → reportTile r = some k → s0.present k = true → (isPath r = true ∨ r.cls.getLsbD 4 = false) →
        ∃ u, exec c s = .next u ∧ u.holes = s0.holes ++ [k] ∧ (∃ y ∈ u.repairs, y.tile = k)
          ∧ (∃ e ∈ u.patinaDue, e.kind = 1 ∧ e.place = s0.tilePlace k))
      ∧ (∀ g, x = 4 → s0.halted = false → reportRegion r = some g → s0.sampled g = true →
        ∃ u, exec c s = .next u ∧ (u.region g).state = .isolated ∧ ∀ h, h ≠ g → (u.region h).state = (s0.region h).state)
      ∧ (5 ≤ x → s0.halted = false → s0.ready = true → ∃ u, exec c s = .next u ∧ u.halted = true ∧ u.haltCause = haltCauseOf r)
  (∀ (r : Report) (rest : List Report) (s : State), s.raised = r :: rest → ¬ (r.code = 0x0702 ∧ sourceType r.source = 3) →
      taken (.errorReport none) s { s with raised := rest } r)
    ∧ (∀ (r : Report) (s : State), r.listed = true → r.code ≠ 0x0101 → ¬ (r.code = 0x0702 ∧ sourceType r.source = 3) →
      (∀ g, reportRegion r = some g → s.sampled g = true) → taken (.errorReport (some r)) s s r)
    ∧ (∀ (source : BitVec 16) (k : TileIx) (s : State), (sourceType source ≤ 1 → s.present k = true) →
      (∀ g, reportRegion (s.pathReport source k 0x0300) = some g → g < 28 ∧ s.sampled g = true) →
      taken (.pathFault source k) s s (s.pathReport source k 0x0300)
        ∧ taken (.lineWithoutReport source k) s s (s.pathReport source k 0x0301)
        ∧ taken (.ackTimeout source k) s s (s.pathReport source k 0x0300))
    ∧ (∀ s : State, (s.halted = false → ∃ u, exec .haltNow s = .next u ∧ u.halted = true ∧ u.haltCause = 5)
      ∧ (s.halted = true → exec .haltNow s = .next s.bump))
    ∧ (∀ (compat : Bool) (s : State),
      (bitOf s.fcCtrl 63 = false → (∀ kv ∈ s.collectors, kv.2.valid = false) → ∃ u, exec (.fcModeWrite compat) s = .next u
          ∧ u.compat = compat ∧ { u with fcCtrl := s.fcCtrl, free := s.free } = s)
        ∧ (bitOf s.fcCtrl 63 = true → exec (.fcModeWrite compat) s = .next s.bump))
    ∧ (∀ (f : Option (Fin 84)) (s : State),
      let n := match f with | some x => x.val | none => 84
      ∃ u, exec (.firstErrorClear f) s = .next u
        ∧ u.collector n = { s.collector n with valid := false, count := 0, classOr := 0 }
        ∧ (∀ j, j ≠ n → u.collector j = s.collector j) ∧ { u with collectors := s.collectors, free := s.free } = s)

/-- R298, R506, R511 to R521: flips, re-placement, retirement, the patina map. -/
def Obligations.RepairsAndPatina : Prop :=
  (∀ (k : TileIx) (ws : List (BitVec 64)) (s : State), s.flip = false → s.repairs = [] → ws.length ≤ 32 →
    canonical Tile.reset s.tiles = true →
    ∃ u, exec (.tableFlipRequest [(k, ws)]) s = .next u ∧ u.flip = true ∧ u.epoch = s.epoch ∧ u.segMap = s.segMap ∧ u.segIdle = s.segMap
      ∧ (∀ j, j < 32 → getD 0 (if s.epoch then (u.tile k).detourA else (u.tile k).detourB) j = ws.getD j 0)
      ∧ (s.epoch = true → (u.tile k).detourB = (s.tile k).detourB) ∧ (s.epoch = false → (u.tile k).detourA = (s.tile k).detourA)
      ∧ (∀ r, r < 28 → u.region r = if (s.region r).state = .isolated ∨ (s.region r).state = .lost ∨ (s.region r).state = .off then
          { s.region r with epoch := !s.epoch } else s.region r))
  ∧ (∀ (ds : List (TileIx × List (BitVec 64))) (s : State), s.flip = true → ∃ u, exec (.tableFlipRequest ds) s = .next u
      ∧ u.flipQueue = s.flipQueue ++ [ds.map (fun (x : TileIx × List (BitVec 64)) => (x.1.val, x.2))]
      ∧ { u with flipQueue := s.flipQueue, free := s.free } = s)
  ∧ (∀ (k : TileIx) (c : Nat) (s : State), s.flip = false → s.repairs = [⟨k, c, false⟩] → s.ownerOf k = 0 →
    ∃ u, exec (.tableFlipRequest []) s = .next u ∧ u.flip = true ∧ u.repairs = [⟨k, c, true⟩] ∧ u.segMap = s.segMap ∧ u.holes = s.holes
      ∧ getD shippedCols u.segIdle (s.segOf k) = (giveUp (s.colsOf k, s.spareCols k) (tileX k % 70) c).1)
  ∧ (∀ s : State, s.flip = true → (∀ r, r < 28 → (s.region r).epoch = !s.epoch) → s.oldFlits = false → s.flipQueue = [] →
    (s.repairs = [] → ∃ u, exec .tableFlipComplete s = .next u ∧ u.flip = false ∧ u.epoch = !s.epoch ∧ u.segMap = s.segIdle
        ∧ u.segIdle = s.segMap ∧ u.holes = s.holes ∧ u.merged = s.mergedNow ∧ u.repairs = [])
      ∧ (∀ (k : TileIx) (c : Nat), s.repairs = [⟨k, c, true⟩] → s.ownerOf k = 0 →
        let new := (getD shippedCols s.segIdle (s.segOf k)).getD (tileX k % 70) none
        ∃ u, exec .tableFlipComplete s = .next u ∧ u.flip = false ∧ u.epoch = !s.epoch ∧ u.segMap = s.segIdle ∧ u.repairs = []
          ∧ (new.isSome = true → u.holes = s.holes.filter (· != k.val) ∧ u.repairsDone = s.repairsDone + 1)
          ∧ (new = none → u.holes = s.holes ∧ u.repairsDone = s.repairsDone)))
  ∧ (∀ (p : PaddockId) (r : Nat) (i : Image) (s : State),
    let d := s.paddock p
    d.replaceDue = some r → s.halted = false → d.image = some i → s.shared p = false →
    let possible := bitOf (s.repairCtrl p) 0 && i.placements.contains (r + 1) && (d.excluded == none || d.excluded == some r)
    (possible = false → p.val ≠ 0 → d.live = true → d.ended = none → ∃ u, exec (.rePlacement p) s = .next u
        ∧ (u.paddock p).ended = some 0x0102 ∧ (u.paddock p).replaceDue = none)
      ∧ (possible = true → ∃ u, exec (.rePlacement p) s = .next u ∧ (u.paddock p).excluded = some r
        ∧ (u.paddock p).replaceDue = none ∧ (u.paddock p).image = some i ∧ (u.paddock p).reins = i.reins (r + 1)
        ∧ (u.paddock p).replacements = (if d.replacements = 255 then 255 else d.replacements + 1)
        ∧ (u.paddock p).remount.slots = []))
  ∧ (∀ (k : TileIx) (s : State), s.present k = true → s.worn (s.tilePlace k) = true → s.ownerOf k = 0 → s.halted = false →
    ∃ u e, exec (.tileRetire k) s = .next u ∧ u.holes = s.holes ++ [k.val] ∧ (u.tile k).parked = true ∧ u.otherTiles s k
      ∧ u.patinaDue = s.patinaDue ++ [e] ∧ e.kind = 3 ∧ e.place = s.tilePlace k)
  ∧ (∀ (entry : BitVec 128) (s : State),
    let e : PatinaEntry := ⟨entry.toNat % 2 ^ 16, entry.toNat / 2 ^ 16 % 2 ^ 16, BitVec.ofNat 32 (entry.toNat / 2 ^ 32), BitVec.ofNat 64 (entry.toNat / 2 ^ 64)⟩
    1 ≤ e.kind → e.kind ≤ 10 → ∃ u, exec (.patinaWrite entry) s = .next u ∧ u.patina = s.patina ++ [e]
      ∧ u.patinaSeq = (s.patinaSeq + 1) % 2 ^ 32
      ∧ (∀ x ∈ u.patinaDue, x ∈ s.patinaDue ∧ ¬ (x.kind = e.kind ∧ x.unit = e.unit ∧ x.place = e.place))
      ∧ (e.kind ≠ 10 → u.hotPairs = s.hotPairs)
      ∧ { u with patina := s.patina, patinaSeq := s.patinaSeq, patinaDue := s.patinaDue, hotPairs := s.hotPairs, free := s.free } = s)

/-- R450 to R453, R456, R464, R467, R468: power and heat. -/
def Obligations.PowerAndHeat : Prop :=
  (∀ (temps : List Nat) (s : State), (temps.length = 31 ∨ temps.length = 59) → s.ready = true → s.hotPairs = [] →
    ∃ u, exec (.ledgerPeriod temps) s = .next u ∧ u.coolantFlow = 2 * min (temps.getD 29 0) (temps.getD 30 0) ∧ u.pldm.inlet = temps.getD 28 0
      ∧ u.tiles = s.tiles ∧ u.paddocks = s.paddocks
      ∧ ∀ r, r < 28 → (s.region r).supplied = true →
        let g := u.region r
        let part := (s.shares (s.region r)).1 * g.capW
        g.tempC = temps.getD r 0 ∧ g.capW = u.effectiveCap g ∧ g.owner = (s.region r).owner ∧ g.state = (s.region r).state
          ∧ g.latencyUj = min ((s.region r).latencyUj + (part : Int)) ((part * s.carryPeriods : Nat) : Int))
  ∧ (∀ (r : RegionIx) (s : State),
    (s.clocked r = true → ∃ u, exec (.regionPowerLimit r) s = .next u
        ∧ u.region r = (s.region r).engage (if (s.region r).throttle.contains 1 then 2 else 1)
        ∧ (∀ j, j ≠ r.val → u.region j = s.region j) ∧ { u with regions := s.regions, free := s.free } = s)
      ∧ ((s.region r).throttle.contains 1 = true → ∃ u, exec (.throttleRelease r 1) s = .next u
        ∧ u.region r = ((s.region r).disengage 1).disengage 2 ∧ (∀ j, j ≠ r.val → u.region j = s.region j))
      ∧ ((s.region r).throttle.contains 3 = true → ∃ u, exec (.throttleRelease r 3) s = .next u
        ∧ u.region r = (s.region r).disengage 3 ∧ (∀ j, j ≠ r.val → u.region j = s.region j))
      ∧ ((s.region r).supplied = true → ∃ u, exec (.efuseTrip r) s = .next u ∧ (u.region r).state = .lost
        ∧ (u.region r).efuse = true ∧ (u.region r).throttle = [] ∧ (∀ k, regionOfTile k = r.val → u.tile k = Tile.reset)
        ∧ u.raised = s.raised ++ [{ frameReport (0x4000 + r.val) 0x0700 clsRegion (s.region r).owner 0 with pace := (s.paddock ((s.region r).owner)).paceCount }]
        ∧ (∀ p ∈ u.net, ∀ k i e, p.pos = .router k i e → regionOfTile k ≠ r.val))
      ∧ ((s.region r).phases ≠ 0 → (s.region r).supplied = true →
        let w := (s.region r).phases - 1
        ∃ u, exec (.phaseFail r) s = .next u ∧ u.region r = { s.region r with phases := w }
          ∧ (∀ j, j ≠ r.val → u.region j = s.region j)
          ∧ (40 ≤ w → u.raised = s.raised ++ [{ frameReport (0x4000 + r.val) 0x0502 clsInfra (s.region r).owner 0 with pace := (s.paddock ((s.region r).owner)).paceCount }])
          ∧ (20 ≤ w → w < 40 → u.raised = s.raised)
          ∧ (w < 20 → u.raised = s.raised ++ [{ frameReport (0x4000 + r.val) 0x0701 clsRegion (s.region r).owner 0 with pace := (s.paddock ((s.region r).owner)).paceCount }])))
  ∧ (∀ s : State, ∃ u, exec .modulePowerLimit s = .next u
      ∧ (∀ r, r < 28 → u.region r = if (s.region r).state = .active then (s.region r).engage 3 else s.region r)
      ∧ { u with regions := s.regions, free := s.free } = s)
  ∧ (∀ (b : Bool) (s : State),
    (s.feedOk b = true → ∃ u, exec (.feedLost b) s = .next u ∧ u.feedOk b = false ∧ u.feedOk (!b) = s.feedOk (!b)
        ∧ u.raised = s.raised ++ [{ frameReport (if b then 0x7001 else 0x7000) 0x0500 clsInfra 0 0 with pace := (s.paddock 0).paceCount }]
        ∧ (∀ r, r < 28 → (s.region r).state = .active → (u.region r).throttle.contains 0 = true)
        ∧ (∀ r, r < 28 → (s.region r).supplied = true → (u.region r).capW = u.effectiveCap (u.region r)))
      ∧ (s.feedOk b = false → s.pwrGood = true → exec (.feedRestored b) s
        = .next ((s.setFeed b true).raise (frameReport (if b then 0x7001 else 0x7000) 0x0501 clsInfra 0 0)).bump))
  ∧ (∀ s : State, s.pwrGood = true → ∃ u, exec .bothFeedsLost s = .next u ∧ u.halted = true ∧ u.feedA = false
      ∧ u.feedB = false ∧ u.pwrGood = false ∧ u.released = false ∧ u.ready = false ∧ (s.halted = false → u.haltCause = 4))
  ∧ (∀ s : State, s.converters ≠ 0 → ∃ u e, exec .converterFail s = .next u ∧ u.converters = s.converters - 1
      ∧ u.patinaDue = s.patinaDue ++ [e] ∧ e.kind = 9
      ∧ u.raised = s.raised ++ [{ frameReport (0x7002 + (14 - s.converters)) 0x0503 clsInfra 0 0 with pace := (s.paddock 0).paceCount }] ∧ u.regions = s.regions)
  ∧ (∀ s : State, exec .coolantInletLimit s = .next (s.raise (frameReport 0x6FFF 0x0507 clsInfra 0 0)).bump
      ∧ exec .coolantFlowLimit s = .next (s.raise (frameReport 0x6FFF 0x0507 clsInfra 0 0)).bump)

/-- R528 to R531, R549 to R555: links, channels and windows. -/
def Obligations.LinksOfThePeers : Prop :=
  ∀ (link : Fin 30) (s : State),
    let n := link.val
    let x := s.link n
    let last := (x.expect + 4095) % 4096
    let engine := if 20 ≤ n then 0 else s.engineId
    (∀ f : LinkFrame, s.linkUp n = true → s.halted = false →
      ((f.good = false ∨ f.kind ≠ 1 ∨ f.dest.toNat ≠ engine) → exec (.yokeData link f) s = .next (s.cntPort n 2 1).bump)
        ∧ (f.good = true → f.kind = 1 → f.dest.toNat = engine →
          (∀ t, f.seq % 4096 = x.expect →
            s.takeData n f.channel.toNat (packetOfBytes f.body f.poison.toNat) = some t → ∃ u, exec (.yokeData link f) s = .next u
              ∧ (u.link n).expect = (x.expect + 1) % 4096
              ∧ u.out = t.out ++ [.frame n { seq := x.expect, kind := 2, dest := s.peerOf n }] ∧ u.tiles = t.tiles ∧ u.net = t.net)
          ∧ (f.seq % 4096 = x.expect →
            let p := packetOfBytes f.body f.poison.toNat
            (p.op = .get ∨ p.op = .put) → s.inboundWindow n p = none → ∃ u, exec (.yokeData link f) s = .next u
              ∧ (u.link n).expect = (x.expect + 1) % 4096 ∧ u.tiles = s.tiles ∧ u.near = s.near ∧ u.far = s.far
              ∧ ∃ a, (u.link n).unacked = x.unacked ++ [a] ∧ a.body = (p.answer .nack p.operand []).bytes)
          ∧ (f.seq % 4096 ≠ x.expect → ∃ u, exec (.yokeData link f) s = .next u ∧ u.ports = s.ports ∧ u.tiles = s.tiles
              ∧ u.out = s.out ++ [.frame n { seq := last, kind := (if (x.expect + 4096 - f.seq % 4096) % 4096 ≤ 2048 then 2 else 3), dest := s.peerOf n }])))
    ∧ (s.linkUp n = true →
      (∀ seq i, x.unacked.findIdx? (fun f => f.seq == seq) = some i → ∃ u, exec (.ack link seq) s = .next u
          ∧ u.link n = { x with unacked := x.unacked.drop (i + 1) } ∧ (∀ m, m ≠ n → u.link m = s.link m))
        ∧ (∀ seq, (∀ f ∈ x.unacked, f.seq ≠ seq) → x.unacked.length ≤ 512 → ∃ u, exec (.nak link seq) s = .next u
          ∧ u.out = s.out ++ x.unacked.map (fun f => Out.frame n f) ∧ (u.link n).unacked = x.unacked
          ∧ (u.link n).retries = (x.retries + x.unacked.length) % 2 ^ 32)
        ∧ (x.unacked ≠ [] → x.unacked.length ≤ 512 → ∃ u, exec (.linkRetryTimeout link) s = .next u
          ∧ u.out = s.out ++ x.unacked.map (fun f => Out.frame n f) ∧ (u.link n).unacked = x.unacked
          ∧ (u.link n).retries = (x.retries + x.unacked.length) % 2 ^ 32)
        ∧ (∀ channel q c k ref rest, (s.outChannels n).find? (fun y => y.2.id == channel) = some (q, c) →
          c.inFlight = (k, ref) :: rest → ∃ u, exec (.credit link channel 1) s = .next u
            ∧ u.paddock q = (s.paddock q).setChannel { c with inFlight := rest } ∧ (∀ j, j ≠ q → u.paddock j = s.paddock j)
            ∧ u.otherTiles s k)
        ∧ (exec (.heartbeat link) s = .next (if 20 ≤ n then { s with yoke := { s.yoke with alive := true } } else s).bump)
        ∧ (20 ≤ n → ∃ u, exec (.heartbeatSend link) s = .next u
          ∧ u.out = s.out ++ [.frame n { seq := 0, kind := 5, dest := 0 }] ∧ u.ports = s.ports ∧ u.tiles = s.tiles))
    ∧ (s.yoke.down = false → ∃ u, exec .yokeDown s = .next u ∧ u.yoke.down = true ∧ u.yoke.alive = false
      ∧ (∀ m, 20 ≤ m → m < 30 → (u.link m).state = 0 ∧ (u.link m).unacked = []) ∧ (∀ m, m < 20 → u.link m = s.link m))
    ∧ (∀ port : Fin 20, s.linkUp port = true → ∃ u, exec (.halted port) s = .next u ∧ (u.link port).halted = true
      ∧ bitOf (getD 0 u.fbRoute (s.peerOf port)) 63 = true
      ∧ u.raised = s.raised ++ [{ frameReport (0xB000 + port.val) 0x050A clsInfra 0 0 with pace := (s.paddock 0).paceCount }]
      ∧ (∀ w ∈ u.peerWaits, w.link < 20 → s.peerOf w.link ≠ s.peerOf port))
    ∧ (∀ lane : BitVec 8, x.state = 2 →
      (x.sparesUsed < (if n < 20 then 2 else 1) → ∃ u e, exec (.laneSpare link lane) s = .next u
          ∧ u.link n = { x with sparesUsed := x.sparesUsed + 1 } ∧ (∀ m, m ≠ n → u.link m = s.link m)
          ∧ u.patinaDue = s.patinaDue ++ [e] ∧ e.kind = 8)
        ∧ ((if n < 20 then 2 else 1) ≤ x.sparesUsed → ∃ u, exec (.laneSpare link lane) s = .next u ∧ (u.link n).state = 0
          ∧ (n < 20 → u.raised = s.raised ++ [{ frameReport (0xB000 + n) 0x050A clsInfra 0 0 with pace := (s.paddock 0).paceCount }])))
    ∧ (∀ (port : Fin 20) (peer : BitVec 6), (s.link port).state ≠ 2 → (s.link port).enable = true → s.ready = true →
      s.halted = false → ∃ u, exec (.fabricPortRetrain port peer) s = .next u ∧ (u.link port).state = 2
        ∧ (u.link port).peer = peer.toNat ∧ (u.link port).halted = false ∧ bitOf (getD 0 u.fbRoute peer.toNat) 63 = false)
    ∧ (∀ group : Fin 10, (s.link (20 + group.val)).state ≠ 2 → s.released = true → s.halted = false →
      ∃ u, exec (.yokeRetrain group) s = .next u ∧ u.link (20 + group.val) = { s.link (20 + group.val) with state := 2 }
        ∧ (u.yoke.down = true ↔ s.yoke.down = true ∧ u.groupsUp < 5) ∧ u.tiles = s.tiles)
    ∧ (∀ channel chseq words, channel < 32 → chseq < 2 ^ 16 → (words.length = 2 ∨ words.length = 4) → s.linkUp n = true →
      s.halted = false →
      (s.inChannel n channel = none → ∃ u a, exec (.remoteChannelMsg link channel chseq words) s = .next u
          ∧ (u.link n).unacked = x.unacked ++ [a] ∧ a.channel = channel ∧ u.net = s.net ∧ u.paddocks = s.paddocks)
        ∧ (∀ q c, s.inChannel n channel = some (q, c) → chseq = c.expect → c.held = [] → 0 < c.credit →
          ∃ u m, exec (.remoteChannelMsg link channel chseq words) s = .next u ∧ u.net = s.net ++ [m] ∧ m.op = .msg
            ∧ m.destX = field c.dest 30 10 ∧ m.destY = field c.dest 40 10 ∧ m.queue = field c.dest 0 5
            ∧ m.data = flitPoison (words.map (fun w => if w.2 then { poison := true } else { val := w.1 }))
            ∧ u.paddock q = (s.paddock q).setChannel { c with expect := (c.expect + 1) % 2 ^ 16 } ∧ u.tiles = s.tiles))

/-- R534 to R547: what the twin's messages do. -/
def Obligations.TwinMessages : Prop :=
  ∀ (n : Nat) (s : State), s.yokeGroup = some n → s.halted = false →
    let acked := fun (c : Instr) (what : State → Prop) => ∃ u l, exec c s = .next u
      ∧ (u.link n).expect = ((s.link n).expect + 1) % 4096
      ∧ u.out = l ++ [.frame n { seq := (s.link n).expect, kind := 2, dest := 0 }] ∧ what u
    (∀ (p : PaddockId) (stride m : Nat), s.shared p = true → acked (.mPropose p stride m) (fun u =>
      (u.paddock p).twin = { (s.paddock p).twin with twinM := some (stride, m) } ∧ u.tiles = s.tiles
        ∧ ((s.paddock p).primary = true → (u.paddock p).paceCount = (s.paddock p).paceCount)
        ∧ ((s.paddock p).primary = false → (s.paddock p).current = none → (s.paddock p).nextNumber ≠ stride → 0 < stride →
            (u.paddock p).paceCount = paceCountOf (stride - 1) (beatOf (s.paddock p).paceCount))))
    ∧ (∀ (p : PaddockId) (stride held : Nat) (fault : Bool) (digest : BitVec 64), s.shared p = true →
      (s.paddock p).current = none → acked (.closeReport p stride held fault digest) (fun u =>
        u.paddock p = { s.paddock p with twin := { (s.paddock p).twin with close := some (stride, held, fault, digest) } }
          ∧ u.tiles = s.tiles))
    ∧ (∀ (p : PaddockId) (stride beat : Nat), s.standby p = true → acked (.mark p stride beat) (fun u =>
      u.paddock p = { s.paddock p with twin := { (s.paddock p).twin with marked := paceCountOf stride beat } } ∧ u.tiles = s.tiles))
    ∧ (∀ (p : PaddockId) (digests : List (BitVec 64)) (o : OpenStride), s.shared p = true → (s.paddock p).current = some o →
      o.mismatches = 2 → o.stopped = true → o.replayDue = false → acked (.partials p digests []) (fun u =>
        u.paddock p = { s.paddock p with current := some { o with replayDue := true } } ∧ u.tiles = s.tiles))
    ∧ (∀ p : PaddockId, let d := s.paddock p
      p.val ≠ 0 → d.primary = false → (d.pairMode = 1 ∨ d.pairMode = 2) → d.twin.joined = true → d.ended = none →
      acked (.paddockFail p) (fun u => u.paddock p = { d with twin := { d.twin with takeoverDue := true } } ∧ u.tiles = s.tiles)
        ∧ acked .haltNotice (fun u => (u.paddock p).twin.takeoverDue = true ∧ u.yoke.down = true ∧ u.raised = s.raised ++ [{ twinHalted with pace := (s.paddock 0).paceCount }]))
    ∧ (∀ (p : PaddockId), let d := s.paddock p
      d.pairMode ≠ 0 → d.pairMode ≠ 3 → d.current.isSome = true → d.twin.joined = true →
      acked (.detach p) (fun u => u.paddock p = { d with twin := { d.twin with detaching := true } } ∧ u.tiles = s.tiles))
    ∧ (∀ (p : PaddockId) (addr : BitVec 64) (data : List (Byte × Bool)), (s.paddock p).primary = false →
      ((s.paddock p).pairMode = 1 ∨ (s.paddock p).pairMode = 2) →
      let bs := data.map (fun b => (b.1.toNat, b.2))
      let raw := data.map Prod.fst
      acked (.forward p 0 addr data) (fun u => ∃ x, u.descs = s.descs ++ [x] ∧ x.id = s.nextDesc ∧ x.ring = addr.toNat
          ∧ x.paddock = p.val ∧ x.bytes = raw.take (64 * (1 + extensionsOf raw))
          ∧ x.staged = some (bs.drop (64 * (1 + extensionsOf raw)))
          ∧ (u.paddock p).twin.forwarded = (s.paddock p).twin.forwarded ++ [s.nextDesc] ∧ u.tiles = s.tiles)
        ∧ (∀ a, data.length = 64 → addr.toNat % 64 = 0 → (∀ b ∈ data, b.2 = false) →
          (s.paddock p).shareAddr false addr.toNat = some a → s.readOnlyShare p false addr.toNat = false → acked (.forward p 2 addr data) (fun u =>
            u.near.granule (a / 64) = s.near.whole false (a / 64) (BitVec.ofNat 512 (natLE raw))
              ∧ (∀ g, g ≠ a / 64 → u.near.granule g = s.near.granule g) ∧ u.far = s.far ∧ u.tiles = s.tiles)))
    ∧ (∀ a : AttachMsg, s.yoke.attachDesc = none → acked (.attach a) (fun u =>
      u.yoke = { s.yoke with heard := some a } ∧ u.paddocks = s.paddocks ∧ u.tiles = s.tiles))

/-- R536, R537, R543 to R546: attach events and takeovers. -/
def Obligations.TwinEvents : Prop :=
  (∀ (id : Nat) (d : Desc) (s : State), s.yoke.attachDesc = some id → s.desc id = some d → d.status = none →
    (s.yoke.copying = false → s.yoke.attached = false → ∃ u, exec .attachTimeout s = .next u ∧ u.ended id 0x0200 0
        ∧ u.yoke = { s.yoke with attachDesc := none, attachFail := 1, heard := none } ∧ u.paddocks = s.paddocks)
      ∧ (∀ (p : PaddockId) image chains, s.yoke.down = false → s.halted = false →
        ((s.paddock p).pairMode = 1 ∨ (s.paddock p).pairMode = 2) → (s.paddock p).twin.joined = false →
        (s.paddock p).current = none → s.yoke.copying = false →
        ((s.paddock p).primary = true ∨ image = none) →
        ∃ u, exec (.yokeJoin p ⟨image, chains⟩) s = .next u
          ∧ u.paddock p = { s.paddock p with twin := { (s.paddock p).twin with joined := true, chains := (if (s.paddock p).primary then (s.paddock p).twin.chains else carriedChains chains) } }
          ∧ (∀ q, q ≠ p.val → u.paddock q = s.paddock q)
          ∧ ((∀ q ∈ maskPaddocks s.yoke.mask, q ≠ p.val → (s.paddock q).twin.joined = true) →
              u.ended id 0 0 ∧ u.yoke.attachDesc = none)))
  ∧ (∀ s : State, s.yoke.copying = true → s.yoke.down = false → s.halted = false →
    (∀ p ∈ maskPaddocks s.yoke.mask, (s.paddock p).primary = true) →
    (copyGranule s.copyPlan s.yoke.copyAt = none → exec .attachCopy s
        = .next { s with yoke := { s.yoke with copying := false } }.bump)
      ∧ (∀ p far off, copyGranule s.copyPlan s.yoke.copyAt = some (p, far, off) → s.shareLocked p far off 4096 = false →
        ∃ u, exec .attachCopy s = .next u ∧ u.yoke = { s.yoke with copyAt := s.yoke.copyAt + 1 } ∧ u.paddocks = s.paddocks))
  ∧ (∀ (p : Nat) (s : State), 1 ≤ p → p ≤ 28 → (s.paddock p).primary = false →
    ((s.paddock p).pairMode = 1 ∨ (s.paddock p).pairMode = 2) → (s.paddock p).twin.joined = true → (s.paddock p).ended = none →
    let due := fun (u : State) => u.paddock p = { s.paddock p with twin := { (s.paddock p).twin with takeoverDue := true } }
    (s.halted = false → s.released = true → ∃ u, exec .twinHaltIn s = .next u ∧ due u ∧ u.raised = s.raised ++ [{ twinHalted with pace := (s.paddock 0).paceCount }]
        ∧ u.tiles = s.tiles)
      ∧ (s.yoke.down = true → ∃ u, exec .takeOver s = .next u ∧ due u ∧ u.tiles = s.tiles)
      ∧ (s.yoke.down = false → exec .takeOver s = .next s.bump))
  ∧ (∀ (p : PaddockId) (s : State), let d := s.paddock p
    d.twin.takeoverDue = true → s.halted = false → ∃ u, exec (.takeover p) s = .next u ∧ (u.paddock p).primary = true
      ∧ (u.paddock p).twin.joined = false ∧ (u.paddock p).twin.takeoverDue = false ∧ (u.paddock p).twin.stopped = false
      ∧ (u.paddock p).seals.takeover = true ∧ (u.paddock p).seals.takeovers = d.seals.takeovers + 1
      ∧ u.yoke.takeovers = s.yoke.takeovers + 1 ∧ u.yoke.lastTaken = p.val ∧ u.yoke.carried = d.twin.forwarded.length
      ∧ (∀ o, (u.paddock p).current = some o → o.replayDue = true)
      ∧ ((u.paddock p).current.isSome = d.current.isSome))

/-- R562, R568 to R577, R397: the security chiplet's exchanges. -/
def Obligations.SecureChannels : Prop :=
  ∀ s : State,
    let replies := fun (c : Instr) (bs : List Byte) => ∃ u, exec c s = .next u ∧ u.out = s.out ++ [.spdm bs]
      ∧ { u with out := s.out, free := s.free } = s
    let does := fun (c : Instr) (t : State) => ∃ u, exec c s = .next u ∧ u.out = s.out ++ [.spdm [0x12, 0x7E, 0, 0]]
      ∧ { u with out := s.out, free := s.free } = t
    (s.halted = true →
      let t := (List.range 1600).map (fun i => getD 0 s.sec.window i)
      (∀ c, s.tokenFail t = some c → ∃ u, exec .tokenSubmit s = .next u
          ∧ u.sec = { s.sec with attempts := s.sec.attempts + 1, nonce := s.random256, lastFail := c } ∧ u.tiles = s.tiles)
        ∧ (s.tokenFail t = none → ∃ u, exec .tokenSubmit s = .next u ∧ u.debugOpen = true
          ∧ u.sec.scope = BitVec.ofNat 64 (descNat t 48 8) ∧ u.sec.secrets = [] ∧ u.sec.sessions = []))
    ∧ (∀ v : BitVec 64, let p := field v 0 5
      let d := s.paddock p
      (bitOf v 63 = false → ∃ u, exec (.relkeyErase v) s = .next u ∧ u.sec = { s.sec with relSelect := p } ∧ u.paddocks = s.paddocks)
        ∧ (bitOf v 63 = true → 1 ≤ p → p ≤ 28 → d.live = true → ∃ u, exec (.relkeyErase v) s = .next u
          ∧ (∀ n, n < 4 → bitOf v (16 + n) = true → d.slotInUse n = false → look (u.paddock p).relKeys n = none)
          ∧ (∀ n, n < 4 → (bitOf v (16 + n) = false ∨ d.slotInUse n = true) → look (u.paddock p).relKeys n = look d.relKeys n)
          ∧ (∀ n, n < 4 → bitOf v (16 + n) = true → d.slotInUse n = true → (look d.relKeys n).isSome → n ∈ (u.paddock p).eraseDue)
          ∧ u.tiles = s.tiles))
    ∧ (s.linkReady = true →
      (∀ i : BitVec 8, ∃ u, exec (.doeDiscovery i) s = .next u ∧ u.out = s.out ++ [.doe (if i.toNat < 2 then [1, 0, i, i + 1] else if i.toNat = 2 then [1, 0, 2, 0] else [0xFF, 0xFF, 0xFF, 0])])
      ∧ replies (.spdmCert 0) ([0x12, 0x02, 0, 0] ++ Config.certChain 0)
      ∧ (s.debugOpen = false → replies (.spdmCert 1) [0x12, 0x7F, 1, 0])
      ∧ (∀ (slot : BitVec 8) (nonce : List Byte),
        let fresh := bytesLE 32 s.random256.toNat
        let chal := sha256 (Config.certChain slot.toNat) ++ fresh
        let meas := ((rangeFrom 1 12).map (fun n => bytesLE 1 n ++ s.block n)).flatten ++ fresh
        let sign := fun bs => Config.signature slot.toNat (sha256 (nonce ++ bs))
        (slot.toNat = s.signingSlot → replies (.spdmChal slot nonce) ([0x12, 0x03, slot, 0] ++ (chal ++ sign chal))
            ∧ replies (.spdmMeas slot nonce) ([0x12, 0x60, slot, 0] ++ (meas ++ sign meas)))
          ∧ (slot.toNat ≠ s.signingSlot → replies (.spdmChal slot nonce) [0x12, 0x7F, 1, 0]
            ∧ replies (.spdmMeas slot nonce) [0x12, 0x7F, 1, 0]))
      ∧ (∀ sig, ∃ u, exec (.spdmKeyEx false sig) s = .next u ∧ look u.sec.sessions s.sec.nextSession = some false
          ∧ u.sec.nextSession = s.sec.nextSession + 1 ∧ u.tiles = s.tiles)
      ∧ (∀ session key sig, s.debugOpen = false → s.mayChange session = true → key.length = 384 →
        Config.verifies key (bytesLE 4 session) sig = true → does (.ownerEnrol session key sig) { s with sec := { s.sec with
          owner := some key, sessions := s.sec.sessions.map (fun kv => (kv.1, kv.1 == session)) } })
      ∧ (∀ session, s.debugOpen = false → s.sec.owner.isSome = true → look s.sec.sessions session = some true →
        does (.ownerRemove session) { s with sec := { s.sec with owner := none } })
      ∧ (∀ session index secret, s.debugOpen = false → s.mayChange session = true → secret.length = 32 →
        does (.ownerSecretPut session index secret) { s with sec := { s.sec with
          secrets := insertAt s.sec.secrets index.toNat secret } })
      ∧ (∀ session (p : PaddockId) (slot : BitVec 2) (key : BitVec 256), p.val ≠ 0 → s.mayPutKey session p slot.toNat = true →
        does (.releaseKeyPut session p slot key) (s.putKey p slot.toNat key)
          ∧ (∀ (secret : BitVec 3) k wrapped, look s.sec.secrets secret.toNat = some k → Config.unwrapKey k wrapped = some key →
            does (.releaseKeyPutWrapped session p slot secret wrapped) (s.putKey p slot.toNat key)))
      ∧ (∀ session (stream : BitVec 8) (key : BitVec 256), (look s.sec.sessions session).isSome = true →
        does (.ideKm session stream key) { s with sec := { s.sec with ideKeys := insertAt s.sec.ideKeys stream.toNat key } })
      ∧ (∀ session index secret, s.mayChange session = false → replies (.ownerSecretPut session index secret) [0x12, 0x7F, 1, 0]))
    ∧ (s.sec.recovery = true → ∀ image : List Byte,
      (image.length ≤ 2 ^ 26 → s.sec.accepts image = true → exec (.firmwareUpdate image) s
          = .next { s with sec := s.sec.setBank s.sec.preferred (.written image) }.bump)
        ∧ (s.sec.accepts image = false → exec (.firmwareUpdate image) s = .next s.bump))

/-- R580, R587, R590, R594, R595: the port, counters and chassis monitoring. -/
def Obligations.TapCountersChassis : Prop :=
  ∀ s : State,
    (∀ tdi, ∃ u, exec (.tapBypass tdi) s = .next u ∧ u.out = s.out ++ [.tdo [s.tap.bypass]] ∧ u.tap = ⟨tdi, false⟩
      ∧ { u with out := s.out, tap := s.tap, free := s.free } = s)
    ∧ (∃ u bits, exec .tapIdcode s = .next u ∧ u.out = s.out ++ [.tdo bits] ∧ bits.length = 32 ∧ bits.head? = some true
      ∧ (∀ i, i < 11 → bits.getD (1 + i) false = Config.makerCode.getLsbD i)
      ∧ (∀ i, i < 16 → bits.getD (12 + i) false = (0x7210#16).getLsbD i)
      ∧ (∀ i, i < 4 → bits.getD (28 + i) false = (0xB#4).getLsbD i) ∧ { u with out := s.out, tap := s.tap, free := s.free } = s)
    ∧ (∃ u bits, exec .tapSamplePreload s = .next u ∧ u.out = s.out ++ [.tdo bits] ∧ u.tap.extest = false ∧ u.tiles = s.tiles)
    ∧ (∃ u bits, exec .tapExtest s = .next u ∧ u.out = s.out ++ [.tdo bits] ∧ u.tap.extest = true ∧ u.tiles = s.tiles)
    ∧ (∀ opcode, (s.debugOpen = true → s.sec.scope.getLsbD 0 = true → ∃ u bits, exec (.tapPrivate opcode) s = .next u
        ∧ u.out = s.out ++ [.tdo bits] ∧ { u with out := s.out, free := s.free } = s)
      ∧ (s.debugOpen = false → exec (.tapPrivate opcode) s = .next s))
    ∧ (∀ v, (bitOf v 63 = false → exec (.counterClear v) s = .next s.bump)
      ∧ (bitOf v 63 = true → canonical 0 s.cntWin = true →
        let block := clearBlock (field v 16 3) (field v 0 8)
        ∃ u, exec (.counterClear v) s = .next u ∧ { u with cntWin := s.cntWin, free := s.free } = s
          ∧ ∀ key, getD 0 u.cntWin key =
            if block.1 ≤ key ∧ key < block.1 + block.2 ∧ gaugeWord key = false then clearWrap (getD 0 s.cntWin key)
            else getD 0 s.cntWin key))
    ∧ (∀ key, key < 0x8200 → gaugeWord key = false → ∃ u, exec (.counterWrapClear (BitVec.ofNat 32 (0x400000 + 8 * key))) s = .next u
      ∧ getD 0 u.cntWin key = clearWrap (getD 0 s.cntWin key) ∧ (∀ j, j ≠ key → getD 0 u.cntWin j = getD 0 s.cntWin j)
      ∧ { u with cntWin := s.cntWin, free := s.free } = s)
    ∧ (s.released = true → ∃ u, exec .bwWindowEnd s = .next u ∧ u.bwSeq = s.bwSeq + 1 ∧ u.bw = []
      ∧ (∀ k ∈ bwWords, getD 0 u.cntWin k = u.gauge ((getD 0 s.bw k : Nat) : Int))
      ∧ (∀ k, k ∉ bwWords → getD 0 u.cntWin k = getD 0 s.cntWin k))
    ∧ (s.sensorsServed = true →
      (∀ n v, s.sensor n = some v → exec (.pldmSensorRead n) s = .next (s.emit (pldmReply 0 v)).bump)
      ∧ (∀ n, 36 < n → exec (.pldmSensorRead n) s = .next (s.emit (pldmReply 0x80 0)).bump)
      ∧ (∀ n upper v, n < 35 → let k := 2 * n + (if upper then 1 else 0)
        ∃ u, exec (.pldmSetThreshold n upper v) s = .next u ∧ look u.pldm.thresholds k = some v
          ∧ k ∉ u.pldm.crossed ∧ (∀ j, j ≠ k → look u.pldm.thresholds j = look s.pldm.thresholds j)
          ∧ u.out = s.out ++ [pldmReply 0 0])
      ∧ (∀ n v rest, s.pldm.events = (n, v) :: rest → ∃ u, exec .pldmEventRead s = .next u ∧ u.pldm = { s.pldm with events := rest }
        ∧ u.out = s.out ++ [.pldm (bytesLE 1 0 ++ bytesLE 2 n ++ bytesLE 4 (v % 2 ^ 32).toNat)])
      ∧ (∀ n v, n ≤ 34 → s.pldm.events.length < 64 → look s.pldm.thresholds (2 * n) = none →
        (∀ t, look s.pldm.thresholds (2 * n + 1) = some t → t < v → 2 * n + 1 ∉ s.pldm.crossed →
          ∃ u, exec (.pldmEvent n v) s = .next u ∧ u.pldm.events = s.pldm.events ++ [(n, v)] ∧ 2 * n + 1 ∈ u.pldm.crossed)
        ∧ (∀ t, look s.pldm.thresholds (2 * n + 1) = some t → v ≤ t → ∃ u, exec (.pldmEvent n v) s = .next u
          ∧ u.pldm.events = s.pldm.events ∧ 2 * n + 1 ∉ u.pldm.crossed))
      ∧ (∀ v, s.pldm.events.length < 64 → getD 0 s.pldm.states 35 ≠ s.moduleState → ∃ u, exec (.pldmEvent 35 v) s = .next u
        ∧ u.pldm.events = s.pldm.events ++ [(35, (s.moduleState : Int))] ∧ getD 0 u.pldm.states 35 = s.moduleState))

/-- R611 to R617, R561, R562, R564, R413: power-up and reset. -/
def Obligations.PowerUpAndReset : Prop :=
  ∀ s : State,
    (s.pwrGood = false → ∀ a b : Bool, (a || b) = true → ∃ u, exec (.powerUp a b) s = .next u ∧ u.feedA = a ∧ u.feedB = b ∧ u.pwrGood = true ∧ u.released = false
      ∧ u.ready = false ∧ u.tiles = [] ∧ u.paddocks = [] ∧ u.patina = s.patina ∧ u.hostMem = s.hostMem)
    ∧ (∀ (scan : ScanResult), s.pwrGood = true → s.ready = false → s.bootFailed = false → s.released = false →
      (s.sec.cold.bootBank scan = none → ∃ u, exec (.modResetRelease scan) s = .next u ∧ u.released = true ∧ u.bootFailed = true
          ∧ u.sec.recovery = true ∧ u.ready = false)
        ∧ (∀ b, s.sec.cold.bootBank scan = some b →
          (appliedFlow scan.pairFlows < 45 → ∃ u, exec (.modResetRelease scan) s = .next u ∧ u.released = true ∧ u.bootStep = 6
              ∧ u.ready = false ∧ u.sec.booted = some b)
            ∧ (45 ≤ appliedFlow scan.pairFlows → scan.refOk = true → ∃ u, exec (.modResetRelease scan) s = .next u ∧ u.released = true
              ∧ u.ready = true ∧ u.bootStep = 8 ∧ u.sec.booted = some b ∧ u.coolantFlow = 2 * min scan.pairFlows.1 scan.pairFlows.2
              ∧ (∀ r, r < 28 → (u.region r).state = .gated ∧ (u.region r).phases ≠ 0) ∧ s.sec.steps ≤ u.sec.steps)))
    ∧ (s.released = true → s.ready = false → s.bootFailed = false → s.bootStep < 8 →
      exec .bootTimeout s = .next { s with bootFailed := true }.bump)
    ∧ (s.pwrGood = true → ∃ u, exec .modResetAssert s = .next u ∧ u.tiles = [] ∧ u.paddocks = [] ∧ u.rings = [] ∧ u.descs = []
      ∧ u.net = [] ∧ u.regs = [] ∧ u.ready = false ∧ u.released = false ∧ u.halted = false ∧ u.debugOpen = false
      ∧ u.sec.revoked = s.sec.revoked ∧ u.sec.steps = s.sec.steps ∧ u.sec.bankA = s.sec.bankA ∧ u.sec.bankB = s.sec.bankB
      ∧ u.sec.owner = s.sec.owner ∧ u.sec.secrets = s.sec.secrets ∧ u.sec.sessions = [] ∧ u.sec.booted = none
      ∧ u.patina = s.patina ∧ u.pwrGood = true ∧ u.hostMem = s.hostMem ∧ u.pending = s.pending)
    ∧ (∃ u, exec (.d3hotTransition true) s = .next u ∧ u.d3hot = true ∧ { u with d3hot := s.d3hot, free := s.free } = s)
    ∧ (s.msixPending = [] → s.eventLost = 0 → s.halted = false → ∃ u, exec (.d3hotTransition false) s = .next u ∧ u.d3hot = false
      ∧ { u with d3hot := s.d3hot, free := s.free } = s)

/-- The two choices of the model that no rule states: the idle step (log entry 9) and operands outside a command's row (log
entry 121). -/
def Obligations.IdleAndIllFormed : Prop :=
  (∀ s : State, s.pending = [] →
    (s.near.migration = none → s.far.migration = none →
        (s.released = true → step s = .next { s with refCount := s.refCount + 1 }) ∧ (s.released = false → step s = .next s))
      ∧ ∃ u, step s = .next u ∧ u.refCount = (if s.released then s.refCount + 1 else s.refCount)
        ∧ { u with near := s.near, far := s.far, refCount := s.refCount, free := s.free } = s)
  ∧ (∀ (c : Instr) (s : State), c.wellFormed = false → exec c s = .next s)

/-- R97, R111, R316, Tables 1.2, 2.12, 14.16, 15.11, 16.12: the state after reset. -/
def Obligations.ResetState : Prop :=
  let s := State.reset
  s.pending = [] ∧ s.fusesOk ∧ s.sec.revoked = 0 ∧ s.sec.steps = 0 ∧ s.ready = false ∧ s.halted = false ∧ s.net = []
    ∧ (∀ k, (∀ r, (s.tile k).reg r = { val := 0, mark := false, poison := false }) ∧ (s.tile k).pc = 0
        ∧ (s.tile k).parked = true ∧ (s.tile k).service = true ∧ (∀ i, (s.tile k).word i = ⟨0, false⟩))
    ∧ (∀ r, (s.region r).state = .off ∧ (s.region r).owner = 0)
    ∧ (∀ p, (s.paddock p).live = false ∧ (s.paddock p).image = none ∧ (s.paddock p).current = none)
    ∧ (∀ n, n < 24 → s.near.sites.getD n 99 = if n < 12 then n else n + 1)
    ∧ (∀ n, n < 16 → s.far.sites.getD n 99 = if n < 8 then n else n + 1)
    ∧ s.bar0Read 0 = 0x01B07210 ∧ s.bar0Read 0x10000 = 8 ∧ s.bar0Read 0x11050 = 0x400 ∧ s.bar0Read 0x11058 = 4
    ∧ s.bar0Read 0x20040 = 4 ∧ s.bar0Read 0x20048 = 4 ∧ s.bar0Read 0x28000 = 0xC8
    ∧ s.bar0Read 0x200010 = 0x0000320028202000 ∧ s.bar0Read 0x300000 = 0x7E00

/-- R564, R565: the fuses through every step of the engine, whatever command it takes; each step takes one command. -/
def Obligations.FusesOnlyGrow : Prop :=
  ∀ s t : State, s.fusesOk → step s = .next t → t.fusesOk ∧ s.fusesGrow t ∧ t.pending = s.pending.tail
end

