-- ==== Sys2Proof/Laws/Codes.lean ====
section
/-! SUPPORT. Laws of the codes: a CRC is the fold of its bytes. -/

namespace Sys2Proof.Machine

@[simp] theorem strictly_eq {α : Type} (n : Nat) (f : Nat → α) : strictly n f = f n := by cases n <;> rfl

theorem crcFold_cons (poly c : Nat) (b : BitVec 8) (bs : List (BitVec 8)) :
    crcFold poly c (b :: bs) = crcFold poly (crcByte poly c b) bs := strictly_eq _ _

theorem crcFold_eq_foldl (poly : Nat) (bs : List (BitVec 8)) : ∀ c, crcFold poly c bs = bs.foldl (crcByte poly) c := by
  induction bs with
  | nil => intro c; rfl
  | cons b bs ih => intro c; rw [crcFold_cons, ih, List.foldl_cons]

theorem crcFold_append (poly : Nat) (as bs : List (BitVec 8)) (c : Nat) :
    crcFold poly c (as ++ bs) = crcFold poly (crcFold poly c as) bs := by
  simp only [crcFold_eq_foldl, List.foldl_append]

end Sys2Proof.Machine
end

