-- ==== Sys2Proof/Laws/Store.lean ====
section
/-! SUPPORT. Laws of sparse storage: a read after a write, other keys unchanged, and the canonical form kept. -/

namespace Sys2Proof.Machine

theorem look_insertAt_same {α : Type} (m : Map α) (k : Nat) (v : α) : look (insertAt m k v) k = some v := by
  induction m with
  | nil => simp [insertAt, look]
  | cons x m ih =>
    obtain ⟨k', v'⟩ := x
    simp only [insertAt]
    split
    · simp [look]
    · split
      · simp [look]
      · rename_i h; simp [look, h, ih]

theorem look_insertAt_other {α : Type} (m : Map α) (k j : Nat) (v : α) (h : j ≠ k) :
    look (insertAt m k v) j = look m j := by
  induction m with
  | nil => simp [insertAt, look, Ne.symm h]
  | cons x m ih =>
    obtain ⟨k', v'⟩ := x
    simp only [insertAt]
    split
    · simp [look, Ne.symm h]
    · split
      · rename_i h'; subst h'; simp [look, Ne.symm h]
      · simp [look, ih]

theorem look_drop_other {α : Type} (m : Map α) (k j : Nat) (h : j ≠ k) : look (drop m k) j = look m j := by
  induction m with
  | nil => rfl
  | cons x m ih =>
    obtain ⟨k', v'⟩ := x
    simp only [drop]
    split
    · rename_i h'; subst h'; simp [look, Ne.symm h, ih]
    · simp [look, ih]

theorem look_drop_same {α : Type} (m : Map α) (k : Nat) : look (drop m k) k = none := by
  induction m with
  | nil => rfl
  | cons x m ih =>
    obtain ⟨k', v'⟩ := x
    simp only [drop]
    split
    · exact ih
    · rename_i h; simp [look, h, ih]

@[simp] theorem getD_nil {α : Type} (d : α) (k : Nat) : getD d ([] : Map α) k = d := rfl

variable {α : Type} [DecidableEq α] (d : α)

theorem sortedFrom_mono (m : Map α) (lo hi : Nat) (h : lo ≤ hi) (s : sortedFrom d hi m = true) : sortedFrom d lo m = true := by
  cases m with
  | nil => rfl
  | cons x m =>
    obtain ⟨k, v⟩ := x
    simp only [sortedFrom, Bool.and_eq_true, decide_eq_true_eq] at s ⊢
    exact ⟨⟨Nat.le_trans h s.1.1, s.1.2⟩, s.2⟩

theorem sortedFrom_drop (m : Map α) (lo k : Nat) (s : sortedFrom d lo m = true) : sortedFrom d lo (drop m k) = true := by
  induction m generalizing lo with
  | nil => rfl
  | cons x m ih =>
    obtain ⟨k', v'⟩ := x
    simp only [sortedFrom, Bool.and_eq_true, decide_eq_true_eq] at s
    simp only [drop]
    split
    · exact sortedFrom_mono d _ lo (k' + 1) (by omega) (ih (k' + 1) s.2)
    · simp only [sortedFrom, Bool.and_eq_true, decide_eq_true_eq]; exact ⟨s.1, ih (k' + 1) s.2⟩

theorem sortedFrom_insertAt (m : Map α) (lo k : Nat) (v : α) (hk : lo ≤ k) (hv : v ≠ d) (s : sortedFrom d lo m = true) :
    sortedFrom d lo (insertAt m k v) = true := by
  induction m generalizing lo with
  | nil => simp [insertAt, sortedFrom, hk, hv]
  | cons x m ih =>
    obtain ⟨k', v'⟩ := x
    simp only [sortedFrom, Bool.and_eq_true, decide_eq_true_eq] at s
    simp only [insertAt]
    split
    · simp only [sortedFrom, Bool.and_eq_true, decide_eq_true_eq]; exact ⟨⟨hk, hv⟩, ⟨⟨by omega, s.1.2⟩, s.2⟩⟩
    · split
      · rename_i h; subst h; simp only [sortedFrom, Bool.and_eq_true, decide_eq_true_eq]; exact ⟨⟨hk, hv⟩, s.2⟩
      · simp only [sortedFrom, Bool.and_eq_true, decide_eq_true_eq]; exact ⟨s.1, ih (k' + 1) (by omega) s.2⟩

/-- A write keeps the canonical form. -/
theorem canonical_putD (m : Map α) (k : Nat) (v : α) (h : canonical d m = true) : canonical d (putD d m k v) = true := by
  unfold canonical putD at *
  split
  · exact sortedFrom_drop d m 0 k h
  · rename_i hv; exact sortedFrom_insertAt d m 0 k v (Nat.zero_le k) hv h

/-- A change under one key keeps the canonical form. -/
theorem canonical_modD (m : Map α) (k : Nat) (f : α → α) (h : canonical d m = true) : canonical d (modD d m k f) = true :=
  canonical_putD d m k _ h

/-- A read after a write of the same key. -/
@[simp] theorem getD_putD_same (m : Map α) (k : Nat) (v : α) : getD d (putD d m k v) k = v := by
  unfold getD putD
  split
  · rename_i hv; rw [look_drop_same m k, hv]; rfl
  · rw [look_insertAt_same]; rfl

/-- A write leaves every other key alone. -/
theorem getD_putD_other (m : Map α) (k j : Nat) (v : α) (h : j ≠ k) : getD d (putD d m k v) j = getD d m j := by
  unfold getD putD
  split
  · rw [look_drop_other m k j h]
  · rw [look_insertAt_other m k j v h]

@[simp] theorem canonical_nil : canonical d ([] : Map α) = true := rfl

theorem natLE_bytesLE (n : Nat) : ∀ v, natLE (bytesLE n v) = v % 256 ^ n := by
  induction n with
  | zero => intro v; simp [bytesLE, natLE, Nat.mod_one]
  | succ n ih =>
    intro v
    have h : (BitVec.ofNat 8 v).toNat = v % 256 := rfl
    rw [bytesLE, natLE, ih, h, Nat.pow_succ, Nat.mul_comm (256 ^ n) 256, Nat.mod_mul]

end Sys2Proof.Machine
end

