-- ==== Sys2Proof/Laws/State.lean ====
section
/-! SUPPORT. What the updates of the state and of a tile leave alone, field by field, and what reads them back. -/

namespace Sys2Proof.Machine

/-! ## Fields of the state under its updates -/

@[simp] theorem State.setTile_pending (s : State) (k : Nat) (t : Tile) : (s.setTile k t).pending = s.pending := rfl
@[simp] theorem State.setTile_free (s : State) (k : Nat) (t : Tile) : (s.setTile k t).free = s.free := rfl
@[simp] theorem State.setTile_regions (s : State) (k : Nat) (t : Tile) : (s.setTile k t).regions = s.regions := rfl
@[simp] theorem State.setTile_paddocks (s : State) (k : Nat) (t : Tile) : (s.setTile k t).paddocks = s.paddocks := rfl
@[simp] theorem State.setTile_holes (s : State) (k : Nat) (t : Tile) : (s.setTile k t).holes = s.holes := rfl
@[simp] theorem State.setTile_rowMap (s : State) (k : Nat) (t : Tile) : (s.setTile k t).rowMap = s.rowMap := rfl
@[simp] theorem State.setTile_segMap (s : State) (k : Nat) (t : Tile) : (s.setTile k t).segMap = s.segMap := rfl
@[simp] theorem State.setTile_net (s : State) (k : Nat) (t : Tile) : (s.setTile k t).net = s.net := rfl
@[simp] theorem State.setTile_near (s : State) (k : Nat) (t : Tile) : (s.setTile k t).near = s.near := rfl
@[simp] theorem State.setTile_far (s : State) (k : Nat) (t : Tile) : (s.setTile k t).far = s.far := rfl
@[simp] theorem State.setTile_deadStirrups (s : State) (k : Nat) (t : Tile) : (s.setTile k t).deadStirrups = s.deadStirrups := rfl
@[simp] theorem State.setTile_flip (s : State) (k : Nat) (t : Tile) : (s.setTile k t).flip = s.flip := rfl
@[simp] theorem State.setTile_epoch (s : State) (k : Nat) (t : Tile) : (s.setTile k t).epoch = s.epoch := rfl
@[simp] theorem State.setTile_raised (s : State) (k : Nat) (t : Tile) : (s.setTile k t).raised = s.raised := rfl
@[simp] theorem State.setTile_halted (s : State) (k : Nat) (t : Tile) : (s.setTile k t).halted = s.halted := rfl
@[simp] theorem State.setTile_bursts (s : State) (k : Nat) (t : Tile) : (s.setTile k t).bursts = s.bursts := rfl
@[simp] theorem State.setTile_paceStatus (s : State) (k : Nat) (t : Tile) : (s.setTile k t).paceStatus = s.paceStatus := rfl
@[simp] theorem State.setTile_refCount (s : State) (k : Nat) (t : Tile) : (s.setTile k t).refCount = s.refCount := rfl
@[simp] theorem State.setTile_regs (s : State) (k : Nat) (t : Tile) : (s.setTile k t).regs = s.regs := rfl
@[simp] theorem State.setTile_cntWin (s : State) (k : Nat) (t : Tile) : (s.setTile k t).cntWin = s.cntWin := rfl
@[simp] theorem State.setTile_rings (s : State) (k : Nat) (t : Tile) : (s.setTile k t).rings = s.rings := rfl
@[simp] theorem State.setTile_descs (s : State) (k : Nat) (t : Tile) : (s.setTile k t).descs = s.descs := rfl
@[simp] theorem State.setTile_nextDesc (s : State) (k : Nat) (t : Tile) : (s.setTile k t).nextDesc = s.nextDesc := rfl
@[simp] theorem State.setTile_collectors (s : State) (k : Nat) (t : Tile) : (s.setTile k t).collectors = s.collectors := rfl
@[simp] theorem State.setTile_fcCtrl (s : State) (k : Nat) (t : Tile) : (s.setTile k t).fcCtrl = s.fcCtrl := rfl
@[simp] theorem State.setTile_haltCause (s : State) (k : Nat) (t : Tile) : (s.setTile k t).haltCause = s.haltCause := rfl
@[simp] theorem State.setTile_pathFaults (s : State) (k : Nat) (t : Tile) : (s.setTile k t).pathFaults = s.pathFaults := rfl
@[simp] theorem State.setTile_ceForwarded (s : State) (k : Nat) (t : Tile) : (s.setTile k t).ceForwarded = s.ceForwarded := rfl
@[simp] theorem State.setTile_msix (s : State) (k : Nat) (t : Tile) : (s.setTile k t).msix = s.msix := rfl
@[simp] theorem State.setTile_msixPending (s : State) (k : Nat) (t : Tile) : (s.setTile k t).msixPending = s.msixPending := rfl
@[simp] theorem State.setTile_eventEnable (s : State) (k : Nat) (t : Tile) : (s.setTile k t).eventEnable = s.eventEnable := rfl
@[simp] theorem State.setTile_eventOverflow (s : State) (k : Nat) (t : Tile) : (s.setTile k t).eventOverflow = s.eventOverflow := rfl
@[simp] theorem State.setTile_eventVector (s : State) (k : Nat) (t : Tile) : (s.setTile k t).eventVector = s.eventVector := rfl
@[simp] theorem State.setTile_eventHead (s : State) (k : Nat) (t : Tile) : (s.setTile k t).eventHead = s.eventHead := rfl
@[simp] theorem State.setTile_eventTail (s : State) (k : Nat) (t : Tile) : (s.setTile k t).eventTail = s.eventTail := rfl
@[simp] theorem State.setTile_eventPhase (s : State) (k : Nat) (t : Tile) : (s.setTile k t).eventPhase = s.eventPhase := rfl
@[simp] theorem State.setTile_eventLost (s : State) (k : Nat) (t : Tile) : (s.setTile k t).eventLost = s.eventLost := rfl
@[simp] theorem State.setTile_patina (s : State) (k : Nat) (t : Tile) : (s.setTile k t).patina = s.patina := rfl
@[simp] theorem State.setTile_patinaSeq (s : State) (k : Nat) (t : Tile) : (s.setTile k t).patinaSeq = s.patinaSeq := rfl
@[simp] theorem State.setTile_patinaDue (s : State) (k : Nat) (t : Tile) : (s.setTile k t).patinaDue = s.patinaDue := rfl
@[simp] theorem State.setTile_castOnly (s : State) (k : Nat) (t : Tile) : (s.setTile k t).castOnly = s.castOnly := rfl
@[simp] theorem State.setTile_repairs (s : State) (k : Nat) (t : Tile) : (s.setTile k t).repairs = s.repairs := rfl
@[simp] theorem State.setTile_repairsDone (s : State) (k : Nat) (t : Tile) : (s.setTile k t).repairsDone = s.repairsDone := rfl
@[simp] theorem State.setTile_holesNew (s : State) (k : Nat) (t : Tile) : (s.setTile k t).holesNew = s.holesNew := rfl
@[simp] theorem State.setTile_hotPairs (s : State) (k : Nat) (t : Tile) : (s.setTile k t).hotPairs = s.hotPairs := rfl
@[simp] theorem State.setTile_feedA (s : State) (k : Nat) (t : Tile) : (s.setTile k t).feedA = s.feedA := rfl
@[simp] theorem State.setTile_feedB (s : State) (k : Nat) (t : Tile) : (s.setTile k t).feedB = s.feedB := rfl
@[simp] theorem State.setTile_converters (s : State) (k : Nat) (t : Tile) : (s.setTile k t).converters = s.converters := rfl
@[simp] theorem State.setTile_coolantCap (s : State) (k : Nat) (t : Tile) : (s.setTile k t).coolantCap = s.coolantCap := rfl
@[simp] theorem State.setTile_coolantFlow (s : State) (k : Nat) (t : Tile) : (s.setTile k t).coolantFlow = s.coolantFlow := rfl
@[simp] theorem State.setTile_coolantDerate (s : State) (k : Nat) (t : Tile) : (s.setTile k t).coolantDerate = s.coolantDerate := rfl
@[simp] theorem State.setTile_pwrGood (s : State) (k : Nat) (t : Tile) : (s.setTile k t).pwrGood = s.pwrGood := rfl
@[simp] theorem State.setTile_released (s : State) (k : Nat) (t : Tile) : (s.setTile k t).released = s.released := rfl
@[simp] theorem State.setTile_bootStep (s : State) (k : Nat) (t : Tile) : (s.setTile k t).bootStep = s.bootStep := rfl
@[simp] theorem State.setTile_bootFailed (s : State) (k : Nat) (t : Tile) : (s.setTile k t).bootFailed = s.bootFailed := rfl
@[simp] theorem State.setTile_scanHoles (s : State) (k : Nat) (t : Tile) : (s.setTile k t).scanHoles = s.scanHoles := rfl
@[simp] theorem State.setTile_ready (s : State) (k : Nat) (t : Tile) : (s.setTile k t).ready = s.ready := rfl
@[simp] theorem State.setTile_debugOpen (s : State) (k : Nat) (t : Tile) : (s.setTile k t).debugOpen = s.debugOpen := rfl
@[simp] theorem State.setTile_d3hot (s : State) (k : Nat) (t : Tile) : (s.setTile k t).d3hot = s.d3hot := rfl
@[simp] theorem State.setTile_hostMem (s : State) (k : Nat) (t : Tile) : (s.setTile k t).hostMem = s.hostMem := rfl
@[simp] theorem State.setTile_hostPoison (s : State) (k : Nat) (t : Tile) : (s.setTile k t).hostPoison = s.hostPoison := rfl
@[simp] theorem State.setTile_out (s : State) (k : Nat) (t : Tile) : (s.setTile k t).out = s.out := rfl
@[simp] theorem State.setTile_ports (s : State) (k : Nat) (t : Tile) : (s.setTile k t).ports = s.ports := rfl
@[simp] theorem State.setTile_yoke (s : State) (k : Nat) (t : Tile) : (s.setTile k t).yoke = s.yoke := rfl
@[simp] theorem State.setTile_peerWaits (s : State) (k : Nat) (t : Tile) : (s.setTile k t).peerWaits = s.peerWaits := rfl
@[simp] theorem State.setTile_sec (s : State) (k : Nat) (t : Tile) : (s.setTile k t).sec = s.sec := rfl
@[simp] theorem State.setTile_pldm (s : State) (k : Nat) (t : Tile) : (s.setTile k t).pldm = s.pldm := rfl
@[simp] theorem State.setTile_tap (s : State) (k : Nat) (t : Tile) : (s.setTile k t).tap = s.tap := rfl
@[simp] theorem State.setTile_bwSeq (s : State) (k : Nat) (t : Tile) : (s.setTile k t).bwSeq = s.bwSeq := rfl
@[simp] theorem State.setTile_bw (s : State) (k : Nat) (t : Tile) : (s.setTile k t).bw = s.bw := rfl
@[simp] theorem State.setTile_fbRoute (s : State) (k : Nat) (t : Tile) : (s.setTile k t).fbRoute = s.fbRoute := rfl
@[simp] theorem State.setTile_fbWindows (s : State) (k : Nat) (t : Tile) : (s.setTile k t).fbWindows = s.fbWindows := rfl
@[simp] theorem State.setTile_segIdle (s : State) (k : Nat) (t : Tile) : (s.setTile k t).segIdle = s.segIdle := rfl
@[simp] theorem State.setTile_merged (s : State) (k : Nat) (t : Tile) : (s.setTile k t).merged = s.merged := rfl
@[simp] theorem State.setTile_flipQueue (s : State) (k : Nat) (t : Tile) : (s.setTile k t).flipQueue = s.flipQueue := rfl
@[simp] theorem State.setTile_stirrups (s : State) (k : Nat) (t : Tile) : (s.setTile k t).stirrups = s.stirrups := rfl
@[simp] theorem State.setTile_cast (s : State) (k : Nat) (t : Tile) : (s.setTile k t).cast = s.cast := rfl
@[simp] theorem State.setTile_eventUnread (s : State) (k : Nat) (t : Tile) : (s.setTile k t).eventUnread = s.eventUnread := rfl
@[simp] theorem State.setTile_tileCe (s : State) (k : Nat) (t : Tile) : (s.setTile k t).tileCe = s.tileCe := rfl
@[simp] theorem State.setTile_retireDue (s : State) (k : Nat) (t : Tile) : (s.setTile k t).retireDue = s.retireDue := rfl
@[simp] theorem State.setTile_scanAdvised (s : State) (k : Nat) (t : Tile) : (s.setTile k t).scanAdvised = s.scanAdvised := rfl
@[simp] theorem State.setRegion_pending (s : State) (r : Nat) (g : Region) : (s.setRegion r g).pending = s.pending := rfl
@[simp] theorem State.setRegion_free (s : State) (r : Nat) (g : Region) : (s.setRegion r g).free = s.free := rfl
@[simp] theorem State.setRegion_tiles (s : State) (r : Nat) (g : Region) : (s.setRegion r g).tiles = s.tiles := rfl
@[simp] theorem State.setRegion_paddocks (s : State) (r : Nat) (g : Region) : (s.setRegion r g).paddocks = s.paddocks := rfl
@[simp] theorem State.setRegion_holes (s : State) (r : Nat) (g : Region) : (s.setRegion r g).holes = s.holes := rfl
@[simp] theorem State.setRegion_rowMap (s : State) (r : Nat) (g : Region) : (s.setRegion r g).rowMap = s.rowMap := rfl
@[simp] theorem State.setRegion_segMap (s : State) (r : Nat) (g : Region) : (s.setRegion r g).segMap = s.segMap := rfl
@[simp] theorem State.setRegion_net (s : State) (r : Nat) (g : Region) : (s.setRegion r g).net = s.net := rfl
@[simp] theorem State.setRegion_near (s : State) (r : Nat) (g : Region) : (s.setRegion r g).near = s.near := rfl
@[simp] theorem State.setRegion_far (s : State) (r : Nat) (g : Region) : (s.setRegion r g).far = s.far := rfl
@[simp] theorem State.setRegion_deadStirrups (s : State) (r : Nat) (g : Region) : (s.setRegion r g).deadStirrups = s.deadStirrups := rfl
@[simp] theorem State.setRegion_flip (s : State) (r : Nat) (g : Region) : (s.setRegion r g).flip = s.flip := rfl
@[simp] theorem State.setRegion_epoch (s : State) (r : Nat) (g : Region) : (s.setRegion r g).epoch = s.epoch := rfl
@[simp] theorem State.setRegion_raised (s : State) (r : Nat) (g : Region) : (s.setRegion r g).raised = s.raised := rfl
@[simp] theorem State.setRegion_halted (s : State) (r : Nat) (g : Region) : (s.setRegion r g).halted = s.halted := rfl
@[simp] theorem State.setRegion_bursts (s : State) (r : Nat) (g : Region) : (s.setRegion r g).bursts = s.bursts := rfl
@[simp] theorem State.setRegion_paceStatus (s : State) (r : Nat) (g : Region) : (s.setRegion r g).paceStatus = s.paceStatus := rfl
@[simp] theorem State.setRegion_refCount (s : State) (r : Nat) (g : Region) : (s.setRegion r g).refCount = s.refCount := rfl
@[simp] theorem State.setRegion_regs (s : State) (r : Nat) (g : Region) : (s.setRegion r g).regs = s.regs := rfl
@[simp] theorem State.setRegion_cntWin (s : State) (r : Nat) (g : Region) : (s.setRegion r g).cntWin = s.cntWin := rfl
@[simp] theorem State.setRegion_rings (s : State) (r : Nat) (g : Region) : (s.setRegion r g).rings = s.rings := rfl
@[simp] theorem State.setRegion_descs (s : State) (r : Nat) (g : Region) : (s.setRegion r g).descs = s.descs := rfl
@[simp] theorem State.setRegion_nextDesc (s : State) (r : Nat) (g : Region) : (s.setRegion r g).nextDesc = s.nextDesc := rfl
@[simp] theorem State.setRegion_collectors (s : State) (r : Nat) (g : Region) : (s.setRegion r g).collectors = s.collectors := rfl
@[simp] theorem State.setRegion_fcCtrl (s : State) (r : Nat) (g : Region) : (s.setRegion r g).fcCtrl = s.fcCtrl := rfl
@[simp] theorem State.setRegion_haltCause (s : State) (r : Nat) (g : Region) : (s.setRegion r g).haltCause = s.haltCause := rfl
@[simp] theorem State.setRegion_pathFaults (s : State) (r : Nat) (g : Region) : (s.setRegion r g).pathFaults = s.pathFaults := rfl
@[simp] theorem State.setRegion_ceForwarded (s : State) (r : Nat) (g : Region) : (s.setRegion r g).ceForwarded = s.ceForwarded := rfl
@[simp] theorem State.setRegion_msix (s : State) (r : Nat) (g : Region) : (s.setRegion r g).msix = s.msix := rfl
@[simp] theorem State.setRegion_msixPending (s : State) (r : Nat) (g : Region) : (s.setRegion r g).msixPending = s.msixPending := rfl
@[simp] theorem State.setRegion_eventEnable (s : State) (r : Nat) (g : Region) : (s.setRegion r g).eventEnable = s.eventEnable := rfl
@[simp] theorem State.setRegion_eventOverflow (s : State) (r : Nat) (g : Region) : (s.setRegion r g).eventOverflow = s.eventOverflow := rfl
@[simp] theorem State.setRegion_eventVector (s : State) (r : Nat) (g : Region) : (s.setRegion r g).eventVector = s.eventVector := rfl
@[simp] theorem State.setRegion_eventHead (s : State) (r : Nat) (g : Region) : (s.setRegion r g).eventHead = s.eventHead := rfl
@[simp] theorem State.setRegion_eventTail (s : State) (r : Nat) (g : Region) : (s.setRegion r g).eventTail = s.eventTail := rfl
@[simp] theorem State.setRegion_eventPhase (s : State) (r : Nat) (g : Region) : (s.setRegion r g).eventPhase = s.eventPhase := rfl
@[simp] theorem State.setRegion_eventLost (s : State) (r : Nat) (g : Region) : (s.setRegion r g).eventLost = s.eventLost := rfl
@[simp] theorem State.setRegion_patina (s : State) (r : Nat) (g : Region) : (s.setRegion r g).patina = s.patina := rfl
@[simp] theorem State.setRegion_patinaSeq (s : State) (r : Nat) (g : Region) : (s.setRegion r g).patinaSeq = s.patinaSeq := rfl
@[simp] theorem State.setRegion_patinaDue (s : State) (r : Nat) (g : Region) : (s.setRegion r g).patinaDue = s.patinaDue := rfl
@[simp] theorem State.setRegion_castOnly (s : State) (r : Nat) (g : Region) : (s.setRegion r g).castOnly = s.castOnly := rfl
@[simp] theorem State.setRegion_repairs (s : State) (r : Nat) (g : Region) : (s.setRegion r g).repairs = s.repairs := rfl
@[simp] theorem State.setRegion_repairsDone (s : State) (r : Nat) (g : Region) : (s.setRegion r g).repairsDone = s.repairsDone := rfl
@[simp] theorem State.setRegion_holesNew (s : State) (r : Nat) (g : Region) : (s.setRegion r g).holesNew = s.holesNew := rfl
@[simp] theorem State.setRegion_hotPairs (s : State) (r : Nat) (g : Region) : (s.setRegion r g).hotPairs = s.hotPairs := rfl
@[simp] theorem State.setRegion_feedA (s : State) (r : Nat) (g : Region) : (s.setRegion r g).feedA = s.feedA := rfl
@[simp] theorem State.setRegion_feedB (s : State) (r : Nat) (g : Region) : (s.setRegion r g).feedB = s.feedB := rfl
@[simp] theorem State.setRegion_converters (s : State) (r : Nat) (g : Region) : (s.setRegion r g).converters = s.converters := rfl
@[simp] theorem State.setRegion_coolantCap (s : State) (r : Nat) (g : Region) : (s.setRegion r g).coolantCap = s.coolantCap := rfl
@[simp] theorem State.setRegion_coolantFlow (s : State) (r : Nat) (g : Region) : (s.setRegion r g).coolantFlow = s.coolantFlow := rfl
@[simp] theorem State.setRegion_coolantDerate (s : State) (r : Nat) (g : Region) : (s.setRegion r g).coolantDerate = s.coolantDerate := rfl
@[simp] theorem State.setRegion_pwrGood (s : State) (r : Nat) (g : Region) : (s.setRegion r g).pwrGood = s.pwrGood := rfl
@[simp] theorem State.setRegion_released (s : State) (r : Nat) (g : Region) : (s.setRegion r g).released = s.released := rfl
@[simp] theorem State.setRegion_bootStep (s : State) (r : Nat) (g : Region) : (s.setRegion r g).bootStep = s.bootStep := rfl
@[simp] theorem State.setRegion_bootFailed (s : State) (r : Nat) (g : Region) : (s.setRegion r g).bootFailed = s.bootFailed := rfl
@[simp] theorem State.setRegion_scanHoles (s : State) (r : Nat) (g : Region) : (s.setRegion r g).scanHoles = s.scanHoles := rfl
@[simp] theorem State.setRegion_ready (s : State) (r : Nat) (g : Region) : (s.setRegion r g).ready = s.ready := rfl
@[simp] theorem State.setRegion_debugOpen (s : State) (r : Nat) (g : Region) : (s.setRegion r g).debugOpen = s.debugOpen := rfl
@[simp] theorem State.setRegion_d3hot (s : State) (r : Nat) (g : Region) : (s.setRegion r g).d3hot = s.d3hot := rfl
@[simp] theorem State.setRegion_hostMem (s : State) (r : Nat) (g : Region) : (s.setRegion r g).hostMem = s.hostMem := rfl
@[simp] theorem State.setRegion_hostPoison (s : State) (r : Nat) (g : Region) : (s.setRegion r g).hostPoison = s.hostPoison := rfl
@[simp] theorem State.setRegion_out (s : State) (r : Nat) (g : Region) : (s.setRegion r g).out = s.out := rfl
@[simp] theorem State.setRegion_ports (s : State) (r : Nat) (g : Region) : (s.setRegion r g).ports = s.ports := rfl
@[simp] theorem State.setRegion_yoke (s : State) (r : Nat) (g : Region) : (s.setRegion r g).yoke = s.yoke := rfl
@[simp] theorem State.setRegion_peerWaits (s : State) (r : Nat) (g : Region) : (s.setRegion r g).peerWaits = s.peerWaits := rfl
@[simp] theorem State.setRegion_sec (s : State) (r : Nat) (g : Region) : (s.setRegion r g).sec = s.sec := rfl
@[simp] theorem State.setRegion_pldm (s : State) (r : Nat) (g : Region) : (s.setRegion r g).pldm = s.pldm := rfl
@[simp] theorem State.setRegion_tap (s : State) (r : Nat) (g : Region) : (s.setRegion r g).tap = s.tap := rfl
@[simp] theorem State.setRegion_bwSeq (s : State) (r : Nat) (g : Region) : (s.setRegion r g).bwSeq = s.bwSeq := rfl
@[simp] theorem State.setRegion_bw (s : State) (r : Nat) (g : Region) : (s.setRegion r g).bw = s.bw := rfl
@[simp] theorem State.setRegion_fbRoute (s : State) (r : Nat) (g : Region) : (s.setRegion r g).fbRoute = s.fbRoute := rfl
@[simp] theorem State.setRegion_fbWindows (s : State) (r : Nat) (g : Region) : (s.setRegion r g).fbWindows = s.fbWindows := rfl
@[simp] theorem State.setRegion_segIdle (s : State) (r : Nat) (g : Region) : (s.setRegion r g).segIdle = s.segIdle := rfl
@[simp] theorem State.setRegion_merged (s : State) (r : Nat) (g : Region) : (s.setRegion r g).merged = s.merged := rfl
@[simp] theorem State.setRegion_flipQueue (s : State) (r : Nat) (g : Region) : (s.setRegion r g).flipQueue = s.flipQueue := rfl
@[simp] theorem State.setRegion_stirrups (s : State) (r : Nat) (g : Region) : (s.setRegion r g).stirrups = s.stirrups := rfl
@[simp] theorem State.setRegion_cast (s : State) (r : Nat) (g : Region) : (s.setRegion r g).cast = s.cast := rfl
@[simp] theorem State.setRegion_eventUnread (s : State) (r : Nat) (g : Region) : (s.setRegion r g).eventUnread = s.eventUnread := rfl
@[simp] theorem State.setRegion_tileCe (s : State) (r : Nat) (g : Region) : (s.setRegion r g).tileCe = s.tileCe := rfl
@[simp] theorem State.setRegion_retireDue (s : State) (r : Nat) (g : Region) : (s.setRegion r g).retireDue = s.retireDue := rfl
@[simp] theorem State.setRegion_scanAdvised (s : State) (r : Nat) (g : Region) : (s.setRegion r g).scanAdvised = s.scanAdvised := rfl
@[simp] theorem State.setPaddock_pending (s : State) (p : Nat) (d : Paddock) : (s.setPaddock p d).pending = s.pending := rfl
@[simp] theorem State.setPaddock_free (s : State) (p : Nat) (d : Paddock) : (s.setPaddock p d).free = s.free := rfl
@[simp] theorem State.setPaddock_tiles (s : State) (p : Nat) (d : Paddock) : (s.setPaddock p d).tiles = s.tiles := rfl
@[simp] theorem State.setPaddock_regions (s : State) (p : Nat) (d : Paddock) : (s.setPaddock p d).regions = s.regions := rfl
@[simp] theorem State.setPaddock_holes (s : State) (p : Nat) (d : Paddock) : (s.setPaddock p d).holes = s.holes := rfl
@[simp] theorem State.setPaddock_rowMap (s : State) (p : Nat) (d : Paddock) : (s.setPaddock p d).rowMap = s.rowMap := rfl
@[simp] theorem State.setPaddock_segMap (s : State) (p : Nat) (d : Paddock) : (s.setPaddock p d).segMap = s.segMap := rfl
@[simp] theorem State.setPaddock_net (s : State) (p : Nat) (d : Paddock) : (s.setPaddock p d).net = s.net := rfl
@[simp] theorem State.setPaddock_near (s : State) (p : Nat) (d : Paddock) : (s.setPaddock p d).near = s.near := rfl
@[simp] theorem State.setPaddock_far (s : State) (p : Nat) (d : Paddock) : (s.setPaddock p d).far = s.far := rfl
@[simp] theorem State.setPaddock_deadStirrups (s : State) (p : Nat) (d : Paddock) : (s.setPaddock p d).deadStirrups = s.deadStirrups := rfl
@[simp] theorem State.setPaddock_flip (s : State) (p : Nat) (d : Paddock) : (s.setPaddock p d).flip = s.flip := rfl
@[simp] theorem State.setPaddock_epoch (s : State) (p : Nat) (d : Paddock) : (s.setPaddock p d).epoch = s.epoch := rfl
@[simp] theorem State.setPaddock_raised (s : State) (p : Nat) (d : Paddock) : (s.setPaddock p d).raised = s.raised := rfl
@[simp] theorem State.setPaddock_halted (s : State) (p : Nat) (d : Paddock) : (s.setPaddock p d).halted = s.halted := rfl
@[simp] theorem State.setPaddock_bursts (s : State) (p : Nat) (d : Paddock) : (s.setPaddock p d).bursts = s.bursts := rfl
@[simp] theorem State.setPaddock_paceStatus (s : State) (p : Nat) (d : Paddock) : (s.setPaddock p d).paceStatus = s.paceStatus := rfl
@[simp] theorem State.setPaddock_refCount (s : State) (p : Nat) (d : Paddock) : (s.setPaddock p d).refCount = s.refCount := rfl
@[simp] theorem State.setPaddock_regs (s : State) (p : Nat) (d : Paddock) : (s.setPaddock p d).regs = s.regs := rfl
@[simp] theorem State.setPaddock_cntWin (s : State) (p : Nat) (d : Paddock) : (s.setPaddock p d).cntWin = s.cntWin := rfl
@[simp] theorem State.setPaddock_rings (s : State) (p : Nat) (d : Paddock) : (s.setPaddock p d).rings = s.rings := rfl
@[simp] theorem State.setPaddock_descs (s : State) (p : Nat) (d : Paddock) : (s.setPaddock p d).descs = s.descs := rfl
@[simp] theorem State.setPaddock_nextDesc (s : State) (p : Nat) (d : Paddock) : (s.setPaddock p d).nextDesc = s.nextDesc := rfl
@[simp] theorem State.setPaddock_collectors (s : State) (p : Nat) (d : Paddock) : (s.setPaddock p d).collectors = s.collectors := rfl
@[simp] theorem State.setPaddock_fcCtrl (s : State) (p : Nat) (d : Paddock) : (s.setPaddock p d).fcCtrl = s.fcCtrl := rfl
@[simp] theorem State.setPaddock_haltCause (s : State) (p : Nat) (d : Paddock) : (s.setPaddock p d).haltCause = s.haltCause := rfl
@[simp] theorem State.setPaddock_pathFaults (s : State) (p : Nat) (d : Paddock) : (s.setPaddock p d).pathFaults = s.pathFaults := rfl
@[simp] theorem State.setPaddock_ceForwarded (s : State) (p : Nat) (d : Paddock) : (s.setPaddock p d).ceForwarded = s.ceForwarded := rfl
@[simp] theorem State.setPaddock_msix (s : State) (p : Nat) (d : Paddock) : (s.setPaddock p d).msix = s.msix := rfl
@[simp] theorem State.setPaddock_msixPending (s : State) (p : Nat) (d : Paddock) : (s.setPaddock p d).msixPending = s.msixPending := rfl
@[simp] theorem State.setPaddock_eventEnable (s : State) (p : Nat) (d : Paddock) : (s.setPaddock p d).eventEnable = s.eventEnable := rfl
@[simp] theorem State.setPaddock_eventOverflow (s : State) (p : Nat) (d : Paddock) : (s.setPaddock p d).eventOverflow = s.eventOverflow := rfl
@[simp] theorem State.setPaddock_eventVector (s : State) (p : Nat) (d : Paddock) : (s.setPaddock p d).eventVector = s.eventVector := rfl
@[simp] theorem State.setPaddock_eventHead (s : State) (p : Nat) (d : Paddock) : (s.setPaddock p d).eventHead = s.eventHead := rfl
@[simp] theorem State.setPaddock_eventTail (s : State) (p : Nat) (d : Paddock) : (s.setPaddock p d).eventTail = s.eventTail := rfl
@[simp] theorem State.setPaddock_eventPhase (s : State) (p : Nat) (d : Paddock) : (s.setPaddock p d).eventPhase = s.eventPhase := rfl
@[simp] theorem State.setPaddock_eventLost (s : State) (p : Nat) (d : Paddock) : (s.setPaddock p d).eventLost = s.eventLost := rfl
@[simp] theorem State.setPaddock_patina (s : State) (p : Nat) (d : Paddock) : (s.setPaddock p d).patina = s.patina := rfl
@[simp] theorem State.setPaddock_patinaSeq (s : State) (p : Nat) (d : Paddock) : (s.setPaddock p d).patinaSeq = s.patinaSeq := rfl
@[simp] theorem State.setPaddock_patinaDue (s : State) (p : Nat) (d : Paddock) : (s.setPaddock p d).patinaDue = s.patinaDue := rfl
@[simp] theorem State.setPaddock_castOnly (s : State) (p : Nat) (d : Paddock) : (s.setPaddock p d).castOnly = s.castOnly := rfl
@[simp] theorem State.setPaddock_repairs (s : State) (p : Nat) (d : Paddock) : (s.setPaddock p d).repairs = s.repairs := rfl
@[simp] theorem State.setPaddock_repairsDone (s : State) (p : Nat) (d : Paddock) : (s.setPaddock p d).repairsDone = s.repairsDone := rfl
@[simp] theorem State.setPaddock_holesNew (s : State) (p : Nat) (d : Paddock) : (s.setPaddock p d).holesNew = s.holesNew := rfl
@[simp] theorem State.setPaddock_hotPairs (s : State) (p : Nat) (d : Paddock) : (s.setPaddock p d).hotPairs = s.hotPairs := rfl
@[simp] theorem State.setPaddock_feedA (s : State) (p : Nat) (d : Paddock) : (s.setPaddock p d).feedA = s.feedA := rfl
@[simp] theorem State.setPaddock_feedB (s : State) (p : Nat) (d : Paddock) : (s.setPaddock p d).feedB = s.feedB := rfl
@[simp] theorem State.setPaddock_converters (s : State) (p : Nat) (d : Paddock) : (s.setPaddock p d).converters = s.converters := rfl
@[simp] theorem State.setPaddock_coolantCap (s : State) (p : Nat) (d : Paddock) : (s.setPaddock p d).coolantCap = s.coolantCap := rfl
@[simp] theorem State.setPaddock_coolantFlow (s : State) (p : Nat) (d : Paddock) : (s.setPaddock p d).coolantFlow = s.coolantFlow := rfl
@[simp] theorem State.setPaddock_coolantDerate (s : State) (p : Nat) (d : Paddock) : (s.setPaddock p d).coolantDerate = s.coolantDerate := rfl
@[simp] theorem State.setPaddock_pwrGood (s : State) (p : Nat) (d : Paddock) : (s.setPaddock p d).pwrGood = s.pwrGood := rfl
@[simp] theorem State.setPaddock_released (s : State) (p : Nat) (d : Paddock) : (s.setPaddock p d).released = s.released := rfl
@[simp] theorem State.setPaddock_bootStep (s : State) (p : Nat) (d : Paddock) : (s.setPaddock p d).bootStep = s.bootStep := rfl
@[simp] theorem State.setPaddock_bootFailed (s : State) (p : Nat) (d : Paddock) : (s.setPaddock p d).bootFailed = s.bootFailed := rfl
@[simp] theorem State.setPaddock_scanHoles (s : State) (p : Nat) (d : Paddock) : (s.setPaddock p d).scanHoles = s.scanHoles := rfl
@[simp] theorem State.setPaddock_ready (s : State) (p : Nat) (d : Paddock) : (s.setPaddock p d).ready = s.ready := rfl
@[simp] theorem State.setPaddock_debugOpen (s : State) (p : Nat) (d : Paddock) : (s.setPaddock p d).debugOpen = s.debugOpen := rfl
@[simp] theorem State.setPaddock_d3hot (s : State) (p : Nat) (d : Paddock) : (s.setPaddock p d).d3hot = s.d3hot := rfl
@[simp] theorem State.setPaddock_hostMem (s : State) (p : Nat) (d : Paddock) : (s.setPaddock p d).hostMem = s.hostMem := rfl
@[simp] theorem State.setPaddock_hostPoison (s : State) (p : Nat) (d : Paddock) : (s.setPaddock p d).hostPoison = s.hostPoison := rfl
@[simp] theorem State.setPaddock_out (s : State) (p : Nat) (d : Paddock) : (s.setPaddock p d).out = s.out := rfl
@[simp] theorem State.setPaddock_ports (s : State) (p : Nat) (d : Paddock) : (s.setPaddock p d).ports = s.ports := rfl
@[simp] theorem State.setPaddock_yoke (s : State) (p : Nat) (d : Paddock) : (s.setPaddock p d).yoke = s.yoke := rfl
@[simp] theorem State.setPaddock_peerWaits (s : State) (p : Nat) (d : Paddock) : (s.setPaddock p d).peerWaits = s.peerWaits := rfl
@[simp] theorem State.setPaddock_sec (s : State) (p : Nat) (d : Paddock) : (s.setPaddock p d).sec = s.sec := rfl
@[simp] theorem State.setPaddock_pldm (s : State) (p : Nat) (d : Paddock) : (s.setPaddock p d).pldm = s.pldm := rfl
@[simp] theorem State.setPaddock_tap (s : State) (p : Nat) (d : Paddock) : (s.setPaddock p d).tap = s.tap := rfl
@[simp] theorem State.setPaddock_bwSeq (s : State) (p : Nat) (d : Paddock) : (s.setPaddock p d).bwSeq = s.bwSeq := rfl
@[simp] theorem State.setPaddock_bw (s : State) (p : Nat) (d : Paddock) : (s.setPaddock p d).bw = s.bw := rfl
@[simp] theorem State.setPaddock_fbRoute (s : State) (p : Nat) (d : Paddock) : (s.setPaddock p d).fbRoute = s.fbRoute := rfl
@[simp] theorem State.setPaddock_fbWindows (s : State) (p : Nat) (d : Paddock) : (s.setPaddock p d).fbWindows = s.fbWindows := rfl
@[simp] theorem State.setPaddock_segIdle (s : State) (p : Nat) (d : Paddock) : (s.setPaddock p d).segIdle = s.segIdle := rfl
@[simp] theorem State.setPaddock_merged (s : State) (p : Nat) (d : Paddock) : (s.setPaddock p d).merged = s.merged := rfl
@[simp] theorem State.setPaddock_flipQueue (s : State) (p : Nat) (d : Paddock) : (s.setPaddock p d).flipQueue = s.flipQueue := rfl
@[simp] theorem State.setPaddock_stirrups (s : State) (p : Nat) (d : Paddock) : (s.setPaddock p d).stirrups = s.stirrups := rfl
@[simp] theorem State.setPaddock_cast (s : State) (p : Nat) (d : Paddock) : (s.setPaddock p d).cast = s.cast := rfl
@[simp] theorem State.setPaddock_eventUnread (s : State) (p : Nat) (d : Paddock) : (s.setPaddock p d).eventUnread = s.eventUnread := rfl
@[simp] theorem State.setPaddock_tileCe (s : State) (p : Nat) (d : Paddock) : (s.setPaddock p d).tileCe = s.tileCe := rfl
@[simp] theorem State.setPaddock_retireDue (s : State) (p : Nat) (d : Paddock) : (s.setPaddock p d).retireDue = s.retireDue := rfl
@[simp] theorem State.setPaddock_scanAdvised (s : State) (p : Nat) (d : Paddock) : (s.setPaddock p d).scanAdvised = s.scanAdvised := rfl
@[simp] theorem State.bump_pending (s : State) : (s.bump).pending = s.pending := rfl
@[simp] theorem State.bump_tiles (s : State) : (s.bump).tiles = s.tiles := rfl
@[simp] theorem State.bump_regions (s : State) : (s.bump).regions = s.regions := rfl
@[simp] theorem State.bump_paddocks (s : State) : (s.bump).paddocks = s.paddocks := rfl
@[simp] theorem State.bump_holes (s : State) : (s.bump).holes = s.holes := rfl
@[simp] theorem State.bump_rowMap (s : State) : (s.bump).rowMap = s.rowMap := rfl
@[simp] theorem State.bump_segMap (s : State) : (s.bump).segMap = s.segMap := rfl
@[simp] theorem State.bump_net (s : State) : (s.bump).net = s.net := rfl
@[simp] theorem State.bump_near (s : State) : (s.bump).near = s.near := rfl
@[simp] theorem State.bump_far (s : State) : (s.bump).far = s.far := rfl
@[simp] theorem State.bump_deadStirrups (s : State) : (s.bump).deadStirrups = s.deadStirrups := rfl
@[simp] theorem State.bump_flip (s : State) : (s.bump).flip = s.flip := rfl
@[simp] theorem State.bump_epoch (s : State) : (s.bump).epoch = s.epoch := rfl
@[simp] theorem State.bump_raised (s : State) : (s.bump).raised = s.raised := rfl
@[simp] theorem State.bump_halted (s : State) : (s.bump).halted = s.halted := rfl
@[simp] theorem State.bump_bursts (s : State) : (s.bump).bursts = s.bursts := rfl
@[simp] theorem State.bump_paceStatus (s : State) : (s.bump).paceStatus = s.paceStatus := rfl
@[simp] theorem State.bump_refCount (s : State) : (s.bump).refCount = s.refCount := rfl
@[simp] theorem State.bump_regs (s : State) : (s.bump).regs = s.regs := rfl
@[simp] theorem State.bump_cntWin (s : State) : (s.bump).cntWin = s.cntWin := rfl
@[simp] theorem State.bump_rings (s : State) : (s.bump).rings = s.rings := rfl
@[simp] theorem State.bump_descs (s : State) : (s.bump).descs = s.descs := rfl
@[simp] theorem State.bump_nextDesc (s : State) : (s.bump).nextDesc = s.nextDesc := rfl
@[simp] theorem State.bump_collectors (s : State) : (s.bump).collectors = s.collectors := rfl
@[simp] theorem State.bump_fcCtrl (s : State) : (s.bump).fcCtrl = s.fcCtrl := rfl
@[simp] theorem State.bump_haltCause (s : State) : (s.bump).haltCause = s.haltCause := rfl
@[simp] theorem State.bump_pathFaults (s : State) : (s.bump).pathFaults = s.pathFaults := rfl
@[simp] theorem State.bump_ceForwarded (s : State) : (s.bump).ceForwarded = s.ceForwarded := rfl
@[simp] theorem State.bump_msix (s : State) : (s.bump).msix = s.msix := rfl
@[simp] theorem State.bump_msixPending (s : State) : (s.bump).msixPending = s.msixPending := rfl
@[simp] theorem State.bump_eventEnable (s : State) : (s.bump).eventEnable = s.eventEnable := rfl
@[simp] theorem State.bump_eventOverflow (s : State) : (s.bump).eventOverflow = s.eventOverflow := rfl
@[simp] theorem State.bump_eventVector (s : State) : (s.bump).eventVector = s.eventVector := rfl
@[simp] theorem State.bump_eventHead (s : State) : (s.bump).eventHead = s.eventHead := rfl
@[simp] theorem State.bump_eventTail (s : State) : (s.bump).eventTail = s.eventTail := rfl
@[simp] theorem State.bump_eventPhase (s : State) : (s.bump).eventPhase = s.eventPhase := rfl
@[simp] theorem State.bump_eventLost (s : State) : (s.bump).eventLost = s.eventLost := rfl
@[simp] theorem State.bump_patina (s : State) : (s.bump).patina = s.patina := rfl
@[simp] theorem State.bump_patinaSeq (s : State) : (s.bump).patinaSeq = s.patinaSeq := rfl
@[simp] theorem State.bump_patinaDue (s : State) : (s.bump).patinaDue = s.patinaDue := rfl
@[simp] theorem State.bump_castOnly (s : State) : (s.bump).castOnly = s.castOnly := rfl
@[simp] theorem State.bump_repairs (s : State) : (s.bump).repairs = s.repairs := rfl
@[simp] theorem State.bump_repairsDone (s : State) : (s.bump).repairsDone = s.repairsDone := rfl
@[simp] theorem State.bump_holesNew (s : State) : (s.bump).holesNew = s.holesNew := rfl
@[simp] theorem State.bump_hotPairs (s : State) : (s.bump).hotPairs = s.hotPairs := rfl
@[simp] theorem State.bump_feedA (s : State) : (s.bump).feedA = s.feedA := rfl
@[simp] theorem State.bump_feedB (s : State) : (s.bump).feedB = s.feedB := rfl
@[simp] theorem State.bump_converters (s : State) : (s.bump).converters = s.converters := rfl
@[simp] theorem State.bump_coolantCap (s : State) : (s.bump).coolantCap = s.coolantCap := rfl
@[simp] theorem State.bump_coolantFlow (s : State) : (s.bump).coolantFlow = s.coolantFlow := rfl
@[simp] theorem State.bump_coolantDerate (s : State) : (s.bump).coolantDerate = s.coolantDerate := rfl
@[simp] theorem State.bump_pwrGood (s : State) : (s.bump).pwrGood = s.pwrGood := rfl
@[simp] theorem State.bump_released (s : State) : (s.bump).released = s.released := rfl
@[simp] theorem State.bump_bootStep (s : State) : (s.bump).bootStep = s.bootStep := rfl
@[simp] theorem State.bump_bootFailed (s : State) : (s.bump).bootFailed = s.bootFailed := rfl
@[simp] theorem State.bump_scanHoles (s : State) : (s.bump).scanHoles = s.scanHoles := rfl
@[simp] theorem State.bump_ready (s : State) : (s.bump).ready = s.ready := rfl
@[simp] theorem State.bump_debugOpen (s : State) : (s.bump).debugOpen = s.debugOpen := rfl
@[simp] theorem State.bump_d3hot (s : State) : (s.bump).d3hot = s.d3hot := rfl
@[simp] theorem State.bump_hostMem (s : State) : (s.bump).hostMem = s.hostMem := rfl
@[simp] theorem State.bump_hostPoison (s : State) : (s.bump).hostPoison = s.hostPoison := rfl
@[simp] theorem State.bump_out (s : State) : (s.bump).out = s.out := rfl
@[simp] theorem State.bump_ports (s : State) : (s.bump).ports = s.ports := rfl
@[simp] theorem State.bump_yoke (s : State) : (s.bump).yoke = s.yoke := rfl
@[simp] theorem State.bump_peerWaits (s : State) : (s.bump).peerWaits = s.peerWaits := rfl
@[simp] theorem State.bump_sec (s : State) : (s.bump).sec = s.sec := rfl
@[simp] theorem State.bump_pldm (s : State) : (s.bump).pldm = s.pldm := rfl
@[simp] theorem State.bump_tap (s : State) : (s.bump).tap = s.tap := rfl
@[simp] theorem State.bump_bwSeq (s : State) : (s.bump).bwSeq = s.bwSeq := rfl
@[simp] theorem State.bump_bw (s : State) : (s.bump).bw = s.bw := rfl
@[simp] theorem State.bump_fbRoute (s : State) : (s.bump).fbRoute = s.fbRoute := rfl
@[simp] theorem State.bump_fbWindows (s : State) : (s.bump).fbWindows = s.fbWindows := rfl
@[simp] theorem State.bump_segIdle (s : State) : s.bump.segIdle = s.segIdle := rfl
@[simp] theorem State.bump_merged (s : State) : s.bump.merged = s.merged := rfl
@[simp] theorem State.bump_flipQueue (s : State) : s.bump.flipQueue = s.flipQueue := rfl
@[simp] theorem State.bump_stirrups (s : State) : s.bump.stirrups = s.stirrups := rfl
@[simp] theorem State.bump_cast (s : State) : s.bump.cast = s.cast := rfl
@[simp] theorem State.bump_eventUnread (s : State) : s.bump.eventUnread = s.eventUnread := rfl
@[simp] theorem State.bump_tileCe (s : State) : s.bump.tileCe = s.tileCe := rfl
@[simp] theorem State.bump_retireDue (s : State) : s.bump.retireDue = s.retireDue := rfl
@[simp] theorem State.bump_scanAdvised (s : State) : s.bump.scanAdvised = s.scanAdvised := rfl
@[simp] theorem State.emit_pending (s : State) (x : Out) : (s.emit x).pending = s.pending := rfl
@[simp] theorem State.emit_free (s : State) (x : Out) : (s.emit x).free = s.free := rfl
@[simp] theorem State.emit_tiles (s : State) (x : Out) : (s.emit x).tiles = s.tiles := rfl
@[simp] theorem State.emit_regions (s : State) (x : Out) : (s.emit x).regions = s.regions := rfl
@[simp] theorem State.emit_paddocks (s : State) (x : Out) : (s.emit x).paddocks = s.paddocks := rfl
@[simp] theorem State.emit_holes (s : State) (x : Out) : (s.emit x).holes = s.holes := rfl
@[simp] theorem State.emit_rowMap (s : State) (x : Out) : (s.emit x).rowMap = s.rowMap := rfl
@[simp] theorem State.emit_segMap (s : State) (x : Out) : (s.emit x).segMap = s.segMap := rfl
@[simp] theorem State.emit_net (s : State) (x : Out) : (s.emit x).net = s.net := rfl
@[simp] theorem State.emit_near (s : State) (x : Out) : (s.emit x).near = s.near := rfl
@[simp] theorem State.emit_far (s : State) (x : Out) : (s.emit x).far = s.far := rfl
@[simp] theorem State.emit_deadStirrups (s : State) (x : Out) : (s.emit x).deadStirrups = s.deadStirrups := rfl
@[simp] theorem State.emit_flip (s : State) (x : Out) : (s.emit x).flip = s.flip := rfl
@[simp] theorem State.emit_epoch (s : State) (x : Out) : (s.emit x).epoch = s.epoch := rfl
@[simp] theorem State.emit_raised (s : State) (x : Out) : (s.emit x).raised = s.raised := rfl
@[simp] theorem State.emit_halted (s : State) (x : Out) : (s.emit x).halted = s.halted := rfl
@[simp] theorem State.emit_bursts (s : State) (x : Out) : (s.emit x).bursts = s.bursts := rfl
@[simp] theorem State.emit_paceStatus (s : State) (x : Out) : (s.emit x).paceStatus = s.paceStatus := rfl
@[simp] theorem State.emit_refCount (s : State) (x : Out) : (s.emit x).refCount = s.refCount := rfl
@[simp] theorem State.emit_regs (s : State) (x : Out) : (s.emit x).regs = s.regs := rfl
@[simp] theorem State.emit_cntWin (s : State) (x : Out) : (s.emit x).cntWin = s.cntWin := rfl
@[simp] theorem State.emit_rings (s : State) (x : Out) : (s.emit x).rings = s.rings := rfl
@[simp] theorem State.emit_descs (s : State) (x : Out) : (s.emit x).descs = s.descs := rfl
@[simp] theorem State.emit_nextDesc (s : State) (x : Out) : (s.emit x).nextDesc = s.nextDesc := rfl
@[simp] theorem State.emit_collectors (s : State) (x : Out) : (s.emit x).collectors = s.collectors := rfl
@[simp] theorem State.emit_fcCtrl (s : State) (x : Out) : (s.emit x).fcCtrl = s.fcCtrl := rfl
@[simp] theorem State.emit_haltCause (s : State) (x : Out) : (s.emit x).haltCause = s.haltCause := rfl
@[simp] theorem State.emit_pathFaults (s : State) (x : Out) : (s.emit x).pathFaults = s.pathFaults := rfl
@[simp] theorem State.emit_ceForwarded (s : State) (x : Out) : (s.emit x).ceForwarded = s.ceForwarded := rfl
@[simp] theorem State.emit_msix (s : State) (x : Out) : (s.emit x).msix = s.msix := rfl
@[simp] theorem State.emit_msixPending (s : State) (x : Out) : (s.emit x).msixPending = s.msixPending := rfl
@[simp] theorem State.emit_eventEnable (s : State) (x : Out) : (s.emit x).eventEnable = s.eventEnable := rfl
@[simp] theorem State.emit_eventOverflow (s : State) (x : Out) : (s.emit x).eventOverflow = s.eventOverflow := rfl
@[simp] theorem State.emit_eventVector (s : State) (x : Out) : (s.emit x).eventVector = s.eventVector := rfl
@[simp] theorem State.emit_eventHead (s : State) (x : Out) : (s.emit x).eventHead = s.eventHead := rfl
@[simp] theorem State.emit_eventTail (s : State) (x : Out) : (s.emit x).eventTail = s.eventTail := rfl
@[simp] theorem State.emit_eventPhase (s : State) (x : Out) : (s.emit x).eventPhase = s.eventPhase := rfl
@[simp] theorem State.emit_eventLost (s : State) (x : Out) : (s.emit x).eventLost = s.eventLost := rfl
@[simp] theorem State.emit_patina (s : State) (x : Out) : (s.emit x).patina = s.patina := rfl
@[simp] theorem State.emit_patinaSeq (s : State) (x : Out) : (s.emit x).patinaSeq = s.patinaSeq := rfl
@[simp] theorem State.emit_patinaDue (s : State) (x : Out) : (s.emit x).patinaDue = s.patinaDue := rfl
@[simp] theorem State.emit_castOnly (s : State) (x : Out) : (s.emit x).castOnly = s.castOnly := rfl
@[simp] theorem State.emit_repairs (s : State) (x : Out) : (s.emit x).repairs = s.repairs := rfl
@[simp] theorem State.emit_repairsDone (s : State) (x : Out) : (s.emit x).repairsDone = s.repairsDone := rfl
@[simp] theorem State.emit_holesNew (s : State) (x : Out) : (s.emit x).holesNew = s.holesNew := rfl
@[simp] theorem State.emit_hotPairs (s : State) (x : Out) : (s.emit x).hotPairs = s.hotPairs := rfl
@[simp] theorem State.emit_feedA (s : State) (x : Out) : (s.emit x).feedA = s.feedA := rfl
@[simp] theorem State.emit_feedB (s : State) (x : Out) : (s.emit x).feedB = s.feedB := rfl
@[simp] theorem State.emit_converters (s : State) (x : Out) : (s.emit x).converters = s.converters := rfl
@[simp] theorem State.emit_coolantCap (s : State) (x : Out) : (s.emit x).coolantCap = s.coolantCap := rfl
@[simp] theorem State.emit_coolantFlow (s : State) (x : Out) : (s.emit x).coolantFlow = s.coolantFlow := rfl
@[simp] theorem State.emit_coolantDerate (s : State) (x : Out) : (s.emit x).coolantDerate = s.coolantDerate := rfl
@[simp] theorem State.emit_pwrGood (s : State) (x : Out) : (s.emit x).pwrGood = s.pwrGood := rfl
@[simp] theorem State.emit_released (s : State) (x : Out) : (s.emit x).released = s.released := rfl
@[simp] theorem State.emit_bootStep (s : State) (x : Out) : (s.emit x).bootStep = s.bootStep := rfl
@[simp] theorem State.emit_bootFailed (s : State) (x : Out) : (s.emit x).bootFailed = s.bootFailed := rfl
@[simp] theorem State.emit_scanHoles (s : State) (x : Out) : (s.emit x).scanHoles = s.scanHoles := rfl
@[simp] theorem State.emit_ready (s : State) (x : Out) : (s.emit x).ready = s.ready := rfl
@[simp] theorem State.emit_debugOpen (s : State) (x : Out) : (s.emit x).debugOpen = s.debugOpen := rfl
@[simp] theorem State.emit_d3hot (s : State) (x : Out) : (s.emit x).d3hot = s.d3hot := rfl
@[simp] theorem State.emit_hostMem (s : State) (x : Out) : (s.emit x).hostMem = s.hostMem := rfl
@[simp] theorem State.emit_hostPoison (s : State) (x : Out) : (s.emit x).hostPoison = s.hostPoison := rfl
@[simp] theorem State.emit_ports (s : State) (x : Out) : (s.emit x).ports = s.ports := rfl
@[simp] theorem State.emit_yoke (s : State) (x : Out) : (s.emit x).yoke = s.yoke := rfl
@[simp] theorem State.emit_peerWaits (s : State) (x : Out) : (s.emit x).peerWaits = s.peerWaits := rfl
@[simp] theorem State.emit_sec (s : State) (x : Out) : (s.emit x).sec = s.sec := rfl
@[simp] theorem State.emit_pldm (s : State) (x : Out) : (s.emit x).pldm = s.pldm := rfl
@[simp] theorem State.emit_tap (s : State) (x : Out) : (s.emit x).tap = s.tap := rfl
@[simp] theorem State.emit_bwSeq (s : State) (x : Out) : (s.emit x).bwSeq = s.bwSeq := rfl
@[simp] theorem State.emit_bw (s : State) (x : Out) : (s.emit x).bw = s.bw := rfl
@[simp] theorem State.emit_fbRoute (s : State) (x : Out) : (s.emit x).fbRoute = s.fbRoute := rfl
@[simp] theorem State.emit_fbWindows (s : State) (x : Out) : (s.emit x).fbWindows = s.fbWindows := rfl
@[simp] theorem State.emit_segIdle (s : State) (x : Out) : (s.emit x).segIdle = s.segIdle := rfl
@[simp] theorem State.emit_merged (s : State) (x : Out) : (s.emit x).merged = s.merged := rfl
@[simp] theorem State.emit_flipQueue (s : State) (x : Out) : (s.emit x).flipQueue = s.flipQueue := rfl
@[simp] theorem State.emit_stirrups (s : State) (x : Out) : (s.emit x).stirrups = s.stirrups := rfl
@[simp] theorem State.emit_cast (s : State) (x : Out) : (s.emit x).cast = s.cast := rfl
@[simp] theorem State.emit_eventUnread (s : State) (x : Out) : (s.emit x).eventUnread = s.eventUnread := rfl
@[simp] theorem State.emit_tileCe (s : State) (x : Out) : (s.emit x).tileCe = s.tileCe := rfl
@[simp] theorem State.emit_retireDue (s : State) (x : Out) : (s.emit x).retireDue = s.retireDue := rfl
@[simp] theorem State.emit_scanAdvised (s : State) (x : Out) : (s.emit x).scanAdvised = s.scanAdvised := rfl
@[simp] theorem State.raise_pending (s : State) (r : Report) : (s.raise r).pending = s.pending := rfl
@[simp] theorem State.raise_free (s : State) (r : Report) : (s.raise r).free = s.free := rfl
@[simp] theorem State.raise_tiles (s : State) (r : Report) : (s.raise r).tiles = s.tiles := rfl
@[simp] theorem State.raise_regions (s : State) (r : Report) : (s.raise r).regions = s.regions := rfl
@[simp] theorem State.raise_paddocks (s : State) (r : Report) : (s.raise r).paddocks = s.paddocks := rfl
@[simp] theorem State.raise_holes (s : State) (r : Report) : (s.raise r).holes = s.holes := rfl
@[simp] theorem State.raise_rowMap (s : State) (r : Report) : (s.raise r).rowMap = s.rowMap := rfl
@[simp] theorem State.raise_segMap (s : State) (r : Report) : (s.raise r).segMap = s.segMap := rfl
@[simp] theorem State.raise_net (s : State) (r : Report) : (s.raise r).net = s.net := rfl
@[simp] theorem State.raise_near (s : State) (r : Report) : (s.raise r).near = s.near := rfl
@[simp] theorem State.raise_far (s : State) (r : Report) : (s.raise r).far = s.far := rfl
@[simp] theorem State.raise_deadStirrups (s : State) (r : Report) : (s.raise r).deadStirrups = s.deadStirrups := rfl
@[simp] theorem State.raise_flip (s : State) (r : Report) : (s.raise r).flip = s.flip := rfl
@[simp] theorem State.raise_epoch (s : State) (r : Report) : (s.raise r).epoch = s.epoch := rfl
@[simp] theorem State.raise_halted (s : State) (r : Report) : (s.raise r).halted = s.halted := rfl
@[simp] theorem State.raise_bursts (s : State) (r : Report) : (s.raise r).bursts = s.bursts := rfl
@[simp] theorem State.raise_paceStatus (s : State) (r : Report) : (s.raise r).paceStatus = s.paceStatus := rfl
@[simp] theorem State.raise_refCount (s : State) (r : Report) : (s.raise r).refCount = s.refCount := rfl
@[simp] theorem State.raise_regs (s : State) (r : Report) : (s.raise r).regs = s.regs := rfl
@[simp] theorem State.raise_cntWin (s : State) (r : Report) : (s.raise r).cntWin = s.cntWin := rfl
@[simp] theorem State.raise_rings (s : State) (r : Report) : (s.raise r).rings = s.rings := rfl
@[simp] theorem State.raise_descs (s : State) (r : Report) : (s.raise r).descs = s.descs := rfl
@[simp] theorem State.raise_nextDesc (s : State) (r : Report) : (s.raise r).nextDesc = s.nextDesc := rfl
@[simp] theorem State.raise_collectors (s : State) (r : Report) : (s.raise r).collectors = s.collectors := rfl
@[simp] theorem State.raise_fcCtrl (s : State) (r : Report) : (s.raise r).fcCtrl = s.fcCtrl := rfl
@[simp] theorem State.raise_haltCause (s : State) (r : Report) : (s.raise r).haltCause = s.haltCause := rfl
@[simp] theorem State.raise_pathFaults (s : State) (r : Report) : (s.raise r).pathFaults = s.pathFaults := rfl
@[simp] theorem State.raise_ceForwarded (s : State) (r : Report) : (s.raise r).ceForwarded = s.ceForwarded := rfl
@[simp] theorem State.raise_msix (s : State) (r : Report) : (s.raise r).msix = s.msix := rfl
@[simp] theorem State.raise_msixPending (s : State) (r : Report) : (s.raise r).msixPending = s.msixPending := rfl
@[simp] theorem State.raise_eventEnable (s : State) (r : Report) : (s.raise r).eventEnable = s.eventEnable := rfl
@[simp] theorem State.raise_eventOverflow (s : State) (r : Report) : (s.raise r).eventOverflow = s.eventOverflow := rfl
@[simp] theorem State.raise_eventVector (s : State) (r : Report) : (s.raise r).eventVector = s.eventVector := rfl
@[simp] theorem State.raise_eventHead (s : State) (r : Report) : (s.raise r).eventHead = s.eventHead := rfl
@[simp] theorem State.raise_eventTail (s : State) (r : Report) : (s.raise r).eventTail = s.eventTail := rfl
@[simp] theorem State.raise_eventPhase (s : State) (r : Report) : (s.raise r).eventPhase = s.eventPhase := rfl
@[simp] theorem State.raise_eventLost (s : State) (r : Report) : (s.raise r).eventLost = s.eventLost := rfl
@[simp] theorem State.raise_patina (s : State) (r : Report) : (s.raise r).patina = s.patina := rfl
@[simp] theorem State.raise_patinaSeq (s : State) (r : Report) : (s.raise r).patinaSeq = s.patinaSeq := rfl
@[simp] theorem State.raise_patinaDue (s : State) (r : Report) : (s.raise r).patinaDue = s.patinaDue := rfl
@[simp] theorem State.raise_castOnly (s : State) (r : Report) : (s.raise r).castOnly = s.castOnly := rfl
@[simp] theorem State.raise_repairs (s : State) (r : Report) : (s.raise r).repairs = s.repairs := rfl
@[simp] theorem State.raise_repairsDone (s : State) (r : Report) : (s.raise r).repairsDone = s.repairsDone := rfl
@[simp] theorem State.raise_holesNew (s : State) (r : Report) : (s.raise r).holesNew = s.holesNew := rfl
@[simp] theorem State.raise_hotPairs (s : State) (r : Report) : (s.raise r).hotPairs = s.hotPairs := rfl
@[simp] theorem State.raise_feedA (s : State) (r : Report) : (s.raise r).feedA = s.feedA := rfl
@[simp] theorem State.raise_feedB (s : State) (r : Report) : (s.raise r).feedB = s.feedB := rfl
@[simp] theorem State.raise_converters (s : State) (r : Report) : (s.raise r).converters = s.converters := rfl
@[simp] theorem State.raise_coolantCap (s : State) (r : Report) : (s.raise r).coolantCap = s.coolantCap := rfl
@[simp] theorem State.raise_coolantFlow (s : State) (r : Report) : (s.raise r).coolantFlow = s.coolantFlow := rfl
@[simp] theorem State.raise_coolantDerate (s : State) (r : Report) : (s.raise r).coolantDerate = s.coolantDerate := rfl
@[simp] theorem State.raise_pwrGood (s : State) (r : Report) : (s.raise r).pwrGood = s.pwrGood := rfl
@[simp] theorem State.raise_released (s : State) (r : Report) : (s.raise r).released = s.released := rfl
@[simp] theorem State.raise_bootStep (s : State) (r : Report) : (s.raise r).bootStep = s.bootStep := rfl
@[simp] theorem State.raise_bootFailed (s : State) (r : Report) : (s.raise r).bootFailed = s.bootFailed := rfl
@[simp] theorem State.raise_scanHoles (s : State) (r : Report) : (s.raise r).scanHoles = s.scanHoles := rfl
@[simp] theorem State.raise_ready (s : State) (r : Report) : (s.raise r).ready = s.ready := rfl
@[simp] theorem State.raise_debugOpen (s : State) (r : Report) : (s.raise r).debugOpen = s.debugOpen := rfl
@[simp] theorem State.raise_d3hot (s : State) (r : Report) : (s.raise r).d3hot = s.d3hot := rfl
@[simp] theorem State.raise_hostMem (s : State) (r : Report) : (s.raise r).hostMem = s.hostMem := rfl
@[simp] theorem State.raise_hostPoison (s : State) (r : Report) : (s.raise r).hostPoison = s.hostPoison := rfl
@[simp] theorem State.raise_out (s : State) (r : Report) : (s.raise r).out = s.out := rfl
@[simp] theorem State.raise_ports (s : State) (r : Report) : (s.raise r).ports = s.ports := rfl
@[simp] theorem State.raise_yoke (s : State) (r : Report) : (s.raise r).yoke = s.yoke := rfl
@[simp] theorem State.raise_peerWaits (s : State) (r : Report) : (s.raise r).peerWaits = s.peerWaits := rfl
@[simp] theorem State.raise_sec (s : State) (r : Report) : (s.raise r).sec = s.sec := rfl
@[simp] theorem State.raise_pldm (s : State) (r : Report) : (s.raise r).pldm = s.pldm := rfl
@[simp] theorem State.raise_tap (s : State) (r : Report) : (s.raise r).tap = s.tap := rfl
@[simp] theorem State.raise_bwSeq (s : State) (r : Report) : (s.raise r).bwSeq = s.bwSeq := rfl
@[simp] theorem State.raise_bw (s : State) (r : Report) : (s.raise r).bw = s.bw := rfl
@[simp] theorem State.raise_fbRoute (s : State) (r : Report) : (s.raise r).fbRoute = s.fbRoute := rfl
@[simp] theorem State.raise_fbWindows (s : State) (r : Report) : (s.raise r).fbWindows = s.fbWindows := rfl
@[simp] theorem State.raise_segIdle (s : State) (r : Report) : (s.raise r).segIdle = s.segIdle := rfl
@[simp] theorem State.raise_merged (s : State) (r : Report) : (s.raise r).merged = s.merged := rfl
@[simp] theorem State.raise_flipQueue (s : State) (r : Report) : (s.raise r).flipQueue = s.flipQueue := rfl
@[simp] theorem State.raise_stirrups (s : State) (r : Report) : (s.raise r).stirrups = s.stirrups := rfl
@[simp] theorem State.raise_cast (s : State) (r : Report) : (s.raise r).cast = s.cast := rfl
@[simp] theorem State.raise_eventUnread (s : State) (r : Report) : (s.raise r).eventUnread = s.eventUnread := rfl
@[simp] theorem State.raise_tileCe (s : State) (r : Report) : (s.raise r).tileCe = s.tileCe := rfl
@[simp] theorem State.raise_retireDue (s : State) (r : Report) : (s.raise r).retireDue = s.retireDue := rfl
@[simp] theorem State.raise_scanAdvised (s : State) (r : Report) : (s.raise r).scanAdvised = s.scanAdvised := rfl

@[simp] theorem State.bump_free (s : State) : s.bump.free = s.free + 1 := rfl
@[simp] theorem State.emit_out (s : State) (x : Out) : (s.emit x).out = s.out ++ [x] := rfl
@[simp] theorem State.raise_raised (s : State) (r : Report) : (s.raise r).raised = s.raised ++ [{ r with pace := (s.paddock r.paddock).paceCount }] := rfl

/-! ## Records read back -/

@[simp] theorem State.tile_bump (s : State) (k : Nat) : s.bump.tile k = s.tile k := rfl
@[simp] theorem State.region_bump (s : State) (r : Nat) : s.bump.region r = s.region r := rfl
@[simp] theorem State.paddock_bump (s : State) (p : Nat) : s.bump.paddock p = s.paddock p := rfl

@[simp] theorem State.tile_setTile (s : State) (k : Nat) (t : Tile) : (s.setTile k t).tile k = t :=
  getD_putD_same _ _ _ _

theorem State.tile_setTile_other (s : State) (k j : Nat) (t : Tile) (h : j ≠ k) : (s.setTile k t).tile j = s.tile j :=
  getD_putD_other _ _ _ _ _ h

@[simp] theorem State.region_setRegion (s : State) (r : Nat) (g : Region) : (s.setRegion r g).region r = g :=
  getD_putD_same _ _ _ _

theorem State.region_setRegion_other (s : State) (r j : Nat) (g : Region) (h : j ≠ r) :
    (s.setRegion r g).region j = s.region j :=
  getD_putD_other _ _ _ _ _ h

@[simp] theorem State.paddock_setPaddock (s : State) (p : Nat) (d : Paddock) : (s.setPaddock p d).paddock p = d :=
  getD_putD_same _ _ _ _

theorem State.paddock_setPaddock_other (s : State) (p j : Nat) (d : Paddock) (h : j ≠ p) :
    (s.setPaddock p d).paddock j = s.paddock j :=
  getD_putD_other _ _ _ _ _ h

@[simp] theorem State.region_setTile (s : State) (k r : Nat) (t : Tile) : (s.setTile k t).region r = s.region r := rfl
@[simp] theorem State.paddock_setTile (s : State) (k p : Nat) (t : Tile) : (s.setTile k t).paddock p = s.paddock p := rfl
@[simp] theorem State.tile_setRegion (s : State) (r k : Nat) (g : Region) : (s.setRegion r g).tile k = s.tile k := rfl
@[simp] theorem State.paddock_setRegion (s : State) (r p : Nat) (g : Region) : (s.setRegion r g).paddock p = s.paddock p := rfl
@[simp] theorem State.tile_setPaddock (s : State) (p k : Nat) (d : Paddock) : (s.setPaddock p d).tile k = s.tile k := rfl
@[simp] theorem State.region_setPaddock (s : State) (p r : Nat) (d : Paddock) : (s.setPaddock p d).region r = s.region r := rfl

/-! ## Fields of a tile under its updates -/

@[simp] theorem Tile.setReg_pc (t : Tile) (r : BitVec 5) (g : GReg) : (t.setReg r g).pc = t.pc := by unfold Tile.setReg; split <;> rfl
@[simp] theorem Tile.setReg_service (t : Tile) (r : BitVec 5) (g : GReg) : (t.setReg r g).service = t.service := by unfold Tile.setReg; split <;> rfl
@[simp] theorem Tile.setReg_parked (t : Tile) (r : BitVec 5) (g : GReg) : (t.setReg r g).parked = t.parked := by unfold Tile.setReg; split <;> rfl
@[simp] theorem Tile.setReg_wait (t : Tile) (r : BitVec 5) (g : GReg) : (t.setReg r g).wait = t.wait := by unfold Tile.setReg; split <;> rfl
@[simp] theorem Tile.setReg_protTop (t : Tile) (r : BitVec 5) (g : GReg) : (t.setReg r g).protTop = t.protTop := by unfold Tile.setReg; split <;> rfl
@[simp] theorem Tile.setReg_fcValid (t : Tile) (r : BitVec 5) (g : GReg) : (t.setReg r g).fcValid = t.fcValid := by unfold Tile.setReg; split <;> rfl
@[simp] theorem Tile.setReg_fcCount (t : Tile) (r : BitVec 5) (g : GReg) : (t.setReg r g).fcCount = t.fcCount := by unfold Tile.setReg; split <;> rfl
@[simp] theorem Tile.setReg_fcMode (t : Tile) (r : BitVec 5) (g : GReg) : (t.setReg r g).fcMode = t.fcMode := by unfold Tile.setReg; split <;> rfl
@[simp] theorem Tile.setReg_fcUnit (t : Tile) (r : BitVec 5) (g : GReg) : (t.setReg r g).fcUnit = t.fcUnit := by unfold Tile.setReg; split <;> rfl
@[simp] theorem Tile.setReg_fcCause (t : Tile) (r : BitVec 5) (g : GReg) : (t.setReg r g).fcCause = t.fcCause := by unfold Tile.setReg; split <;> rfl
@[simp] theorem Tile.setReg_fcPc (t : Tile) (r : BitVec 5) (g : GReg) : (t.setReg r g).fcPc = t.fcPc := by unfold Tile.setReg; split <;> rfl
@[simp] theorem Tile.setReg_fcAddr (t : Tile) (r : BitVec 5) (g : GReg) : (t.setReg r g).fcAddr = t.fcAddr := by unfold Tile.setReg; split <;> rfl
@[simp] theorem Tile.setReg_ceCount (t : Tile) (r : BitVec 5) (g : GReg) : (t.setReg r g).ceCount = t.ceCount := by unfold Tile.setReg; split <;> rfl
@[simp] theorem Tile.setReg_ceLast (t : Tile) (r : BitVec 5) (g : GReg) : (t.setReg r g).ceLast = t.ceLast := by unfold Tile.setReg; split <;> rfl
@[simp] theorem Tile.setReg_instret (t : Tile) (r : BitVec 5) (g : GReg) : (t.setReg r g).instret = t.instret := by unfold Tile.setReg; split <;> rfl
@[simp] theorem Tile.setReg_seq (t : Tile) (r : BitVec 5) (g : GReg) : (t.setReg r g).seq = t.seq := by unfold Tile.setReg; split <;> rfl
@[simp] theorem Tile.setReg_mem (t : Tile) (r : BitVec 5) (g : GReg) : (t.setReg r g).mem = t.mem := by unfold Tile.setReg; split <;> rfl
@[simp] theorem Tile.setReg_scrubLine (t : Tile) (r : BitVec 5) (g : GReg) : (t.setReg r g).scrubLine = t.scrubLine := by unfold Tile.setReg; split <;> rfl
@[simp] theorem Tile.setReg_ceFound (t : Tile) (r : BitVec 5) (g : GReg) : (t.setReg r g).ceFound = t.ceFound := by unfold Tile.setReg; split <;> rfl
@[simp] theorem Tile.setReg_poseMem (t : Tile) (r : BitVec 5) (g : GReg) : (t.setReg r g).poseMem = t.poseMem := by unfold Tile.setReg; split <;> rfl
@[simp] theorem Tile.setReg_remote (t : Tile) (r : BitVec 5) (g : GReg) : (t.setReg r g).remote = t.remote := by unfold Tile.setReg; split <;> rfl
@[simp] theorem Tile.setReg_nextRef (t : Tile) (r : BitVec 5) (g : GReg) : (t.setReg r g).nextRef = t.nextRef := by unfold Tile.setReg; split <;> rfl
@[simp] theorem Tile.setReg_aBufs (t : Tile) (r : BitVec 5) (g : GReg) : (t.setReg r g).aBufs = t.aBufs := by unfold Tile.setReg; split <;> rfl
@[simp] theorem Tile.setReg_bBufs (t : Tile) (r : BitVec 5) (g : GReg) : (t.setReg r g).bBufs = t.bBufs := by unfold Tile.setReg; split <;> rfl
@[simp] theorem Tile.setReg_banks (t : Tile) (r : BitVec 5) (g : GReg) : (t.setReg r g).banks = t.banks := by unfold Tile.setReg; split <;> rfl
@[simp] theorem Tile.setReg_mxQueue (t : Tile) (r : BitVec 5) (g : GReg) : (t.setReg r g).mxQueue = t.mxQueue := by unfold Tile.setReg; split <;> rfl
@[simp] theorem Tile.setReg_plumbMode (t : Tile) (r : BitVec 5) (g : GReg) : (t.setReg r g).plumbMode = t.plumbMode := by unfold Tile.setReg; split <;> rfl
@[simp] theorem Tile.setReg_satMode (t : Tile) (r : BitVec 5) (g : GReg) : (t.setReg r g).satMode = t.satMode := by unfold Tile.setReg; split <;> rfl
@[simp] theorem Tile.setReg_mxFlags (t : Tile) (r : BitVec 5) (g : GReg) : (t.setReg r g).mxFlags = t.mxFlags := by unfold Tile.setReg; split <;> rfl
@[simp] theorem Tile.setReg_opIndex (t : Tile) (r : BitVec 5) (g : GReg) : (t.setReg r g).opIndex = t.opIndex := by unfold Tile.setReg; split <;> rfl
@[simp] theorem Tile.setReg_plumbLast (t : Tile) (r : BitVec 5) (g : GReg) : (t.setReg r g).plumbLast = t.plumbLast := by unfold Tile.setReg; split <;> rfl
@[simp] theorem Tile.setReg_plumbCount (t : Tile) (r : BitVec 5) (g : GReg) : (t.setReg r g).plumbCount = t.plumbCount := by unfold Tile.setReg; split <;> rfl
@[simp] theorem Tile.setReg_vregs (t : Tile) (r : BitVec 5) (g : GReg) : (t.setReg r g).vregs = t.vregs := by unfold Tile.setReg; split <;> rfl
@[simp] theorem Tile.setReg_mregs (t : Tile) (r : BitVec 5) (g : GReg) : (t.setReg r g).mregs = t.mregs := by unfold Tile.setReg; split <;> rfl
@[simp] theorem Tile.setReg_vl (t : Tile) (r : BitVec 5) (g : GReg) : (t.setReg r g).vl = t.vl := by unfold Tile.setReg; split <;> rfl
@[simp] theorem Tile.setReg_vxQueue (t : Tile) (r : BitVec 5) (g : GReg) : (t.setReg r g).vxQueue = t.vxQueue := by unfold Tile.setReg; split <;> rfl
@[simp] theorem Tile.setReg_shape (t : Tile) (r : BitVec 5) (g : GReg) : (t.setReg r g).shape = t.shape := by unfold Tile.setReg; split <;> rfl
@[simp] theorem Tile.setReg_vxFlags (t : Tile) (r : BitVec 5) (g : GReg) : (t.setReg r g).vxFlags = t.vxFlags := by unfold Tile.setReg; split <;> rfl
@[simp] theorem Tile.setReg_srBase (t : Tile) (r : BitVec 5) (g : GReg) : (t.setReg r g).srBase = t.srBase := by unfold Tile.setReg; split <;> rfl
@[simp] theorem Tile.setReg_srPass (t : Tile) (r : BitVec 5) (g : GReg) : (t.setReg r g).srPass = t.srPass := by unfold Tile.setReg; split <;> rfl
@[simp] theorem Tile.setReg_srKey (t : Tile) (r : BitVec 5) (g : GReg) : (t.setReg r g).srKey = t.srKey := by unfold Tile.setReg; split <;> rfl
@[simp] theorem Tile.setReg_tally (t : Tile) (r : BitVec 5) (g : GReg) : (t.setReg r g).tally = t.tally := by unfold Tile.setReg; split <;> rfl
@[simp] theorem Tile.setReg_queues (t : Tile) (r : BitVec 5) (g : GReg) : (t.setReg r g).queues = t.queues := by unfold Tile.setReg; split <;> rfl
@[simp] theorem Tile.setReg_outbound (t : Tile) (r : BitVec 5) (g : GReg) : (t.setReg r g).outbound = t.outbound := by unfold Tile.setReg; split <;> rfl
@[simp] theorem Tile.setReg_selectLast (t : Tile) (r : BitVec 5) (g : GReg) : (t.setReg r g).selectLast = t.selectLast := by unfold Tile.setReg; split <;> rfl
@[simp] theorem Tile.setReg_selectRotate (t : Tile) (r : BitVec 5) (g : GReg) : (t.setReg r g).selectRotate = t.selectRotate := by unfold Tile.setReg; split <;> rfl
@[simp] theorem Tile.setReg_waitBeats (t : Tile) (r : BitVec 5) (g : GReg) : (t.setReg r g).waitBeats = t.waitBeats := by unfold Tile.setReg; split <;> rfl
@[simp] theorem Tile.setReg_sendBeats (t : Tile) (r : BitVec 5) (g : GReg) : (t.setReg r g).sendBeats = t.sendBeats := by unfold Tile.setReg; split <;> rfl
@[simp] theorem Tile.setReg_syncs (t : Tile) (r : BitVec 5) (g : GReg) : (t.setReg r g).syncs = t.syncs := by unfold Tile.setReg; split <;> rfl
@[simp] theorem Tile.setReg_stopped (t : Tile) (r : BitVec 5) (g : GReg) : (t.setReg r g).stopped = t.stopped := by unfold Tile.setReg; split <;> rfl
@[simp] theorem Tile.setReg_slots (t : Tile) (r : BitVec 5) (g : GReg) : (t.setReg r g).slots = t.slots := by unfold Tile.setReg; split <;> rfl
@[simp] theorem Tile.setReg_inForce (t : Tile) (r : BitVec 5) (g : GReg) : (t.setReg r g).inForce = t.inForce := by unfold Tile.setReg; split <;> rfl
@[simp] theorem Tile.setReg_pendingSwitch (t : Tile) (r : BitVec 5) (g : GReg) : (t.setReg r g).pendingSwitch = t.pendingSwitch := by unfold Tile.setReg; split <;> rfl
@[simp] theorem Tile.setReg_ended (t : Tile) (r : BitVec 5) (g : GReg) : (t.setReg r g).ended = t.ended := by unfold Tile.setReg; split <;> rfl
@[simp] theorem Tile.setReg_loadRun (t : Tile) (r : BitVec 5) (g : GReg) : (t.setReg r g).loadRun = t.loadRun := by unfold Tile.setReg; split <;> rfl
@[simp] theorem Tile.setReg_loadQueue (t : Tile) (r : BitVec 5) (g : GReg) : (t.setReg r g).loadQueue = t.loadQueue := by unfold Tile.setReg; split <;> rfl
@[simp] theorem Tile.setReg_deadPorts (t : Tile) (r : BitVec 5) (g : GReg) : (t.setReg r g).deadPorts = t.deadPorts := by unfold Tile.setReg; split <;> rfl
@[simp] theorem Tile.setReg_detourA (t : Tile) (r : BitVec 5) (g : GReg) : (t.setReg r g).detourA = t.detourA := by unfold Tile.setReg; split <;> rfl
@[simp] theorem Tile.setReg_detourB (t : Tile) (r : BitVec 5) (g : GReg) : (t.setReg r g).detourB = t.detourB := by unfold Tile.setReg; split <;> rfl
@[simp] theorem Tile.setReg_merges (t : Tile) (r : BitVec 5) (g : GReg) : (t.setReg r g).merges = t.merges := by unfold Tile.setReg; split <;> rfl
@[simp] theorem Tile.setReg_leaves (t : Tile) (r : BitVec 5) (g : GReg) : (t.setReg r g).leaves = t.leaves := by unfold Tile.setReg; split <;> rfl
@[simp] theorem Tile.setReg_nodes (t : Tile) (r : BitVec 5) (g : GReg) : (t.setReg r g).nodes = t.nodes := by unfold Tile.setReg; split <;> rfl
@[simp] theorem Tile.setReg_srcBursts (t : Tile) (r : BitVec 5) (g : GReg) : (t.setReg r g).srcBursts = t.srcBursts := by unfold Tile.setReg; split <;> rfl
@[simp] theorem Tile.setReg_taps (t : Tile) (r : BitVec 5) (g : GReg) : (t.setReg r g).taps = t.taps := by unfold Tile.setReg; split <;> rfl
@[simp] theorem Tile.setReg_counters (t : Tile) (r : BitVec 5) (g : GReg) : (t.setReg r g).counters = t.counters := by unfold Tile.setReg; split <;> rfl
@[simp] theorem Tile.setReg_cntIdx (t : Tile) (r : BitVec 5) (g : GReg) : (t.setReg r g).cntIdx = t.cntIdx := by unfold Tile.setReg; split <;> rfl
@[simp] theorem Tile.setReg_thSel (t : Tile) (r : BitVec 5) (g : GReg) : (t.setReg r g).thSel = t.thSel := by unfold Tile.setReg; split <;> rfl
@[simp] theorem Tile.setReg_thresholds (t : Tile) (r : BitVec 5) (g : GReg) : (t.setReg r g).thresholds = t.thresholds := by unfold Tile.setReg; split <;> rfl
@[simp] theorem Tile.setReg_cntPsel (t : Tile) (r : BitVec 5) (g : GReg) : (t.setReg r g).cntPsel = t.cntPsel := by unfold Tile.setReg; split <;> rfl
@[simp] theorem Tile.setReg_raised (t : Tile) (r : BitVec 5) (g : GReg) : (t.setReg r g).raised = t.raised := by unfold Tile.setReg; split <;> rfl
@[simp] theorem Tile.setReg_inject (t : Tile) (r : BitVec 5) (g : GReg) : (t.setReg r g).inject = t.inject := by unfold Tile.setReg; split <;> rfl
@[simp] theorem Tile.setReg_fetchBuf (t : Tile) (r : BitVec 5) (g : GReg) : (t.setReg r g).fetchBuf = t.fetchBuf := by unfold Tile.setReg; split <;> rfl
@[simp] theorem Tile.setReg_stuckAt (t : Tile) (r : BitVec 5) (g : GReg) : (t.setReg r g).stuckAt = t.stuckAt := by unfold Tile.setReg; split <;> rfl
@[simp] theorem Tile.retireTo_regs (t : Tile) (p : BitVec 18) : (t.retireTo p).regs = t.regs := rfl
@[simp] theorem Tile.retireTo_service (t : Tile) (p : BitVec 18) : (t.retireTo p).service = t.service := rfl
@[simp] theorem Tile.retireTo_parked (t : Tile) (p : BitVec 18) : (t.retireTo p).parked = t.parked := rfl
@[simp] theorem Tile.retireTo_wait (t : Tile) (p : BitVec 18) : (t.retireTo p).wait = t.wait := rfl
@[simp] theorem Tile.retireTo_protTop (t : Tile) (p : BitVec 18) : (t.retireTo p).protTop = t.protTop := rfl
@[simp] theorem Tile.retireTo_fcValid (t : Tile) (p : BitVec 18) : (t.retireTo p).fcValid = t.fcValid := rfl
@[simp] theorem Tile.retireTo_fcCount (t : Tile) (p : BitVec 18) : (t.retireTo p).fcCount = t.fcCount := rfl
@[simp] theorem Tile.retireTo_fcMode (t : Tile) (p : BitVec 18) : (t.retireTo p).fcMode = t.fcMode := rfl
@[simp] theorem Tile.retireTo_fcUnit (t : Tile) (p : BitVec 18) : (t.retireTo p).fcUnit = t.fcUnit := rfl
@[simp] theorem Tile.retireTo_fcCause (t : Tile) (p : BitVec 18) : (t.retireTo p).fcCause = t.fcCause := rfl
@[simp] theorem Tile.retireTo_fcPc (t : Tile) (p : BitVec 18) : (t.retireTo p).fcPc = t.fcPc := rfl
@[simp] theorem Tile.retireTo_fcAddr (t : Tile) (p : BitVec 18) : (t.retireTo p).fcAddr = t.fcAddr := rfl
@[simp] theorem Tile.retireTo_ceCount (t : Tile) (p : BitVec 18) : (t.retireTo p).ceCount = t.ceCount := rfl
@[simp] theorem Tile.retireTo_ceLast (t : Tile) (p : BitVec 18) : (t.retireTo p).ceLast = t.ceLast := rfl
@[simp] theorem Tile.retireTo_seq (t : Tile) (p : BitVec 18) : (t.retireTo p).seq = t.seq := rfl
@[simp] theorem Tile.retireTo_gPending (t : Tile) (p : BitVec 18) : (t.retireTo p).gPending = t.gPending := rfl
@[simp] theorem Tile.retireTo_mem (t : Tile) (p : BitVec 18) : (t.retireTo p).mem = t.mem := rfl
@[simp] theorem Tile.retireTo_scrubLine (t : Tile) (p : BitVec 18) : (t.retireTo p).scrubLine = t.scrubLine := rfl
@[simp] theorem Tile.retireTo_ceFound (t : Tile) (p : BitVec 18) : (t.retireTo p).ceFound = t.ceFound := rfl
@[simp] theorem Tile.retireTo_poseMem (t : Tile) (p : BitVec 18) : (t.retireTo p).poseMem = t.poseMem := rfl
@[simp] theorem Tile.retireTo_remote (t : Tile) (p : BitVec 18) : (t.retireTo p).remote = t.remote := rfl
@[simp] theorem Tile.retireTo_nextRef (t : Tile) (p : BitVec 18) : (t.retireTo p).nextRef = t.nextRef := rfl
@[simp] theorem Tile.retireTo_aBufs (t : Tile) (p : BitVec 18) : (t.retireTo p).aBufs = t.aBufs := rfl
@[simp] theorem Tile.retireTo_bBufs (t : Tile) (p : BitVec 18) : (t.retireTo p).bBufs = t.bBufs := rfl
@[simp] theorem Tile.retireTo_banks (t : Tile) (p : BitVec 18) : (t.retireTo p).banks = t.banks := rfl
@[simp] theorem Tile.retireTo_mxQueue (t : Tile) (p : BitVec 18) : (t.retireTo p).mxQueue = t.mxQueue := rfl
@[simp] theorem Tile.retireTo_plumbMode (t : Tile) (p : BitVec 18) : (t.retireTo p).plumbMode = t.plumbMode := rfl
@[simp] theorem Tile.retireTo_satMode (t : Tile) (p : BitVec 18) : (t.retireTo p).satMode = t.satMode := rfl
@[simp] theorem Tile.retireTo_mxFlags (t : Tile) (p : BitVec 18) : (t.retireTo p).mxFlags = t.mxFlags := rfl
@[simp] theorem Tile.retireTo_opIndex (t : Tile) (p : BitVec 18) : (t.retireTo p).opIndex = t.opIndex := rfl
@[simp] theorem Tile.retireTo_plumbLast (t : Tile) (p : BitVec 18) : (t.retireTo p).plumbLast = t.plumbLast := rfl
@[simp] theorem Tile.retireTo_plumbCount (t : Tile) (p : BitVec 18) : (t.retireTo p).plumbCount = t.plumbCount := rfl
@[simp] theorem Tile.retireTo_vregs (t : Tile) (p : BitVec 18) : (t.retireTo p).vregs = t.vregs := rfl
@[simp] theorem Tile.retireTo_mregs (t : Tile) (p : BitVec 18) : (t.retireTo p).mregs = t.mregs := rfl
@[simp] theorem Tile.retireTo_vl (t : Tile) (p : BitVec 18) : (t.retireTo p).vl = t.vl := rfl
@[simp] theorem Tile.retireTo_vxQueue (t : Tile) (p : BitVec 18) : (t.retireTo p).vxQueue = t.vxQueue := rfl
@[simp] theorem Tile.retireTo_shape (t : Tile) (p : BitVec 18) : (t.retireTo p).shape = t.shape := rfl
@[simp] theorem Tile.retireTo_vxFlags (t : Tile) (p : BitVec 18) : (t.retireTo p).vxFlags = t.vxFlags := rfl
@[simp] theorem Tile.retireTo_srBase (t : Tile) (p : BitVec 18) : (t.retireTo p).srBase = t.srBase := rfl
@[simp] theorem Tile.retireTo_srPass (t : Tile) (p : BitVec 18) : (t.retireTo p).srPass = t.srPass := rfl
@[simp] theorem Tile.retireTo_srKey (t : Tile) (p : BitVec 18) : (t.retireTo p).srKey = t.srKey := rfl
@[simp] theorem Tile.retireTo_tally (t : Tile) (p : BitVec 18) : (t.retireTo p).tally = t.tally := rfl
@[simp] theorem Tile.retireTo_queues (t : Tile) (p : BitVec 18) : (t.retireTo p).queues = t.queues := rfl
@[simp] theorem Tile.retireTo_outbound (t : Tile) (p : BitVec 18) : (t.retireTo p).outbound = t.outbound := rfl
@[simp] theorem Tile.retireTo_selectLast (t : Tile) (p : BitVec 18) : (t.retireTo p).selectLast = t.selectLast := rfl
@[simp] theorem Tile.retireTo_selectRotate (t : Tile) (p : BitVec 18) : (t.retireTo p).selectRotate = t.selectRotate := rfl
@[simp] theorem Tile.retireTo_waitBeats (t : Tile) (p : BitVec 18) : (t.retireTo p).waitBeats = t.waitBeats := rfl
@[simp] theorem Tile.retireTo_sendBeats (t : Tile) (p : BitVec 18) : (t.retireTo p).sendBeats = t.sendBeats := rfl
@[simp] theorem Tile.retireTo_syncs (t : Tile) (p : BitVec 18) : (t.retireTo p).syncs = t.syncs := rfl
@[simp] theorem Tile.retireTo_stopped (t : Tile) (p : BitVec 18) : (t.retireTo p).stopped = t.stopped := rfl
@[simp] theorem Tile.retireTo_slots (t : Tile) (p : BitVec 18) : (t.retireTo p).slots = t.slots := rfl
@[simp] theorem Tile.retireTo_inForce (t : Tile) (p : BitVec 18) : (t.retireTo p).inForce = t.inForce := rfl
@[simp] theorem Tile.retireTo_pendingSwitch (t : Tile) (p : BitVec 18) : (t.retireTo p).pendingSwitch = t.pendingSwitch := rfl
@[simp] theorem Tile.retireTo_ended (t : Tile) (p : BitVec 18) : (t.retireTo p).ended = t.ended := rfl
@[simp] theorem Tile.retireTo_loadRun (t : Tile) (p : BitVec 18) : (t.retireTo p).loadRun = t.loadRun := rfl
@[simp] theorem Tile.retireTo_loadQueue (t : Tile) (p : BitVec 18) : (t.retireTo p).loadQueue = t.loadQueue := rfl
@[simp] theorem Tile.retireTo_deadPorts (t : Tile) (p : BitVec 18) : (t.retireTo p).deadPorts = t.deadPorts := rfl
@[simp] theorem Tile.retireTo_detourA (t : Tile) (p : BitVec 18) : (t.retireTo p).detourA = t.detourA := rfl
@[simp] theorem Tile.retireTo_detourB (t : Tile) (p : BitVec 18) : (t.retireTo p).detourB = t.detourB := rfl
@[simp] theorem Tile.retireTo_merges (t : Tile) (p : BitVec 18) : (t.retireTo p).merges = t.merges := rfl
@[simp] theorem Tile.retireTo_leaves (t : Tile) (p : BitVec 18) : (t.retireTo p).leaves = t.leaves := rfl
@[simp] theorem Tile.retireTo_nodes (t : Tile) (p : BitVec 18) : (t.retireTo p).nodes = t.nodes := rfl
@[simp] theorem Tile.retireTo_srcBursts (t : Tile) (p : BitVec 18) : (t.retireTo p).srcBursts = t.srcBursts := rfl
@[simp] theorem Tile.retireTo_taps (t : Tile) (p : BitVec 18) : (t.retireTo p).taps = t.taps := rfl
@[simp] theorem Tile.retireTo_counters (t : Tile) (p : BitVec 18) : (t.retireTo p).counters = t.counters := rfl
@[simp] theorem Tile.retireTo_cntIdx (t : Tile) (p : BitVec 18) : (t.retireTo p).cntIdx = t.cntIdx := rfl
@[simp] theorem Tile.retireTo_thSel (t : Tile) (p : BitVec 18) : (t.retireTo p).thSel = t.thSel := rfl
@[simp] theorem Tile.retireTo_thresholds (t : Tile) (p : BitVec 18) : (t.retireTo p).thresholds = t.thresholds := rfl
@[simp] theorem Tile.retireTo_cntPsel (t : Tile) (p : BitVec 18) : (t.retireTo p).cntPsel = t.cntPsel := rfl
@[simp] theorem Tile.retireTo_raised (t : Tile) (p : BitVec 18) : (t.retireTo p).raised = t.raised := rfl
@[simp] theorem Tile.retireTo_inject (t : Tile) (p : BitVec 18) : (t.retireTo p).inject = t.inject := rfl
@[simp] theorem Tile.retireTo_fetchBuf (t : Tile) (p : BitVec 18) : (t.retireTo p).fetchBuf = t.fetchBuf := rfl
@[simp] theorem Tile.retireTo_stuckAt (t : Tile) (p : BitVec 18) : (t.retireTo p).stuckAt = t.stuckAt := rfl
@[simp] theorem Tile.putWord_regs (t : Tile) (i : Nat) (w : PWord) : (t.putWord i w).regs = t.regs := by unfold Tile.putWord Tile.closeMerge; split <;> rfl
@[simp] theorem Tile.putWord_pc (t : Tile) (i : Nat) (w : PWord) : (t.putWord i w).pc = t.pc := by unfold Tile.putWord Tile.closeMerge; split <;> rfl
@[simp] theorem Tile.putWord_service (t : Tile) (i : Nat) (w : PWord) : (t.putWord i w).service = t.service := by unfold Tile.putWord Tile.closeMerge; split <;> rfl
@[simp] theorem Tile.putWord_parked (t : Tile) (i : Nat) (w : PWord) : (t.putWord i w).parked = t.parked := by unfold Tile.putWord Tile.closeMerge; split <;> rfl
@[simp] theorem Tile.putWord_wait (t : Tile) (i : Nat) (w : PWord) : (t.putWord i w).wait = t.wait := by unfold Tile.putWord Tile.closeMerge; split <;> rfl
@[simp] theorem Tile.putWord_protTop (t : Tile) (i : Nat) (w : PWord) : (t.putWord i w).protTop = t.protTop := by unfold Tile.putWord Tile.closeMerge; split <;> rfl
@[simp] theorem Tile.putWord_fcValid (t : Tile) (i : Nat) (w : PWord) : (t.putWord i w).fcValid = t.fcValid := by unfold Tile.putWord Tile.closeMerge; split <;> rfl
@[simp] theorem Tile.putWord_fcCount (t : Tile) (i : Nat) (w : PWord) : (t.putWord i w).fcCount = t.fcCount := by unfold Tile.putWord Tile.closeMerge; split <;> rfl
@[simp] theorem Tile.putWord_fcMode (t : Tile) (i : Nat) (w : PWord) : (t.putWord i w).fcMode = t.fcMode := by unfold Tile.putWord Tile.closeMerge; split <;> rfl
@[simp] theorem Tile.putWord_fcUnit (t : Tile) (i : Nat) (w : PWord) : (t.putWord i w).fcUnit = t.fcUnit := by unfold Tile.putWord Tile.closeMerge; split <;> rfl
@[simp] theorem Tile.putWord_fcCause (t : Tile) (i : Nat) (w : PWord) : (t.putWord i w).fcCause = t.fcCause := by unfold Tile.putWord Tile.closeMerge; split <;> rfl
@[simp] theorem Tile.putWord_fcPc (t : Tile) (i : Nat) (w : PWord) : (t.putWord i w).fcPc = t.fcPc := by unfold Tile.putWord Tile.closeMerge; split <;> rfl
@[simp] theorem Tile.putWord_fcAddr (t : Tile) (i : Nat) (w : PWord) : (t.putWord i w).fcAddr = t.fcAddr := by unfold Tile.putWord Tile.closeMerge; split <;> rfl
@[simp] theorem Tile.putWord_ceCount (t : Tile) (i : Nat) (w : PWord) : (t.putWord i w).ceCount = t.ceCount := by unfold Tile.putWord Tile.closeMerge; split <;> rfl
@[simp] theorem Tile.putWord_ceLast (t : Tile) (i : Nat) (w : PWord) : (t.putWord i w).ceLast = t.ceLast := by unfold Tile.putWord Tile.closeMerge; split <;> rfl
@[simp] theorem Tile.putWord_instret (t : Tile) (i : Nat) (w : PWord) : (t.putWord i w).instret = t.instret := by unfold Tile.putWord Tile.closeMerge; split <;> rfl
@[simp] theorem Tile.putWord_seq (t : Tile) (i : Nat) (w : PWord) : (t.putWord i w).seq = t.seq := by unfold Tile.putWord Tile.closeMerge; split <;> rfl
@[simp] theorem Tile.putWord_gPending (t : Tile) (i : Nat) (w : PWord) : (t.putWord i w).gPending = t.gPending := by unfold Tile.putWord Tile.closeMerge; split <;> rfl
@[simp] theorem Tile.putWord_scrubLine (t : Tile) (i : Nat) (w : PWord) : (t.putWord i w).scrubLine = t.scrubLine := by unfold Tile.putWord Tile.closeMerge; split <;> rfl
@[simp] theorem Tile.putWord_poseMem (t : Tile) (i : Nat) (w : PWord) : (t.putWord i w).poseMem = t.poseMem := by unfold Tile.putWord Tile.closeMerge; split <;> rfl
@[simp] theorem Tile.putWord_remote (t : Tile) (i : Nat) (w : PWord) : (t.putWord i w).remote = t.remote := by unfold Tile.putWord Tile.closeMerge; split <;> rfl
@[simp] theorem Tile.putWord_nextRef (t : Tile) (i : Nat) (w : PWord) : (t.putWord i w).nextRef = t.nextRef := by unfold Tile.putWord Tile.closeMerge; split <;> rfl
@[simp] theorem Tile.putWord_aBufs (t : Tile) (i : Nat) (w : PWord) : (t.putWord i w).aBufs = t.aBufs := by unfold Tile.putWord Tile.closeMerge; split <;> rfl
@[simp] theorem Tile.putWord_bBufs (t : Tile) (i : Nat) (w : PWord) : (t.putWord i w).bBufs = t.bBufs := by unfold Tile.putWord Tile.closeMerge; split <;> rfl
@[simp] theorem Tile.putWord_banks (t : Tile) (i : Nat) (w : PWord) : (t.putWord i w).banks = t.banks := by unfold Tile.putWord Tile.closeMerge; split <;> rfl
@[simp] theorem Tile.putWord_mxQueue (t : Tile) (i : Nat) (w : PWord) : (t.putWord i w).mxQueue = t.mxQueue := by unfold Tile.putWord Tile.closeMerge; split <;> rfl
@[simp] theorem Tile.putWord_plumbMode (t : Tile) (i : Nat) (w : PWord) : (t.putWord i w).plumbMode = t.plumbMode := by unfold Tile.putWord Tile.closeMerge; split <;> rfl
@[simp] theorem Tile.putWord_satMode (t : Tile) (i : Nat) (w : PWord) : (t.putWord i w).satMode = t.satMode := by unfold Tile.putWord Tile.closeMerge; split <;> rfl
@[simp] theorem Tile.putWord_mxFlags (t : Tile) (i : Nat) (w : PWord) : (t.putWord i w).mxFlags = t.mxFlags := by unfold Tile.putWord Tile.closeMerge; split <;> rfl
@[simp] theorem Tile.putWord_opIndex (t : Tile) (i : Nat) (w : PWord) : (t.putWord i w).opIndex = t.opIndex := by unfold Tile.putWord Tile.closeMerge; split <;> rfl
@[simp] theorem Tile.putWord_plumbLast (t : Tile) (i : Nat) (w : PWord) : (t.putWord i w).plumbLast = t.plumbLast := by unfold Tile.putWord Tile.closeMerge; split <;> rfl
@[simp] theorem Tile.putWord_plumbCount (t : Tile) (i : Nat) (w : PWord) : (t.putWord i w).plumbCount = t.plumbCount := by unfold Tile.putWord Tile.closeMerge; split <;> rfl
@[simp] theorem Tile.putWord_vregs (t : Tile) (i : Nat) (w : PWord) : (t.putWord i w).vregs = t.vregs := by unfold Tile.putWord Tile.closeMerge; split <;> rfl
@[simp] theorem Tile.putWord_mregs (t : Tile) (i : Nat) (w : PWord) : (t.putWord i w).mregs = t.mregs := by unfold Tile.putWord Tile.closeMerge; split <;> rfl
@[simp] theorem Tile.putWord_vl (t : Tile) (i : Nat) (w : PWord) : (t.putWord i w).vl = t.vl := by unfold Tile.putWord Tile.closeMerge; split <;> rfl
@[simp] theorem Tile.putWord_vxQueue (t : Tile) (i : Nat) (w : PWord) : (t.putWord i w).vxQueue = t.vxQueue := by unfold Tile.putWord Tile.closeMerge; split <;> rfl
@[simp] theorem Tile.putWord_shape (t : Tile) (i : Nat) (w : PWord) : (t.putWord i w).shape = t.shape := by unfold Tile.putWord Tile.closeMerge; split <;> rfl
@[simp] theorem Tile.putWord_vxFlags (t : Tile) (i : Nat) (w : PWord) : (t.putWord i w).vxFlags = t.vxFlags := by unfold Tile.putWord Tile.closeMerge; split <;> rfl
@[simp] theorem Tile.putWord_srBase (t : Tile) (i : Nat) (w : PWord) : (t.putWord i w).srBase = t.srBase := by unfold Tile.putWord Tile.closeMerge; split <;> rfl
@[simp] theorem Tile.putWord_srPass (t : Tile) (i : Nat) (w : PWord) : (t.putWord i w).srPass = t.srPass := by unfold Tile.putWord Tile.closeMerge; split <;> rfl
@[simp] theorem Tile.putWord_srKey (t : Tile) (i : Nat) (w : PWord) : (t.putWord i w).srKey = t.srKey := by unfold Tile.putWord Tile.closeMerge; split <;> rfl
@[simp] theorem Tile.putWord_tally (t : Tile) (i : Nat) (w : PWord) : (t.putWord i w).tally = t.tally := by unfold Tile.putWord Tile.closeMerge; split <;> rfl
@[simp] theorem Tile.putWord_queues (t : Tile) (i : Nat) (w : PWord) : (t.putWord i w).queues = t.queues := by unfold Tile.putWord Tile.closeMerge; split <;> rfl
@[simp] theorem Tile.putWord_outbound (t : Tile) (i : Nat) (w : PWord) : (t.putWord i w).outbound = t.outbound := by unfold Tile.putWord Tile.closeMerge; split <;> rfl
@[simp] theorem Tile.putWord_selectLast (t : Tile) (i : Nat) (w : PWord) : (t.putWord i w).selectLast = t.selectLast := by unfold Tile.putWord Tile.closeMerge; split <;> rfl
@[simp] theorem Tile.putWord_selectRotate (t : Tile) (i : Nat) (w : PWord) : (t.putWord i w).selectRotate = t.selectRotate := by unfold Tile.putWord Tile.closeMerge; split <;> rfl
@[simp] theorem Tile.putWord_waitBeats (t : Tile) (i : Nat) (w : PWord) : (t.putWord i w).waitBeats = t.waitBeats := by unfold Tile.putWord Tile.closeMerge; split <;> rfl
@[simp] theorem Tile.putWord_sendBeats (t : Tile) (i : Nat) (w : PWord) : (t.putWord i w).sendBeats = t.sendBeats := by unfold Tile.putWord Tile.closeMerge; split <;> rfl
@[simp] theorem Tile.putWord_syncs (t : Tile) (i : Nat) (w : PWord) : (t.putWord i w).syncs = t.syncs := by unfold Tile.putWord Tile.closeMerge; split <;> rfl
@[simp] theorem Tile.putWord_stopped (t : Tile) (i : Nat) (w : PWord) : (t.putWord i w).stopped = t.stopped := by unfold Tile.putWord Tile.closeMerge; split <;> rfl
@[simp] theorem Tile.putWord_slots (t : Tile) (i : Nat) (w : PWord) : (t.putWord i w).slots = t.slots := by unfold Tile.putWord Tile.closeMerge; split <;> rfl
@[simp] theorem Tile.putWord_inForce (t : Tile) (i : Nat) (w : PWord) : (t.putWord i w).inForce = t.inForce := by unfold Tile.putWord Tile.closeMerge; split <;> rfl
@[simp] theorem Tile.putWord_pendingSwitch (t : Tile) (i : Nat) (w : PWord) : (t.putWord i w).pendingSwitch = t.pendingSwitch := by unfold Tile.putWord Tile.closeMerge; split <;> rfl
@[simp] theorem Tile.putWord_ended (t : Tile) (i : Nat) (w : PWord) : (t.putWord i w).ended = t.ended := by unfold Tile.putWord Tile.closeMerge; split <;> rfl
@[simp] theorem Tile.putWord_loadRun (t : Tile) (i : Nat) (w : PWord) : (t.putWord i w).loadRun = t.loadRun := by unfold Tile.putWord Tile.closeMerge; split <;> rfl
@[simp] theorem Tile.putWord_loadQueue (t : Tile) (i : Nat) (w : PWord) : (t.putWord i w).loadQueue = t.loadQueue := by unfold Tile.putWord Tile.closeMerge; split <;> rfl
@[simp] theorem Tile.putWord_deadPorts (t : Tile) (i : Nat) (w : PWord) : (t.putWord i w).deadPorts = t.deadPorts := by unfold Tile.putWord Tile.closeMerge; split <;> rfl
@[simp] theorem Tile.putWord_detourA (t : Tile) (i : Nat) (w : PWord) : (t.putWord i w).detourA = t.detourA := by unfold Tile.putWord Tile.closeMerge; split <;> rfl
@[simp] theorem Tile.putWord_detourB (t : Tile) (i : Nat) (w : PWord) : (t.putWord i w).detourB = t.detourB := by unfold Tile.putWord Tile.closeMerge; split <;> rfl
@[simp] theorem Tile.putWord_leaves (t : Tile) (i : Nat) (w : PWord) : (t.putWord i w).leaves = t.leaves := by unfold Tile.putWord Tile.closeMerge; split <;> rfl
@[simp] theorem Tile.putWord_nodes (t : Tile) (i : Nat) (w : PWord) : (t.putWord i w).nodes = t.nodes := by unfold Tile.putWord Tile.closeMerge; split <;> rfl
@[simp] theorem Tile.putWord_srcBursts (t : Tile) (i : Nat) (w : PWord) : (t.putWord i w).srcBursts = t.srcBursts := by unfold Tile.putWord Tile.closeMerge; split <;> rfl
@[simp] theorem Tile.putWord_taps (t : Tile) (i : Nat) (w : PWord) : (t.putWord i w).taps = t.taps := by unfold Tile.putWord Tile.closeMerge; split <;> rfl
@[simp] theorem Tile.putWord_counters (t : Tile) (i : Nat) (w : PWord) : (t.putWord i w).counters = t.counters := by unfold Tile.putWord Tile.closeMerge; split <;> rfl
@[simp] theorem Tile.putWord_cntIdx (t : Tile) (i : Nat) (w : PWord) : (t.putWord i w).cntIdx = t.cntIdx := by unfold Tile.putWord Tile.closeMerge; split <;> rfl
@[simp] theorem Tile.putWord_thSel (t : Tile) (i : Nat) (w : PWord) : (t.putWord i w).thSel = t.thSel := by unfold Tile.putWord Tile.closeMerge; split <;> rfl
@[simp] theorem Tile.putWord_thresholds (t : Tile) (i : Nat) (w : PWord) : (t.putWord i w).thresholds = t.thresholds := by unfold Tile.putWord Tile.closeMerge; split <;> rfl
@[simp] theorem Tile.putWord_cntPsel (t : Tile) (i : Nat) (w : PWord) : (t.putWord i w).cntPsel = t.cntPsel := by unfold Tile.putWord Tile.closeMerge; split <;> rfl
@[simp] theorem Tile.putWord_raised (t : Tile) (i : Nat) (w : PWord) : (t.putWord i w).raised = t.raised := by unfold Tile.putWord Tile.closeMerge; split <;> rfl
@[simp] theorem Tile.putWord_inject (t : Tile) (i : Nat) (w : PWord) : (t.putWord i w).inject = t.inject := by unfold Tile.putWord Tile.closeMerge; split <;> rfl
@[simp] theorem Tile.putWord_stuckAt (t : Tile) (i : Nat) (w : PWord) : (t.putWord i w).stuckAt = t.stuckAt := by unfold Tile.putWord Tile.closeMerge; split <;> rfl

end Sys2Proof.Machine
end

