-- ==== Sys2Proof/Laws/Core.lean ====
section
/-! SUPPORT. Registers and local memory of a tile: reads after writes, what each write leaves alone, the canonical form of
local memory, and what the issue of an instruction can do. -/

namespace Sys2Proof.Machine

/-! ## General registers (03, R97) -/

@[simp] theorem Tile.reg_zero (t : Tile) : t.reg 0 = {} := rfl

@[simp] theorem Tile.setReg_zero (t : Tile) (g : GReg) : t.setReg 0 g = t := rfl

theorem Tile.reg_setReg_same (t : Tile) (r : BitVec 5) (g : GReg) (h : r ≠ 0) :
    (t.setReg r g).reg r = if g.poison then { g with val := 0 } else g := by
  unfold Tile.setReg Tile.reg
  rw [if_neg h, if_neg h]
  exact getD_putD_same _ _ _ _

theorem Tile.reg_setReg_other (t : Tile) (r j : BitVec 5) (g : GReg) (h : j ≠ r) : (t.setReg r g).reg j = t.reg j := by
  unfold Tile.setReg Tile.reg
  split
  · rfl
  · split
    · rfl
    · exact getD_putD_other _ _ _ _ _ (fun e => h (BitVec.eq_of_toNat_eq e))

@[simp] theorem Tile.reg_retireTo (t : Tile) (p : BitVec 18) (r : BitVec 5) : (t.retireTo p).reg r = t.reg r := rfl
@[simp] theorem Tile.word_retireTo (t : Tile) (p : BitVec 18) (i : Nat) : (t.retireTo p).word i = t.word i := rfl
@[simp] theorem Tile.reg_putWord (t : Tile) (i : Nat) (w : PWord) (r : BitVec 5) : (t.putWord i w).reg r = t.reg r := by
  simp [Tile.reg]
@[simp] theorem Tile.word_setReg (t : Tile) (r : BitVec 5) (g : GReg) (i : Nat) : (t.setReg r g).word i = t.word i := by
  simp [Tile.word]

/-! ## Local memory (03, R111 to R114) -/

/-- What a written word reads as: a poisoned one as zero with poison. -/
theorem MWord.read_ofP (w : PWord) : (MWord.ofP w).read = if w.poison then { val := 0, poison := true } else w := by
  cases w with
  | mk v p => cases p <;> simp [MWord.ofP, MWord.read]

theorem Tile.word_putWord_same (t : Tile) (i : Nat) (w : PWord) :
    (t.putWord i w).word i = if w.poison then { val := 0, poison := true } else w := by
  unfold Tile.putWord Tile.closeMerge Tile.word
  split <;> simp [MWord.read_ofP]

theorem Tile.word_putWord_other (t : Tile) (i j : Nat) (w : PWord) (h : j ≠ i) : (t.putWord i w).word j = t.word j := by
  unfold Tile.putWord Tile.closeMerge Tile.word
  split <;> simp [getD_putD_other _ _ _ _ _ h]

theorem Tile.word_putBytes_other (t : Tile) (i j mask : Nat) (w : PWord) (h : j ≠ i) :
    (t.putBytes i mask w).word j = t.word j := by
  unfold Tile.putBytes
  split
  · rfl
  · split <;> exact Tile.word_putWord_other _ _ _ _ h

theorem Tile.word_putWords_other (ws : List PWord) : ∀ (t : Tile) (i j : Nat), (j < i ∨ i + ws.length ≤ j) →
    (t.putWords i ws).word j = t.word j := by
  induction ws with
  | nil => intro t i j _; rfl
  | cons w ws ih =>
    intro t i j h
    simp only [List.length_cons] at h
    rw [Tile.putWords, ih _ _ _ (by omega), Tile.word_putWord_other _ _ _ _ (by omega)]

@[simp] theorem Tile.putWord_mem_wf (t : Tile) (i : Nat) (w : PWord) (h : Memory.wf t.mem = true) :
    Memory.wf (t.putWord i w).mem = true := by
  unfold Tile.putWord Tile.closeMerge Memory.wf
  split <;> exact canonical_putD _ _ _ _ h

theorem Tile.putBytes_mem_wf (t : Tile) (i mask : Nat) (w : PWord) (h : Memory.wf t.mem = true) :
    Memory.wf (t.putBytes i mask w).mem = true := by
  unfold Tile.putBytes
  split
  · exact h
  · split <;> exact Tile.putWord_mem_wf _ _ _ h

theorem Tile.putWords_mem_wf (ws : List PWord) : ∀ (t : Tile) (i : Nat), Memory.wf t.mem = true →
    Memory.wf (t.putWords i ws).mem = true := by
  induction ws with
  | nil => intro t i h; exact h
  | cons w ws ih => intro t i h; exact ih _ _ (Tile.putWord_mem_wf _ _ _ h)

theorem Tile.putByteList_mem_wf (t : Tile) (off : Nat) (bs : List (Nat × Bool)) (h : Memory.wf t.mem = true) :
    Memory.wf (t.putByteList off bs).mem = true := by
  unfold Tile.putByteList
  refine List.foldlRecOn (motive := fun (t : Tile) => Memory.wf t.mem = true) _ _ h ?_
  intro t ht i _
  exact Tile.putBytes_mem_wf _ _ _ _ ht

theorem State.touch_mem_wf (s : State) (k : Nat) (t : Tile) (i : Nat) (h : Memory.wf t.mem = true) :
    Memory.wf (s.touch k t i).mem = true := by
  unfold Memory.wf at *
  unfold State.touch
  split
  · exact h
  · exact h
  · exact canonical_putD _ t.mem i { val := 0, p0 := true, p1 := true, ecc := .good } h

theorem State.touchAll_mem_wf (s : State) (k : Nat) (t : Tile) (is : List Nat) (h : Memory.wf t.mem = true) :
    Memory.wf (s.touchAll k t is).mem = true := by
  unfold State.touchAll
  refine List.foldlRecOn (motive := fun (t : Tile) => Memory.wf t.mem = true) _ _ h ?_
  intro t ht i _
  exact State.touch_mem_wf _ _ _ _ ht

theorem reset_mem_wf : Memory.wf Tile.reset.mem = true := rfl

/-- A read leaves what every word reads as. -/
@[simp] theorem State.word_touch (s : State) (k : Nat) (t : Tile) (i j : Nat) : (s.touch k t i).word j = t.word j := by
  unfold State.touch
  split
  · rfl
  · rfl
  · rename_i h
    unfold Tile.word
    by_cases hj : j = i
    · subst hj; rw [getD_putD_same]; unfold MWord.read; rw [h]; simp
    · simp [getD_putD_other _ _ _ _ _ hj]

/-- A read changes only local memory's check bits and poison, the error registers and the reports. -/
theorem State.touch_keeps (s : State) (k : Nat) (t : Tile) (i : Nat) :
    s.touch k t i = { t with mem := (s.touch k t i).mem, ceCount := (s.touch k t i).ceCount, ceLast := (s.touch k t i).ceLast,
                             ceFound := (s.touch k t i).ceFound, raised := (s.touch k t i).raised } := by
  unfold State.touch; split <;> rfl

/-- Two tiles that differ only in what reads and the fetch buffer change. -/
abbrev Tile.asRead (a b : Tile) : Prop :=
  b = { a with mem := b.mem, ceCount := b.ceCount, ceLast := b.ceLast, ceFound := b.ceFound, raised := b.raised, fetchBuf := b.fetchBuf }

theorem Tile.asRead_refl (a : Tile) : a.asRead a := rfl

theorem Tile.asRead_trans {a b c : Tile} (h : a.asRead b) (g : b.asRead c) : a.asRead c := by
  unfold Tile.asRead at *
  rw [g, h]

theorem Tile.asRead_buf {a b : Tile} (h : a.asRead b) (m : Map (List PWord)) : a.asRead { b with fetchBuf := m } := by
  unfold Tile.asRead at *
  rw [h]

theorem State.touch_asRead (s : State) (k : Nat) (t : Tile) (i : Nat) : t.asRead (s.touch k t i) := by
  unfold Tile.asRead State.touch; split <;> rfl

theorem State.touchAll_asRead (s : State) (k : Nat) (is : List Nat) (t : Tile) : t.asRead (s.touchAll k t is) := by
  induction is generalizing t with
  | nil => rfl
  | cons i is ih => exact Tile.asRead_trans (s.touch_asRead k t i) (ih _)

theorem State.fillLine_asRead (s : State) (k : Nat) (t : Tile) (l : Nat) : t.asRead (s.fillLine k t l) := by
  unfold State.fillLine
  split
  · rfl
  · exact Tile.asRead_buf (s.touchAll_asRead k (rangeFrom (16 * l) 16) t) _

/-- A fetch changes what the reads of its lines change, and the fetch buffer. -/
theorem State.fetch_asRead (s : State) (k : Nat) (t : Tile) : t.asRead (s.fetch k t) := by
  unfold State.fetch
  split
  · rfl
  · refine Tile.asRead_buf (b := t.fetchLines.foldl (s.fillLine k) t) ?_ _
    exact List.foldlRecOn (motive := fun b => t.asRead b) _ _ rfl (fun b hb l _ => Tile.asRead_trans hb (s.fillLine_asRead k b l))

@[simp] theorem State.word_touchAll (s : State) (k : Nat) (is : List Nat) (t : Tile) (j : Nat) :
    (s.touchAll k t is).word j = t.word j := by
  induction is generalizing t with
  | nil => rfl
  | cons i is ih =>
    rw [show s.touchAll k t (i :: is) = s.touchAll k (s.touch k t i) is from rfl, ih, s.word_touch]

theorem Tile.word_congr {a b : Tile} (h : a.mem = b.mem) (j : Nat) : a.word j = b.word j := by
  unfold Tile.word; rw [h]

theorem State.fillLine_mem (s : State) (k : Nat) (t : Tile) (l : Nat) :
    (s.fillLine k t l).mem = t.mem ∨ (s.fillLine k t l).mem = (s.touchAll k t (rangeFrom (16 * l) 16)).mem := by
  unfold State.fillLine
  split
  · exact .inl rfl
  · right; dsimp only

/-- A fetch leaves what every word reads as. -/
@[simp] theorem State.word_fetch (s : State) (k : Nat) (t : Tile) (j : Nat) : (s.fetch k t).word j = t.word j := by
  have hline : ∀ (b : Tile) (l : Nat), (s.fillLine k b l).word j = b.word j := by
    intro b l
    rcases s.fillLine_mem k b l with h | h
    · exact Tile.word_congr h j
    · exact (Tile.word_congr h j).trans (s.word_touchAll k _ b j)
  unfold State.fetch
  split
  · rfl
  · refine (Tile.word_congr (b := t.fetchLines.foldl (s.fillLine k) t) rfl j).trans ?_
    exact List.foldlRecOn (motive := fun (b : Tile) => b.word j = t.word j) _ _ rfl (fun b hb l _ => (hline b l).trans hb)

theorem State.fetch_mem_wf (s : State) (k : Nat) (t : Tile) (h : Memory.wf t.mem = true) :
    Memory.wf (s.fetch k t).mem = true := by
  unfold State.fetch
  split
  · exact h
  · refine List.foldlRecOn (motive := fun (b : Tile) => Memory.wf b.mem = true) _ (s.fillLine k) h ?_
    intro b hb l _
    rcases s.fillLine_mem k b l with h | h
    · rw [h]; exact hb
    · rw [h]; exact State.touchAll_mem_wf s k b _ hb

@[simp] theorem State.touch_regs (s : State) (k : Nat) (t : Tile) (i : Nat) : (s.touch k t i).regs = t.regs := by rw [s.touch_keeps k]
@[simp] theorem State.touch_pc (s : State) (k : Nat) (t : Tile) (i : Nat) : (s.touch k t i).pc = t.pc := by rw [s.touch_keeps k]
@[simp] theorem State.touch_service (s : State) (k : Nat) (t : Tile) (i : Nat) : (s.touch k t i).service = t.service := by rw [s.touch_keeps k]
@[simp] theorem State.touch_parked (s : State) (k : Nat) (t : Tile) (i : Nat) : (s.touch k t i).parked = t.parked := by rw [s.touch_keeps k]
@[simp] theorem State.touch_wait (s : State) (k : Nat) (t : Tile) (i : Nat) : (s.touch k t i).wait = t.wait := by rw [s.touch_keeps k]
@[simp] theorem State.touch_protTop (s : State) (k : Nat) (t : Tile) (i : Nat) : (s.touch k t i).protTop = t.protTop := by rw [s.touch_keeps k]
@[simp] theorem State.touch_fcValid (s : State) (k : Nat) (t : Tile) (i : Nat) : (s.touch k t i).fcValid = t.fcValid := by rw [s.touch_keeps k]
@[simp] theorem State.touch_fcCount (s : State) (k : Nat) (t : Tile) (i : Nat) : (s.touch k t i).fcCount = t.fcCount := by rw [s.touch_keeps k]
@[simp] theorem State.touch_fcMode (s : State) (k : Nat) (t : Tile) (i : Nat) : (s.touch k t i).fcMode = t.fcMode := by rw [s.touch_keeps k]
@[simp] theorem State.touch_fcUnit (s : State) (k : Nat) (t : Tile) (i : Nat) : (s.touch k t i).fcUnit = t.fcUnit := by rw [s.touch_keeps k]
@[simp] theorem State.touch_fcCause (s : State) (k : Nat) (t : Tile) (i : Nat) : (s.touch k t i).fcCause = t.fcCause := by rw [s.touch_keeps k]
@[simp] theorem State.touch_fcPc (s : State) (k : Nat) (t : Tile) (i : Nat) : (s.touch k t i).fcPc = t.fcPc := by rw [s.touch_keeps k]
@[simp] theorem State.touch_fcAddr (s : State) (k : Nat) (t : Tile) (i : Nat) : (s.touch k t i).fcAddr = t.fcAddr := by rw [s.touch_keeps k]
@[simp] theorem State.touch_instret (s : State) (k : Nat) (t : Tile) (i : Nat) : (s.touch k t i).instret = t.instret := by rw [s.touch_keeps k]
@[simp] theorem State.touch_seq (s : State) (k : Nat) (t : Tile) (i : Nat) : (s.touch k t i).seq = t.seq := by rw [s.touch_keeps k]
@[simp] theorem State.touch_gPending (s : State) (k : Nat) (t : Tile) (i : Nat) : (s.touch k t i).gPending = t.gPending := by rw [s.touch_keeps k]
@[simp] theorem State.touch_scrubLine (s : State) (k : Nat) (t : Tile) (i : Nat) : (s.touch k t i).scrubLine = t.scrubLine := by rw [s.touch_keeps k]
@[simp] theorem State.touch_poseMem (s : State) (k : Nat) (t : Tile) (i : Nat) : (s.touch k t i).poseMem = t.poseMem := by rw [s.touch_keeps k]
@[simp] theorem State.touch_remote (s : State) (k : Nat) (t : Tile) (i : Nat) : (s.touch k t i).remote = t.remote := by rw [s.touch_keeps k]
@[simp] theorem State.touch_nextRef (s : State) (k : Nat) (t : Tile) (i : Nat) : (s.touch k t i).nextRef = t.nextRef := by rw [s.touch_keeps k]
@[simp] theorem State.touch_aBufs (s : State) (k : Nat) (t : Tile) (i : Nat) : (s.touch k t i).aBufs = t.aBufs := by rw [s.touch_keeps k]
@[simp] theorem State.touch_bBufs (s : State) (k : Nat) (t : Tile) (i : Nat) : (s.touch k t i).bBufs = t.bBufs := by rw [s.touch_keeps k]
@[simp] theorem State.touch_banks (s : State) (k : Nat) (t : Tile) (i : Nat) : (s.touch k t i).banks = t.banks := by rw [s.touch_keeps k]
@[simp] theorem State.touch_mxQueue (s : State) (k : Nat) (t : Tile) (i : Nat) : (s.touch k t i).mxQueue = t.mxQueue := by rw [s.touch_keeps k]
@[simp] theorem State.touch_plumbMode (s : State) (k : Nat) (t : Tile) (i : Nat) : (s.touch k t i).plumbMode = t.plumbMode := by rw [s.touch_keeps k]
@[simp] theorem State.touch_satMode (s : State) (k : Nat) (t : Tile) (i : Nat) : (s.touch k t i).satMode = t.satMode := by rw [s.touch_keeps k]
@[simp] theorem State.touch_mxFlags (s : State) (k : Nat) (t : Tile) (i : Nat) : (s.touch k t i).mxFlags = t.mxFlags := by rw [s.touch_keeps k]
@[simp] theorem State.touch_opIndex (s : State) (k : Nat) (t : Tile) (i : Nat) : (s.touch k t i).opIndex = t.opIndex := by rw [s.touch_keeps k]
@[simp] theorem State.touch_plumbLast (s : State) (k : Nat) (t : Tile) (i : Nat) : (s.touch k t i).plumbLast = t.plumbLast := by rw [s.touch_keeps k]
@[simp] theorem State.touch_plumbCount (s : State) (k : Nat) (t : Tile) (i : Nat) : (s.touch k t i).plumbCount = t.plumbCount := by rw [s.touch_keeps k]
@[simp] theorem State.touch_vregs (s : State) (k : Nat) (t : Tile) (i : Nat) : (s.touch k t i).vregs = t.vregs := by rw [s.touch_keeps k]
@[simp] theorem State.touch_mregs (s : State) (k : Nat) (t : Tile) (i : Nat) : (s.touch k t i).mregs = t.mregs := by rw [s.touch_keeps k]
@[simp] theorem State.touch_vl (s : State) (k : Nat) (t : Tile) (i : Nat) : (s.touch k t i).vl = t.vl := by rw [s.touch_keeps k]
@[simp] theorem State.touch_vxQueue (s : State) (k : Nat) (t : Tile) (i : Nat) : (s.touch k t i).vxQueue = t.vxQueue := by rw [s.touch_keeps k]
@[simp] theorem State.touch_shape (s : State) (k : Nat) (t : Tile) (i : Nat) : (s.touch k t i).shape = t.shape := by rw [s.touch_keeps k]
@[simp] theorem State.touch_vxFlags (s : State) (k : Nat) (t : Tile) (i : Nat) : (s.touch k t i).vxFlags = t.vxFlags := by rw [s.touch_keeps k]
@[simp] theorem State.touch_srBase (s : State) (k : Nat) (t : Tile) (i : Nat) : (s.touch k t i).srBase = t.srBase := by rw [s.touch_keeps k]
@[simp] theorem State.touch_srPass (s : State) (k : Nat) (t : Tile) (i : Nat) : (s.touch k t i).srPass = t.srPass := by rw [s.touch_keeps k]
@[simp] theorem State.touch_srKey (s : State) (k : Nat) (t : Tile) (i : Nat) : (s.touch k t i).srKey = t.srKey := by rw [s.touch_keeps k]
@[simp] theorem State.touch_tally (s : State) (k : Nat) (t : Tile) (i : Nat) : (s.touch k t i).tally = t.tally := by rw [s.touch_keeps k]
@[simp] theorem State.touch_queues (s : State) (k : Nat) (t : Tile) (i : Nat) : (s.touch k t i).queues = t.queues := by rw [s.touch_keeps k]
@[simp] theorem State.touch_outbound (s : State) (k : Nat) (t : Tile) (i : Nat) : (s.touch k t i).outbound = t.outbound := by rw [s.touch_keeps k]
@[simp] theorem State.touch_selectLast (s : State) (k : Nat) (t : Tile) (i : Nat) : (s.touch k t i).selectLast = t.selectLast := by rw [s.touch_keeps k]
@[simp] theorem State.touch_selectRotate (s : State) (k : Nat) (t : Tile) (i : Nat) : (s.touch k t i).selectRotate = t.selectRotate := by rw [s.touch_keeps k]
@[simp] theorem State.touch_waitBeats (s : State) (k : Nat) (t : Tile) (i : Nat) : (s.touch k t i).waitBeats = t.waitBeats := by rw [s.touch_keeps k]
@[simp] theorem State.touch_sendBeats (s : State) (k : Nat) (t : Tile) (i : Nat) : (s.touch k t i).sendBeats = t.sendBeats := by rw [s.touch_keeps k]
@[simp] theorem State.touch_syncs (s : State) (k : Nat) (t : Tile) (i : Nat) : (s.touch k t i).syncs = t.syncs := by rw [s.touch_keeps k]
@[simp] theorem State.touch_stopped (s : State) (k : Nat) (t : Tile) (i : Nat) : (s.touch k t i).stopped = t.stopped := by rw [s.touch_keeps k]
@[simp] theorem State.touch_stuckAt (s : State) (k : Nat) (t : Tile) (i : Nat) : (s.touch k t i).stuckAt = t.stuckAt := by rw [s.touch_keeps k]
@[simp] theorem State.touch_slots (s : State) (k : Nat) (t : Tile) (i : Nat) : (s.touch k t i).slots = t.slots := by rw [s.touch_keeps k]
@[simp] theorem State.touch_inForce (s : State) (k : Nat) (t : Tile) (i : Nat) : (s.touch k t i).inForce = t.inForce := by rw [s.touch_keeps k]
@[simp] theorem State.touch_pendingSwitch (s : State) (k : Nat) (t : Tile) (i : Nat) : (s.touch k t i).pendingSwitch = t.pendingSwitch := by rw [s.touch_keeps k]
@[simp] theorem State.touch_ended (s : State) (k : Nat) (t : Tile) (i : Nat) : (s.touch k t i).ended = t.ended := by rw [s.touch_keeps k]
@[simp] theorem State.touch_loadRun (s : State) (k : Nat) (t : Tile) (i : Nat) : (s.touch k t i).loadRun = t.loadRun := by rw [s.touch_keeps k]
@[simp] theorem State.touch_loadQueue (s : State) (k : Nat) (t : Tile) (i : Nat) : (s.touch k t i).loadQueue = t.loadQueue := by rw [s.touch_keeps k]
@[simp] theorem State.touch_deadPorts (s : State) (k : Nat) (t : Tile) (i : Nat) : (s.touch k t i).deadPorts = t.deadPorts := by rw [s.touch_keeps k]
@[simp] theorem State.touch_detourA (s : State) (k : Nat) (t : Tile) (i : Nat) : (s.touch k t i).detourA = t.detourA := by rw [s.touch_keeps k]
@[simp] theorem State.touch_detourB (s : State) (k : Nat) (t : Tile) (i : Nat) : (s.touch k t i).detourB = t.detourB := by rw [s.touch_keeps k]
@[simp] theorem State.touch_merges (s : State) (k : Nat) (t : Tile) (i : Nat) : (s.touch k t i).merges = t.merges := by rw [s.touch_keeps k]
@[simp] theorem State.touch_leaves (s : State) (k : Nat) (t : Tile) (i : Nat) : (s.touch k t i).leaves = t.leaves := by rw [s.touch_keeps k]
@[simp] theorem State.touch_nodes (s : State) (k : Nat) (t : Tile) (i : Nat) : (s.touch k t i).nodes = t.nodes := by rw [s.touch_keeps k]
@[simp] theorem State.touch_srcBursts (s : State) (k : Nat) (t : Tile) (i : Nat) : (s.touch k t i).srcBursts = t.srcBursts := by rw [s.touch_keeps k]
@[simp] theorem State.touch_taps (s : State) (k : Nat) (t : Tile) (i : Nat) : (s.touch k t i).taps = t.taps := by rw [s.touch_keeps k]
@[simp] theorem State.touch_counters (s : State) (k : Nat) (t : Tile) (i : Nat) : (s.touch k t i).counters = t.counters := by rw [s.touch_keeps k]
@[simp] theorem State.touch_cntIdx (s : State) (k : Nat) (t : Tile) (i : Nat) : (s.touch k t i).cntIdx = t.cntIdx := by rw [s.touch_keeps k]
@[simp] theorem State.touch_thSel (s : State) (k : Nat) (t : Tile) (i : Nat) : (s.touch k t i).thSel = t.thSel := by rw [s.touch_keeps k]
@[simp] theorem State.touch_thresholds (s : State) (k : Nat) (t : Tile) (i : Nat) : (s.touch k t i).thresholds = t.thresholds := by rw [s.touch_keeps k]
@[simp] theorem State.touch_cntPsel (s : State) (k : Nat) (t : Tile) (i : Nat) : (s.touch k t i).cntPsel = t.cntPsel := by rw [s.touch_keeps k]
@[simp] theorem State.touch_inject (s : State) (k : Nat) (t : Tile) (i : Nat) : (s.touch k t i).inject = t.inject := by rw [s.touch_keeps k]

@[simp] theorem State.fetch_regs (s : State) (k : Nat) (t : Tile) : (s.fetch k t).regs = t.regs := by rw [s.fetch_asRead k t]
@[simp] theorem State.fetch_pc (s : State) (k : Nat) (t : Tile) : (s.fetch k t).pc = t.pc := by rw [s.fetch_asRead k t]
@[simp] theorem State.fetch_service (s : State) (k : Nat) (t : Tile) : (s.fetch k t).service = t.service := by rw [s.fetch_asRead k t]
@[simp] theorem State.fetch_parked (s : State) (k : Nat) (t : Tile) : (s.fetch k t).parked = t.parked := by rw [s.fetch_asRead k t]
@[simp] theorem State.fetch_wait (s : State) (k : Nat) (t : Tile) : (s.fetch k t).wait = t.wait := by rw [s.fetch_asRead k t]
@[simp] theorem State.fetch_protTop (s : State) (k : Nat) (t : Tile) : (s.fetch k t).protTop = t.protTop := by rw [s.fetch_asRead k t]
@[simp] theorem State.fetch_fcValid (s : State) (k : Nat) (t : Tile) : (s.fetch k t).fcValid = t.fcValid := by rw [s.fetch_asRead k t]
@[simp] theorem State.fetch_fcCount (s : State) (k : Nat) (t : Tile) : (s.fetch k t).fcCount = t.fcCount := by rw [s.fetch_asRead k t]
@[simp] theorem State.fetch_fcMode (s : State) (k : Nat) (t : Tile) : (s.fetch k t).fcMode = t.fcMode := by rw [s.fetch_asRead k t]
@[simp] theorem State.fetch_fcUnit (s : State) (k : Nat) (t : Tile) : (s.fetch k t).fcUnit = t.fcUnit := by rw [s.fetch_asRead k t]
@[simp] theorem State.fetch_fcCause (s : State) (k : Nat) (t : Tile) : (s.fetch k t).fcCause = t.fcCause := by rw [s.fetch_asRead k t]
@[simp] theorem State.fetch_fcPc (s : State) (k : Nat) (t : Tile) : (s.fetch k t).fcPc = t.fcPc := by rw [s.fetch_asRead k t]
@[simp] theorem State.fetch_fcAddr (s : State) (k : Nat) (t : Tile) : (s.fetch k t).fcAddr = t.fcAddr := by rw [s.fetch_asRead k t]
@[simp] theorem State.fetch_instret (s : State) (k : Nat) (t : Tile) : (s.fetch k t).instret = t.instret := by rw [s.fetch_asRead k t]
@[simp] theorem State.fetch_seq (s : State) (k : Nat) (t : Tile) : (s.fetch k t).seq = t.seq := by rw [s.fetch_asRead k t]
@[simp] theorem State.fetch_gPending (s : State) (k : Nat) (t : Tile) : (s.fetch k t).gPending = t.gPending := by rw [s.fetch_asRead k t]
@[simp] theorem State.fetch_scrubLine (s : State) (k : Nat) (t : Tile) : (s.fetch k t).scrubLine = t.scrubLine := by rw [s.fetch_asRead k t]
@[simp] theorem State.fetch_poseMem (s : State) (k : Nat) (t : Tile) : (s.fetch k t).poseMem = t.poseMem := by rw [s.fetch_asRead k t]
@[simp] theorem State.fetch_remote (s : State) (k : Nat) (t : Tile) : (s.fetch k t).remote = t.remote := by rw [s.fetch_asRead k t]
@[simp] theorem State.fetch_nextRef (s : State) (k : Nat) (t : Tile) : (s.fetch k t).nextRef = t.nextRef := by rw [s.fetch_asRead k t]
@[simp] theorem State.fetch_aBufs (s : State) (k : Nat) (t : Tile) : (s.fetch k t).aBufs = t.aBufs := by rw [s.fetch_asRead k t]
@[simp] theorem State.fetch_bBufs (s : State) (k : Nat) (t : Tile) : (s.fetch k t).bBufs = t.bBufs := by rw [s.fetch_asRead k t]
@[simp] theorem State.fetch_banks (s : State) (k : Nat) (t : Tile) : (s.fetch k t).banks = t.banks := by rw [s.fetch_asRead k t]
@[simp] theorem State.fetch_mxQueue (s : State) (k : Nat) (t : Tile) : (s.fetch k t).mxQueue = t.mxQueue := by rw [s.fetch_asRead k t]
@[simp] theorem State.fetch_plumbMode (s : State) (k : Nat) (t : Tile) : (s.fetch k t).plumbMode = t.plumbMode := by rw [s.fetch_asRead k t]
@[simp] theorem State.fetch_satMode (s : State) (k : Nat) (t : Tile) : (s.fetch k t).satMode = t.satMode := by rw [s.fetch_asRead k t]
@[simp] theorem State.fetch_mxFlags (s : State) (k : Nat) (t : Tile) : (s.fetch k t).mxFlags = t.mxFlags := by rw [s.fetch_asRead k t]
@[simp] theorem State.fetch_opIndex (s : State) (k : Nat) (t : Tile) : (s.fetch k t).opIndex = t.opIndex := by rw [s.fetch_asRead k t]
@[simp] theorem State.fetch_plumbLast (s : State) (k : Nat) (t : Tile) : (s.fetch k t).plumbLast = t.plumbLast := by rw [s.fetch_asRead k t]
@[simp] theorem State.fetch_plumbCount (s : State) (k : Nat) (t : Tile) : (s.fetch k t).plumbCount = t.plumbCount := by rw [s.fetch_asRead k t]
@[simp] theorem State.fetch_vregs (s : State) (k : Nat) (t : Tile) : (s.fetch k t).vregs = t.vregs := by rw [s.fetch_asRead k t]
@[simp] theorem State.fetch_mregs (s : State) (k : Nat) (t : Tile) : (s.fetch k t).mregs = t.mregs := by rw [s.fetch_asRead k t]
@[simp] theorem State.fetch_vl (s : State) (k : Nat) (t : Tile) : (s.fetch k t).vl = t.vl := by rw [s.fetch_asRead k t]
@[simp] theorem State.fetch_vxQueue (s : State) (k : Nat) (t : Tile) : (s.fetch k t).vxQueue = t.vxQueue := by rw [s.fetch_asRead k t]
@[simp] theorem State.fetch_shape (s : State) (k : Nat) (t : Tile) : (s.fetch k t).shape = t.shape := by rw [s.fetch_asRead k t]
@[simp] theorem State.fetch_vxFlags (s : State) (k : Nat) (t : Tile) : (s.fetch k t).vxFlags = t.vxFlags := by rw [s.fetch_asRead k t]
@[simp] theorem State.fetch_srBase (s : State) (k : Nat) (t : Tile) : (s.fetch k t).srBase = t.srBase := by rw [s.fetch_asRead k t]
@[simp] theorem State.fetch_srPass (s : State) (k : Nat) (t : Tile) : (s.fetch k t).srPass = t.srPass := by rw [s.fetch_asRead k t]
@[simp] theorem State.fetch_srKey (s : State) (k : Nat) (t : Tile) : (s.fetch k t).srKey = t.srKey := by rw [s.fetch_asRead k t]
@[simp] theorem State.fetch_tally (s : State) (k : Nat) (t : Tile) : (s.fetch k t).tally = t.tally := by rw [s.fetch_asRead k t]
@[simp] theorem State.fetch_queues (s : State) (k : Nat) (t : Tile) : (s.fetch k t).queues = t.queues := by rw [s.fetch_asRead k t]
@[simp] theorem State.fetch_outbound (s : State) (k : Nat) (t : Tile) : (s.fetch k t).outbound = t.outbound := by rw [s.fetch_asRead k t]
@[simp] theorem State.fetch_selectLast (s : State) (k : Nat) (t : Tile) : (s.fetch k t).selectLast = t.selectLast := by rw [s.fetch_asRead k t]
@[simp] theorem State.fetch_selectRotate (s : State) (k : Nat) (t : Tile) : (s.fetch k t).selectRotate = t.selectRotate := by rw [s.fetch_asRead k t]
@[simp] theorem State.fetch_waitBeats (s : State) (k : Nat) (t : Tile) : (s.fetch k t).waitBeats = t.waitBeats := by rw [s.fetch_asRead k t]
@[simp] theorem State.fetch_sendBeats (s : State) (k : Nat) (t : Tile) : (s.fetch k t).sendBeats = t.sendBeats := by rw [s.fetch_asRead k t]
@[simp] theorem State.fetch_syncs (s : State) (k : Nat) (t : Tile) : (s.fetch k t).syncs = t.syncs := by rw [s.fetch_asRead k t]
@[simp] theorem State.fetch_stopped (s : State) (k : Nat) (t : Tile) : (s.fetch k t).stopped = t.stopped := by rw [s.fetch_asRead k t]
@[simp] theorem State.fetch_stuckAt (s : State) (k : Nat) (t : Tile) : (s.fetch k t).stuckAt = t.stuckAt := by rw [s.fetch_asRead k t]
@[simp] theorem State.fetch_slots (s : State) (k : Nat) (t : Tile) : (s.fetch k t).slots = t.slots := by rw [s.fetch_asRead k t]
@[simp] theorem State.fetch_inForce (s : State) (k : Nat) (t : Tile) : (s.fetch k t).inForce = t.inForce := by rw [s.fetch_asRead k t]
@[simp] theorem State.fetch_pendingSwitch (s : State) (k : Nat) (t : Tile) : (s.fetch k t).pendingSwitch = t.pendingSwitch := by rw [s.fetch_asRead k t]
@[simp] theorem State.fetch_ended (s : State) (k : Nat) (t : Tile) : (s.fetch k t).ended = t.ended := by rw [s.fetch_asRead k t]
@[simp] theorem State.fetch_loadRun (s : State) (k : Nat) (t : Tile) : (s.fetch k t).loadRun = t.loadRun := by rw [s.fetch_asRead k t]
@[simp] theorem State.fetch_loadQueue (s : State) (k : Nat) (t : Tile) : (s.fetch k t).loadQueue = t.loadQueue := by rw [s.fetch_asRead k t]
@[simp] theorem State.fetch_deadPorts (s : State) (k : Nat) (t : Tile) : (s.fetch k t).deadPorts = t.deadPorts := by rw [s.fetch_asRead k t]
@[simp] theorem State.fetch_detourA (s : State) (k : Nat) (t : Tile) : (s.fetch k t).detourA = t.detourA := by rw [s.fetch_asRead k t]
@[simp] theorem State.fetch_detourB (s : State) (k : Nat) (t : Tile) : (s.fetch k t).detourB = t.detourB := by rw [s.fetch_asRead k t]
@[simp] theorem State.fetch_merges (s : State) (k : Nat) (t : Tile) : (s.fetch k t).merges = t.merges := by rw [s.fetch_asRead k t]
@[simp] theorem State.fetch_leaves (s : State) (k : Nat) (t : Tile) : (s.fetch k t).leaves = t.leaves := by rw [s.fetch_asRead k t]
@[simp] theorem State.fetch_nodes (s : State) (k : Nat) (t : Tile) : (s.fetch k t).nodes = t.nodes := by rw [s.fetch_asRead k t]
@[simp] theorem State.fetch_srcBursts (s : State) (k : Nat) (t : Tile) : (s.fetch k t).srcBursts = t.srcBursts := by rw [s.fetch_asRead k t]
@[simp] theorem State.fetch_taps (s : State) (k : Nat) (t : Tile) : (s.fetch k t).taps = t.taps := by rw [s.fetch_asRead k t]
@[simp] theorem State.fetch_counters (s : State) (k : Nat) (t : Tile) : (s.fetch k t).counters = t.counters := by rw [s.fetch_asRead k t]
@[simp] theorem State.fetch_cntIdx (s : State) (k : Nat) (t : Tile) : (s.fetch k t).cntIdx = t.cntIdx := by rw [s.fetch_asRead k t]
@[simp] theorem State.fetch_thSel (s : State) (k : Nat) (t : Tile) : (s.fetch k t).thSel = t.thSel := by rw [s.fetch_asRead k t]
@[simp] theorem State.fetch_thresholds (s : State) (k : Nat) (t : Tile) : (s.fetch k t).thresholds = t.thresholds := by rw [s.fetch_asRead k t]
@[simp] theorem State.fetch_cntPsel (s : State) (k : Nat) (t : Tile) : (s.fetch k t).cntPsel = t.cntPsel := by rw [s.fetch_asRead k t]
@[simp] theorem State.fetch_inject (s : State) (k : Nat) (t : Tile) : (s.fetch k t).inject = t.inject := by rw [s.fetch_asRead k t]

@[simp] theorem State.reg_touch (s : State) (k : Nat) (t : Tile) (i : Nat) (r : BitVec 5) :
    (s.touch k t i).reg r = t.reg r := by simp [Tile.reg]

@[simp] theorem State.reg_fetch (s : State) (k : Nat) (t : Tile) (r : BitVec 5) : (s.fetch k t).reg r = t.reg r := by
  simp [Tile.reg]

/-- A read of a word with good check bits changes nothing. -/
theorem State.touch_good (s : State) (k : Nat) (t : Tile) (i : Nat) (h : (getD {} t.mem i).ecc = .good) :
    s.touch k t i = t := by
  unfold State.touch; rw [h]

/-! ## The issue of an instruction (03, R96 to R100, R127) -/

variable {k : TileIx} {i : Instr} {reads : List (BitVec 5)} {s : State} {body : Tile → Issued}

/-- What a body's answer makes of the machine. -/
def Issued.outcome (s : State) (k : TileIx) : Issued → State
  | .retire t => s.retires k t
  | .jump t p => s.jumps k t p
  | .fault u c a => s.faults k u c a
  | .hold t => (s.setTile k t).bump
  | .stall => s

/-- At an instruction, the issue is what the body answers on the tile as fetched. -/
theorem issue_atInsn (h : s.atInsn k i reads) : issue k i reads s body = .next ((body (s.fetched k)).outcome s k) := by
  obtain ⟨h1, h2, h3, h4⟩ := h
  unfold issue
  simp only [h1, h2, h3, h4, ne_eq, not_true_eq_false, ite_false, Bool.not_true, Bool.false_eq_true]
  show (match body (s.fetched k) with | .retire _ => _ | .jump _ _ => _ | .fault _ _ _ => _ | .hold _ => _ | .stall => _) = _
  cases body (s.fetched k) <;> rfl

theorem issue_retire (h : s.atInsn k i reads) (t : Tile) (hb : body (s.fetched k) = .retire t) :
    issue k i reads s body = .next (s.retires k t) := by
  rw [issue_atInsn h, hb]; rfl

theorem issue_jump (h : s.atInsn k i reads) (t : Tile) (p : BitVec 18) (hb : body (s.fetched k) = .jump t p) :
    issue k i reads s body = .next (s.jumps k t p) := by
  rw [issue_atInsn h, hb]; rfl

theorem issue_fault (h : s.atInsn k i reads) (u c : Nat) (a : BitVec 64) (hb : body (s.fetched k) = .fault u c a) :
    issue k i reads s body = .next (s.faults k u c a) := by
  rw [issue_atInsn h, hb]; rfl

theorem issue_hold (h : s.atInsn k i reads) (t : Tile) (hb : body (s.fetched k) = .hold t) :
    issue k i reads s body = .next (s.setTile k t).bump := by
  rw [issue_atInsn h, hb]; rfl

/-- Everything the issue of an instruction can do: nothing, a fault of the fetch, or at its word what the body answers. -/
theorem issue_cases {t : State} (h : issue k i reads s body = .next t) :
    t = s ∨ (∃ c, (s.tile k).fetchCause = some c ∧ t = (s.setTile k (s.tileFault k (s.fetched k) 0 c (s.tile k).pc 0)).bump)
      ∨ (s.atInsn k i reads ∧ t = (body (s.fetched k)).outcome s k) := by
  by_cases hat : s.atInsn k i reads
  · exact .inr (.inr ⟨hat, by simpa using ((issue_atInsn hat).symm.trans h).symm⟩)
  · unfold issue at h
    by_cases h1 : s.canIssue k = true
    · cases h2 : (s.tile k).fetchCause with
      | some c => simp [h1, h2] at h; exact .inr (.inl ⟨c, rfl, h.symm⟩)
      | none =>
        by_cases h3 : i.tileWord = some (s.tile k).insnWord
        · have h4 : (s.tile k).gPending.any (fun p => reads.contains p.reg) = true := by
            cases h4 : (s.tile k).gPending.any (fun p => reads.contains p.reg) with
            | true => rfl
            | false => exact absurd ⟨h1, h2, h3, h4⟩ hat
          simp only [h1, h2, h3, h4, turnedAway, ne_eq, not_true_eq_false, ite_false, ite_true, Bool.not_true,
            Bool.false_eq_true, Host.Outcome.next.injEq] at h
          exact .inl h.symm
        · simp [h1, h2, h3, turnedAway] at h; exact .inl h.symm
    · simp [h1, turnedAway] at h; exact .inl h.symm

/-- What a step of a tile's engine does. -/
theorem engine_some {body : Tile → Option Tile} (h : s.runs k) (t : Tile) (hb : body (s.tile k) = some t) :
    engine k s body = .next (s.engineStep k t) := by
  obtain ⟨h1, h2⟩ := h
  simp only [engine, h1, h2, hb]; rfl

end Sys2Proof.Machine
end

