-- ==== Sys2Proof/Laws/Dispatch.lean ====
section
/-! SUPPORT. The dispatch, command by command: each arm is its meaning. -/

namespace Sys2Proof.Machine

@[simp] theorem exec_baseRegisterAlu (k : TileIx) (rd rs1 rs2 : BitVec 5) (func : BitVec 11) (s : State) : exec (.baseRegisterAlu k rd rs1 rs2 func) s = execBaseRegisterAlu k rd rs1 rs2 func s := rfl
@[simp] theorem exec_gAddi (k : TileIx) (rd rs1 : BitVec 5) (imm : BitVec 16) (s : State) : exec (.gAddi k rd rs1 imm) s = execGAddi k rd rs1 imm s := rfl
@[simp] theorem exec_gLogicImm (k : TileIx) (op : LogicImm) (rd rs1 : BitVec 5) (imm : BitVec 16) (s : State) : exec (.gLogicImm k op rd rs1 imm) s = execGLogicImm k op rd rs1 imm s := rfl
@[simp] theorem exec_gShi (k : TileIx) (rd rs1 : BitVec 5) (imm : BitVec 16) (s : State) : exec (.gShi k rd rs1 imm) s = execGShi k rd rs1 imm s := rfl
@[simp] theorem exec_gLhi (k : TileIx) (rd rs1 : BitVec 5) (imm : BitVec 16) (s : State) : exec (.gLhi k rd rs1 imm) s = execGLhi k rd rs1 imm s := rfl
@[simp] theorem exec_gLti (k : TileIx) (signed : Bool) (rd rs1 : BitVec 5) (imm : BitVec 16) (s : State) : exec (.gLti k signed rd rs1 imm) s = execGLti k signed rd rs1 imm s := rfl
@[simp] theorem exec_branch (k : TileIx) (op : BrOp) (rd rs1 : BitVec 5) (imm : BitVec 16) (s : State) : exec (.branch k op rd rs1 imm) s = execBranch k op rd rs1 imm s := rfl
@[simp] theorem exec_jLink (k : TileIx) (rd rs1 : BitVec 5) (imm : BitVec 16) (s : State) : exec (.jLink k rd rs1 imm) s = execJLink k rd rs1 imm s := rfl
@[simp] theorem exec_jReg (k : TileIx) (rd rs1 : BitVec 5) (imm : BitVec 16) (s : State) : exec (.jReg k rd rs1 imm) s = execJReg k rd rs1 imm s := rfl
@[simp] theorem exec_ld (k : TileIx) (op : LdOp) (rd rs1 : BitVec 5) (imm : BitVec 16) (s : State) : exec (.ld k op rd rs1 imm) s = execLd k op rd rs1 imm s := rfl
@[simp] theorem exec_st (k : TileIx) (op : StOp) (rd rs1 : BitVec 5) (imm : BitVec 16) (s : State) : exec (.st k op rd rs1 imm) s = execSt k op rd rs1 imm s := rfl
@[simp] theorem exec_rGet (k : TileIx) (rd rs1 rs2 : BitVec 5) (func : BitVec 11) (s : State) : exec (.rGet k rd rs1 rs2 func) s = execRGet k rd rs1 rs2 func s := rfl
@[simp] theorem exec_rPut (k : TileIx) (rd rs1 rs2 : BitVec 5) (func : BitVec 11) (s : State) : exec (.rPut k rd rs1 rs2 func) s = execRPut k rd rs1 rs2 func s := rfl
@[simp] theorem exec_rFence (k : TileIx) (rd rs1 rs2 : BitVec 5) (func : BitVec 11) (s : State) : exec (.rFence k rd rs1 rs2 func) s = execRFence k rd rs1 rs2 func s := rfl
@[simp] theorem exec_cRd (k : TileIx) (rd rs1 : BitVec 5) (imm : BitVec 16) (s : State) : exec (.cRd k rd rs1 imm) s = execCRd k rd rs1 imm s := rfl
@[simp] theorem exec_cXchg (k : TileIx) (rd rs1 : BitVec 5) (imm : BitVec 16) (s : State) : exec (.cXchg k rd rs1 imm) s = execCXchg k rd rs1 imm s := rfl
@[simp] theorem exec_cSet (k : TileIx) (rd rs1 : BitVec 5) (imm : BitVec 16) (s : State) : exec (.cSet k rd rs1 imm) s = execCSet k rd rs1 imm s := rfl
@[simp] theorem exec_cClr (k : TileIx) (rd rs1 : BitVec 5) (imm : BitVec 16) (s : State) : exec (.cClr k rd rs1 imm) s = execCClr k rd rs1 imm s := rfl
@[simp] theorem exec_sysBrk (k : TileIx) (rd rs1 rs2 : BitVec 5) (func : BitVec 11) (s : State) : exec (.sysBrk k rd rs1 rs2 func) s = execSysBrk k rd rs1 rs2 func s := rfl
@[simp] theorem exec_reservedMajorOpcode (k : TileIx) (w : BitVec 32) (s : State) : exec (.reservedMajorOpcode k w) s = execReservedMajorOpcode k w s := rfl
@[simp] theorem exec_fcTileCauseClear (k : TileIx) (s : State) : exec (.fcTileCauseClear k) s = execFcTileCauseClear k s := rfl
@[simp] theorem exec_ceWriteback (k : TileIx) (w : Nat) (s : State) : exec (.ceWriteback k w) s = execCeWriteback k w s := rfl
@[simp] theorem exec_memScrub (k : TileIx) (s : State) : exec (.memScrub k) s = execMemScrub k s := rfl
@[simp] theorem exec_mxLda (k : TileIx) (f : VFields) (s : State) : exec (.mxLda k f) s = execMxLda k f s := rfl
@[simp] theorem exec_mxLdb (k : TileIx) (f : VFields) (s : State) : exec (.mxLdb k f) s = execMxLdb k f s := rfl
@[simp] theorem exec_mxLdat (k : TileIx) (f : VFields) (s : State) : exec (.mxLdat k f) s = execMxLdat k f s := rfl
@[simp] theorem exec_mxMma (k : TileIx) (f : VFields) (s : State) : exec (.mxMma k f) s = execMxMma k f s := rfl
@[simp] theorem exec_mxMmv (k : TileIx) (f : VFields) (s : State) : exec (.mxMmv k f) s = execMxMmv k f s := rfl
@[simp] theorem exec_mxZero (k : TileIx) (f : VFields) (s : State) : exec (.mxZero k f) s = execMxZero k f s := rfl
@[simp] theorem exec_mxSta (k : TileIx) (f : VFields) (s : State) : exec (.mxSta k f) s = execMxSta k f s := rfl
@[simp] theorem exec_mxWait (k : TileIx) (f : VFields) (s : State) : exec (.mxWait k f) s = execMxWait k f s := rfl
@[simp] theorem exec_mxLoadRun (k : TileIx) (s : State) : exec (.mxLoadRun k) s = execMxLoadRun k s := rfl
@[simp] theorem exec_mxComputeStart (k : TileIx) (s : State) : exec (.mxComputeStart k) s = execMxComputeStart k s := rfl
@[simp] theorem exec_mxComputeDone (k : TileIx) (miss : Option PlumbMiss) (s : State) : exec (.mxComputeDone k miss) s = execMxComputeDone k miss s := rfl
@[simp] theorem exec_vxLd (k : TileIx) (now : Bool) (f : VFields) (s : State) : exec (.vxLd k now f) s = execVxLd k now f s := rfl
@[simp] theorem exec_vxSt (k : TileIx) (now : Bool) (f : VFields) (s : State) : exec (.vxSt k now f) s = execVxSt k now f s := rfl
@[simp] theorem exec_vxLds (k : TileIx) (now : Bool) (f : VFields) (s : State) : exec (.vxLds k now f) s = execVxLds k now f s := rfl
@[simp] theorem exec_vxSts (k : TileIx) (now : Bool) (f : VFields) (s : State) : exec (.vxSts k now f) s = execVxSts k now f s := rfl
@[simp] theorem exec_vxLdx (k : TileIx) (now : Bool) (f : VFields) (s : State) : exec (.vxLdx k now f) s = execVxLdx k now f s := rfl
@[simp] theorem exec_vxStx (k : TileIx) (now : Bool) (f : VFields) (s : State) : exec (.vxStx k now f) s = execVxStx k now f s := rfl
@[simp] theorem exec_vxSplat (k : TileIx) (now : Bool) (f : VFields) (s : State) : exec (.vxSplat k now f) s = execVxSplat k now f s := rfl
@[simp] theorem exec_vxMov (k : TileIx) (now : Bool) (f : VFields) (s : State) : exec (.vxMov k now f) s = execVxMov k now f s := rfl
@[simp] theorem exec_vxSetvl (k : TileIx) (now : Bool) (f : VFields) (s : State) : exec (.vxSetvl k now f) s = execVxSetvl k now f s := rfl
@[simp] theorem exec_vxAcc (k : TileIx) (now : Bool) (f : VFields) (s : State) : exec (.vxAcc k now f) s = execVxAcc k now f s := rfl
@[simp] theorem exec_vxMaskLogic (k : TileIx) (now : Bool) (op : MaskOp) (f : VFields) (s : State) : exec (.vxMaskLogic k now op f) s = execVxMaskLogic k now op f s := rfl
@[simp] theorem exec_vxMnot (k : TileIx) (now : Bool) (f : VFields) (s : State) : exec (.vxMnot k now f) s = execVxMnot k now f s := rfl
@[simp] theorem exec_vxMfromg (k : TileIx) (now : Bool) (f : VFields) (s : State) : exec (.vxMfromg k now f) s = execVxMfromg k now f s := rfl
@[simp] theorem exec_vxMfirst (k : TileIx) (now : Bool) (f : VFields) (s : State) : exec (.vxMfirst k now f) s = execVxMfirst k now f s := rfl
@[simp] theorem exec_vxCvt (k : TileIx) (now : Bool) (f : VFields) (s : State) : exec (.vxCvt k now f) s = execVxCvt k now f s := rfl
@[simp] theorem exec_vxLdw (k : TileIx) (now : Bool) (f : VFields) (s : State) : exec (.vxLdw k now f) s = execVxLdw k now f s := rfl
@[simp] theorem exec_vxStn (k : TileIx) (now : Bool) (f : VFields) (s : State) : exec (.vxStn k now f) s = execVxStn k now f s := rfl
@[simp] theorem exec_vxDequant (k : TileIx) (now : Bool) (b16 : Bool) (f : VFields) (s : State) : exec (.vxDequant k now b16 f) s = execVxDequant k now b16 f s := rfl
@[simp] theorem exec_vxQuant (k : TileIx) (now : Bool) (bf16 b16 fit : Bool) (f : VFields) (s : State) : exec (.vxQuant k now bf16 b16 fit f) s = execVxQuant k now bf16 b16 fit f s := rfl
@[simp] theorem exec_vxArith (k : TileIx) (now : Bool) (op : ArithOp) (f : VFields) (s : State) : exec (.vxArith k now op f) s = execVxArith k now op f s := rfl
@[simp] theorem exec_vxMinmax (k : TileIx) (now : Bool) (isMax : Bool) (f : VFields) (s : State) : exec (.vxMinmax k now isMax f) s = execVxMinmax k now isMax f s := rfl
@[simp] theorem exec_vxSign (k : TileIx) (now : Bool) (op : SignOp) (f : VFields) (s : State) : exec (.vxSign k now op f) s = execVxSign k now op f s := rfl
@[simp] theorem exec_vxLogic (k : TileIx) (now : Bool) (op : LaneLogic) (f : VFields) (s : State) : exec (.vxLogic k now op f) s = execVxLogic k now op f s := rfl
@[simp] theorem exec_vxShift (k : TileIx) (now : Bool) (op : ShiftOp) (f : VFields) (s : State) : exec (.vxShift k now op f) s = execVxShift k now op f s := rfl
@[simp] theorem exec_vxRsum (k : TileIx) (now : Bool) (f : VFields) (s : State) : exec (.vxRsum k now f) s = execVxRsum k now f s := rfl
@[simp] theorem exec_vxCompare (k : TileIx) (now : Bool) (op : CmpOp) (f : VFields) (s : State) : exec (.vxCompare k now op f) s = execVxCompare k now op f s := rfl
@[simp] theorem exec_vxSel (k : TileIx) (now : Bool) (f : VFields) (s : State) : exec (.vxSel k now f) s = execVxSel k now f s := rfl
@[simp] theorem exec_vxFunction (k : TileIx) (now : Bool) (op : FnOp) (f : VFields) (s : State) : exec (.vxFunction k now op f) s = execVxFunction k now op f s := rfl
@[simp] theorem exec_vxPerm (k : TileIx) (now : Bool) (f : VFields) (s : State) : exec (.vxPerm k now f) s = execVxPerm k now f s := rfl
@[simp] theorem exec_vxShuf (k : TileIx) (now : Bool) (f : VFields) (s : State) : exec (.vxShuf k now f) s = execVxShuf k now f s := rfl
@[simp] theorem exec_vxPack (k : TileIx) (now : Bool) (f : VFields) (s : State) : exec (.vxPack k now f) s = execVxPack k now f s := rfl
@[simp] theorem exec_vxUnpack (k : TileIx) (now : Bool) (f : VFields) (s : State) : exec (.vxUnpack k now f) s = execVxUnpack k now f s := rfl
@[simp] theorem exec_vxPack2of4 (k : TileIx) (now : Bool) (one : Bool) (f : VFields) (s : State) : exec (.vxPack2of4 k now one f) s = execVxPack2of4 k now one f s := rfl
@[simp] theorem exec_vxExpand (k : TileIx) (now : Bool) (one : Bool) (f : VFields) (s : State) : exec (.vxExpand k now one f) s = execVxExpand k now one f s := rfl
@[simp] theorem exec_vxAny (k : TileIx) (now : Bool) (f : VFields) (s : State) : exec (.vxAny k now f) s = execVxAny k now f s := rfl
@[simp] theorem exec_vxAll (k : TileIx) (now : Bool) (f : VFields) (s : State) : exec (.vxAll k now f) s = execVxAll k now f s := rfl
@[simp] theorem exec_vxRedg (k : TileIx) (now : Bool) (f : VFields) (s : State) : exec (.vxRedg k now f) s = execVxRedg k now f s := rfl
@[simp] theorem exec_vxLane (k : TileIx) (now : Bool) (f : VFields) (s : State) : exec (.vxLane k now f) s = execVxLane k now f s := rfl
@[simp] theorem exec_vxMtog (k : TileIx) (now : Bool) (f : VFields) (s : State) : exec (.vxMtog k now f) s = execVxMtog k now f s := rfl
@[simp] theorem exec_vxTally (k : TileIx) (now : Bool) (f : VFields) (s : State) : exec (.vxTally k now f) s = execVxTally k now f s := rfl
@[simp] theorem exec_vxBandedit (k : TileIx) (now : Bool) (f : VFields) (s : State) : exec (.vxBandedit k now f) s = execVxBandedit k now f s := rfl
@[simp] theorem exec_vxJw (k : TileIx) (now : Bool) (f : VFields) (s : State) : exec (.vxJw k now f) s = execVxJw k now f s := rfl
@[simp] theorem exec_vxQsig (k : TileIx) (now : Bool) (f : VFields) (s : State) : exec (.vxQsig k now f) s = execVxQsig k now f s := rfl
@[simp] theorem exec_vxPopcnt (k : TileIx) (now : Bool) (f : VFields) (s : State) : exec (.vxPopcnt k now f) s = execVxPopcnt k now f s := rfl
@[simp] theorem exec_nzGeom (k : TileIx) (now : Bool) (f : VFields) (s : State) : exec (.nzGeom k now f) s = execNzGeom k now f s := rfl
@[simp] theorem exec_nzDgauss (k : TileIx) (now : Bool) (f : VFields) (s : State) : exec (.nzDgauss k now f) s = execNzDgauss k now f s := rfl
@[simp] theorem exec_qSend (k : TileIx) (f : QFields) (s : State) : exec (.qSend k f) s = execQSend k f s := rfl
@[simp] theorem exec_qTrysend (k : TileIx) (f : QFields) (s : State) : exec (.qTrysend k f) s = execQTrysend k f s := rfl
@[simp] theorem exec_qRecv (k : TileIx) (f : QFields) (s : State) : exec (.qRecv k f) s = execQRecv k f s := rfl
@[simp] theorem exec_qPeek (k : TileIx) (f : QFields) (s : State) : exec (.qPeek k f) s = execQPeek k f s := rfl
@[simp] theorem exec_qPop (k : TileIx) (f : QFields) (s : State) : exec (.qPop k f) s = execQPop k f s := rfl
@[simp] theorem exec_qWord (k : TileIx) (f : QFields) (s : State) : exec (.qWord k f) s = execQWord k f s := rfl
@[simp] theorem exec_qSelect (k : TileIx) (f : QFields) (s : State) : exec (.qSelect k f) s = execQSelect k f s := rfl
@[simp] theorem exec_qCount (k : TileIx) (f : QFields) (s : State) : exec (.qCount k f) s = execQCount k f s := rfl
@[simp] theorem exec_sWait (k : TileIx) (f : QFields) (s : State) : exec (.sWait k f) s = execSWait k f s := rfl
@[simp] theorem exec_sSignal (k : TileIx) (f : QFields) (s : State) : exec (.sSignal k f) s = execSSignal k f s := rfl
@[simp] theorem exec_sSet (k : TileIx) (f : QFields) (s : State) : exec (.sSet k f) s = execSSet k f s := rfl
@[simp] theorem exec_sTrywait (k : TileIx) (f : QFields) (s : State) : exec (.sTrywait k f) s = execSTrywait k f s := rfl
@[simp] theorem exec_sRead (k : TileIx) (f : QFields) (s : State) : exec (.sRead k f) s = execSRead k f s := rfl
@[simp] theorem exec_poseSwitchInsn (k : TileIx) (f : QFields) (s : State) : exec (.poseSwitchInsn k f) s = execPoseSwitchInsn k f s := rfl
@[simp] theorem exec_poseYield (k : TileIx) (f : QFields) (s : State) : exec (.poseYield k f) s = execPoseYield k f s := rfl
@[simp] theorem exec_poseId (k : TileIx) (f : QFields) (s : State) : exec (.poseId k f) s = execPoseId k f s := rfl
@[simp] theorem exec_poseSwitchRun (k : TileIx) (s : State) : exec (.poseSwitchRun k) s = execPoseSwitchRun k s := rfl
@[simp] theorem exec_poseStart (k : TileIx) (slot : BitVec 4) (service : Bool) (top : BitVec 6) (s : State) : exec (.poseStart k slot service top) s = execPoseStart k slot service top s := rfl
@[simp] theorem exec_tileModeWrite (k : TileIx) (byController : Bool) (service : Bool) (top : BitVec 6) (s : State) : exec (.tileModeWrite k byController service top) s = execTileModeWrite k byController service top s := rfl
@[simp] theorem exec_tileReset (k : TileIx) (s : State) : exec (.tileReset k) s = execTileReset k s := rfl
@[simp] theorem exec_poseLoadStart (k : TileIx) (s : State) : exec (.poseLoadStart k) s = execPoseLoadStart k s := rfl
@[simp] theorem exec_poseLoadDone (k : TileIx) (s : State) : exec (.poseLoadDone k) s = execPoseLoadDone k s := rfl
@[simp] theorem exec_steerFire (k : TileIx) (s : State) : exec (.steerFire k) s = execSteerFire k s := rfl
@[simp] theorem exec_outboundSend (k : TileIx) (entry : Nat) (s : State) : exec (.outboundSend k entry) s = execOutboundSend k entry s := rfl
@[simp] theorem exec_msgResendTimeout (k : TileIx) (entry : Nat) (s : State) : exec (.msgResendTimeout k entry) s = execMsgResendTimeout k entry s := rfl
@[simp] theorem exec_syncStuck (k : TileIx) (entry : Option Nat) (s : State) : exec (.syncStuck k entry) s = execSyncStuck k entry s := rfl
@[simp] theorem exec_packetRoute (p : PacketRef) (s : State) : exec (.packetRoute p) s = execPacketRoute p s := rfl
@[simp] theorem exec_flitReceive (n : Nat) (crcError : Bool) (s : State) : exec (.flitReceive n crcError) s = execFlitReceive n crcError s := rfl
@[simp] theorem exec_linkHeartbeatTimeout (k : TileIx) (d : Dir) (s : State) : exec (.linkHeartbeatTimeout k d) s = execLinkHeartbeatTimeout k d s := rfl
@[simp] theorem exec_msg (n : Nat) (s : State) : exec (.msg n) s = execMsg n s := rfl
@[simp] theorem exec_msgAnswer (n : Nat) (s : State) : exec (.msgAnswer n) s = execMsgAnswer n s := rfl
@[simp] theorem exec_retryNotice (n : Nat) (s : State) : exec (.retryNotice n) s = execRetryNotice n s := rfl
@[simp] theorem exec_get (n : Nat) (s : State) : exec (.get n) s = execGet n s := rfl
@[simp] theorem exec_coalesceEntryExpire (k : TileIx) (s : State) : exec (.coalesceEntryExpire k) s = execCoalesceEntryExpire k s := rfl
@[simp] theorem exec_getData (n : Nat) (s : State) : exec (.getData n) s = execGetData n s := rfl
@[simp] theorem exec_put (n : Nat) (s : State) : exec (.put n) s = execPut n s := rfl
@[simp] theorem exec_putAck (n : Nat) (s : State) : exec (.putAck n) s = execPutAck n s := rfl
@[simp] theorem exec_nack (n : Nat) (s : State) : exec (.nack n) s = execNack n s := rfl
@[simp] theorem exec_signal (n : Nat) (s : State) : exec (.signal n) s = execSignal n s := rfl
@[simp] theorem exec_wake (n : Nat) (s : State) : exec (.wake n) s = execWake n s := rfl
@[simp] theorem exec_gather (n : Nat) (s : State) : exec (.gather n) s = execGather n s := rfl
@[simp] theorem exec_rtSrcWrite (k : TileIx) (v : BitVec 64) (s : State) : exec (.rtSrcWrite k v) s = execRtSrcWrite k v s := rfl
@[simp] theorem exec_reinBurstSend (k : TileIx) (d : Dir) (s : State) : exec (.reinBurstSend k d) s = execReinBurstSend k d s := rfl
@[simp] theorem exec_reinTapWrite (n : Nat) (s : State) : exec (.reinTapWrite n) s = execReinTapWrite n s := rfl
@[simp] theorem exec_rtGsendWrite (k : TileIx) (v : BitVec 64) (s : State) : exec (.rtGsendWrite k v) s = execRtGsendWrite k v s := rfl
@[simp] theorem exec_tallyApply (k : TileIx) (s : State) : exec (.tallyApply k) s = execTallyApply k s := rfl
@[simp] theorem exec_paceNop (r : RegionIx) (s : State) : exec (.paceNop r) s = execPaceNop r s := rfl
@[simp] theorem exec_reinOpen (r : RegionIx) (s : State) : exec (.reinOpen r) s = execReinOpen r s := rfl
@[simp] theorem exec_reinReady (p : PaddockId) (rein : BitVec 12) (s : State) : exec (.reinReady p rein) s = execReinReady p rein s := rfl
@[simp] theorem exec_reinClose (r : RegionIx) (s : State) : exec (.reinClose r) s = execReinClose r s := rfl
@[simp] theorem exec_poseSwitch (r : RegionIx) (s : State) : exec (.poseSwitch r) s = execPoseSwitch r s := rfl
@[simp] theorem exec_poseLoad (r : RegionIx) (s : State) : exec (.poseLoad r) s = execPoseLoad r s := rfl
@[simp] theorem exec_remountIssueDemand (r : RegionIx) (s : State) : exec (.remountIssueDemand r) s = execRemountIssueDemand r s := rfl
@[simp] theorem exec_remountIssuePredict (r : RegionIx) (s : State) : exec (.remountIssuePredict r) s = execRemountIssuePredict r s := rfl
@[simp] theorem exec_gatherOpen (r : RegionIx) (s : State) : exec (.gatherOpen r) s = execGatherOpen r s := rfl
@[simp] theorem exec_ckptMark (r : RegionIx) (s : State) : exec (.ckptMark r) s = execCkptMark r s := rfl
@[simp] theorem exec_deadline (r : RegionIx) (s : State) : exec (.deadline r) s = execDeadline r s := rfl
@[simp] theorem exec_deadlineTest (p : PaddockId) (s : State) : exec (.deadlineTest p) s = execDeadlineTest p s := rfl
@[simp] theorem exec_windowMark (r : RegionIx) (s : State) : exec (.windowMark r) s = execWindowMark r s := rfl
@[simp] theorem exec_ledgerTick (r : RegionIx) (measured : Nat) (s : State) : exec (.ledgerTick r measured) s = execLedgerTick r measured s := rfl
@[simp] theorem exec_beatBoundary (p : PaddockId) (s : State) : exec (.beatBoundary p) s = execBeatBoundary p s := rfl
@[simp] theorem exec_strideOpen (p : PaddockId) (s : State) : exec (.strideOpen p) s = execStrideOpen p s := rfl
@[simp] theorem exec_strideClose (p : PaddockId) (s : State) : exec (.strideClose p) s = execStrideClose p s := rfl
@[simp] theorem exec_replay (p : PaddockId) (s : State) : exec (.replay p) s = execReplay p s := rfl
@[simp] theorem exec_deviceStride (s : State) : exec (.deviceStride) s = execDeviceStride s := rfl
@[simp] theorem exec_paceSyncInPulse (p : PaddockId) (s : State) : exec (.paceSyncInPulse p) s = execPaceSyncInPulse p s := rfl
@[simp] theorem exec_paceRefLost (s : State) : exec (.paceRefLost) s = execPaceRefLost s := rfl
@[simp] theorem exec_paceRefRestored (s : State) : exec (.paceRefRestored) s = execPaceRefRestored s := rfl
@[simp] theorem exec_paceRefFreqCheck (ppm : Nat) (s : State) : exec (.paceRefFreqCheck ppm) s = execPaceRefFreqCheck ppm s := rfl
@[simp] theorem exec_paceCtrlWrite (v : BitVec 64) (s : State) : exec (.paceCtrlWrite v) s = execPaceCtrlWrite v s := rfl
@[simp] theorem exec_paceSrcWrite (p : PaddockId) (v : BitVec 64) (s : State) : exec (.paceSrcWrite p v) s = execPaceSrcWrite p v s := rfl
@[simp] theorem exec_registerWrite (offset : BitVec 32) (four : Bool) (v : BitVec 64) (s : State) : exec (.registerWrite offset four v) s = execRegisterWrite offset four v s := rfl
@[simp] theorem exec_remountBind (n : Nat) (s : State) : exec (.remountBind n) s = execRemountBind n s := rfl
@[simp] theorem exec_slotRelease (n : Nat) (s : State) : exec (.slotRelease n) s = execSlotRelease n s := rfl
@[simp] theorem exec_remountGranuleSend (p : PaddockId) (lane : Nat) (s : State) : exec (.remountGranuleSend p lane) s = execRemountGranuleSend p lane s := rfl
@[simp] theorem exec_tierHealComplete (far : Bool) (granule : Nat) (goodMirror : Bool) (s : State) : exec (.tierHealComplete far granule goodMirror) s = execTierHealComplete far granule goodMirror s := rfl
@[simp] theorem exec_tierScrub (far : Bool) (uncorrectable : Bool) (corrected : Bool) (s : State) : exec (.tierScrub far uncorrectable corrected) s = execTierScrub far uncorrectable corrected s := rfl
@[simp] theorem exec_siteMigrationStart (far : Bool) (logical : Nat) (s : State) : exec (.siteMigrationStart far logical) s = execSiteMigrationStart far logical s := rfl
@[simp] theorem exec_siteMigrationComplete (far : Bool) (s : State) : exec (.siteMigrationComplete far) s = execSiteMigrationComplete far s := rfl
@[simp] theorem exec_apertureRead (offset : BitVec 36) (len : Nat) (s : State) : exec (.apertureRead offset len) s = execApertureRead offset len s := rfl
@[simp] theorem exec_apertureWrite (offset : BitVec 36) (data : List Byte) (s : State) : exec (.apertureWrite offset data) s = execApertureWrite offset data s := rfl
@[simp] theorem exec_bar2Write (offset : Nat) (data : List Byte) (s : State) : exec (.bar2Write offset data) s = execBar2Write offset data s := rfl
@[simp] theorem exec_indirectWindowWrite (tileWindow : Bool) (offset : BitVec 32) (v : BitVec 64) (s : State) : exec (.indirectWindowWrite tileWindow offset v) s = execIndirectWindowWrite tileWindow offset v s := rfl
@[simp] theorem exec_hiPoll (fails : BitVec 4) (s : State) : exec (.hiPoll fails) s = execHiPoll fails s := rfl
@[simp] theorem exec_ringEnable (n : RingIx) (s : State) : exec (.ringEnable n) s = execRingEnable n s := rfl
@[simp] theorem exec_ringDisable (n : RingIx) (s : State) : exec (.ringDisable n) s = execRingDisable n s := rfl
@[simp] theorem exec_eventRingHeadWrite (v : BitVec 64) (s : State) : exec (.eventRingHeadWrite v) s = execEventRingHeadWrite v s := rfl
@[simp] theorem exec_linkReset (s : State) : exec (.linkReset) s = execLinkReset s := rfl
@[simp] theorem exec_descriptorComplete (id : Nat) (s : State) : exec (.descriptorComplete id) s = execDescriptorComplete id s := rfl
@[simp] theorem exec_nop (id : Nat) (s : State) : exec (.nop id) s = execNop id s := rfl
@[simp] theorem exec_pad (id : Nat) (s : State) : exec (.pad id) s = execPad id s := rfl
@[simp] theorem exec_fence (id : Nat) (s : State) : exec (.fence id) s = execFence id s := rfl
@[simp] theorem exec_stageIn (id : Nat) (s : State) : exec (.stageIn id) s = execStageIn id s := rfl
@[simp] theorem exec_stageOut (id : Nat) (s : State) : exec (.stageOut id) s = execStageOut id s := rfl
@[simp] theorem exec_loadImage (id : Nat) (s : State) : exec (.loadImage id) s = execLoadImage id s := rfl
@[simp] theorem exec_loadImageShared (id : Nat) (s : State) : exec (.loadImageShared id) s = execLoadImageShared id s := rfl
@[simp] theorem exec_unloadImage (id : Nat) (s : State) : exec (.unloadImage id) s = execUnloadImage id s := rfl
@[simp] theorem exec_stride (id : Nat) (s : State) : exec (.stride id) s = execStride id s := rfl
@[simp] theorem exec_decodeOpen (id : Nat) (s : State) : exec (.decodeOpen id) s = execDecodeOpen id s := rfl
@[simp] theorem exec_decodeStepPrefill (id session : Nat) (s : State) : exec (.decodeStepPrefill id session) s = execDecodeStepPrefill id session s := rfl
@[simp] theorem exec_decodeStepPlain (id session : Nat) (s : State) : exec (.decodeStepPlain id session) s = execDecodeStepPlain id session s := rfl
@[simp] theorem exec_decodeStepOutrider (id session : Nat) (maquette : List (List (BitVec 32))) (s : State) : exec (.decodeStepOutrider id session maquette) s = execDecodeStepOutrider id session maquette s := rfl
@[simp] theorem exec_decodeClose (id : Nat) (s : State) : exec (.decodeClose id) s = execDecodeClose id s := rfl
@[simp] theorem exec_tallyRun (id : Nat) (s : State) : exec (.tallyRun id) s = execTallyRun id s := rfl
@[simp] theorem exec_tallyFinish (id : Nat) (s : State) : exec (.tallyFinish id) s = execTallyFinish id s := rfl
@[simp] theorem exec_checkpoint (id : Nat) (s : State) : exec (.checkpoint id) s = execCheckpoint id s := rfl
@[simp] theorem exec_restore (id : Nat) (s : State) : exec (.restore id) s = execRestore id s := rfl
@[simp] theorem exec_screenSelfTest (id : Nat) (failures : List (TileIx × BitVec 8 × BitVec 8 × BitVec 64)) (s : State) : exec (.screenSelfTest id failures) s = execScreenSelfTest id failures s := rfl
@[simp] theorem exec_screenGeneratorKa (id : Nat) (s : State) : exec (.screenGeneratorKa id) s = execScreenGeneratorKa id s := rfl
@[simp] theorem exec_screenSamplerKa (id : Nat) (s : State) : exec (.screenSamplerKa id) s = execScreenSamplerKa id s := rfl
@[simp] theorem exec_dumpSync (id : Nat) (s : State) : exec (.dumpSync id) s = execDumpSync id s := rfl
@[simp] theorem exec_releaseWindow (id : Nat) (s : State) : exec (.releaseWindow id) s = execReleaseWindow id s := rfl
@[simp] theorem exec_paddockCreate (id : Nat) (s : State) : exec (.paddockCreate id) s = execPaddockCreate id s := rfl
@[simp] theorem exec_paddockDestroy (id : Nat) (s : State) : exec (.paddockDestroy id) s = execPaddockDestroy id s := rfl
@[simp] theorem exec_budgetSet (id : Nat) (s : State) : exec (.budgetSet id) s = execBudgetSet id s := rfl
@[simp] theorem exec_yokeAttach (id : Nat) (s : State) : exec (.yokeAttach id) s = execYokeAttach id s := rfl
@[simp] theorem exec_yokeDetach (id : Nat) (s : State) : exec (.yokeDetach id) s = execYokeDetach id s := rfl
@[simp] theorem exec_fwStage (id : Nat) (s : State) : exec (.fwStage id) s = execFwStage id s := rfl
@[simp] theorem exec_fwActivate (id : Nat) (s : State) : exec (.fwActivate id) s = execFwActivate id s := rfl
@[simp] theorem exec_debugOpen (id : Nat) (s : State) : exec (.debugOpen id) s = execDebugOpen id s := rfl
@[simp] theorem exec_sealIssue (id : Nat) (s : State) : exec (.sealIssue id) s = execSealIssue id s := rfl
@[simp] theorem exec_errorReport (r : Option Report) (s : State) : exec (.errorReport r) s = execErrorReport r s := rfl
@[simp] theorem exec_pathFault (source : BitVec 16) (k : TileIx) (s : State) : exec (.pathFault source k) s = execPathFault source k s := rfl
@[simp] theorem exec_lineWithoutReport (source : BitVec 16) (k : TileIx) (s : State) : exec (.lineWithoutReport source k) s = execLineWithoutReport source k s := rfl
@[simp] theorem exec_ackTimeout (source : BitVec 16) (k : TileIx) (s : State) : exec (.ackTimeout source k) s = execAckTimeout source k s := rfl
@[simp] theorem exec_haltNow (s : State) : exec (.haltNow) s = execHaltNow s := rfl
@[simp] theorem exec_fcModeWrite (compat : Bool) (s : State) : exec (.fcModeWrite compat) s = execFcModeWrite compat s := rfl
@[simp] theorem exec_firstErrorClear (field : Option (Fin 84)) (s : State) : exec (.firstErrorClear field) s = execFirstErrorClear field s := rfl
@[simp] theorem exec_tableFlipRequest (detours : List (TileIx × List (BitVec 64))) (s : State) : exec (.tableFlipRequest detours) s = execTableFlipRequest detours s := rfl
@[simp] theorem exec_tableFlipComplete (s : State) : exec (.tableFlipComplete) s = execTableFlipComplete s := rfl
@[simp] theorem exec_rePlacement (p : PaddockId) (s : State) : exec (.rePlacement p) s = execRePlacement p s := rfl
@[simp] theorem exec_tileRetire (k : TileIx) (s : State) : exec (.tileRetire k) s = execTileRetire k s := rfl
@[simp] theorem exec_patinaWrite (entry : BitVec 128) (s : State) : exec (.patinaWrite entry) s = execPatinaWrite entry s := rfl
@[simp] theorem exec_ledgerPeriod (temps : List Nat) (s : State) : exec (.ledgerPeriod temps) s = execLedgerPeriod temps s := rfl
@[simp] theorem exec_regionPowerLimit (r : RegionIx) (s : State) : exec (.regionPowerLimit r) s = execRegionPowerLimit r s := rfl
@[simp] theorem exec_modulePowerLimit (s : State) : exec (.modulePowerLimit) s = execModulePowerLimit s := rfl
@[simp] theorem exec_throttleRelease (r : RegionIx) (cause : Nat) (s : State) : exec (.throttleRelease r cause) s = execThrottleRelease r cause s := rfl
@[simp] theorem exec_feedLost (b : Bool) (s : State) : exec (.feedLost b) s = execFeedLost b s := rfl
@[simp] theorem exec_feedRestored (b : Bool) (s : State) : exec (.feedRestored b) s = execFeedRestored b s := rfl
@[simp] theorem exec_bothFeedsLost (s : State) : exec (.bothFeedsLost) s = execBothFeedsLost s := rfl
@[simp] theorem exec_converterFail (s : State) : exec (.converterFail) s = execConverterFail s := rfl
@[simp] theorem exec_phaseFail (r : RegionIx) (s : State) : exec (.phaseFail r) s = execPhaseFail r s := rfl
@[simp] theorem exec_efuseTrip (r : RegionIx) (s : State) : exec (.efuseTrip r) s = execEfuseTrip r s := rfl
@[simp] theorem exec_coolantInletLimit (s : State) : exec (.coolantInletLimit) s = execCoolantInletLimit s := rfl
@[simp] theorem exec_coolantFlowLimit (s : State) : exec (.coolantFlowLimit) s = execCoolantFlowLimit s := rfl
@[simp] theorem exec_yokeData (link : Fin 30) (f : LinkFrame) (s : State) : exec (.yokeData link f) s = execYokeData link f s := rfl
@[simp] theorem exec_ack (link : Fin 30) (seq : Nat) (s : State) : exec (.ack link seq) s = execAck link seq s := rfl
@[simp] theorem exec_nak (link : Fin 30) (seq : Nat) (s : State) : exec (.nak link seq) s = execNak link seq s := rfl
@[simp] theorem exec_linkRetryTimeout (link : Fin 30) (s : State) : exec (.linkRetryTimeout link) s = execLinkRetryTimeout link s := rfl
@[simp] theorem exec_credit (link : Fin 30) (channel : Nat) (n : Nat) (s : State) : exec (.credit link channel n) s = execCredit link channel n s := rfl
@[simp] theorem exec_heartbeat (link : Fin 30) (s : State) : exec (.heartbeat link) s = execHeartbeat link s := rfl
@[simp] theorem exec_heartbeatSend (link : Fin 30) (s : State) : exec (.heartbeatSend link) s = execHeartbeatSend link s := rfl
@[simp] theorem exec_yokeDown (s : State) : exec (.yokeDown) s = execYokeDown s := rfl
@[simp] theorem exec_halted (port : Fin 20) (s : State) : exec (.halted port) s = execHalted port s := rfl
@[simp] theorem exec_laneSpare (link : Fin 30) (lane : BitVec 8) (s : State) : exec (.laneSpare link lane) s = execLaneSpare link lane s := rfl
@[simp] theorem exec_remoteChannelMsg (link : Fin 30) (channel : Nat) (chseq : Nat) (words : List (BitVec 64 × Bool)) (s : State) : exec (.remoteChannelMsg link channel chseq words) s = execRemoteChannelMsg link channel chseq words s := rfl
@[simp] theorem exec_mPropose (p : PaddockId) (stride : Nat) (m : Nat) (s : State) : exec (.mPropose p stride m) s = execMPropose p stride m s := rfl
@[simp] theorem exec_closeReport (p : PaddockId) (stride : Nat) (held : Nat) (fault : Bool) (digest : BitVec 64) (s : State) : exec (.closeReport p stride held fault digest) s = execCloseReport p stride held fault digest s := rfl
@[simp] theorem exec_mark (p : PaddockId) (stride : Nat) (beat : Nat) (s : State) : exec (.mark p stride beat) s = execMark p stride beat s := rfl
@[simp] theorem exec_partials (p : PaddockId) (digests : List (BitVec 64)) (failures : List TileIx) (s : State) : exec (.partials p digests failures) s = execPartials p digests failures s := rfl
@[simp] theorem exec_paddockFail (p : PaddockId) (s : State) : exec (.paddockFail p) s = execPaddockFail p s := rfl
@[simp] theorem exec_haltNotice (s : State) : exec (.haltNotice) s = execHaltNotice s := rfl
@[simp] theorem exec_detach (p : PaddockId) (s : State) : exec (.detach p) s = execDetach p s := rfl
@[simp] theorem exec_forward (p : PaddockId) (kind : Nat) (addr : BitVec 64) (data : List (Byte × Bool)) (s : State) : exec (.forward p kind addr data) s = execForward p kind addr data s := rfl
@[simp] theorem exec_attach (a : AttachMsg) (s : State) : exec (.attach a) s = execAttach a s := rfl
@[simp] theorem exec_attachTimeout (s : State) : exec (.attachTimeout) s = execAttachTimeout s := rfl
@[simp] theorem exec_attachCopy (s : State) : exec (.attachCopy) s = execAttachCopy s := rfl
@[simp] theorem exec_yokeJoin (p : PaddockId) (sent : JoinSent) (s : State) : exec (.yokeJoin p sent) s = execYokeJoin p sent s := rfl
@[simp] theorem exec_twinHaltIn (s : State) : exec (.twinHaltIn) s = execTwinHaltIn s := rfl
@[simp] theorem exec_takeOver (s : State) : exec (.takeOver) s = execTakeOver s := rfl
@[simp] theorem exec_takeover (p : PaddockId) (s : State) : exec (.takeover p) s = execTakeover p s := rfl
@[simp] theorem exec_tokenSubmit (s : State) : exec (.tokenSubmit) s = execTokenSubmit s := rfl
@[simp] theorem exec_relkeyErase (v : BitVec 64) (s : State) : exec (.relkeyErase v) s = execRelkeyErase v s := rfl
@[simp] theorem exec_doeDiscovery (index : BitVec 8) (s : State) : exec (.doeDiscovery index) s = execDoeDiscovery index s := rfl
@[simp] theorem exec_spdmCert (slot : BitVec 8) (s : State) : exec (.spdmCert slot) s = execSpdmCert slot s := rfl
@[simp] theorem exec_spdmChal (slot : BitVec 8) (nonce : List Byte) (s : State) : exec (.spdmChal slot nonce) s = execSpdmChal slot nonce s := rfl
@[simp] theorem exec_spdmMeas (slot : BitVec 8) (nonce : List Byte) (s : State) : exec (.spdmMeas slot nonce) s = execSpdmMeas slot nonce s := rfl
@[simp] theorem exec_spdmKeyEx (mutualOwner : Bool) (ownerSig : List Byte) (s : State) : exec (.spdmKeyEx mutualOwner ownerSig) s = execSpdmKeyEx mutualOwner ownerSig s := rfl
@[simp] theorem exec_ownerEnrol (session : Nat) (key : List Byte) (sig : List Byte) (s : State) : exec (.ownerEnrol session key sig) s = execOwnerEnrol session key sig s := rfl
@[simp] theorem exec_ownerRemove (session : Nat) (s : State) : exec (.ownerRemove session) s = execOwnerRemove session s := rfl
@[simp] theorem exec_releaseKeyPut (session : Nat) (p : PaddockId) (slot : BitVec 2) (key : BitVec 256) (s : State) : exec (.releaseKeyPut session p slot key) s = execReleaseKeyPut session p slot key s := rfl
@[simp] theorem exec_releaseKeyPutWrapped (session : Nat) (p : PaddockId) (slot : BitVec 2) (secret : BitVec 3) (wrapped : List Byte) (s : State) : exec (.releaseKeyPutWrapped session p slot secret wrapped) s = execReleaseKeyPutWrapped session p slot secret wrapped s := rfl
@[simp] theorem exec_ownerSecretPut (session : Nat) (index : BitVec 3) (secret : List Byte) (s : State) : exec (.ownerSecretPut session index secret) s = execOwnerSecretPut session index secret s := rfl
@[simp] theorem exec_ideKm (session : Nat) (stream : BitVec 8) (key : BitVec 256) (s : State) : exec (.ideKm session stream key) s = execIdeKm session stream key s := rfl
@[simp] theorem exec_pldmSensorRead (sensor : Nat) (s : State) : exec (.pldmSensorRead sensor) s = execPldmSensorRead sensor s := rfl
@[simp] theorem exec_pldmSetThreshold (sensor : Nat) (upper : Bool) (value : Int) (s : State) : exec (.pldmSetThreshold sensor upper value) s = execPldmSetThreshold sensor upper value s := rfl
@[simp] theorem exec_pldmEventRead (s : State) : exec (.pldmEventRead) s = execPldmEventRead s := rfl
@[simp] theorem exec_pldmEvent (sensor : Nat) (value : Int) (s : State) : exec (.pldmEvent sensor value) s = execPldmEvent sensor value s := rfl
@[simp] theorem exec_firmwareUpdate (image : List Byte) (s : State) : exec (.firmwareUpdate image) s = execFirmwareUpdate image s := rfl
@[simp] theorem exec_tapBypass (tdi : Bool) (s : State) : exec (.tapBypass tdi) s = execTapBypass tdi s := rfl
@[simp] theorem exec_tapIdcode (s : State) : exec (.tapIdcode) s = execTapIdcode s := rfl
@[simp] theorem exec_tapSamplePreload (s : State) : exec (.tapSamplePreload) s = execTapSamplePreload s := rfl
@[simp] theorem exec_tapExtest (s : State) : exec (.tapExtest) s = execTapExtest s := rfl
@[simp] theorem exec_tapPrivate (opcode : BitVec 8) (s : State) : exec (.tapPrivate opcode) s = execTapPrivate opcode s := rfl
@[simp] theorem exec_counterClear (v : BitVec 64) (s : State) : exec (.counterClear v) s = execCounterClear v s := rfl
@[simp] theorem exec_counterWrapClear (offset : BitVec 32) (s : State) : exec (.counterWrapClear offset) s = execCounterWrapClear offset s := rfl
@[simp] theorem exec_bwWindowEnd (s : State) : exec (.bwWindowEnd) s = execBwWindowEnd s := rfl
@[simp] theorem exec_powerUp (feedA feedB : Bool) (s : State) : exec (.powerUp feedA feedB) s = execPowerUp feedA feedB s := rfl
@[simp] theorem exec_modResetRelease (scan : ScanResult) (s : State) : exec (.modResetRelease scan) s = execModResetRelease scan s := rfl
@[simp] theorem exec_bootTimeout (s : State) : exec (.bootTimeout) s = execBootTimeout s := rfl
@[simp] theorem exec_modResetAssert (s : State) : exec (.modResetAssert) s = execModResetAssert s := rfl
@[simp] theorem exec_fetchFault (k : TileIx) (s : State) : exec (.fetchFault k) s = execFetchFault k s := rfl
@[simp] theorem exec_vxInstrStart (k : TileIx) (s : State) : exec (.vxInstrStart k) s = execVxInstrStart k s := rfl
@[simp] theorem exec_d3hotTransition (enter : Bool) (s : State) : exec (.d3hotTransition enter) s = execD3hotTransition enter s := rfl
@[simp] theorem exec_fabricPortRetrain (port : Fin 20) (peer : BitVec 6) (s : State) : exec (.fabricPortRetrain port peer) s = execFabricPortRetrain port peer s := rfl
@[simp] theorem exec_yokeRetrain (group : Fin 10) (s : State) : exec (.yokeRetrain group) s = execYokeRetrain group s := rfl

end Sys2Proof.Machine
end

