-- ==== Sys2Proof/Laws/Vector.lean ====
section
/-! SUPPORT. Lanes of a vector register: what a write of lanes leaves in each lane. -/

namespace Sys2Proof.Machine

/-- The digits of a sum of digits at their places. -/
theorem digit_of_sum (w : Nat) (d : Nat → Nat) (hd : ∀ x, d x < 2 ^ w) :
    ∀ n, (∀ k, k < n → ((List.range n).map (fun x => d x * 2 ^ (w * x))).sum / 2 ^ (w * k) % 2 ^ w = d k)
      ∧ ((List.range n).map (fun x => d x * 2 ^ (w * x))).sum < 2 ^ (w * n) := by
  intro n
  induction n with
  | zero => exact ⟨fun k hk => absurd hk (Nat.not_lt_zero k), by simp⟩
  | succ n ih =>
    obtain ⟨ih1, ih2⟩ := ih
    rw [List.range_succ, List.map_append, List.sum_append]
    simp only [List.map_cons, List.map_nil, List.sum_cons, List.sum_nil, Nat.add_zero]
    generalize ((List.range n).map (fun x => d x * 2 ^ (w * x))).sum = S at *
    have hlast : d n * 2 ^ (w * n) + 2 ^ (w * n) ≤ 2 ^ w * 2 ^ (w * n) := by
      have := Nat.mul_le_mul_right (2 ^ (w * n)) (hd n)
      rw [Nat.succ_mul] at this
      exact this
    constructor
    · intro k hk
      by_cases hkn : k = n
      · subst hkn
        rw [Nat.add_mul_div_right _ _ (Nat.two_pow_pos _), Nat.div_eq_of_lt ih2, Nat.zero_add, Nat.mod_eq_of_lt (hd k)]
      · have hlt : k < n := by omega
        have hsplit : d n * 2 ^ (w * n) = d n * 2 ^ (w * (n - k - 1)) * 2 ^ w * 2 ^ (w * k) := by
          rw [Nat.mul_assoc, Nat.mul_assoc, ← Nat.pow_add, ← Nat.pow_add]
          congr 2
          have : n = (n - k - 1) + 1 + k := by omega
          conv_lhs => rw [this]
          ring
        rw [hsplit, Nat.add_mul_div_right _ _ (Nat.two_pow_pos _), Nat.add_mul_mod_self_right]
        exact ih1 k hlt
    · have : w * (n + 1) = w + w * n := by ring
      rw [this, Nat.pow_add]
      omega

/-- Adding in turn is summing. -/
theorem foldl_add_sum {α : Type} (F : Nat → α → Nat) (g : α → Nat) (hF : ∀ b x, F b x = b + g x) (l : List α) (z : Nat) :
    l.foldl F z = z + (l.map g).sum := by
  induction l generalizing z with
  | nil => simp
  | cons x l ih => rw [List.foldl_cons, ih, List.map_cons, List.sum_cons, hF]; omega

/-- The bits of a written lane. -/
def writtenBits (v : VReg) (w : Nat) (x : Nat × Option LaneOut) : Nat :=
  x.2.elim (v.lane w x.1).1 (fun l => l.bits % 2 ^ w)

/-- The poison of a written lane of `c` bytes. -/
def writtenPoison (v : VReg) (c : Nat) (x : Nat × Option LaneOut) : Nat :=
  x.2.elim (v.poison.toNat / 2 ^ (c * x.1) % 2 ^ c) (fun l => if l.bad then 2 ^ c - 1 else 0)

/-- A list paired with its places is the places mapped to the pair. -/
theorem zip_range_map {α β : Type} (d : α) (ls : List α) (g : Nat × α → β) :
    ((List.range ls.length).zip ls).map g = (List.range ls.length).map (fun i => g (i, ls.getD i d)) := by
  apply List.ext_getElem
  · simp
  · intro i h1 h2
    simp at h1 h2
    simp [List.getD_eq_getElem?_getD, h1]

/-- A written lane holds what was written, another lane what it held. -/
theorem VReg.lane_write (v : VReg) (w : Nat) (ls : List (Option LaneOut)) (k : Nat) (hw : 8 ∣ w) (hpos : 0 < w)
    (hlen : w * ls.length ≤ 512) (hk : k < ls.length) :
    (v.write w ls).lane w k = match ls.getD k none with
      | some l => (l.bits % 2 ^ w, l.bad)
      | none => v.lane w k := by
  obtain ⟨c, rfl⟩ := hw
  have hc : 0 < c := by omega
  have h8 : 8 * c / 8 = c := by omega
  have lt512 : 2 ^ (8 * c * ls.length) ≤ 2 ^ 512 := Nat.pow_le_pow_right (by decide) hlen
  have lt64 : 2 ^ (c * ls.length) ≤ 2 ^ 64 := Nat.pow_le_pow_right (by decide) (by nlinarith)
  have hb := digit_of_sum (8 * c) (fun i => writtenBits v (8 * c) (i, ls.getD i none))
    (fun i => by
      show (ls.getD i none).elim _ _ < _
      cases ls.getD i none with
      | none => exact Nat.mod_lt _ (Nat.two_pow_pos _)
      | some l => exact Nat.mod_lt _ (Nat.two_pow_pos _)) ls.length
  have hp := digit_of_sum c (fun i => writtenPoison v c (i, ls.getD i none))
    (fun i => by
      have := Nat.two_pow_pos c
      show (ls.getD i none).elim _ _ < _
      cases ls.getD i none with
      | none => exact Nat.mod_lt _ (Nat.two_pow_pos _)
      | some l => show (if l.bad then _ else _) < _; split <;> omega) ls.length
  have eb : (v.write (8 * c) ls).bits.toNat
      = ((List.range ls.length).map (fun i => writtenBits v (8 * c) (i, ls.getD i none) * 2 ^ (8 * c * i))).sum := by
    unfold VReg.write
    dsimp only
    rw [foldl_add_sum _ (fun x => writtenBits v (8 * c) x * 2 ^ (8 * c * x.1))
        (fun b x => by obtain ⟨i, o⟩ := x; cases o <;> rfl),
      zip_range_map none, Nat.zero_add, BitVec.toNat_ofNat, Nat.mod_eq_of_lt (lt_of_lt_of_le hb.2 lt512)]
  have ep : (v.write (8 * c) ls).poison.toNat
      = ((List.range ls.length).map (fun i => writtenPoison v c (i, ls.getD i none) * 2 ^ (c * i))).sum := by
    unfold VReg.write
    dsimp only
    rw [h8, foldl_add_sum _ (fun x => writtenPoison v c x * 2 ^ (c * x.1))
        (fun b x => by obtain ⟨i, o⟩ := x; cases o <;> rfl),
      zip_range_map none, Nat.zero_add, BitVec.toNat_ofNat, Nat.mod_eq_of_lt (lt_of_lt_of_le hp.2 lt64)]
  unfold VReg.lane
  rw [eb, ep, h8, hb.1 k hk, hp.1 k hk]
  unfold writtenBits writtenPoison
  cases ls.getD k none with
  | none => simp only [Option.elim_none, VReg.lane, h8]
  | some l =>
    simp only [Option.elim_some]
    cases l.bad with
    | false => simp
    | true =>
      have : 2 ^ c - 1 ≠ 0 := by
        have : 2 ^ 1 ≤ 2 ^ c := Nat.pow_le_pow_right (by decide) hc
        omega
      simp [this]

theorem Format.lanes_bits (fmt : Format) (h : fmt.hasLanes = true) :
    8 ∣ fmt.width ∧ 0 < fmt.width ∧ fmt.width * fmt.lanes ≤ 512 := by
  cases fmt <;> first | (exact absurd h (by decide)) | decide

/-- Lanes after a write of some of them. -/
theorem Tile.lane_writeLanes (t : Tile) (vd : Nat) (fmt : Format) (which : Nat → Bool) (out : Nat → LaneOut)
    (h : fmt.hasLanes = true) (k : Nat) (hk : k < fmt.lanes) :
    ((t.writeLanes vd fmt which out).vreg vd).lane fmt.width k =
      if which k then ((out k).bits % 2 ^ fmt.width, (out k).bad) else (t.vreg vd).lane fmt.width k := by
  obtain ⟨h8, hpos, h512⟩ := fmt.lanes_bits h
  simp only [Tile.writeLanes, Tile.vreg, getD_putD_same]
  rw [VReg.lane_write _ _ _ k h8 hpos (by simpa using h512) (by simpa using hk)]
  have : ((List.range fmt.lanes).map (fun k => if which k then some (out k) else none)).getD k none
      = if which k then some (out k) else none := by
    simp [List.getD_eq_getElem?_getD, hk]
  rw [this]
  cases which k <;> rfl

theorem Tile.vreg_writeLanes_other (t : Tile) (vd i : Nat) (fmt : Format) (which : Nat → Bool) (out : Nat → LaneOut)
    (h : i % 32 ≠ vd % 32) : (t.writeLanes vd fmt which out).vreg i = t.vreg i :=
  getD_putD_other _ _ _ _ _ h

/-! ## Fields that writes of lanes, the queue and the counters leave alone -/

@[simp] theorem Tile.writeLanes_regs (t : Tile) (vd : Nat) (fmt : Format) (which : Nat → Bool) (out : Nat → LaneOut) : (t.writeLanes vd fmt which out).regs = t.regs := rfl
@[simp] theorem Tile.writeLanes_pc (t : Tile) (vd : Nat) (fmt : Format) (which : Nat → Bool) (out : Nat → LaneOut) : (t.writeLanes vd fmt which out).pc = t.pc := rfl
@[simp] theorem Tile.writeLanes_service (t : Tile) (vd : Nat) (fmt : Format) (which : Nat → Bool) (out : Nat → LaneOut) : (t.writeLanes vd fmt which out).service = t.service := rfl
@[simp] theorem Tile.writeLanes_parked (t : Tile) (vd : Nat) (fmt : Format) (which : Nat → Bool) (out : Nat → LaneOut) : (t.writeLanes vd fmt which out).parked = t.parked := rfl
@[simp] theorem Tile.writeLanes_wait (t : Tile) (vd : Nat) (fmt : Format) (which : Nat → Bool) (out : Nat → LaneOut) : (t.writeLanes vd fmt which out).wait = t.wait := rfl
@[simp] theorem Tile.writeLanes_protTop (t : Tile) (vd : Nat) (fmt : Format) (which : Nat → Bool) (out : Nat → LaneOut) : (t.writeLanes vd fmt which out).protTop = t.protTop := rfl
@[simp] theorem Tile.writeLanes_fcValid (t : Tile) (vd : Nat) (fmt : Format) (which : Nat → Bool) (out : Nat → LaneOut) : (t.writeLanes vd fmt which out).fcValid = t.fcValid := rfl
@[simp] theorem Tile.writeLanes_fcCount (t : Tile) (vd : Nat) (fmt : Format) (which : Nat → Bool) (out : Nat → LaneOut) : (t.writeLanes vd fmt which out).fcCount = t.fcCount := rfl
@[simp] theorem Tile.writeLanes_fcMode (t : Tile) (vd : Nat) (fmt : Format) (which : Nat → Bool) (out : Nat → LaneOut) : (t.writeLanes vd fmt which out).fcMode = t.fcMode := rfl
@[simp] theorem Tile.writeLanes_fcUnit (t : Tile) (vd : Nat) (fmt : Format) (which : Nat → Bool) (out : Nat → LaneOut) : (t.writeLanes vd fmt which out).fcUnit = t.fcUnit := rfl
@[simp] theorem Tile.writeLanes_fcCause (t : Tile) (vd : Nat) (fmt : Format) (which : Nat → Bool) (out : Nat → LaneOut) : (t.writeLanes vd fmt which out).fcCause = t.fcCause := rfl
@[simp] theorem Tile.writeLanes_fcPc (t : Tile) (vd : Nat) (fmt : Format) (which : Nat → Bool) (out : Nat → LaneOut) : (t.writeLanes vd fmt which out).fcPc = t.fcPc := rfl
@[simp] theorem Tile.writeLanes_fcAddr (t : Tile) (vd : Nat) (fmt : Format) (which : Nat → Bool) (out : Nat → LaneOut) : (t.writeLanes vd fmt which out).fcAddr = t.fcAddr := rfl
@[simp] theorem Tile.writeLanes_ceCount (t : Tile) (vd : Nat) (fmt : Format) (which : Nat → Bool) (out : Nat → LaneOut) : (t.writeLanes vd fmt which out).ceCount = t.ceCount := rfl
@[simp] theorem Tile.writeLanes_ceLast (t : Tile) (vd : Nat) (fmt : Format) (which : Nat → Bool) (out : Nat → LaneOut) : (t.writeLanes vd fmt which out).ceLast = t.ceLast := rfl
@[simp] theorem Tile.writeLanes_instret (t : Tile) (vd : Nat) (fmt : Format) (which : Nat → Bool) (out : Nat → LaneOut) : (t.writeLanes vd fmt which out).instret = t.instret := rfl
@[simp] theorem Tile.writeLanes_seq (t : Tile) (vd : Nat) (fmt : Format) (which : Nat → Bool) (out : Nat → LaneOut) : (t.writeLanes vd fmt which out).seq = t.seq := rfl
@[simp] theorem Tile.writeLanes_gPending (t : Tile) (vd : Nat) (fmt : Format) (which : Nat → Bool) (out : Nat → LaneOut) : (t.writeLanes vd fmt which out).gPending = t.gPending := rfl
@[simp] theorem Tile.writeLanes_mem (t : Tile) (vd : Nat) (fmt : Format) (which : Nat → Bool) (out : Nat → LaneOut) : (t.writeLanes vd fmt which out).mem = t.mem := rfl
@[simp] theorem Tile.writeLanes_scrubLine (t : Tile) (vd : Nat) (fmt : Format) (which : Nat → Bool) (out : Nat → LaneOut) : (t.writeLanes vd fmt which out).scrubLine = t.scrubLine := rfl
@[simp] theorem Tile.writeLanes_ceFound (t : Tile) (vd : Nat) (fmt : Format) (which : Nat → Bool) (out : Nat → LaneOut) : (t.writeLanes vd fmt which out).ceFound = t.ceFound := rfl
@[simp] theorem Tile.writeLanes_poseMem (t : Tile) (vd : Nat) (fmt : Format) (which : Nat → Bool) (out : Nat → LaneOut) : (t.writeLanes vd fmt which out).poseMem = t.poseMem := rfl
@[simp] theorem Tile.writeLanes_remote (t : Tile) (vd : Nat) (fmt : Format) (which : Nat → Bool) (out : Nat → LaneOut) : (t.writeLanes vd fmt which out).remote = t.remote := rfl
@[simp] theorem Tile.writeLanes_nextRef (t : Tile) (vd : Nat) (fmt : Format) (which : Nat → Bool) (out : Nat → LaneOut) : (t.writeLanes vd fmt which out).nextRef = t.nextRef := rfl
@[simp] theorem Tile.writeLanes_aBufs (t : Tile) (vd : Nat) (fmt : Format) (which : Nat → Bool) (out : Nat → LaneOut) : (t.writeLanes vd fmt which out).aBufs = t.aBufs := rfl
@[simp] theorem Tile.writeLanes_bBufs (t : Tile) (vd : Nat) (fmt : Format) (which : Nat → Bool) (out : Nat → LaneOut) : (t.writeLanes vd fmt which out).bBufs = t.bBufs := rfl
@[simp] theorem Tile.writeLanes_banks (t : Tile) (vd : Nat) (fmt : Format) (which : Nat → Bool) (out : Nat → LaneOut) : (t.writeLanes vd fmt which out).banks = t.banks := rfl
@[simp] theorem Tile.writeLanes_mxQueue (t : Tile) (vd : Nat) (fmt : Format) (which : Nat → Bool) (out : Nat → LaneOut) : (t.writeLanes vd fmt which out).mxQueue = t.mxQueue := rfl
@[simp] theorem Tile.writeLanes_plumbMode (t : Tile) (vd : Nat) (fmt : Format) (which : Nat → Bool) (out : Nat → LaneOut) : (t.writeLanes vd fmt which out).plumbMode = t.plumbMode := rfl
@[simp] theorem Tile.writeLanes_satMode (t : Tile) (vd : Nat) (fmt : Format) (which : Nat → Bool) (out : Nat → LaneOut) : (t.writeLanes vd fmt which out).satMode = t.satMode := rfl
@[simp] theorem Tile.writeLanes_mxFlags (t : Tile) (vd : Nat) (fmt : Format) (which : Nat → Bool) (out : Nat → LaneOut) : (t.writeLanes vd fmt which out).mxFlags = t.mxFlags := rfl
@[simp] theorem Tile.writeLanes_opIndex (t : Tile) (vd : Nat) (fmt : Format) (which : Nat → Bool) (out : Nat → LaneOut) : (t.writeLanes vd fmt which out).opIndex = t.opIndex := rfl
@[simp] theorem Tile.writeLanes_plumbLast (t : Tile) (vd : Nat) (fmt : Format) (which : Nat → Bool) (out : Nat → LaneOut) : (t.writeLanes vd fmt which out).plumbLast = t.plumbLast := rfl
@[simp] theorem Tile.writeLanes_plumbCount (t : Tile) (vd : Nat) (fmt : Format) (which : Nat → Bool) (out : Nat → LaneOut) : (t.writeLanes vd fmt which out).plumbCount = t.plumbCount := rfl
@[simp] theorem Tile.writeLanes_mregs (t : Tile) (vd : Nat) (fmt : Format) (which : Nat → Bool) (out : Nat → LaneOut) : (t.writeLanes vd fmt which out).mregs = t.mregs := rfl
@[simp] theorem Tile.writeLanes_vl (t : Tile) (vd : Nat) (fmt : Format) (which : Nat → Bool) (out : Nat → LaneOut) : (t.writeLanes vd fmt which out).vl = t.vl := rfl
@[simp] theorem Tile.writeLanes_vxQueue (t : Tile) (vd : Nat) (fmt : Format) (which : Nat → Bool) (out : Nat → LaneOut) : (t.writeLanes vd fmt which out).vxQueue = t.vxQueue := rfl
@[simp] theorem Tile.writeLanes_shape (t : Tile) (vd : Nat) (fmt : Format) (which : Nat → Bool) (out : Nat → LaneOut) : (t.writeLanes vd fmt which out).shape = t.shape := rfl
@[simp] theorem Tile.writeLanes_srBase (t : Tile) (vd : Nat) (fmt : Format) (which : Nat → Bool) (out : Nat → LaneOut) : (t.writeLanes vd fmt which out).srBase = t.srBase := rfl
@[simp] theorem Tile.writeLanes_srPass (t : Tile) (vd : Nat) (fmt : Format) (which : Nat → Bool) (out : Nat → LaneOut) : (t.writeLanes vd fmt which out).srPass = t.srPass := rfl
@[simp] theorem Tile.writeLanes_srKey (t : Tile) (vd : Nat) (fmt : Format) (which : Nat → Bool) (out : Nat → LaneOut) : (t.writeLanes vd fmt which out).srKey = t.srKey := rfl
@[simp] theorem Tile.writeLanes_tally (t : Tile) (vd : Nat) (fmt : Format) (which : Nat → Bool) (out : Nat → LaneOut) : (t.writeLanes vd fmt which out).tally = t.tally := rfl
@[simp] theorem Tile.writeLanes_queues (t : Tile) (vd : Nat) (fmt : Format) (which : Nat → Bool) (out : Nat → LaneOut) : (t.writeLanes vd fmt which out).queues = t.queues := rfl
@[simp] theorem Tile.writeLanes_outbound (t : Tile) (vd : Nat) (fmt : Format) (which : Nat → Bool) (out : Nat → LaneOut) : (t.writeLanes vd fmt which out).outbound = t.outbound := rfl
@[simp] theorem Tile.writeLanes_selectLast (t : Tile) (vd : Nat) (fmt : Format) (which : Nat → Bool) (out : Nat → LaneOut) : (t.writeLanes vd fmt which out).selectLast = t.selectLast := rfl
@[simp] theorem Tile.writeLanes_selectRotate (t : Tile) (vd : Nat) (fmt : Format) (which : Nat → Bool) (out : Nat → LaneOut) : (t.writeLanes vd fmt which out).selectRotate = t.selectRotate := rfl
@[simp] theorem Tile.writeLanes_waitBeats (t : Tile) (vd : Nat) (fmt : Format) (which : Nat → Bool) (out : Nat → LaneOut) : (t.writeLanes vd fmt which out).waitBeats = t.waitBeats := rfl
@[simp] theorem Tile.writeLanes_sendBeats (t : Tile) (vd : Nat) (fmt : Format) (which : Nat → Bool) (out : Nat → LaneOut) : (t.writeLanes vd fmt which out).sendBeats = t.sendBeats := rfl
@[simp] theorem Tile.writeLanes_syncs (t : Tile) (vd : Nat) (fmt : Format) (which : Nat → Bool) (out : Nat → LaneOut) : (t.writeLanes vd fmt which out).syncs = t.syncs := rfl
@[simp] theorem Tile.writeLanes_stopped (t : Tile) (vd : Nat) (fmt : Format) (which : Nat → Bool) (out : Nat → LaneOut) : (t.writeLanes vd fmt which out).stopped = t.stopped := rfl
@[simp] theorem Tile.writeLanes_slots (t : Tile) (vd : Nat) (fmt : Format) (which : Nat → Bool) (out : Nat → LaneOut) : (t.writeLanes vd fmt which out).slots = t.slots := rfl
@[simp] theorem Tile.writeLanes_inForce (t : Tile) (vd : Nat) (fmt : Format) (which : Nat → Bool) (out : Nat → LaneOut) : (t.writeLanes vd fmt which out).inForce = t.inForce := rfl
@[simp] theorem Tile.writeLanes_pendingSwitch (t : Tile) (vd : Nat) (fmt : Format) (which : Nat → Bool) (out : Nat → LaneOut) : (t.writeLanes vd fmt which out).pendingSwitch = t.pendingSwitch := rfl
@[simp] theorem Tile.writeLanes_ended (t : Tile) (vd : Nat) (fmt : Format) (which : Nat → Bool) (out : Nat → LaneOut) : (t.writeLanes vd fmt which out).ended = t.ended := rfl
@[simp] theorem Tile.writeLanes_loadRun (t : Tile) (vd : Nat) (fmt : Format) (which : Nat → Bool) (out : Nat → LaneOut) : (t.writeLanes vd fmt which out).loadRun = t.loadRun := rfl
@[simp] theorem Tile.writeLanes_loadQueue (t : Tile) (vd : Nat) (fmt : Format) (which : Nat → Bool) (out : Nat → LaneOut) : (t.writeLanes vd fmt which out).loadQueue = t.loadQueue := rfl
@[simp] theorem Tile.writeLanes_deadPorts (t : Tile) (vd : Nat) (fmt : Format) (which : Nat → Bool) (out : Nat → LaneOut) : (t.writeLanes vd fmt which out).deadPorts = t.deadPorts := rfl
@[simp] theorem Tile.writeLanes_detourA (t : Tile) (vd : Nat) (fmt : Format) (which : Nat → Bool) (out : Nat → LaneOut) : (t.writeLanes vd fmt which out).detourA = t.detourA := rfl
@[simp] theorem Tile.writeLanes_detourB (t : Tile) (vd : Nat) (fmt : Format) (which : Nat → Bool) (out : Nat → LaneOut) : (t.writeLanes vd fmt which out).detourB = t.detourB := rfl
@[simp] theorem Tile.writeLanes_merges (t : Tile) (vd : Nat) (fmt : Format) (which : Nat → Bool) (out : Nat → LaneOut) : (t.writeLanes vd fmt which out).merges = t.merges := rfl
@[simp] theorem Tile.writeLanes_leaves (t : Tile) (vd : Nat) (fmt : Format) (which : Nat → Bool) (out : Nat → LaneOut) : (t.writeLanes vd fmt which out).leaves = t.leaves := rfl
@[simp] theorem Tile.writeLanes_nodes (t : Tile) (vd : Nat) (fmt : Format) (which : Nat → Bool) (out : Nat → LaneOut) : (t.writeLanes vd fmt which out).nodes = t.nodes := rfl
@[simp] theorem Tile.writeLanes_srcBursts (t : Tile) (vd : Nat) (fmt : Format) (which : Nat → Bool) (out : Nat → LaneOut) : (t.writeLanes vd fmt which out).srcBursts = t.srcBursts := rfl
@[simp] theorem Tile.writeLanes_taps (t : Tile) (vd : Nat) (fmt : Format) (which : Nat → Bool) (out : Nat → LaneOut) : (t.writeLanes vd fmt which out).taps = t.taps := rfl
@[simp] theorem Tile.writeLanes_counters (t : Tile) (vd : Nat) (fmt : Format) (which : Nat → Bool) (out : Nat → LaneOut) : (t.writeLanes vd fmt which out).counters = t.counters := rfl
@[simp] theorem Tile.writeLanes_cntIdx (t : Tile) (vd : Nat) (fmt : Format) (which : Nat → Bool) (out : Nat → LaneOut) : (t.writeLanes vd fmt which out).cntIdx = t.cntIdx := rfl
@[simp] theorem Tile.writeLanes_thSel (t : Tile) (vd : Nat) (fmt : Format) (which : Nat → Bool) (out : Nat → LaneOut) : (t.writeLanes vd fmt which out).thSel = t.thSel := rfl
@[simp] theorem Tile.writeLanes_thresholds (t : Tile) (vd : Nat) (fmt : Format) (which : Nat → Bool) (out : Nat → LaneOut) : (t.writeLanes vd fmt which out).thresholds = t.thresholds := rfl
@[simp] theorem Tile.writeLanes_cntPsel (t : Tile) (vd : Nat) (fmt : Format) (which : Nat → Bool) (out : Nat → LaneOut) : (t.writeLanes vd fmt which out).cntPsel = t.cntPsel := rfl
@[simp] theorem Tile.writeLanes_raised (t : Tile) (vd : Nat) (fmt : Format) (which : Nat → Bool) (out : Nat → LaneOut) : (t.writeLanes vd fmt which out).raised = t.raised := rfl
@[simp] theorem Tile.writeLanes_inject (t : Tile) (vd : Nat) (fmt : Format) (which : Nat → Bool) (out : Nat → LaneOut) : (t.writeLanes vd fmt which out).inject = t.inject := rfl
@[simp] theorem Tile.enqueueVx_regs (t : Tile) (kind : VxKind) (f : VFields) : (t.enqueueVx kind f).regs = t.regs := rfl
@[simp] theorem Tile.enqueueVx_pc (t : Tile) (kind : VxKind) (f : VFields) : (t.enqueueVx kind f).pc = t.pc := rfl
@[simp] theorem Tile.enqueueVx_service (t : Tile) (kind : VxKind) (f : VFields) : (t.enqueueVx kind f).service = t.service := rfl
@[simp] theorem Tile.enqueueVx_parked (t : Tile) (kind : VxKind) (f : VFields) : (t.enqueueVx kind f).parked = t.parked := rfl
@[simp] theorem Tile.enqueueVx_wait (t : Tile) (kind : VxKind) (f : VFields) : (t.enqueueVx kind f).wait = t.wait := rfl
@[simp] theorem Tile.enqueueVx_protTop (t : Tile) (kind : VxKind) (f : VFields) : (t.enqueueVx kind f).protTop = t.protTop := rfl
@[simp] theorem Tile.enqueueVx_fcValid (t : Tile) (kind : VxKind) (f : VFields) : (t.enqueueVx kind f).fcValid = t.fcValid := rfl
@[simp] theorem Tile.enqueueVx_fcCount (t : Tile) (kind : VxKind) (f : VFields) : (t.enqueueVx kind f).fcCount = t.fcCount := rfl
@[simp] theorem Tile.enqueueVx_fcMode (t : Tile) (kind : VxKind) (f : VFields) : (t.enqueueVx kind f).fcMode = t.fcMode := rfl
@[simp] theorem Tile.enqueueVx_fcUnit (t : Tile) (kind : VxKind) (f : VFields) : (t.enqueueVx kind f).fcUnit = t.fcUnit := rfl
@[simp] theorem Tile.enqueueVx_fcCause (t : Tile) (kind : VxKind) (f : VFields) : (t.enqueueVx kind f).fcCause = t.fcCause := rfl
@[simp] theorem Tile.enqueueVx_fcPc (t : Tile) (kind : VxKind) (f : VFields) : (t.enqueueVx kind f).fcPc = t.fcPc := rfl
@[simp] theorem Tile.enqueueVx_fcAddr (t : Tile) (kind : VxKind) (f : VFields) : (t.enqueueVx kind f).fcAddr = t.fcAddr := rfl
@[simp] theorem Tile.enqueueVx_ceCount (t : Tile) (kind : VxKind) (f : VFields) : (t.enqueueVx kind f).ceCount = t.ceCount := rfl
@[simp] theorem Tile.enqueueVx_ceLast (t : Tile) (kind : VxKind) (f : VFields) : (t.enqueueVx kind f).ceLast = t.ceLast := rfl
@[simp] theorem Tile.enqueueVx_instret (t : Tile) (kind : VxKind) (f : VFields) : (t.enqueueVx kind f).instret = t.instret := rfl
@[simp] theorem Tile.enqueueVx_mem (t : Tile) (kind : VxKind) (f : VFields) : (t.enqueueVx kind f).mem = t.mem := rfl
@[simp] theorem Tile.enqueueVx_scrubLine (t : Tile) (kind : VxKind) (f : VFields) : (t.enqueueVx kind f).scrubLine = t.scrubLine := rfl
@[simp] theorem Tile.enqueueVx_ceFound (t : Tile) (kind : VxKind) (f : VFields) : (t.enqueueVx kind f).ceFound = t.ceFound := rfl
@[simp] theorem Tile.enqueueVx_poseMem (t : Tile) (kind : VxKind) (f : VFields) : (t.enqueueVx kind f).poseMem = t.poseMem := rfl
@[simp] theorem Tile.enqueueVx_remote (t : Tile) (kind : VxKind) (f : VFields) : (t.enqueueVx kind f).remote = t.remote := rfl
@[simp] theorem Tile.enqueueVx_nextRef (t : Tile) (kind : VxKind) (f : VFields) : (t.enqueueVx kind f).nextRef = t.nextRef := rfl
@[simp] theorem Tile.enqueueVx_aBufs (t : Tile) (kind : VxKind) (f : VFields) : (t.enqueueVx kind f).aBufs = t.aBufs := rfl
@[simp] theorem Tile.enqueueVx_bBufs (t : Tile) (kind : VxKind) (f : VFields) : (t.enqueueVx kind f).bBufs = t.bBufs := rfl
@[simp] theorem Tile.enqueueVx_banks (t : Tile) (kind : VxKind) (f : VFields) : (t.enqueueVx kind f).banks = t.banks := rfl
@[simp] theorem Tile.enqueueVx_mxQueue (t : Tile) (kind : VxKind) (f : VFields) : (t.enqueueVx kind f).mxQueue = t.mxQueue := rfl
@[simp] theorem Tile.enqueueVx_plumbMode (t : Tile) (kind : VxKind) (f : VFields) : (t.enqueueVx kind f).plumbMode = t.plumbMode := rfl
@[simp] theorem Tile.enqueueVx_satMode (t : Tile) (kind : VxKind) (f : VFields) : (t.enqueueVx kind f).satMode = t.satMode := rfl
@[simp] theorem Tile.enqueueVx_mxFlags (t : Tile) (kind : VxKind) (f : VFields) : (t.enqueueVx kind f).mxFlags = t.mxFlags := rfl
@[simp] theorem Tile.enqueueVx_opIndex (t : Tile) (kind : VxKind) (f : VFields) : (t.enqueueVx kind f).opIndex = t.opIndex := rfl
@[simp] theorem Tile.enqueueVx_plumbLast (t : Tile) (kind : VxKind) (f : VFields) : (t.enqueueVx kind f).plumbLast = t.plumbLast := rfl
@[simp] theorem Tile.enqueueVx_plumbCount (t : Tile) (kind : VxKind) (f : VFields) : (t.enqueueVx kind f).plumbCount = t.plumbCount := rfl
@[simp] theorem Tile.enqueueVx_vregs (t : Tile) (kind : VxKind) (f : VFields) : (t.enqueueVx kind f).vregs = t.vregs := rfl
@[simp] theorem Tile.enqueueVx_mregs (t : Tile) (kind : VxKind) (f : VFields) : (t.enqueueVx kind f).mregs = t.mregs := rfl
@[simp] theorem Tile.enqueueVx_vl (t : Tile) (kind : VxKind) (f : VFields) : (t.enqueueVx kind f).vl = t.vl := rfl
@[simp] theorem Tile.enqueueVx_shape (t : Tile) (kind : VxKind) (f : VFields) : (t.enqueueVx kind f).shape = t.shape := rfl
@[simp] theorem Tile.enqueueVx_vxFlags (t : Tile) (kind : VxKind) (f : VFields) : (t.enqueueVx kind f).vxFlags = t.vxFlags := rfl
@[simp] theorem Tile.enqueueVx_srBase (t : Tile) (kind : VxKind) (f : VFields) : (t.enqueueVx kind f).srBase = t.srBase := rfl
@[simp] theorem Tile.enqueueVx_srPass (t : Tile) (kind : VxKind) (f : VFields) : (t.enqueueVx kind f).srPass = t.srPass := rfl
@[simp] theorem Tile.enqueueVx_srKey (t : Tile) (kind : VxKind) (f : VFields) : (t.enqueueVx kind f).srKey = t.srKey := rfl
@[simp] theorem Tile.enqueueVx_tally (t : Tile) (kind : VxKind) (f : VFields) : (t.enqueueVx kind f).tally = t.tally := rfl
@[simp] theorem Tile.enqueueVx_queues (t : Tile) (kind : VxKind) (f : VFields) : (t.enqueueVx kind f).queues = t.queues := rfl
@[simp] theorem Tile.enqueueVx_outbound (t : Tile) (kind : VxKind) (f : VFields) : (t.enqueueVx kind f).outbound = t.outbound := rfl
@[simp] theorem Tile.enqueueVx_selectLast (t : Tile) (kind : VxKind) (f : VFields) : (t.enqueueVx kind f).selectLast = t.selectLast := rfl
@[simp] theorem Tile.enqueueVx_selectRotate (t : Tile) (kind : VxKind) (f : VFields) : (t.enqueueVx kind f).selectRotate = t.selectRotate := rfl
@[simp] theorem Tile.enqueueVx_waitBeats (t : Tile) (kind : VxKind) (f : VFields) : (t.enqueueVx kind f).waitBeats = t.waitBeats := rfl
@[simp] theorem Tile.enqueueVx_sendBeats (t : Tile) (kind : VxKind) (f : VFields) : (t.enqueueVx kind f).sendBeats = t.sendBeats := rfl
@[simp] theorem Tile.enqueueVx_syncs (t : Tile) (kind : VxKind) (f : VFields) : (t.enqueueVx kind f).syncs = t.syncs := rfl
@[simp] theorem Tile.enqueueVx_stopped (t : Tile) (kind : VxKind) (f : VFields) : (t.enqueueVx kind f).stopped = t.stopped := rfl
@[simp] theorem Tile.enqueueVx_slots (t : Tile) (kind : VxKind) (f : VFields) : (t.enqueueVx kind f).slots = t.slots := rfl
@[simp] theorem Tile.enqueueVx_inForce (t : Tile) (kind : VxKind) (f : VFields) : (t.enqueueVx kind f).inForce = t.inForce := rfl
@[simp] theorem Tile.enqueueVx_pendingSwitch (t : Tile) (kind : VxKind) (f : VFields) : (t.enqueueVx kind f).pendingSwitch = t.pendingSwitch := rfl
@[simp] theorem Tile.enqueueVx_ended (t : Tile) (kind : VxKind) (f : VFields) : (t.enqueueVx kind f).ended = t.ended := rfl
@[simp] theorem Tile.enqueueVx_loadRun (t : Tile) (kind : VxKind) (f : VFields) : (t.enqueueVx kind f).loadRun = t.loadRun := rfl
@[simp] theorem Tile.enqueueVx_loadQueue (t : Tile) (kind : VxKind) (f : VFields) : (t.enqueueVx kind f).loadQueue = t.loadQueue := rfl
@[simp] theorem Tile.enqueueVx_deadPorts (t : Tile) (kind : VxKind) (f : VFields) : (t.enqueueVx kind f).deadPorts = t.deadPorts := rfl
@[simp] theorem Tile.enqueueVx_detourA (t : Tile) (kind : VxKind) (f : VFields) : (t.enqueueVx kind f).detourA = t.detourA := rfl
@[simp] theorem Tile.enqueueVx_detourB (t : Tile) (kind : VxKind) (f : VFields) : (t.enqueueVx kind f).detourB = t.detourB := rfl
@[simp] theorem Tile.enqueueVx_merges (t : Tile) (kind : VxKind) (f : VFields) : (t.enqueueVx kind f).merges = t.merges := rfl
@[simp] theorem Tile.enqueueVx_leaves (t : Tile) (kind : VxKind) (f : VFields) : (t.enqueueVx kind f).leaves = t.leaves := rfl
@[simp] theorem Tile.enqueueVx_nodes (t : Tile) (kind : VxKind) (f : VFields) : (t.enqueueVx kind f).nodes = t.nodes := rfl
@[simp] theorem Tile.enqueueVx_srcBursts (t : Tile) (kind : VxKind) (f : VFields) : (t.enqueueVx kind f).srcBursts = t.srcBursts := rfl
@[simp] theorem Tile.enqueueVx_taps (t : Tile) (kind : VxKind) (f : VFields) : (t.enqueueVx kind f).taps = t.taps := rfl
@[simp] theorem Tile.enqueueVx_counters (t : Tile) (kind : VxKind) (f : VFields) : (t.enqueueVx kind f).counters = t.counters := rfl
@[simp] theorem Tile.enqueueVx_cntIdx (t : Tile) (kind : VxKind) (f : VFields) : (t.enqueueVx kind f).cntIdx = t.cntIdx := rfl
@[simp] theorem Tile.enqueueVx_thSel (t : Tile) (kind : VxKind) (f : VFields) : (t.enqueueVx kind f).thSel = t.thSel := rfl
@[simp] theorem Tile.enqueueVx_thresholds (t : Tile) (kind : VxKind) (f : VFields) : (t.enqueueVx kind f).thresholds = t.thresholds := rfl
@[simp] theorem Tile.enqueueVx_cntPsel (t : Tile) (kind : VxKind) (f : VFields) : (t.enqueueVx kind f).cntPsel = t.cntPsel := rfl
@[simp] theorem Tile.enqueueVx_raised (t : Tile) (kind : VxKind) (f : VFields) : (t.enqueueVx kind f).raised = t.raised := rfl
@[simp] theorem Tile.enqueueVx_inject (t : Tile) (kind : VxKind) (f : VFields) : (t.enqueueVx kind f).inject = t.inject := rfl
@[simp] theorem Tile.count_regs (t : Tile) (i n : Nat) : (t.count i n).regs = t.regs := by unfold Tile.count; split <;> rfl
@[simp] theorem Tile.count_pc (t : Tile) (i n : Nat) : (t.count i n).pc = t.pc := by unfold Tile.count; split <;> rfl
@[simp] theorem Tile.count_service (t : Tile) (i n : Nat) : (t.count i n).service = t.service := by unfold Tile.count; split <;> rfl
@[simp] theorem Tile.count_parked (t : Tile) (i n : Nat) : (t.count i n).parked = t.parked := by unfold Tile.count; split <;> rfl
@[simp] theorem Tile.count_wait (t : Tile) (i n : Nat) : (t.count i n).wait = t.wait := by unfold Tile.count; split <;> rfl
@[simp] theorem Tile.count_protTop (t : Tile) (i n : Nat) : (t.count i n).protTop = t.protTop := by unfold Tile.count; split <;> rfl
@[simp] theorem Tile.count_fcValid (t : Tile) (i n : Nat) : (t.count i n).fcValid = t.fcValid := by unfold Tile.count; split <;> rfl
@[simp] theorem Tile.count_fcCount (t : Tile) (i n : Nat) : (t.count i n).fcCount = t.fcCount := by unfold Tile.count; split <;> rfl
@[simp] theorem Tile.count_fcMode (t : Tile) (i n : Nat) : (t.count i n).fcMode = t.fcMode := by unfold Tile.count; split <;> rfl
@[simp] theorem Tile.count_fcUnit (t : Tile) (i n : Nat) : (t.count i n).fcUnit = t.fcUnit := by unfold Tile.count; split <;> rfl
@[simp] theorem Tile.count_fcCause (t : Tile) (i n : Nat) : (t.count i n).fcCause = t.fcCause := by unfold Tile.count; split <;> rfl
@[simp] theorem Tile.count_fcPc (t : Tile) (i n : Nat) : (t.count i n).fcPc = t.fcPc := by unfold Tile.count; split <;> rfl
@[simp] theorem Tile.count_fcAddr (t : Tile) (i n : Nat) : (t.count i n).fcAddr = t.fcAddr := by unfold Tile.count; split <;> rfl
@[simp] theorem Tile.count_ceCount (t : Tile) (i n : Nat) : (t.count i n).ceCount = t.ceCount := by unfold Tile.count; split <;> rfl
@[simp] theorem Tile.count_ceLast (t : Tile) (i n : Nat) : (t.count i n).ceLast = t.ceLast := by unfold Tile.count; split <;> rfl
@[simp] theorem Tile.count_instret (t : Tile) (i n : Nat) : (t.count i n).instret = t.instret := by unfold Tile.count; split <;> rfl
@[simp] theorem Tile.count_seq (t : Tile) (i n : Nat) : (t.count i n).seq = t.seq := by unfold Tile.count; split <;> rfl
@[simp] theorem Tile.count_gPending (t : Tile) (i n : Nat) : (t.count i n).gPending = t.gPending := by unfold Tile.count; split <;> rfl
@[simp] theorem Tile.count_mem (t : Tile) (i n : Nat) : (t.count i n).mem = t.mem := by unfold Tile.count; split <;> rfl
@[simp] theorem Tile.count_scrubLine (t : Tile) (i n : Nat) : (t.count i n).scrubLine = t.scrubLine := by unfold Tile.count; split <;> rfl
@[simp] theorem Tile.count_ceFound (t : Tile) (i n : Nat) : (t.count i n).ceFound = t.ceFound := by unfold Tile.count; split <;> rfl
@[simp] theorem Tile.count_poseMem (t : Tile) (i n : Nat) : (t.count i n).poseMem = t.poseMem := by unfold Tile.count; split <;> rfl
@[simp] theorem Tile.count_remote (t : Tile) (i n : Nat) : (t.count i n).remote = t.remote := by unfold Tile.count; split <;> rfl
@[simp] theorem Tile.count_nextRef (t : Tile) (i n : Nat) : (t.count i n).nextRef = t.nextRef := by unfold Tile.count; split <;> rfl
@[simp] theorem Tile.count_aBufs (t : Tile) (i n : Nat) : (t.count i n).aBufs = t.aBufs := by unfold Tile.count; split <;> rfl
@[simp] theorem Tile.count_bBufs (t : Tile) (i n : Nat) : (t.count i n).bBufs = t.bBufs := by unfold Tile.count; split <;> rfl
@[simp] theorem Tile.count_banks (t : Tile) (i n : Nat) : (t.count i n).banks = t.banks := by unfold Tile.count; split <;> rfl
@[simp] theorem Tile.count_mxQueue (t : Tile) (i n : Nat) : (t.count i n).mxQueue = t.mxQueue := by unfold Tile.count; split <;> rfl
@[simp] theorem Tile.count_plumbMode (t : Tile) (i n : Nat) : (t.count i n).plumbMode = t.plumbMode := by unfold Tile.count; split <;> rfl
@[simp] theorem Tile.count_satMode (t : Tile) (i n : Nat) : (t.count i n).satMode = t.satMode := by unfold Tile.count; split <;> rfl
@[simp] theorem Tile.count_mxFlags (t : Tile) (i n : Nat) : (t.count i n).mxFlags = t.mxFlags := by unfold Tile.count; split <;> rfl
@[simp] theorem Tile.count_opIndex (t : Tile) (i n : Nat) : (t.count i n).opIndex = t.opIndex := by unfold Tile.count; split <;> rfl
@[simp] theorem Tile.count_plumbLast (t : Tile) (i n : Nat) : (t.count i n).plumbLast = t.plumbLast := by unfold Tile.count; split <;> rfl
@[simp] theorem Tile.count_plumbCount (t : Tile) (i n : Nat) : (t.count i n).plumbCount = t.plumbCount := by unfold Tile.count; split <;> rfl
@[simp] theorem Tile.count_vregs (t : Tile) (i n : Nat) : (t.count i n).vregs = t.vregs := by unfold Tile.count; split <;> rfl
@[simp] theorem Tile.count_mregs (t : Tile) (i n : Nat) : (t.count i n).mregs = t.mregs := by unfold Tile.count; split <;> rfl
@[simp] theorem Tile.count_vl (t : Tile) (i n : Nat) : (t.count i n).vl = t.vl := by unfold Tile.count; split <;> rfl
@[simp] theorem Tile.count_vxQueue (t : Tile) (i n : Nat) : (t.count i n).vxQueue = t.vxQueue := by unfold Tile.count; split <;> rfl
@[simp] theorem Tile.count_shape (t : Tile) (i n : Nat) : (t.count i n).shape = t.shape := by unfold Tile.count; split <;> rfl
@[simp] theorem Tile.count_vxFlags (t : Tile) (i n : Nat) : (t.count i n).vxFlags = t.vxFlags := by unfold Tile.count; split <;> rfl
@[simp] theorem Tile.count_srBase (t : Tile) (i n : Nat) : (t.count i n).srBase = t.srBase := by unfold Tile.count; split <;> rfl
@[simp] theorem Tile.count_srPass (t : Tile) (i n : Nat) : (t.count i n).srPass = t.srPass := by unfold Tile.count; split <;> rfl
@[simp] theorem Tile.count_srKey (t : Tile) (i n : Nat) : (t.count i n).srKey = t.srKey := by unfold Tile.count; split <;> rfl
@[simp] theorem Tile.count_tally (t : Tile) (i n : Nat) : (t.count i n).tally = t.tally := by unfold Tile.count; split <;> rfl
@[simp] theorem Tile.count_queues (t : Tile) (i n : Nat) : (t.count i n).queues = t.queues := by unfold Tile.count; split <;> rfl
@[simp] theorem Tile.count_outbound (t : Tile) (i n : Nat) : (t.count i n).outbound = t.outbound := by unfold Tile.count; split <;> rfl
@[simp] theorem Tile.count_selectLast (t : Tile) (i n : Nat) : (t.count i n).selectLast = t.selectLast := by unfold Tile.count; split <;> rfl
@[simp] theorem Tile.count_selectRotate (t : Tile) (i n : Nat) : (t.count i n).selectRotate = t.selectRotate := by unfold Tile.count; split <;> rfl
@[simp] theorem Tile.count_waitBeats (t : Tile) (i n : Nat) : (t.count i n).waitBeats = t.waitBeats := by unfold Tile.count; split <;> rfl
@[simp] theorem Tile.count_sendBeats (t : Tile) (i n : Nat) : (t.count i n).sendBeats = t.sendBeats := by unfold Tile.count; split <;> rfl
@[simp] theorem Tile.count_syncs (t : Tile) (i n : Nat) : (t.count i n).syncs = t.syncs := by unfold Tile.count; split <;> rfl
@[simp] theorem Tile.count_stopped (t : Tile) (i n : Nat) : (t.count i n).stopped = t.stopped := by unfold Tile.count; split <;> rfl
@[simp] theorem Tile.count_slots (t : Tile) (i n : Nat) : (t.count i n).slots = t.slots := by unfold Tile.count; split <;> rfl
@[simp] theorem Tile.count_inForce (t : Tile) (i n : Nat) : (t.count i n).inForce = t.inForce := by unfold Tile.count; split <;> rfl
@[simp] theorem Tile.count_pendingSwitch (t : Tile) (i n : Nat) : (t.count i n).pendingSwitch = t.pendingSwitch := by unfold Tile.count; split <;> rfl
@[simp] theorem Tile.count_ended (t : Tile) (i n : Nat) : (t.count i n).ended = t.ended := by unfold Tile.count; split <;> rfl
@[simp] theorem Tile.count_loadRun (t : Tile) (i n : Nat) : (t.count i n).loadRun = t.loadRun := by unfold Tile.count; split <;> rfl
@[simp] theorem Tile.count_loadQueue (t : Tile) (i n : Nat) : (t.count i n).loadQueue = t.loadQueue := by unfold Tile.count; split <;> rfl
@[simp] theorem Tile.count_deadPorts (t : Tile) (i n : Nat) : (t.count i n).deadPorts = t.deadPorts := by unfold Tile.count; split <;> rfl
@[simp] theorem Tile.count_detourA (t : Tile) (i n : Nat) : (t.count i n).detourA = t.detourA := by unfold Tile.count; split <;> rfl
@[simp] theorem Tile.count_detourB (t : Tile) (i n : Nat) : (t.count i n).detourB = t.detourB := by unfold Tile.count; split <;> rfl
@[simp] theorem Tile.count_merges (t : Tile) (i n : Nat) : (t.count i n).merges = t.merges := by unfold Tile.count; split <;> rfl
@[simp] theorem Tile.count_leaves (t : Tile) (i n : Nat) : (t.count i n).leaves = t.leaves := by unfold Tile.count; split <;> rfl
@[simp] theorem Tile.count_nodes (t : Tile) (i n : Nat) : (t.count i n).nodes = t.nodes := by unfold Tile.count; split <;> rfl
@[simp] theorem Tile.count_srcBursts (t : Tile) (i n : Nat) : (t.count i n).srcBursts = t.srcBursts := by unfold Tile.count; split <;> rfl
@[simp] theorem Tile.count_taps (t : Tile) (i n : Nat) : (t.count i n).taps = t.taps := by unfold Tile.count; split <;> rfl
@[simp] theorem Tile.count_cntIdx (t : Tile) (i n : Nat) : (t.count i n).cntIdx = t.cntIdx := by unfold Tile.count; split <;> rfl
@[simp] theorem Tile.count_thSel (t : Tile) (i n : Nat) : (t.count i n).thSel = t.thSel := by unfold Tile.count; split <;> rfl
@[simp] theorem Tile.count_thresholds (t : Tile) (i n : Nat) : (t.count i n).thresholds = t.thresholds := by unfold Tile.count; split <;> rfl
@[simp] theorem Tile.count_cntPsel (t : Tile) (i n : Nat) : (t.count i n).cntPsel = t.cntPsel := by unfold Tile.count; split <;> rfl
@[simp] theorem Tile.count_raised (t : Tile) (i n : Nat) : (t.count i n).raised = t.raised := by unfold Tile.count; split <;> rfl
@[simp] theorem Tile.count_inject (t : Tile) (i n : Nat) : (t.count i n).inject = t.inject := by unfold Tile.count; split <;> rfl
@[simp] theorem Tile.count_fetchBuf (t : Tile) (i n : Nat) : (t.count i n).fetchBuf = t.fetchBuf := by unfold Tile.count; split <;> rfl
@[simp] theorem Tile.count_stuckAt (t : Tile) (i n : Nat) : (t.count i n).stuckAt = t.stuckAt := by unfold Tile.count; split <;> rfl

/-- A vector instruction that its engine starts at once and completes. -/
theorem vxIssue_now {k : TileIx} {i : Instr} {kind : VxKind} {f : VFields} {s : State} (h : s.atVector k i (vxReads kind f))
    (hk : kind ≠ .tally) (hc : vxIssueCause kind f (s.fetched k) = none) (t' : Tile)
    (hr : checkedVx s k ((s.fetched k).enqueueVx kind f) (vxEntry kind f (s.fetched k)) = .done t') :
    vxIssue k i true kind f s = .next (s.retires k (({ t' with vxQueue := [] } : Tile).count 5 1)) := by
  obtain ⟨h1, h2, h3⟩ := h
  unfold vxIssue
  refine issue_retire h1 _ ?_
  have hq : ((s.fetched k).enqueueVx kind f).vxQueue = [vxEntry kind f (s.fetched k)] := by
    simp [Tile.enqueueVx, h2]
  have hm : ((s.fetched k).enqueueVx kind f).mxQueue = [] := h3
  have hready : ((s.fetched k).enqueueVx kind f).vxReady (vxEntry kind f (s.fetched k)) = true := by
    unfold Tile.vxReady
    rw [hm]
    simp only [List.any_nil]
    cases kind <;> simp [vxEntry]
  have hstart : s.startVx k ((s.fetched k).enqueueVx kind f)
      = some (({ t' with vxQueue := [] } : Tile).count 5 1) := by
    unfold State.startVx
    rw [hq]
    dsimp only
    rw [hready, hr]
    have : ((vxEntry kind f (s.fetched k)).kind == VxKind.tally) = false := by
      show (kind == VxKind.tally) = false
      simpa using hk
    simp [this]
  simp only [hc, h2, hstart]
  simp

end Sys2Proof.Machine
end

