-- ==== Sys2Proof/Tests/Slice0.lean ====
section
/-! SUPPORT. Tests: operands outside their row, states that meet the premises of every statement together, and single steps
whose results the specification gives. -/

set_option Elab.async false

namespace Sys2Proof.Tests

open Sys2Proof Sys2Proof.Machine

/-! ## Small states -/

/-- A module with region 0 active for paddock 1. -/
abbrev base : State :=
  { State.reset with regions := [(0, { state := .active, owner := 1 })], paddocks := [(1, { live := true, w := 1, h := 1 })] }

/-- That module with one tile in a given state. -/
abbrev core (t : Tile) : State := base.setTile 0 t

/-- A tile whose core runs in SERVICE mode. -/
abbrev tile0 : Tile := { parked := false }

/-- A tile whose core runs in PROGRAM mode with 4 KiB of protected memory. -/
abbrev prog : Tile := { parked := false, service := false, protTop := 1 }

/-- A tile's register 1 set. -/
abbrev withR1 (t : Tile) (g : GReg) : Tile := t.setReg 1 g

/-- A tile at program counter 0 with an instruction's word there. -/
abbrev holding (i : Instr) (t : Tile) : Tile := { t with mem := [(0, { val := (i.tileWord.getD 0).setWidth 64 })] }

/-- The module with a tile whose core is at an instruction. -/
abbrev coreAt (i : Instr) (t : Tile) : State := core (holding i t)

/-- Whether a command answers a next state that passes a check. -/
def leads (o : Host.Outcome State Fault Refusal) (check : State → Bool) : Bool := match o with | .next s => check s | _ => false

/-! ## Decoding: the table gives no bits -/

theorem test_no_word_spells_a_command : decodeTableWord 32 0x12345678 = none := rfl

/-! ## Instruction words, bit by bit (03, Tables 3.2 and 3.3; 04, Table 4.4; 06, Table 6.4; 07, Table 7.3; 08, Table 8.3) -/

theorem test_word_of_zeros_is_add : tileInstr 0 false 0 = .baseRegisterAlu 0 0 0 0 0 := by decide +kernel
theorem test_word_of_sub : tileInstr 0 false (0b000000#6 ++ 0b00011#5 ++ 0b00001#5 ++ 0b00010#5 ++ 0b00000000001#11)
    = .baseRegisterAlu 0 3 1 2 1 := by decide +kernel
theorem test_word_of_addi : tileInstr 0 false (0b000001#6 ++ 0b00010#5 ++ 0b00001#5 ++ 0xFFFF#16) = .gAddi 0 2 1 0xFFFF := by
  decide +kernel
theorem test_word_of_branch : tileInstr 0 false (0b001110#6 ++ 0b00100#5 ++ 0b00101#5 ++ 0x0010#16) = .branch 0 .geu 4 5 0x10 := by
  decide +kernel
theorem test_word_of_load : tileInstr 0 false (0b010110#6 ++ 0b00110#5 ++ 0b00111#5 ++ 0x0008#16) = .ld 0 .ld8s 6 7 8 := by
  decide +kernel
theorem test_word_of_store : tileInstr 0 false (0b011000#6 ++ 0b00110#5 ++ 0b00111#5 ++ 0x0008#16) = .st 0 .st64 6 7 8 := by
  decide +kernel
theorem test_word_of_get : tileInstr 0 false (0b011100#6 ++ 0b00001#5 ++ 0b00010#5 ++ 0b00011#5 ++ 0b00000010101#11)
    = .rGet 0 1 2 3 0x15 := by decide +kernel
theorem test_word_of_cxchg : tileInstr 0 false (0b111001#6 ++ 0b00001#5 ++ 0b00010#5 ++ 0x00E2#16) = .cXchg 0 1 2 0xE2 := by
  decide +kernel
theorem test_word_of_send : tileInstr 0 false (0b100000#6 ++ 0b00000#5 ++ 0b00001#5 ++ 0b11111#5 ++ 0b00001#5 ++ 0b000011#6)
    = .qTrysend 0 { rd := 0, rs1 := 1, qs := 31, flags := 3 } := by decide +kernel
theorem test_word_of_matrix : tileInstr 0 false (0b100101#6 ++ 0b00001#5 ++ 0b00010#5 ++ 0b00011#5 ++ 0b0100#4 ++ 0b101#3 ++ 0b0001#4)
    = .mxMmv 0 { vd := 1, vs1 := 2, vs2 := 3, fmt := 4, mask := 5 } := by decide +kernel
theorem test_word_of_quant : tileInstr 0 true (0b101010#6 ++ 0b00001#5 ++ 0b00010#5 ++ 0b00011#5 ++ 0b0100#4 ++ 0b101#3 ++ 0b1101#4)
    = .vxQuant 0 true true false true { vd := 1, vs1 := 2, vs2 := 3, fmt := 4, mask := 5 } := by decide +kernel
theorem test_word_of_pose_yield : tileInstr 0 false (0b110100#6 ++ 0b00000#5 ++ 0b00000#5 ++ 0b00000#5 ++ 0b00001#5 ++ 0b000000#6)
    = .poseYield 0 { rd := 0, rs1 := 0, qs := 0, flags := 0 } := by decide +kernel
theorem test_reserved_words : tileInstr 0 false 0xFC000000 = .reservedMajorOpcode 0 0xFC000000
    ∧ tileInstr 0 false 0x80000200 = .reservedMajorOpcode 0 0x80000200 := by decide +kernel

/-! ## Operands outside their row -/

theorem test_outside_reservedMajorOpcode : (Instr.reservedMajorOpcode 0 0).wellFormed = false := by decide +kernel
theorem test_outside_bar2Write : (Instr.bar2Write (2 ^ 34) [0]).wellFormed = false := by decide +kernel
theorem test_outside_patinaWrite : (Instr.patinaWrite 11).wellFormed = false ∧ (Instr.patinaWrite 0).wellFormed = false := by
  decide +kernel
theorem test_outside_ledgerPeriod : (Instr.ledgerPeriod [1]).wellFormed = false := by decide +kernel
theorem test_outside_remoteChannelMsg : (Instr.remoteChannelMsg 0 32 0 []).wellFormed = false := by decide +kernel
theorem test_outside_errorReport : (Instr.errorReport (some (frameReport 0 0x0999 0 0 0))).wellFormed = false := by decide +kernel
theorem test_outside_is_turned_away : leads (exec (.patinaWrite 11) base) (fun s => decide (s = base)) = true := by decide +kernel
theorem test_wellFormed_boundaries :
    (Instr.patinaWrite 10).wellFormed = true ∧ (Instr.patinaWrite 1).wellFormed = true
      ∧ (Instr.remoteChannelMsg 0 31 65535 [(0, false), (0, false)]).wellFormed = true
      ∧ (Instr.reservedMajorOpcode 0 0xFC000000).wellFormed = true := by decide +kernel
theorem test_beyond_local_memory_no_writeback : leads (exec (.ceWriteback 0 24576) base) (fun s => decide (s = base)) = true := by decide +kernel
theorem test_no_site_16_in_the_far_tier : leads (exec (.siteMigrationStart true 16) base) (fun s => decide (s = base)) = true := by decide +kernel

/-! ## The tile core: the premises of its statements -/

theorem test_premises_CoreImmediates :
    (coreAt (.gAddi 0 2 1 7) tile0).atInsn 0 (.gAddi 0 2 1 7) [1]
      ∧ (coreAt (.gLogicImm 0 .andi 2 1 7) tile0).atInsn 0 (.gLogicImm 0 .andi 2 1 7) [1]
      ∧ (coreAt (.gLogicImm 0 .ori 2 1 7) tile0).atInsn 0 (.gLogicImm 0 .ori 2 1 7) [1]
      ∧ (coreAt (.gLogicImm 0 .xori 2 1 7) tile0).atInsn 0 (.gLogicImm 0 .xori 2 1 7) [1]
      ∧ (coreAt (.gLhi 0 2 1 7) tile0).atInsn 0 (.gLhi 0 2 1 7) [1]
      ∧ (coreAt (.gLti 0 true 2 1 7) tile0).atInsn 0 (.gLti 0 true 2 1 7) [1]
      ∧ (coreAt (.gLti 0 false 2 1 7) tile0).atInsn 0 (.gLti 0 false 2 1 7) [1]
      ∧ (coreAt (.gShi 0 2 1 63) tile0).atInsn 0 (.gShi 0 2 1 63) [1]
      ∧ (coreAt (.gShi 0 2 1 64) tile0).atInsn 0 (.gShi 0 2 1 64) [1]
      ∧ (coreAt (.gShi 0 2 1 191) tile0).atInsn 0 (.gShi 0 2 1 191) [1]
      ∧ (coreAt (.gShi 0 2 1 255) tile0).atInsn 0 (.gShi 0 2 1 255) [1]
      ∧ (coreAt (.gShi 0 2 1 0x100) tile0).atInsn 0 (.gShi 0 2 1 0x100) [1]
      ∧ (0x100#16).toNat / 256 ≠ 0 ∧ (63#16).toNat < 64 ∧ (64#16).toNat / 64 = 1
      ∧ (191#16).toNat / 64 = 2 ∧ (255#16).toNat / 64 = 3 := by decide +kernel

theorem test_premises_CoreAlu :
    (coreAt (.baseRegisterAlu 0 3 1 0 0) tile0).atInsn 0 (.baseRegisterAlu 0 3 1 0 0) [1, 0]
      ∧ (coreAt (.baseRegisterAlu 0 3 1 0 0x020) tile0).atInsn 0 (.baseRegisterAlu 0 3 1 0 0x020) [1, 0]
      ∧ (coreAt (.baseRegisterAlu 0 3 1 0 0x017) tile0).atInsn 0 (.baseRegisterAlu 0 3 1 0 0x017) [1, 0]
      ∧ (coreAt (.baseRegisterAlu 0 3 1 0 0x7FF) tile0).atInsn 0 (.baseRegisterAlu 0 3 1 0 0x7FF) [1, 0]
      ∧ (coreAt (.baseRegisterAlu 0 3 1 2 0x023) tile0).atInsn 0 (.baseRegisterAlu 0 3 1 2 0x023) [1, 2]
      ∧ (0x017#11).toNat < 0x018 ∧ 0x024 ≤ (0x7FF#11).toNat := by
  decide +kernel

theorem test_premises_AluMeansArithmetic :
    let t := tile0.setReg 2 { val := 7 }
    let s := coreAt (.baseRegisterAlu 0 1 2 3 0x018) t
    let s' := coreAt (.baseRegisterAlu 0 1 2 3 0x01A) t
    s.atInsn 0 (.baseRegisterAlu 0 1 2 3 0x018) [2, 3] ∧ s'.atInsn 0 (.baseRegisterAlu 0 1 2 3 0x01A) [2, 3]
      ∧ ((s.fetched 0).reg 2).poison = false ∧ ((s'.fetched 0).reg 2).val = ((s.fetched 0).reg 2).val
      ∧ leads (exec (.baseRegisterAlu 0 1 2 3 0x018) s) (fun _ => true) = true
      ∧ leads (exec (.baseRegisterAlu 0 1 2 3 0x01A) s') (fun _ => true) = true := by decide +kernel

theorem test_premises_CoreBranches :
    let odd := coreAt (.jReg 0 2 1 0) (withR1 prog { val := 2 })
    let s := coreAt (.jReg 0 2 1 3) prog
    (∀ op ∈ [BrOp.eq, .ne, .lt, .ge, .ltu, .geu], let b := coreAt (.branch 0 op 1 2 3) prog
        b.atInsn 0 (.branch 0 op 1 2 3) [1, 2] ∧ ((b.fetched 0).reg 1).mark = false ∧ ((b.fetched 0).reg 1).poison = false)
      ∧ (coreAt (.jLink 0 2 0 3) prog).atInsn 0 (.jLink 0 2 0 3) [] ∧ (coreAt (.jLink 0 2 1 3) prog).atInsn 0 (.jLink 0 2 1 3) []
      ∧ odd.atInsn 0 (.jReg 0 2 1 0) [1] ∧ (((odd.fetched 0).reg 1).val + (0#16).signExtend 64 * 4).toNat % 4 ≠ 0
      ∧ s.atInsn 0 (.jReg 0 2 1 3) [1] ∧ (((s.fetched 0).reg 1).val + (3#16).signExtend 64 * 4).toNat % 4 = 0
      ∧ ((s.fetched 0).reg 1).mark = false ∧ ((s.fetched 0).reg 1).poison = false := by decide +kernel

theorem test_premises_MarkedControlFaults :
    let marked := withR1 prog { val := 8, mark := true }
    let bad := withR1 tile0 { poison := true }
    let m := coreAt (.branch 0 .eq 1 2 0) marked
    let p := coreAt (.branch 0 .eq 1 2 0) bad
    let len := coreAt (.rGet 0 2 3 1 0) marked
    let addr := coreAt (.rPut 0 2 1 3 31) marked
    m.atInsn 0 (.branch 0 .eq 1 2 0) [1, 2] ∧ (m.fetched 0).service = false ∧ ((m.fetched 0).reg 1).mark = true
      ∧ p.atInsn 0 (.branch 0 .eq 1 2 0) [1, 2] ∧ (p.fetched 0).service = true ∧ ((p.fetched 0).reg 1).poison = true
      ∧ (coreAt (.jReg 0 2 1 0) marked).atInsn 0 (.jReg 0 2 1 0) [1] ∧ (coreAt (.jReg 0 2 1 0) bad).atInsn 0 (.jReg 0 2 1 0) [1]
      ∧ len.atInsn 0 (.rGet 0 2 3 1 0) [2, 3, 1] ∧ addr.atInsn 0 (.rPut 0 2 1 3 31) [2, 1, 3]
      ∧ ((addr.fetched 0).reg 3).mark = false ∧ (31#11).toNat < 32
      ∧ (((m.fetched 0).reg 1).val + (0#16).signExtend 64 * 4).toNat % 4 = 0 := by decide +kernel

theorem test_premises_CoreLoads :
    let i := Instr.ld 0 .ld64 2 1 0x2FF8
    let s := coreAt i (withR1 tile0 { val := 0x2D000 })
    let t := s.fetched 0
    let p := coreAt i (withR1 tile0 { poison := true })
    s.atInsn 0 i [1] ∧ (1 : Nat) % loadSize .ld64 ≠ 0 ∧ 0x30000 % loadSize .ld64 = 0 ∧ p.atInsn 0 i [1]
      ∧ ((p.fetched 0).reg 1).poison = true ∧ (t.reg 1).poison = false ∧ 0x2FFF8 % loadSize .ld64 = 0
      ∧ t.mustWait t.seq 0x2FFF8 8 = false := by decide +kernel

theorem test_premises_CoreStores :
    let i := Instr.st 0 .st64 2 1 0x1000
    let s := coreAt i prog
    let t := s.fetched 0
    let p := coreAt i (withR1 tile0 { poison := true })
    s.atInsn 0 i [2, 1] ∧ (2 : Nat) % storeSize .st32 ≠ 0 ∧ 0x30000 % storeSize .st64 = 0
      ∧ (t.service = false ∧ 0xFF8 < t.protTop.toNat * 4096) ∧ ¬ (0x1000 < t.protTop.toNat * 4096)
      ∧ p.atInsn 0 i [2, 1] ∧ ((p.fetched 0).reg 1).poison = true ∧ t.mustWait t.seq 0x1000 8 = false := by decide +kernel

theorem test_premises_CoreSystem :
    let brk := coreAt (.sysBrk 0 0 0 0 0) tile0
    let user := coreAt (.sysBrk 0 0 0 0 0) prog
    let bad := core { tile0 with mem := [(0, { ecc := .multi })] }
    brk.atInsn 0 (.sysBrk 0 0 0 0 0) [] ∧ (brk.fetched 0).service = true ∧ user.atInsn 0 (.sysBrk 0 0 0 0 0) []
      ∧ (user.fetched 0).service = false ∧ (coreAt (.sysBrk 0 1 0 0 0) tile0).atInsn 0 (.sysBrk 0 1 0 0 0) []
      ∧ (coreAt (.rFence 0 1 0 0 0) tile0).atInsn 0 (.rFence 0 1 0 0 0) []
      ∧ (coreAt (.rFence 0 0 0 0 0) tile0).atInsn 0 (.rFence 0 0 0 0 0) [] ∧ (brk.fetched 0).remote = []
      ∧ (coreAt (.reservedMajorOpcode 0 0xFC000000) tile0).atInsn 0 (.reservedMajorOpcode 0 0xFC000000) []
      ∧ (Instr.reservedMajorOpcode 0 0xFC000000).wellFormed = true
      ∧ (core { prog with pc := 0x1000 }).canIssue 0 = true ∧ (core { tile0 with pc := 0x30000 }).canIssue 0 = true
      ∧ bad.canIssue 0 = true ∧ (bad.tile 0).fetchWord.poison = true := by decide +kernel

theorem test_premises_CoreCsrs :
    let s := coreAt (.cRd 0 2 0 0xE2) tile0
    let x := Instr.cXchg 0 2 1 0xE2
    (s.atInsn 0 (.cRd 0 2 0 0xE2) [] ∧ (s.csrRead 0 (s.fetched 0) 0x0E2 false).isSome = true)
      ∧ (coreAt (.cRd 0 2 1 0xE2) tile0).atInsn 0 (.cRd 0 2 1 0xE2) []
      ∧ (coreAt (.cSet 0 2 1 0x10E2) tile0).atInsn 0 (.cSet 0 2 1 0x10E2) [1]
      ∧ (coreAt (.cClr 0 2 1 0xFFF) tile0).atInsn 0 (.cClr 0 2 1 0xFFF) [1] ∧ s.csrRead 0 (s.fetched 0) 0xFFF false = none
      ∧ (coreAt x (withR1 tile0 { poison := true })).atInsn 0 x [1]
      ∧ (((coreAt x (withR1 tile0 { poison := true })).fetched 0).reg 1).poison = true
      ∧ (coreAt x tile0).atInsn 0 x [1] ∧ (((coreAt x tile0).fetched 0).reg 1).poison = false := by decide +kernel

/-- A tile at an r.get, with its location, address and length. -/
abbrev remoteAt (t : Tile) (loc addr : BitVec 64) (n : BitVec 64) : State :=
  coreAt (.rGet 0 1 2 3 0x1F) (((t.setReg 1 { val := loc }).setReg 2 { val := addr }).setReg 3 { val := n })

/-- Whether that core is at its r.get. -/
abbrev atGet (s : State) : Prop := s.atInsn 0 (.rGet 0 1 2 3 0x1F) [1, 2, 3]

theorem test_premises_RemoteOperations :
    let s := remoteAt tile0 8 0x100000000001000 8
    let t := s.fetched 0
    let g := (remoteAt prog 0xFF8 0 16).fetched 0
    let put := coreAt (.rPut 0 1 2 3 0) (((tile0.setReg 1 { val := 8 }).setReg 2 { val := 8 }).setReg 3 { val := 8 })
    atGet s ∧ (0x1F#11).toNat < 32 ∧ atGet (coreAt (.rGet 0 1 2 3 0x1F) (withR1 tile0 { poison := true }))
      ∧ atGet (remoteAt tile0 0 0 65537) ∧ atGet (remoteAt tile0 0 0 65532)
      ∧ atGet (remoteAt tile0 4 0 8) ∧ atGet (remoteAt tile0 8 4 8)
      ∧ atGet (remoteAt tile0 0x2FFF8 0 16) ∧ atGet (remoteAt prog 0xFF8 0 16)
      ∧ g.service = false ∧ 0xFF8 < g.protTop.toNat * 4096
      ∧ t.remote.length < 16 ∧ t.mustWait t.seq 8 8 = false ∧ atGet (remoteAt tile0 8 0 0)
      ∧ (remoteAt tile0 0 0 8).addrError { tile := 0, service := true, isPut := false, isMsg := false, addr := 0, len := 8 } = false
      ∧ put.atInsn 0 (.rPut 0 1 2 3 0) [1, 2, 3]
      ∧ put.addrError { tile := 0, service := true, isPut := true, isMsg := false, addr := 8, len := 8 } = false := by
  decide +kernel

theorem test_premises_LocalMemorySteps :
    let s := core { tile0 with ceFound := [24575] }
    s.runs 0 ∧ 24575 ∈ (s.tile 0).ceFound ∧ s.present 0 = true := by decide +kernel

theorem test_premises_RegisterOnlyFrame :
    leads (exec (.gAddi 0 1 2 5) (coreAt (.gAddi 0 1 2 5) tile0)) (fun _ => true) = true := by decide +kernel

/-! ## The tile core: results from the tables -/

/-- Whether an instruction at a tile's core leads to a state that passes a check. -/
def runAt (i : Instr) (t : Tile) (check : Tile → Bool) : Bool := leads (exec i (coreAt i t)) (fun s => check (s.tile 0))

theorem test_addi_wraps : runAt (.gAddi 0 2 1 1) (withR1 tile0 { val := 0xFFFFFFFFFFFFFFFF })
    (fun t => decide ((t.reg 2).val = 0 ∧ t.pc = 4 ∧ t.instret = 1)) = true := by decide +kernel

theorem test_another_word_does_not_run : leads (exec (.gAddi 0 2 1 1) (coreAt (.gAddi 0 2 1 2) tile0))
    (fun s => decide (s = coreAt (.gAddi 0 2 1 2) tile0)) = true := by decide +kernel

theorem test_lhi_shifts : runAt (.gLhi 0 1 0 0x8000) tile0 (fun t => decide ((t.reg 1).val = 0xFFFFFFFF80000000)) = true := by
  decide +kernel

theorem test_div_least_by_minus_one : runAt (.baseRegisterAlu 0 3 1 2 0x018)
    ((tile0.setReg 1 { val := 0x8000000000000000 }).setReg 2 { val := 0xFFFFFFFFFFFFFFFF })
    (fun t => decide ((t.reg 3).val = 0x8000000000000000)) = true := by decide +kernel

theorem test_branch_wraps_at_18_bits : runAt (.branch 0 .eq 0 0 0xFFFF) tile0 (fun t => decide (t.pc = 0x3FFFC)) = true := by
  decide +kernel

theorem test_store_halfword : runAt (.st 0 .st16 1 0 14) (withR1 tile0 { val := 0x1234ABCD })
    (fun t => decide (t.word 1 = ⟨0xABCD000000000000, false⟩)) = true := by decide +kernel
/-! ## The matrix unit and the vector engine: the premises of their statements -/

/-- A matrix entry of the queue. -/
abbrev mxe (op : MxOp) (running : Bool) : MxEntry := MxEntry.mk op 0 0 running 0 false

/-- Eight waiting entries. -/
abbrev fullMx : List MxEntry := List.replicate 8 (mxe (.zero 0) false)

/-- An 8-bit dense block with one valid row, of signed bytes. -/
abbrev headInt8 : BitVec 64 := 0x10008

/-- An operand buffer pair of matching shapes. -/
abbrev bufA : ABuf := { mv := false, fmt := .int8, s := 1, group := 0, rows := [], poison := false }
abbrev bufB : BBuf := { mv := false, fmt := .int8, span := 32, kValid := 32, group := 0, cols := [], poison := false }

theorem test_premises_MatrixIssue :
    let lda : VFields := ⟨7, 1, 0, 8, 0⟩
    let mv : VFields := ⟨1, 1, 2, 8, 1⟩
    let s := coreAt (.mxLda 0 lda) tile0
    let q := coreAt (.mxMma 0 ⟨3, 1, 1, 0, 0⟩) { tile0 with mxQueue := fullMx }
    s.atInsn 0 (.mxLda 0 lda) [1] ∧ (s.fetched 0).mxQueued < 8 ∧ loadFormat 8 = some .int8 ∧ staFormat 0 = some .fp32
      ∧ (coreAt (.mxLda 0 mv) tile0).atInsn 0 (.mxLda 0 mv) [1, 2]
      ∧ (coreAt (.mxLdb 0 ⟨1, 1, 0, 8, 1⟩) tile0).atInsn 0 (.mxLdb 0 ⟨1, 1, 0, 8, 1⟩) [1]
      ∧ (coreAt (.mxLdat 0 ⟨1, 1, 0, 8, 3⟩) tile0).atInsn 0 (.mxLdat 0 ⟨1, 1, 0, 8, 3⟩) [1]
      ∧ (coreAt (.mxSta 0 ⟨3, 1, 0, 0, 0⟩) tile0).atInsn 0 (.mxSta 0 ⟨3, 1, 0, 0, 0⟩) [1]
      ∧ q.atInsn 0 (.mxMma 0 ⟨3, 1, 1, 0, 0⟩) [] ∧ ¬ (q.fetched 0).mxQueued < 8
      ∧ (coreAt (.mxMmv 0 ⟨4, 0, 0, 0, 0⟩) tile0).atInsn 0 (.mxMmv 0 ⟨4, 0, 0, 0, 0⟩) []
      ∧ (coreAt (.mxZero 0 ⟨3, 0, 0, 0, 0⟩) tile0).atInsn 0 (.mxZero 0 ⟨3, 0, 0, 0, 0⟩) []
      ∧ (coreAt (.mxWait 0 ⟨0, 0, 0, 0, 0⟩) tile0).atInsn 0 (.mxWait 0 ⟨0, 0, 0, 0, 0⟩) []
      ∧ (s.fetched 0).mxQueue = [] ∧ (q.fetched 0).mxQueue ≠ []
      ∧ ¬ ((4#5).toNat < 4 ∧ (0#5).toNat < 2 ∧ (0#5).toNat < 2 ∧ (0#4) = 0 ∧ (0#3) = 0) := by decide +kernel

theorem test_premises_MatrixUnitSteps :
    let s := fun (t : Tile) (op : MxOp) (r : Bool) => core { t with mxQueue := [mxe op r] }
    let m := { tile0 with mem := [(0, { val := headInt8 })] }
    let ab := { tile0 with aBufs := [(0, some bufA)], bBufs := [(0, some bufB)] }
    (s m (.lda false 3 false .int8 0 0) false).runs 0 ∧ (((s m (.lda false 3 false .int8 0 0) false).tile 0).vxQueue = [])
      ∧ (((s m (.lda false 3 false .int8 0 0) false).tile 0).word 0) = ⟨headInt8, false⟩
      ∧ (∃ h, parseHead headInt8 .int8 = some h ∧ 0 + h.size .int8 ≤ 0x30000)
      ∧ parseHead 0 .int8 = none ∧ parseHead headInt8 .fp32 = none ∧ (0x2FFF8 + 8 ≤ 0x30000)
      ∧ (s ab (.mma false 3 false false) false).runs 0 ∧ bufB.span = 32 * bufA.s ∧ formatsPair .int8 .int8 = true
      ∧ getD none ((s ab (.mma false 3 false false) false).tile 0).aBufs 0 = some bufA
      ∧ getD none ((s ab (.mma false 3 false false) false).tile 0).bBufs 0 = some bufB
      ∧ getD none ((s tile0 (.mma false 3 true false) false).tile 0).aBufs 1 = none
      ∧ (core { tile0 with mxQueue := [⟨.lda false 0 false .int8 0 0, 0, 0, false, 0, true⟩] }).runs 0
      ∧ (s tile0 (.zero 3) true).runs 0 ∧ (s ab (.mma false 3 false false) true).runs 0 := by
  and_intros
  all_goals first | exact ⟨⟨1, 0, 1, false⟩, by decide +kernel, by decide +kernel⟩ | decide +kernel

/-- A vector entry of the queue. -/
abbrev vxe (kind : VxKind) (f : VFields) : VxEntry := { kind := kind, f := f, g1 := {}, g2 := {}, pc := 0, seq := 0 }

/-- Fields with everything zero but the format. -/
abbrev fmtOnly (n : BitVec 4) : VFields := ⟨0, 0, 0, n, 0⟩

theorem test_premises_VectorIssue :
    let f := fmtOnly 0
    let g := fmtOnly 8
    let s := coreAt (.vxLd 0 false f) tile0
    let q := coreAt (.vxLogic 0 false .and g) { tile0 with vxQueue := List.replicate 8 (vxe .sel (fmtOnly 0)) }
    let x := coreAt (.vxSetvl 0 false (fmtOnly 1)) tile0
    let l := fun (sh : Bool) => core { tile0 with shape := sh, vxQueue := [vxe (.logic .and) (fmtOnly 8)] }
    s.atInsn 0 (.vxLd 0 false f) (vxReads .ld f) ∧ vxIssueCause .ld f (s.fetched 0) = none ∧ (s.fetched 0).vxQueue.length < 8
      ∧ q.atInsn 0 (.vxLogic 0 false .and g) (vxReads (.logic .and) g)
      ∧ 8 ≤ (q.fetched 0).vxQueue.length ∧ vxIssueCause (.logic .and) g (q.fetched 0) = none
      ∧ x.atInsn 0 (.vxSetvl 0 false (fmtOnly 1)) (vxReads .setvl (fmtOnly 1)) ∧ vxIllegal .setvl (fmtOnly 1) = true
      ∧ (l false).runs 0 ∧ (l true).runs 0 ∧ ((l true).tile 0).mxQueue = []
      ∧ Format.ofCode 8 = some .int8 ∧ laneInt .int8 = true ∧ ((l false).tile 0).shape = false
      ∧ ((l true).tile 0).shape = true := by decide +kernel

/-- A core at a vector instruction with a full vector length. -/
abbrev vecAt (i : Instr) (t : Tile) : State := coreAt i { t with vl := 64 }

theorem test_premises_VectorMovesAndMasks :
    let f : VFields := ⟨7, 1, 2, 12, 0⟩
    let n : VFields := ⟨7, 1, 2, 0, 0⟩
    let m : VFields := ⟨7, 15, 2, 0, 0⟩
    let z : VFields := ⟨7, 1, 2, 12, 7⟩
    let t := (vecAt (.vxSplat 0 true f) tile0).fetched 0
    (vecAt (.vxSplat 0 true f) tile0).atVector 0 (.vxSplat 0 true f) [1] ∧ (vecAt (.vxMov 0 true f) tile0).atVector 0 (.vxMov 0 true f) []
      ∧ (vecAt (.vxAcc 0 true m) tile0).atVector 0 (.vxAcc 0 true m) [] ∧ (15#5).toNat < 16
      ∧ (vecAt (.vxSetvl 0 true n) tile0).atVector 0 (.vxSetvl 0 true n) [1]
      ∧ (vecAt (.vxMaskLogic 0 true .mandn n) tile0).atVector 0 (.vxMaskLogic 0 true .mandn n) []
      ∧ (vecAt (.vxMnot 0 true n) tile0).atVector 0 (.vxMnot 0 true n) []
      ∧ (vecAt (.vxMfromg 0 true n) tile0).atVector 0 (.vxMfromg 0 true n) [1]
      ∧ (vecAt (.vxMfirst 0 true f) tile0).atVector 0 (.vxMfirst 0 true f) []
      ∧ (vecAt (.vxCompare 0 true .le f) tile0).atVector 0 (.vxCompare 0 true .le f) []
      ∧ (vecAt (.vxSel 0 true z) tile0).atVector 0 (.vxSel 0 true z) []
      ∧ Format.ofCode 12 = some .fp64 ∧ Format.fp64.hasLanes = true
      ∧ (7#5).toNat < 8 ∧ t.service = true ∧ (t.reg 1).poison = false ∧ (7#5) ≠ 0
      ∧ arithFormat .fp64 = true ∧ t.shape = false ∧ (7#3) ≠ 0 := by
  and_intros <;> decide +kernel

theorem test_premises_VectorArithmetic :
    let f := fmtOnly 0
    let g := fmtOnly 11
    let at_ := fun (i : Instr) => (vecAt i tile0).atVector 0 i []
    at_ (.vxArith 0 true .fma f) ∧ at_ (.vxMinmax 0 true true f) ∧ at_ (.vxSign 0 true .csgn f) ∧ at_ (.vxFunction 0 true .log2 f)
      ∧ at_ (.vxLogic 0 true .xor g) ∧ at_ (.vxShift 0 true .sra g) ∧ at_ (.vxPopcnt 0 true g)
      ∧ Format.ofCode 0 = some .fp32 ∧ Format.ofCode 11 = some .int64 ∧ ((vecAt (.vxPopcnt 0 true g) tile0).fetched 0).shape = false
      ∧ arithFormat .fp32 = true ∧ laneInt .int64 = true := by decide +kernel

theorem test_premises_VectorShapes :
    let at_ := fun (i : Instr) => (vecAt i { tile0 with shape := true }).atVector 0 i []
    let f : VFields := ⟨1, 2, 4, 3, 7⟩
    at_ (.vxPerm 0 true f) ∧ at_ (.vxShuf 0 true f) ∧ at_ (.vxPack 0 true f) ∧ at_ (.vxUnpack 0 true f)
      ∧ at_ (.vxPack2of4 0 true true f) ∧ at_ (.vxExpand 0 true false f)
      ∧ Format.ofCode 3 = some .e4m3 ∧ Format.e4m3.hasLanes = true ∧ shapeFormat .e4m3 = true
      ∧ ((vecAt (.vxPerm 0 true f) { tile0 with shape := true }).fetched 0).shape = true := by decide +kernel

theorem test_premises_VectorMemory :
    let r := (tile0.setReg 1 { val := 0x2FFC0 }).setReg 2 { val := 64 }
    let f : VFields := ⟨2, 1, 2, 0, 0⟩
    let w : VFields := ⟨2, 1, 0, 0, 0⟩
    let x : VFields := ⟨2, 1, 2, 3, 0⟩
    let c : VFields := ⟨2, 1, 12, 3, 0⟩
    let t := (vecAt (.vxLd 0 true f) r).fetched 0
    let e := fun (k : VxKind) => vxEntry k f t
    let at_ := fun (i : Instr) (reads : List (BitVec 5)) => (vecAt i r).atVector 0 i reads
    at_ (.vxLd 0 true f) [1] ∧ at_ (.vxSt 0 true f) [1] ∧ at_ (.vxLds 0 true f) [1, 2] ∧ at_ (.vxSts 0 true f) [1, 2]
      ∧ at_ (.vxLdx 0 true w) [1] ∧ at_ (.vxStx 0 true w) [1] ∧ at_ (.vxLdw 0 true x) [1] ∧ at_ (.vxStn 0 true x) [1]
      ∧ at_ (.vxCvt 0 true c) [] ∧ at_ (.vxDequant 0 true true x) [1, 2] ∧ at_ (.vxQuant 0 true false true false x) [2, 2]
      ∧ Format.fp32.hasLanes = true ∧ (t.reg 1).poison = false
      ∧ t.accessCause (e .ld) .fp32 = none ∧ t.accessCause (e .st) .fp32 = none
      ∧ (vecAt (.vxLd 0 true f) (tile0.setReg 1 { val := 4 })).atVector 0 (.vxLd 0 true f) [1] ∧ (4 : Nat) % 64 ≠ 0
      ∧ ({ t with vl := 1 } : Tile).accessCause (e .lds) .fp32 = none
      ∧ ({ t with vl := 1 } : Tile).accessCause (e .sts) .fp32 = none
      ∧ (coreAt (.vxLds 0 true f) { r with vl := 1 }).atVector 0 (.vxLds 0 true f) [1, 2]
      ∧ t.accessCause (vxEntry .ldx w t) .fp32 = none ∧ t.accessCause (vxEntry .stx w t) .fp32 = none
      ∧ packedFormat .e4m3 = true ∧ 0x2FFC0 % 8 = 0 ∧ 0x2FFC0 + 64 ≤ 0x30000
      ∧ (12#5).toNat < 16 ∧ Format.ofCode ((12#5).setWidth 4) = some .fp64
      ∧ Format.e4m3.isMx = true ∧ ((t.reg 1).poison || (t.reg 2).poison) = false ∧ (t.reg 2).val.toNat < 0x30000
      ∧ (t.reg 2).val.toNat % 8 = 0 ∧ (t.reg 2).val.toNat + 16 ≤ 0x30000 := by
  and_intros <;> decide +kernel

/-- A module whose paddock has a tally declaration over the group of tiles 0 to 7 of the first row. -/
abbrev tallyBase (i : Instr) (t : Tile) : State :=
  ({ base with paddocks := [(1, { live := true, w := 1, h := 1, groups := [⟨0, 0, [(0, 0, 7, 0)], 0⟩], tallies := [(0, ⟨0, 31, true, 1, 0, 0, 0⟩)] })] } : State).setTile 0
    { holding i t with tally := some ⟨0, 0, 1, 0, 0, 0, 0⟩ }

theorem test_premises_VectorSummariesAndLinkage :
    let f : VFields := ⟨31, 1, 2, 10, 0⟩
    let z : VFields := ⟨0, 1, 2, 10, 0⟩
    let q : VFields := ⟨3, 1, 2, 11, 0⟩
    let at_ := fun (i : Instr) (reads : List (BitVec 5)) => (vecAt i tile0).atVector 0 i reads
    let user := fun (i : Instr) => (vecAt i prog).atVector 0 i []
    let one := tallyBase (.vxTally 0 true z) { tile0 with vl := 1 }
    let noise := tallyBase (.nzGeom 0 true q) { tile0 with vl := 1 }
    let t := (vecAt (.vxAny 0 true f) tile0).fetched 0
    at_ (.vxAny 0 true f) [] ∧ at_ (.vxAll 0 true f) [] ∧ at_ (.vxRedg 0 true f) [] ∧ at_ (.vxLane 0 true f) [2] ∧ at_ (.vxMtog 0 true f) []
      ∧ at_ (.vxRsum 0 true f) [] ∧ at_ (.vxBandedit 0 true f) [] ∧ at_ (.vxJw 0 true ⟨3, 1, 2, 2, 0⟩) [] ∧ at_ (.vxQsig 0 true q) []
      ∧ t.service = true ∧ (31#5) ≠ 0 ∧ arithFormat .int32 = true ∧ t.shape = false
      ∧ user (.vxAny 0 true f) ∧ user (.vxMtog 0 true f) ∧ ((vecAt (.vxAny 0 true f) prog).fetched 0).service = false ∧ (2#5).toNat < 8
      ∧ Format.ofCode 10 = some .int32 ∧ Format.ofCode 2 = some .fp16 ∧ Format.ofCode 11 = some .int64
      ∧ t.pairPoison (fmtOnly 10) .int32 = false
      ∧ (∀ j, j < 16 → ((core tile0).fetched 0).active 0 16 j = false)
      ∧ (coreAt (.vxTally 0 true z) tile0).atVector 0 (.vxTally 0 true z) []
      ∧ one.atVector 0 (.vxTally 0 true z) [] ∧ (one.fetched 0).active 0 16 0 = true
      ∧ (∀ j, j < 16 → 0 < j → (one.fetched 0).active 0 16 j = false) ∧ (one.fetched 0).outbound = []
      ∧ (one.tallyMessage 0 (one.fetched 0) 0 0).isSome = true
      ∧ (one.tallyMessage 0 (one.fetched 0) 7 0).isSome = true ∧ (one.tallyMessage 0 (one.fetched 0) 8 0).isSome = false
      ∧ (one.fetched 0).tally = some ⟨0, 0, 1, 0, 0, 0, 0⟩ ∧ noise.atVector 0 (.nzGeom 0 true q) [] := by
  and_intros <;> decide +kernel

/-! ## The matrix unit and the vector engine: results from the rules -/

theorem test_mx_zero_clears :
    leads (exec (.mxComputeDone 0 none) (core { tile0 with banks := [(0, { bits := 0x3F800000 })], mxQueue := [mxe (.zero 0) true] }))
      (fun s => decide ((s.tile 0).acc 0 0 = {})) = true := by decide +kernel

theorem test_add_fp32_one_and_one : (arithLane .add .fp32 0x3F800000 0x3F800000 0).1 = 0x40000000 := by decide +kernel
theorem test_fma_int8_wraps : (arithLane .fma .int8 16 16 0xFF).1 = 0xFF := by decide +kernel
theorem test_sqrt_four : (evalFn (fnOf .sqrt) 0x40800000).1 = 0x40000000 := by decide +kernel
theorem test_exp2_three : (evalFn (fnOf .exp2) 0x40400000).1 = 0x41000000 := by decide +kernel
theorem test_bandEdit_one_insertion : bandEdit [97, 98] [97, 99, 98] = 1 := by decide +kernel

/-! ## Queues, sync objects and poses: the premises of their statements -/

/-- An outbound entry to the tile at column 1, row 0, queue 31. -/
abbrev outTo (st : OutState) : OutEntry :=
  { ref := 0, dest := 0x4000001F, long := false, words := [{}, {}], state := st, trySend := false, tally := false }

/-- A shared enabled queue of 4 slots at offset 0x1000, with one message in slot 3 or none. -/
abbrev ringEntry : BitVec 64 := 0x8000001000040100
abbrev ring1 : Queue := { entry := ringEntry, tail := 0, head := 3, occ := 1, items := [⟨3, 1, false, none⟩] }
abbrev ring0 : Queue := { entry := ringEntry }

theorem test_premises_QueueSending :
    let off : BitVec 64 := 0x2FFE0
    let f : QFields := ⟨0, 1, 2, 1⟩
    let at_ := fun (c : Instr) (t : Tile) (v : BitVec 64) => (coreAt c (withR1 t { val := v })).atInsn 0 c [1, 2]
    let full : Tile := { prog with outbound := List.replicate 8 (outTo .sent) }
    let t := (coreAt (.qSend 0 f) (withR1 prog { val := off })).fetched 0
    let w := (coreAt (.qSend 0 f) (withR1 full { val := off })).fetched 0
    let o := fun (st : OutState) => core { tile0 with outbound := [outTo st] }
    at_ (.qSend 0 f) prog off ∧ at_ (.qTrysend 0 f) prog off ∧ off.toNat % 32 = 0 ∧ off.toNat + 32 ≤ 0x30000 ∧ (t.reg 2).mark = false
      ∧ ((t.reg 1).poison || (t.reg 2).poison) = false ∧ t.mustWait t.seq off.toNat 32 = false ∧ t.outbound.length < 8
      ∧ at_ (.qSend 0 f) full off ∧ at_ (.qTrysend 0 f) full off ∧ 8 ≤ w.outbound.length ∧ w.mustWait w.seq off.toNat 32 = false
      ∧ at_ (.qSend 0 ⟨0, 1, 2, 0⟩) prog 8 ∧ (8 : Nat) % 16 ≠ 0
      ∧ (o .waiting).runs 0 ∧ ((o .waiting).tile 0).stopped = false
      ∧ (o .waiting).destError 0 0x4000001F = false ∧ selectorOf 0x4000001F = 0
      ∧ tileAt (field (0x4000001F : BitVec 64) 30 10) (field (0x4000001F : BitVec 64) 40 10) ≠ 0
      ∧ (o .waiting).channelOf ((o .waiting).ownerOf 0) 0x4000001F = none ∧ (o (.refused false)).runs 0 := by
  and_intros <;> decide +kernel

theorem test_premises_QueueReceiving :
    let one : Tile := { tile0 with queues := [(31, ring1)] }
    let empty : Tile := { tile0 with queues := [(31, ring0)] }
    let f : QFields := ⟨2, 3, 31, 0⟩
    let g : QFields := ⟨0, 0, 31, 0⟩
    let at_ := fun (c : Instr) (t : Tile) => (coreAt c t).atInsn 0 c []
    let t := (coreAt (.qRecv 0 f) one).fetched 0
    let e := (coreAt (.qRecv 0 f) empty).fetched 0
    let pick := withR1 one { val := 0x80000000 }
    let sel := (coreAt (.qSelect 0 ⟨2, 1, 0, 0⟩) pick).fetched 0
    at_ (.qRecv 0 f) one ∧ at_ (.qPeek 0 f) one ∧ at_ (.qPop 0 g) one ∧ at_ (.qWord 0 ⟨2, 0, 31, 1⟩) one ∧ at_ (.qCount 0 ⟨2, 0, 31, 0⟩) one
      ∧ qEnabled ringEntry = true ∧ qShared ringEntry = true ∧ t.steered 31 = false ∧ (t.queue 31).items = [⟨3, 1, false, none⟩]
      ∧ (t.queue 31).retry = [] ∧ at_ (.qRecv 0 f) empty ∧ at_ (.qPeek 0 f) empty ∧ at_ (.qPop 0 g) empty ∧ e.steered 31 = false
      ∧ (e.queue 31).items = [] ∧ (3#6).toNat < 4 ∧ 2 * 1 ≤ (2#6).toNat ∧ (1#6).toNat < 2 * 1
      ∧ qEnabled (((coreAt (.qCount 0 g) tile0).fetched 0).queue 31).entry = false ∧ at_ (.qCount 0 g) tile0
      ∧ (coreAt (.qSelect 0 ⟨2, 1, 0, 0⟩) pick).atInsn 0 (.qSelect 0 ⟨2, 1, 0, 0⟩) [1]
      ∧ (sel.reg 1).val = BitVec.ofNat 64 (2 ^ 31) ∧ sel.steered 31 = false := by
  and_intros <;> decide +kernel

theorem test_premises_SyncObjects :
    let o : SyncObj := { value := 0x80000000, target := 1 }
    let far : SyncObj := { value := 0x80000000 }
    let t1 := withR1 { tile0 with syncs := [(15, o), (14, far)] } { val := 0x1B3F }
    let two := fun (s : State) => ({ s with regions := [(0, { state := .active, owner := 1 }), (27, { state := .active, owner := 1 })] } : State)
    let s := coreAt (.sWait 0 ⟨0, 0, 15, 0⟩) t1
    let t := s.fetched 0
    let own := fun (c : Instr) (reads : List (BitVec 5)) => (coreAt c t1).atInsn 0 c reads
    let away := fun (c : Instr) (reads : List (BitVec 5)) => (two (coreAt c t1)).atInsn 0 c reads
    own (.sWait 0 ⟨0, 0, 15, 0⟩) [0] ∧ own (.sWait 0 ⟨0, 0, 14, 0⟩) [0] ∧ own (.sTrywait 0 ⟨2, 0, 15, 0⟩) [0] ∧ own (.sRead 0 ⟨2, 0, 15, 0⟩) [0]
      ∧ own (.sSignal 0 ⟨2, 0, 15, 0⟩) [2, 0] ∧ own (.sSet 0 ⟨2, 0, 15, 0⟩) [2, 0]
      ∧ ((t.sync 15).value - (t.sync 15).target).toNat < 2 ^ 31
      ∧ ¬ ((t.sync 14).value - (t.sync 14).target).toNat < 2 ^ 31 ∧ (t.sync 15).waiting = false ∧ (t.reg 2).poison = false
      ∧ away (.sWait 0 ⟨0, 1, 0, 2⟩) [1] ∧ away (.sTrywait 0 ⟨2, 1, 0, 2⟩) [1] ∧ away (.sRead 0 ⟨2, 1, 0, 2⟩) [1]
      ∧ away (.sSignal 0 ⟨2, 1, 0, 2⟩) [2, 1] ∧ away (.sSignal 0 ⟨2, 1, 0, 1⟩) [2, 1]
      ∧ (two s).badObjectWord 0 2 0x1B3F = false ∧ (two s).badObjectWord 0 3 15 = false
      ∧ s.badObjectWord 0 1 0x4000000F = false ∧ onGrid (field (0x4000000F : BitVec 64) 30 10) (field (0x4000000F : BitVec 64) 40 10) = true
      ∧ s.present (tileAt (field (0x4000000F : BitVec 64) 30 10) (field (0x4000000F : BitVec 64) 40 10)) = true
      ∧ s.ownerOf (tileAt (field (0x4000000F : BitVec 64) 30 10) (field (0x4000000F : BitVec 64) 40 10)) = s.ownerOf 0 := by
  and_intros <;> decide +kernel

theorem test_premises_SignalsWakeWaiters :
    let t : Tile := { syncs := [(3, { value := 0xFFFFFFFF, target := 0, waiting := true })], wait := .sync 3 }
    ((t.sync 3).waiting = true ∧ ((t.sync 3).value + 1 - (t.sync 3).target).toNat < 2 ^ 31)
      ∧ t.wait = .sync 3
      ∧ ¬ ((t.sync 3).waiting = true ∧ ((t.sync 3).value + 0 - (t.sync 3).target).toNat < 2 ^ 31) := by decide +kernel

theorem test_premises_PoseInstructions :
    let a := { tile0 with slots := [(15, .resident)], inForce := some 15, pendingSwitch := some ⟨2, true, false⟩ }
    let b := { tile0 with slots := [(15, .resident)], pendingSwitch := some ⟨2, false, false⟩ }
    let at_ := fun (c : Instr) (t : Tile) => (coreAt c t).atInsn 0 c []
    let t := (coreAt (.poseId 0 ⟨2, 0, 0, 0⟩) a).fetched 0
    at_ (.poseSwitchInsn 0 ⟨0, 0, 15, 0⟩) a ∧ at_ (.poseSwitchInsn 0 ⟨0, 0, 15, 0⟩) b ∧ at_ (.poseSwitchInsn 0 ⟨0, 0, 14, 0⟩) a
      ∧ at_ (.poseSwitchInsn 0 ⟨0, 0, 16, 0⟩) a ∧ at_ (.poseYield 0 ⟨0, 0, 0, 0⟩) a ∧ at_ (.poseId 0 ⟨2, 0, 0, 0⟩) a
      ∧ t.slot 15 ≠ .empty ∧ t.slot 14 = .empty ∧ t.pendingSwitch = some ⟨2, true, false⟩ ∧ t.inForce = some 15
      ∧ 16 ≤ (16#5).toNat := by decide +kernel

/-- A descriptor of zeros with its check value, valid for every slot of a tile with a protected top. -/
abbrev descWords : List PWord := List.replicate 63 ({} : PWord) ++ [{ val := BitVec.ofNat 64 (3965168067 * 2 ^ 32) }]

theorem test_premises_PoseEngine :
    let sw := core { tile0 with slots := [(15, .resident), (0, .inForce)], inForce := some 0, pendingSwitch := some ⟨15, false, false⟩, ended := true }
    let st := core { slots := [(15, .resident)] }
    let ld := fun (x : SlotState) => core { tile0 with slots := [(15, x)], loadQueue := [⟨15, false, false, 0x2FE00, 0, 3, false⟩] }
    let run := fun (ws : List PWord) => core { prog with loadRun := some ⟨⟨15, true, false, 0, 0, 3, false⟩, ws, 0⟩ }
    sw.runs 0 ∧ (sw.tile 0).pendingSwitch = some ⟨15, false, false⟩ ∧ (sw.tile 0).ended = true ∧ (sw.tile 0).parked = false
      ∧ (sw.tile 0).mxQueue = [] ∧ (sw.tile 0).vxQueue = [] ∧ (sw.tile 0).loadRun = none ∧ (sw.tile 0).slot 15 ≠ .empty
      ∧ st.runs 0 ∧ (st.tile 0).parked = true ∧ (st.tile 0).slot (15#4).toNat ≠ .empty ∧ (48#6).toNat ≤ 48
      ∧ (ld .inForce).runs 0 ∧ ((ld .inForce).tile 0).slot 15 = .inForce ∧ (ld .empty).runs 0
      ∧ ((ld .empty).tile 0).slot 15 ≠ .inForce ∧ ((ld .empty).tile 0).partition 15 = []
      ∧ (run [{ val := 1 }]).runs 0 ∧ descValid 1 15 ([{ val := 1 }].map (fun (w : PWord) => w.val)) = false
      ∧ descWords.any (·.poison) = false ∧ descValid 1 15 (descWords.map (·.val)) = true
      ∧ ((run descWords).tile 0).ringCheck 15 (descWords.map (·.val)) = true
      ∧ st.present 0 = true ∧ (sw.tile 0).parked = false := by decide +kernel

theorem test_premises_SteeringTallyAndStuck :
    let rule : BitVec 64 := 0x8000000000000020
    let st := core { tile0 with inForce := some 0, poseMem := [(0, { val := 0x10000000000 }), (36, { val := rule })], queues := [(0, ring1), (1, { ring1 with entry := 0x8000001000040200 })] }
    let t := st.tile 0
    let ta := tallyBase (.baseRegisterAlu 0 0 0 0 0) { tile0 with queues := [(31, { ring1 with items := [⟨0, 2, false, none⟩] })] }
    let u := ta.tile 0
    let ws := u.words (ringWord (u.queue 31) 0 0) 4
    st.runs 0 ∧ t.steerRules = [rule] ∧ bitOf rule 63 = true ∧ field rule 0 5 ≠ field rule 5 5
      ∧ (t.queue (field rule 0 5)).items = [⟨3, 1, false, none⟩] ∧ (t.queue (field rule 5 5)).items = [⟨3, 1, false, none⟩]
      ∧ (t.queue (field rule 0 5)).retry = [] ∧ (t.queue (field rule 5 5)).retry = []
      ∧ (t.word (ringWord (t.queue 0) 3 1)).poison = false ∧ field (t.word (ringWord (t.queue 0) 3 1)).val 32 16 < 2 ^ 15
      ∧ t.outbound = [] ∧ ta.runs 0 ∧ ta.tallyQueue 0 u = some 31 ∧ (u.queue 31).items = [⟨0, 2, false, none⟩]
      ∧ ((ta.paddock (ta.ownerOf 0)).tallyDecl 0) = some ⟨0, 31, true, 1, 0, 0, 0⟩ ∧ ws.any (·.poison) = false
      ∧ signedOf 64 (ws.getD 0 {}).val.toNat - ((ta.paddock (ta.ownerOf 0)).groupRank 0 0 * 1 : Nat) = 0
      ∧ (u.word 0).poison = false ∧ u.stopped = false ∧ u.protects 0 8 = false
      ∧ (core { tile0 with waitBeats := 1, wait := .sync 15 }).runs 0
      ∧ (core { tile0 with sendBeats := 1, outbound := [outTo .sent] }).runs 0 := by decide +kernel

/-! ## Queues, sync objects and poses: results from the rules -/

theorem test_signal_wraps : ((({ syncs := [(0, { value := 0xFFFFFFFF })] } : Tile).applySignal 0 2 0 0 0).sync 0).value = 1 := by
  decide +kernel

theorem test_count_of_one_message : runAt (.qCount 0 ⟨1, 0, 31, 0⟩) { tile0 with queues := [(31, ring1)] }
    (fun t => decide (t.reg 1 = { val := 1 })) = true := by decide +kernel

theorem test_pose_id : runAt (.poseId 0 ⟨1, 0, 0, 0⟩) { tile0 with inForce := some 7 } (fun t => decide ((t.reg 1).val = 7)) = true := by
  decide +kernel
/-! ## The mesh: the premises of its statements -/

/-- A packet from the tile at column `x` of the first row to the tile at column `dx` of it, in paddock 1. -/
abbrev pkt (op : PacketOp) (x dx len : Nat) (data : List PWord) (pos : PacketPos) : Packet :=
  { op := op, operand := 0, srcX := x, srcY := 0, destX := dx, destY := 0, frame := false, queue := 31, paddock := 1, length := len, poison := false, epoch := false, data := data, tag := { bytes := 8 * data.length }, pos := pos, replays := 0 }

theorem test_premises_PacketRouting :
    let g := fun (x dx : Nat) => pkt .get x dx 4 [] (.router 1 3 false)
    let s := fun (p : Packet) => ({ base with net := [p] } : State)
    let inj := core { inject := [pkt .get 0 1 16 [] .frame] }
    let q := { pkt .get 0 1 16 [] .frame with paddock := inj.ownerOf 0, epoch := false }
    let there : State := { s (g 0 1) with paddocks := [] , regions := [(0, { state := .active, owner := 2 })] }
    (s (g 0 3)).inRouter 0 (g 0 3) 1 3 false ∧ (s (g 0 3)).admitted 1 3 false (g 0 3) = true
      ∧ (s (g 0 3)).output 1 3 (g 0 3) = some (1, false) ∧ neighbour 1 1 = some 2 ∧ ((s (g 0 3)).tile 1).deadPort 1 = false
      ∧ (s (g 0 3)).present 2 = true ∧ (s (g 0 3)).routed (regionOfTile 2) = true
      ∧ (((s (g 0 3)).setTile 1 { deadPorts := 2 }).tile 1).deadPort 1 = true
      ∧ ((s (g 0 3)).setTile 1 { deadPorts := 2 }).inRouter 0 (g 0 3) 1 3 false
      ∧ (s (g 0 1)).output 1 3 (g 0 1) = none ∧ (s (g 0 1)).inRouter 0 (g 0 1) 1 3 false
      ∧ (s (g 0 1)).admitted 1 3 false (g 0 1) = true
      ∧ (g 0 1).paddock = (s (g 0 1)).ownerOf 1 ∧ (g 0 1).paddock ≠ there.ownerOf 1 ∧ there.inRouter 0 (g 0 1) 1 3 false
      ∧ there.admitted 1 3 false (g 0 1) = true ∧ there.output 1 3 (g 0 1) = none
      ∧ (s { g 0 1 with frame := true }).inRouter 0 { g 0 1 with frame := true } 1 3 false
      ∧ (s { g 0 1 with frame := true }).admitted 1 3 false { g 0 1 with frame := true } = true
      ∧ ({ s (g 0 1) with net := [{ g 0 1 with paddock := 2, pos := .router 210 3 false }], regions := [(0, { state := .active, owner := 1 }), (1, { state := .active, owner := 1 })] } : State).admitted
          210 3 false { g 0 1 with paddock := 2, pos := .router 210 3 false } = false
      ∧ ({ s (g 0 1) with net := [{ g 0 1 with paddock := 2, pos := .router 210 3 false }], regions := [(0, { state := .active, owner := 1 }), (1, { state := .active, owner := 1 })] } : State).inRouter
          0 { g 0 1 with paddock := 2, pos := .router 210 3 false } 210 3 false
      ∧ (inj.tile 0).inject = [pkt .get 0 1 16 [] .frame] ∧ inj.present 0 = true ∧ inj.routed (regionOfTile 0) = true
      ∧ (pkt .get 0 1 16 [] .frame).lengthOk = true ∧ inj.output 0 4 q = some (1, false)
      ∧ (s (g 0 3)).flip = false ∧ inj.flip = false
      ∧ (({ s (g 0 3) with net := [] } : State).credit { g 0 3 with pos := .router 2 3 false }) = true
      ∧ (({ s (g 0 3) with net := List.replicate 8 { g 0 3 with pos := .router 2 3 false } } : State).credit { g 0 3 with pos := .router 2 3 false }) = false
      ∧ ({ s (g 0 3) with net := g 0 3 :: List.replicate 8 { g 0 3 with pos := .router 2 3 false } } : State).inRouter 0 (g 0 3) 1 3 false
      ∧ inj.credit { q with pos := .router 1 3 false } = true
      ∧ inj.output 0 4 { q with destX := 0 } = none ∧ (inj.tile 0).detour false 1 0 4 = none := by
  and_intros <;> decide +kernel

theorem test_premises_LinksAndPorts :
    let p := fun (n : Nat) => { pkt .get 0 3 4 [] (.router 1 3 false) with replays := n }
    let s := fun (n : Nat) => ({ base with net := [p n] } : State)
    let m := core { merges := [⟨0, [], 0⟩] }
    (s 3).net[0]? = some (p 3) ∧ (p 3).pos = .router 1 3 false ∧ neighbour 1 3 = some 0 ∧ (s 3).routed (regionOfTile 1) = true
      ∧ (p 3).replays < 4 ∧ 4 ≤ (p 4).replays ∧ (s 4).net[0]? = some (p 4) ∧ ((s 4).tile 1).deadPort 3 = false
      ∧ base.present 1 = true ∧ base.routed (regionOfTile 1) = true ∧ neighbour 1 Dir.west.ctorIdx = some 0
      ∧ (base.tile 1).deadPort Dir.west.ctorIdx = false ∧ m.runs 0 ∧ (m.tile 0).merges = [⟨0, [], 0⟩] := by
  and_intros <;> decide +kernel

theorem test_premises_MessageArrival :
    let e : BitVec 64 := 0x8002001000020100
    let x : Queue := { entry := e, tail := 1, head := 0, occ := 1, items := [⟨0, 1, false, none⟩] }
    let full : Queue := { x with tail := 0, occ := 2, items := [⟨0, 1, false, none⟩, ⟨1, 1, false, none⟩] }
    let p := pkt .msg 1 0 1 [{}, {}] (.ejected 0 4)
    let a := { pkt .msgAnswer 1 0 0 [] (.ejected 0 4) with tag := {} }
    let s := fun (t : Tile) (p : Packet) => ({ core t with net := [p] } : State)
    let t1 : Tile := { tile0 with queues := [(31, x)] }
    let wk := { pkt .wake 1 0 0 [] (.ejected 0 4) with operand := 130 }
    (s t1 p).arrived 0 .msg p 0 4 ∧ p.srcX ≠ 0x3FF ∧ ((s t1 p).tile 0).wait = .none
      ∧ qEnabled e = true ∧ x.place 1 = some (1, false) ∧ (s t1 p).tallyQueue 0 t1 ≠ some 31
      ∧ t1.protects (8 * ringWord x 1 0) 16 = false ∧ full.place 1 = none ∧ full.retry.length < 4
      ∧ (s { tile0 with queues := [(31, full)] } p).arrived 0 .msg p 0 4
      ∧ (s { tile0 with queues := [(31, { full with retry := List.replicate 4 ⟨2, 0⟩ })] } p).arrived 0 .msg p 0 4
      ∧ 4 ≤ ({ full with retry := List.replicate 4 ⟨2, 0⟩ } : Queue).retry.length
      ∧ qEnabled (tile0.queue 31).entry = false ∧ (s tile0 p).arrived 0 .msg p 0 4
      ∧ (s { tile0 with outbound := [outTo .sent] } a).arrived 0 .msgAnswer a 0 4 ∧ (outTo .sent).ref = a.tag.ref
      ∧ (outTo .sent).trySend = false ∧ field a.operand 0 2 = 0 ∧ field ({ a with operand := 1 } : Packet).operand 0 2 = 1
      ∧ (s tile0 { a with operand := 1 }).arrived 0 .msgAnswer { a with operand := 1 } 0 4
      ∧ (s tile0 { a with op := .retryNotice }).arrived 0 .retryNotice { a with op := .retryNotice } 0 4
      ∧ (s tile0 { a with op := .signal }).arrived 0 .signal { a with op := .signal } 0 4 ∧ field (0 : BitVec 64) 38 2 ≠ 2
      ∧ (s { tile0 with wait := .remoteSync 2 2 } wk).arrived 0 .wake wk 0 4
      ∧ wk.operand = BitVec.ofNat 64 (field (2 : BitVec 64) 0 6 + 2 * 64)
      ∧ (s { tile0 with wait := .reply 1 true 2 } { wk with data := [{}] }).arrived 0 .wake { wk with data := [{}] } 0 4 := by
  and_intros <;> decide +kernel

theorem test_premises_RemoteArrival :
    let p := { pkt .put 1 0 16 (List.replicate 32 {}) (.ejected 0 4) with operand := 0x2FF00 }
    let g := { pkt .get 1 0 1 [] (.ejected 0 4) with tag := { bytes := 16 } }
    let low := { p with operand := 0xFF8 }
    let o : RemoteOp := { ref := 0, isGet := true, loc := 0, len := 256, addr := 0, signal := none, left := 256 }
    let s := fun (t : Tile) (p : Packet) => ({ core t with net := [p] } : State)
    let r : Tile := { tile0 with remote := [o] }
    let w : Tile := { tile0 with remote := [{ o with isGet := false }] }
    (s prog p).arrived 0 .put p 0 4 ∧ addrOff p.operand < 0x30000 ∧ p.data.length = p.tag.bytes / 8
      ∧ prog.protects (addrOff p.operand) 256 = false ∧ prog.protects (addrOff low.operand) 256 = true
      ∧ (s prog low).arrived 0 .put low 0 4 ∧ (s prog g).arrived 0 .get g 0 4 ∧ (s prog g).coalesces 0 g = false
      ∧ (s r { p with op := .getData }).arrived 0 .getData { p with op := .getData } 0 4 ∧ o.ref = p.tag.ref ∧ o.signal = none
      ∧ (s r { p with op := .nack }).arrived 0 .nack { p with op := .nack } 0 4
      ∧ (s w { p with op := .nack }).arrived 0 .nack { p with op := .nack } 0 4
      ∧ (s w { p with op := .putAck }).arrived 0 .putAck { p with op := .putAck } 0 4 := by
  and_intros <;> decide +kernel

/-- A rein from tile 0 to its eastern neighbour, where it is tapped. -/
abbrev rein1 : Rein := { id := 5, frameSource := false, frameSink := false, x := 0, y := 0, dir := 1, stirrup := 0, segs := [(1, 0, false)], state := .ready }

/-- A module whose paddock has that rein, with the pose in force at tiles 0 and 1 sourcing east and sinking west. -/
abbrev reinBase (t : Tile) : State :=
  (({ base with paddocks := [(1, { live := true, w := 1, h := 1, reins := [rein1] })] } : State).setTile 0
    { t with inForce := some 0, poseMem := [(1, { val := 0x20 })] }).setTile 1
    { tile0 with inForce := some 0, poseMem := [(1, { val := 8 })], taps := [(0, 0x80000010000005FF)] }

theorem test_premises_ReinsAndGathers :
    let v : BitVec 64 := 0x4000000060020000
    let s := reinBase { tile0 with srcBursts := [(1, List.replicate 3 ⟨0, 0, 1, none, false⟩)] }
    let l : LeafEntry := { tree := 1023, node := 2049, input := 3, fp := false, flits := 4, opened := 0 }
    let lf := core { tile0 with leaves := [l] }
    let gv : BitVec 64 := 0xFFEFFC0
    let b : ReinBurst := { paddock := 1, rein := 5, dest := 0, words := [{}, {}, {}, {}] }
    let tp : State := { reinBase tile0 with bursts := [b] }
    let nd : NodeSlot := { tree := 0, paddock := 1, fp := false, flits := 1, inputs := 1, parentInput := 0xFF, parent := 0x1000, rootSync := 0xFF, bufs := [], bad := false }
    let c := pkt .gather 1 0 1 [{ val := 5 }, { val := 6 }] (.ejected 0 4)
    let gs := fun (n : NodeSlot) => ({ core { tile0 with nodes := [(0, some n)] } with net := [c] } : State)
    s.runs 0 ∧ field v 62 2 = 1 ∧ (s.tile 0).sources 1 = true ∧ (s.sourceRein 0 1 false).isSome = true ∧ srcFlits v ≤ 4096
      ∧ field v 0 18 % 16 = 0 ∧ field v 0 18 + 16 * srcFlits v ≤ 0x30000 ∧ field v 42 18 % 16 = 0 ∧ bitOf v 24 = false
      ∧ (getD [] (s.tile 0).srcBursts 1).length < 4 ∧ field (v + 8) 0 18 % 16 ≠ 0
      ∧ (core tile0).sourceRein 0 1 false = none ∧ (core tile0).runs 0
      ∧ lf.runs 0 ∧ (lf.tile 0).leaf (field gv 18 10) = some l ∧ field gv 0 18 % 16 = 0 ∧ field gv 0 18 + 16 * 4 ≤ 0x30000
      ∧ bitOf gv 36 = false
      ∧ getD [] (s.tile 0).srcBursts Dir.east.ctorIdx = List.replicate 3 ⟨0, 0, 1, none, false⟩
      ∧ s.sourceRein 0 Dir.east.ctorIdx true = some rein1 ∧ rein1.taps = [(1, 3)]
      ∧ tp.rein 1 5 = some rein1 ∧ (tp.liveHops rein1.hops).any (fun h => h.dest == 1) = true
      ∧ tp.clocked (regionOfTile 1) = true ∧ (tp.tile 1).sinks 3 = true
      ∧ bitOf (getD 0 (tp.tile 1).taps ((tp.tile 1).tapChannel 3)) 63 = true
      ∧ 16 ≤ 128 * field (getD 0 (tp.tile 1).taps 0) 32 11 ∧ (tp.tile 1).protects 0x2FF80 16 = false
      ∧ rein1.frameSource = false ∧ getD [] (tp.tile (tileAt rein1.x rein1.y)).srcBursts rein1.dir = [] ∧ (0x2FF80 : Nat) % 8 = 0
      ∧ b.words.drop (2 * b.flit) = {} :: {} :: [{}, {}]
      ∧ (gs nd).arrived 0 .gather c 0 4 ∧ getD none ((gs nd).tile 0).nodes 0 = some nd
      ∧ (List.range 1).all (fun j => (look (insertAt nd.bufs 0 c.data) j).isSome) = true
      ∧ (List.range 2).all (fun j => (look (insertAt nd.bufs 0 c.data) j).isSome) = false
      ∧ (gs { nd with inputs := 2 }).arrived 0 .gather c 0 4
      ∧ ((gs nd).tile 0).protects 0x1000 16 = false := by
  and_intros <;> decide +kernel

/-! ## The mesh: results from the rules -/

theorem test_put_acknowledged :
    let p := { pkt .put 1 0 1 [{ val := 7 }, { val := 8 }] (.ejected 0 4) with operand := 0x2FFF0 }
    leads (exec (.put 0) { core tile0 with net := [p] })
      (fun s => decide (((s.tile 0).word 0x5FFF).val = 8 ∧ (s.tile 0).inject.map (·.op) = [PacketOp.putAck] ∧ s.net = [])) = true := by
  decide +kernel

theorem test_gather_root_writes :
    let nd : NodeSlot := { tree := 0, paddock := 1, fp := false, flits := 1, inputs := 2, parentInput := 0xFF, parent := 0x1000, rootSync := 0xFF, bufs := [(1, [{ val := 0xFFFFFFFF }, {}])], bad := false }
    leads (exec (.gather 0) { core { tile0 with nodes := [(0, some nd)] } with net := [pkt .gather 1 0 1 [{ val := 2 }, {}] (.ejected 0 4)] })
      (fun s => decide (((s.tile 0).word 0x200).val = 0x100000001 ∨ ((s.tile 0).word 0x200).val = 1)) = true := by decide +kernel

/-! ## The pace: the premises of its statements -/

/-- An open stride of table 0. -/
abbrev open0 : OpenStride := { table := 0, kind := .stride, desc := some 0, key := 0, left := 0 }

/-- An image that holds one schedulable unit, id 5 of class 1, for region 0. -/
abbrev image1 : Image :=
  { header := [], sections := [⟨0xA, 0, 0, [5, 0, 0, 16] ++ List.replicate 12 0⟩], digest := 0, base := 0, length := 0, shared := none }

/-- That image with a unit that needs energy. -/
abbrev hungry : Image := { image1 with sections := [⟨0xA, 0, 0, [5, 0, 0, 16, 0, 0, 1] ++ List.replicate 9 0⟩] }

/-- A module whose paddock 1 and its one region are as given, with a stride open. -/
abbrev paced (d : Paddock) (g : Region) : State :=
  { base with paddocks := [(1, { d with live := true, w := 1, h := 1 })], regions := [(0, { g with state := .active, owner := 1 })] }

/-- That module at one due entry of an action. -/
abbrev dueEntry (d : Paddock) (e : PaceEntry) : State := paced { d with current := some open0 } { due := [e], capW := 1 }

/-- A paddock whose one rein is in a state. -/
abbrev withRein (st : ReinState) : Paddock :=
  { reins := [⟨5, false, false, 0, 0, 1, 0, [(1, 0, false)], st, rein1.opened, []⟩] }

/-- A paddock with one layer of one expert in a group of one slot, its history as given. -/
abbrev predicting (slots : Map (Option RemountSlot)) (history : List (List (Nat × Nat))) : Paddock :=
  { remount := { layers := [(0, ⟨0, 1, 2, [0]⟩)], groups := [(0, ⟨1, 1, 1, [⟨5, 0, 0, 0, 0x1000⟩]⟩)], slots := slots, history := history } }

theorem test_premises_PaceEntriesOfThePlan_predict :
    let e : PaceEntry := ⟨0, 5, 0, 0x4000000000000000⟩
    let deep := List.replicate 16 [((0 : Nat), (0 : Nat))]
    let free : State := { dueEntry (predicting [] deep) e with regs := [(0x00701040 / 8, 0x11)] }
    let held : State := { dueEntry (predicting [(0, some ⟨0, 0, 0, false, true, false, false, 0, [0], [0], [0]⟩)] deep) e with regs := [(0x00701040 / 8, 0x11)] }
    let chosen := fun (s : State) => ((s.paddock 1).remount.ranked 0 1).take (field (s.remountCtrl 1) 0 4)
    (free.region 0).opens = [] ∧ (free.region 0).due = [e] ∧ free.issues 1 = true ∧ bitOf (free.remountCtrl 1) 4 = true
      ∧ 16 ≤ (free.paddock 1).remount.history.length ∧ look (free.paddock 1).remount.layers 0 = some ⟨0, 1, 2, [0]⟩
      ∧ chosen free = [0] ∧ (free.paddock 1).remount.holder 0 1 0 0 = none ∧ (free.paddock 1).remount.victim 0 1 = some 0
      ∧ chosen held = [0] ∧ ((held.paddock 1).remount.holder 0 1 0 0).isSome = true ∧ held.issues 1 = true
      ∧ 16 ≤ (held.paddock 1).remount.history.length ∧ bitOf (held.remountCtrl 1) 4 = true := by
  and_intros <;> decide +kernel

theorem test_premises_PaceEntriesOfThePlan :
    let s := fun (d : Paddock) (act tgt : Nat) (off : Int) (arg : BitVec 64) => dueEntry d ⟨off, act, tgt, arg⟩
    let n : TreeNode := { place := 0, inputs := 1, parentInput := 0xFF, parent := 0, rootSync := 0xFF }
    let tr : Tree := { id := 1023, nodes := [n], leaves := [] }
    let takes := fun (s : State) (act : Nat) => decide ((s.region 0).opens = []) && decide ((s.region 0).due.map (·.action) = [act]) && s.issues (s.region 0).owner
    let bst : ReinBurst := { paddock := 1, rein := 5, dest := 0, words := [{}, {}] }
    takes (s {} 0 0 0 0) 0 = true ∧ takes (s (withRein .closed) 1 5 0 0) 1 = true
      ∧ (s (withRein .closed) 1 5 0 0).rein 1 5 = some ⟨5, false, false, 0, 0, 1, 0, [(1, 0, false)], .closed, rein1.opened, []⟩
      ∧ (s (withRein .closed) 1 5 0 0).linksHeld 1 ⟨5, false, false, 0, 0, 1, 0, [(1, 0, false)], .closed, rein1.opened, []⟩ = false
      ∧ takes (s (withRein .ready) 2 5 0 0) 2 = true ∧ (s (withRein .ready) 2 5 0 0).rein 1 5 = some rein1
      ∧ ({ s (withRein .ready) 2 5 0 0 with bursts := [bst] } : State).bursts.any (fun b => b.paddock == 1 && b.rein == 5) = true
      ∧ (s (withRein .ready) 2 5 0 0).bursts.any (fun b => b.paddock == 1 && b.rein == 5) = false
      ∧ getD [] ((s (withRein .ready) 2 5 0 0).tile 0).srcBursts 1 = []
      ∧ takes (s { trees := [tr] } 6 1023 0 0) 6 = true ∧ tr.nodesIn 0 = [n] ∧ tr.leavesIn 0 = []
      ∧ ((s { trees := [tr] } 6 1023 0 0).paddock 1).trees.find? (fun t => t.id == 1023) = some tr
      ∧ getD none ((s { trees := [tr] } 6 1023 0 0).tile (placeTile 0)).nodes (nodeSlot 0) = none
      ∧ takes (s {} 7 0 0 0) 7 = true ∧ takes (s {} 8 63 0 0) 8 = true ∧ takes (s {} 9 0 0 0) 9 = true
      ∧ takes (s {} 5 0 (-1) 127) 5 = true ∧ takes (s {} 5 0 0 127) 5 = true ∧ bitOf (127 : BitVec 64) 62 = false
      ∧ bitOf (0x4000000000000000 : BitVec 64) 62 = true ∧ takes (s {} 5 0 0 0x4000000000000000) 5 = true
      ∧ bitOf ((s {} 5 0 0 0x4000000000000000).remountCtrl 1) 4 = true ∧ ((s {} 5 0 0 0).paddock 1).remount.history.length < 16
      ∧ bitOf (({ s {} 5 0 0 0x4000000000000000 with regs := [(0x00701040 / 8, 4)] } : State).remountCtrl 1) 4 = false
      ∧ (s (withRein .opening) 0 0 0 0).rein 1 (5#12).toNat = some ⟨5, false, false, 0, 0, 1, 0, [(1, 0, false)], .opening, rein1.opened, []⟩
      ∧ (s (withRein .opening) 0 0 0 0).linksHeld 1 ⟨5, false, false, 0, 0, 1, 0, [(1, 0, false)], .opening, rein1.opened, []⟩ = false
      ∧ (⟨5, false, false, 0, 0, 1, 0, [(1, 0, false)], .opening, rein1.opened, []⟩ : Rein).hops.all (s (withRein .opening) 0 0 0 0).hopLive = true := by
  and_intros <;> decide +kernel

theorem test_premises_PosesAndLedgersOfThePlan :
    let d : Paddock := { groups := [⟨0xFFF, 0, [(0, 0, 1, 0)], 63⟩], image := some image1 }
    let s := fun (act tgt : Nat) => dueEntry d ⟨0, act, tgt, 15⟩
    let u := ((s 3 0xFFF).setTile 0 { tile0 with slots := [(15, .resident)] })
    (s 3 0xFFF).issues 1 = true ∧ u.membersIn 1 0xFFF 0 = [0, 1] ∧ (u.membersIn 1 0xFFF 0).Nodup ∧ u.issues 1 = true
      ∧ (u.tile 0).parked = false ∧ (u.tile 0).slot (field (15 : BitVec 64) 0 4) ≠ .empty ∧ (u.tile 1).parked = true
      ∧ (u.tile 0).loadQueue.length < 4 ∧ ((s 10 5).region 0).due = [⟨0, 10, 5, 15⟩] ∧ (s 10 5).issues 1 = true
      ∧ ((s 10 5).paddock 1).image = some image1
      ∧ ((image1.units ((s 10 5).paddock 1).placement 0).find? (fun x => x.id == 5)).isSome = true := by
  and_intros <;> decide +kernel

theorem test_premises_BeatsAndDeadlines :
    let s := fun (o : OpenStride) (g : Region) (c : BitVec 64) => paced { current := some o, paceCount := c } { g with dir := [(0, 0x4001000)] }
    let met : Region := { deadlines := [0] }
    let not_ : Region := { deadlines := [0], barriers := [(0, { mode := 1, target := 1 })] }
    let fa : OpenStride := { open0 with policyFault := true, overrunReplays := 1 }
    (s { open0 with test := .held } {} 0).running 1 = some { open0 with test := .held }
      ∧ (s open0 {} 0).running 1 = some open0 ∧ (s open0 {} 0).shared 1 = false ∧ (s open0 {} 0).hasDeadline 1 = false
      ∧ (s open0 {} 0).lastBeat 1 open0 = false ∧ (s open0 met 1).lastBeat 1 open0 = true ∧ (s open0 met 1).dueDone 1 = true
      ∧ (s open0 met 1).running 1 = some open0 ∧ (s open0 met 1).hasDeadline 1 = true ∧ (s open0 met 1).unmet 1 = []
      ∧ (s open0 not_ 0).unmet 1 = [(0, 0)] ∧ (s open0 not_ 0).running 1 = some open0 ∧ (s open0 not_ 0).hasDeadline 1 = true
      ∧ ((s open0 not_ 0).paddock 1).strideHeld + 1 ≤ open0.stretchMax ∧ (s fa not_ 0).running 1 = some fa
      ∧ fa.overrunReplays < 2 ∧ (s { open0 with stretchMax := 0 } not_ 0).running 1 = some { open0 with stretchMax := 0 } := by
  and_intros <;> decide +kernel

theorem test_premises_StridesOpenCloseReplay :
    let n : PendingStride := { table := 0, kind := .stride, desc := some 0, key := 0, left := 0 }
    let s := fun (d : Paddock) => paced d { dir := [(0, 0x2001000)] }
    let op := s { next := some n, image := some image1, paceSrc := 2 }
    let x : Desc := { id := 0, ring := 0, paddock := 1, bytes := [] }
    let passed : OpenStride := { open0 with test := .passed }
    let cl : State := { s { current := some passed } with descs := [x] }
    let rp := s { current := some { open0 with faulted := true }, image := some image1 }
    (op.paddock 1).nextStride = some n ∧ (op.paddock 1).current = none ∧ (op.paddock 1).image.isSome = true
      ∧ (op.paddock 1).run = none ∧ op.refLost = false ∧ (op.paddock 1).pairMode = 0 ∧ op.decodeRefused 1 n = none
      ∧ (op.admittedStep 1 0).isSome = true ∧ (s { next := some n, image := some hungry }).admittedStep 1 0 = none ∧ ((s { next := some n, image := some hungry }).paddock 1).nextStride = some n
      ∧ (s { next := some n, image := some hungry }).decodeRefused 1 n = none
      ∧ cl.running 1 = some passed ∧ cl.shared 1 = false ∧ cl.lastBeat 1 passed = true ∧ cl.dueDone 1 = true
      ∧ cl.desc 0 = some x ∧ x.decode = none ∧ (cl.paddock 1).next = none
      ∧ (rp.paddock 1).current = some { open0 with faulted := true } ∧ (rp.paddock 1).image.isSome = true ∧ rp.refLost = false
      ∧ rp.halted = false ∧ (op.paddock 1).ended = none ∧ (op.paddock 1).twin.stopped = false
      ∧ (op.paddock 1).twin.detaching = false ∧ op.halted = false ∧ (cl.paddock 1).twin.detaching = false
      ∧ ({ base with released := true } : State).refLost = false ∧ ({ base with released := true, flip := true } : State).flip = true
      ∧ beatOf (base.paddock 0).paceCount < 2 ^ 20 - 1
      ∧ strideOf (base.paddock 0).paceCount < 2 ^ 44 - 1 := by
  and_intros <;> decide +kernel

theorem test_premises_PaceReference :
    let s := paced { paceSrc := 1, lastRun := some { table := 0, kind := .stride, desc := none, key := 0, left := 0 } } {}
    let u : State := { s with released := true }
    bitOf s.paceStatus 0 = false ∧ bitOf ({ s with paceStatus := 1 } : State).paceStatus 0 = true
      ∧ ({ s with ready := true } : State).ready = true ∧ field (256 : BitVec 64) 0 9 ≤ 256 ∧ 4 ≤ field (4 : BitVec 64) 0 9
      ∧ s.paddocks.any (fun x => x.2.paceBusy) = false ∧ 256 < field (257 : BitVec 64) 0 9
      ∧ (dueEntry {} ⟨0, 0, 0, 0⟩).paddocks.any (fun x => x.2.paceBusy) = true ∧ (s.paddock 1).live = true
      ∧ field (2 : BitVec 64) 0 2 < 3 ∧ (s.paddock 1).paceBusy = false ∧ field (3 : BitVec 64) 0 2 = 3
      ∧ (s.paddock 1).paceSrc = 1 ∧ (s.paddock 1).ended = none ∧ (s.paddock 1).lastRun.isSome = true
      ∧ ((paced { paceSrc := 1, pulse := true } {}).paddock 1).pulse = true ∧ u.bar0Open = true ∧ s.released = false := by
  and_intros <;> decide +kernel

/-! ## The pace: results from the rules -/

theorem test_beat_counts : leads (exec (.beatBoundary 1) (paced { current := some open0, paceCount := 0x100005 } { dir := [(0, 0x14001000)] }))
    (fun s => decide ((s.paddock 1).paceCount = 0x100006)) = true := by decide +kernel

theorem test_ledger_debits : leads (exec (.ledgerTick 0 400) (dueEntry { image := some image1 } ⟨0, 10, 5, 0⟩))
    (fun s => decide ((s.region 0).normalUj = -400 ∧ (s.region 0).latencyUj = 0)) = true := by decide +kernel

theorem test_pace_ctrl_below_4 : leads (exec (.paceCtrlWrite 3) base) (fun s => decide (s.paceStatus = 4)) = true := by decide +kernel

/-! ## The tiers: the premises of their statements -/

/-- A paddock with the window at share offset 0, one layer (63) of 16 experts in group 15 of two slots with one lane
each, fed by a rein from the frame. -/
abbrev moe (m : Remount) : Paddock :=
  { live := true, w := 1, h := 1, window := some 0, nearUnits := [5], reins := [{ rein1 with frameSource := true }], remount := { m with layers := [(63, ⟨15, 16, 2, List.replicate 16 0⟩)], groups := [(15, ⟨2, 1, 1, [⟨5, 0, 0, 0, 0x1000⟩, ⟨5, 0, 0, 0, 0x2000⟩]⟩)] } }

abbrev slotOf (e : Nat) (pin : Bool) : RemountSlot := ⟨63, e, 0, pin, true, false, false, 0, [0], [0], [0]⟩

/-- A put of one word to an offset of the window, arrived at the frame. -/
abbrev winPut (off : BitVec 64) (w : BitVec 64) (more : List PWord) : Packet :=
  { pkt .put 1 0 1 ({ val := w } :: more) .frame with frame := true, operand := 0x1000000000000000 + off }

theorem test_premises_RemountBinding :
    let p := fun (v : BitVec 64) => winPut (2 * 64 * 63) v [{}]
    let s := fun (m : Remount) (v : BitVec 64) => ({ base with paddocks := [(1, moe m)], net := [p v] } : State)
    let held : Remount := { slots := [(241, some (slotOf 3 false))] }
    let full : Remount := { slots := [(240, some (slotOf 4 true)), (241, some (slotOf 5 true))] }
    let v : BitVec 64 := 0x8003
    let rel := winPut 0x8078 (2 ^ 15) []
    let rs : State := { base with paddocks := [(1, moe { slots := [(255, some (slotOf 3 true))] })], net := [rel] }
    let gs := s held v
    (s held v).atFrame 0 .put (s held v).sameAgent = some (p v)
      ∧ ((s held v).paddock 1).inWindow (p v).operand = some 8064 ∧ field v 0 16 / 4096 % 8 = 0 ∧ choiceValid (field v 0 16) = true
      ∧ choiceValid (getD 0 held.choices 4032) = false ∧ (0 : Nat) + 1 < 4 * (p v).data.length ∧ choiceValid (field (3 : BitVec 64) 0 16) = false
      ∧ (s held 3).atFrame 0 .put (s held 3).sameAgent = some (p 3)
      ∧ (moe held).remount.boundLower 63 0 3 = none ∧ (moe held).remount.holder 15 2 63 3 = some 1
      ∧ (moe held).remount.slot 15 1 = some (slotOf 3 false)
      ∧ (moe {}).remount.holder 15 2 63 3 = none ∧ (moe {}).remount.victim 15 2 = some 0
      ∧ (s {} v).atFrame 0 .put (s {} v).sameAgent = some (p v)
      ∧ (moe full).remount.holder 15 2 63 3 = none ∧ (moe full).remount.victim 15 2 = none
      ∧ (s full v).atFrame 0 .put (s full v).sameAgent = some (p v)
      ∧ rs.atFrame 0 .put rs.sameAgent = some rel ∧ (rs.paddock 1).inWindow rel.operand = some (0x8000 + 8 * 15)
      ∧ rel.data = [⟨BitVec.ofNat 64 (2 ^ 15), false⟩] ∧ getD none (rs.paddock 1).remount.slots (16 * 15 + 15) = some (slotOf 3 true)
      ∧ (gs.paddock 1).remount.slot (246784 / 16384) (246784 / 1024 % 16) = some (slotOf 3 false)
      ∧ (gs.paddock 1).remount.slots ≠ [] ∧ gs.rein 1 5 = some { rein1 with frameSource := true }
      ∧ ((⟨2, 1, 1, [⟨5, 0, 0, 0, 0x1000⟩, ⟨5, 0, 0, 0, 0x2000⟩]⟩ : RemountGroup).lanesOf 1)[0]? = some ⟨5, 0, 0, 0, 0x2000⟩
      ∧ ((⟨5, 0, 0, 0, 0x2000⟩ : RemountLane).granulesOf 1 2)[0]? = some 0 ∧ rein1.taps ≠ []
      ∧ gs.shareLocked 1 false 0 4096 = false ∧ gs.laneNext 1 0 (laneTurn 15 1 0) = true ∧ (p v).taken % 2 = 0 := by
  and_intros <;> decide +kernel

theorem test_premises_TierUpkeep :
    let s : State := { base with near := { Tier.near with heals := [7], migration := some ⟨0, 12, 0, 0⟩ }, regs := [(0x00700040 / 8, 0x100)] }
    let m : State := { base with paddocks := [(1, { live := true, nearUnits := [0], farUnits := [0], mirrors := [(0, 0, 4096)] })], near := { Tier.near with heals := [7] } }
    let u : State := { base with near := { Tier.near with sparesUsed := [12] } }
    let due : State := { base with near := { Tier.near with ueTimes := [(23, [0, 0, 0])] } }
    let due2 : State := { u with near := { u.near with ueTimes := [(11, [0, 0, 0])] }, far := { Tier.far with ueTimes := [(15, [0, 0, 0])] } }
    (s.tier false).heals.contains 7 = true ∧ (m.goodCopy false 7).isSome = true ∧ s.goodCopy false 7 = none
      ∧ bitOf (s.scrubCtrl false) 8 = true ∧ (s.tier false).heals.contains (s.tier false).scrubAt = false ∧ s.halted = false
      ∧ ((s.tier false).granule (s.tier false).scrubAt).poison = false ∧ ((s.tier false).granule 0).ecc = .good
      ∧ s.mirrorOf false 0 = none ∧ s.scrubOverrun false = false
      ∧ ({ s with near := { s.near with scrubAt := 5 }, regs := [(0x00700040 / 8, 0x101)], refCount := 360000000001 } : State).scrubOverrun false = true
      ∧ due.migrationDue false 23 = true ∧ due.near.sites[23]? = some 24
      ∧ (due.tier false).failed.contains 23 = false ∧ due2.migrationDue false 11 = true ∧ due2.migrationDue true 15 = true ∧ base.near.sites[23]? = some 24 ∧ (base.tier false).migration = none
      ∧ (base.tier false).failed.contains 23 = false ∧ (base.tier false).sparesUsed.contains (spareOf false 24) = false
      ∧ (u.tier false).sites[11]? = some 11 ∧ (u.tier false).sparesUsed.contains (spareOf false 11) = true
      ∧ (s.tier false).migration = some ⟨0, 12, 0, 0⟩ ∧ (base.tier true).sites[15]? = some 16
      ∧ (base.tier true).sparesUsed.contains (spareOf true 16) = false := by
  and_intros <;> decide +kernel

theorem test_premises_Apertures :
    let s : State := { base with paddocks := [(1, { live := true, nearUnits := [5], winNear := 0x20000000 })], regs := [(0x00700080 / 8, 0x8001000000000000)], released := true }
    let d : State := { s with debugOpen := true, sec := { scope := 2 } }
    base.halted = false ∧ ({ base with halted := true } : State).halted = true ∧ base.apertureTarget 0 64 = none ∧ s.apertureTarget 0xFC0 64 = some (1, false, 0xFC0) ∧ s.shareLocked 1 false 0xFC0 64 = false
      ∧ s.takesGranule 1 false 0xFC0 (5 * 2 ^ 30 + 0xFC0) ∧ (0xFC0 : Nat) % 4096 ≤ 4032 ∧ s.bar0Open = true ∧ s.debugOpen = false
      ∧ d.bar0Open = true ∧ d.sec.scope.getLsbD 1 = true ∧ (d.region 0).state = .active ∧ d.tileSlot 0x1FFF = some (63 * 840 + 127)
      ∧ ({ s with near := { Tier.near with failed := [0] } } : State).granuleBad false 0 = true := by
  and_intros <;> decide +kernel

/-! ## The tiers: results from the rules -/

theorem test_aperture_write_reads_back :
    let s : State := { base with paddocks := [(1, { live := true, nearUnits := [5], winNear := 0x20000000 })], regs := [(0x00700080 / 8, 0x8001000000000000)] }
    leads (exec (.apertureWrite 0x40 (List.replicate 64 0xA5)) s) (fun u =>
      leads (exec (.apertureRead 0x41 2) u) (fun v => decide (v.out = [Out.aperture [0xA5, 0xA5] false]))) = true := by decide +kernel

theorem test_aperture_miss_all_ones : leads (exec (.apertureRead 0 2) base)
    (fun v => decide (v.out = [Out.aperture [0xFF, 0xFF] false])) = true := by decide +kernel

/-! ## The host interface: the premises of its statements -/

/-- Descriptor bytes: opcode, flags, administrative paddock, and its 8-byte words from byte 8 on. -/
abbrev dbytes (op flags pad : Nat) (ws : List Nat) : List (BitVec 8) :=
  bytesLE 2 op ++ [BitVec.ofNat 8 flags, BitVec.ofNat 8 pad, 0xEE, 0xEE, 0xEE, 0xEE] ++ (ws.map (bytesLE 8)).flatten

/-- A consumed descriptor with those bytes, of paddock 1 on ring 1. -/
abbrev dsc (op : Nat) (ws : List Nat) : Desc := { id := 0, ring := 1, paddock := 1, bytes := dbytes op 0 0 ws }

/-- A descriptor of the administrative ring that names a paddock. -/
abbrev adm (op pad : Nat) (ws : List Nat) : Desc := { id := 0, ring := 0, paddock := pad, bytes := dbytes op 0 pad ws }

/-- A module whose paddock 1 is as given and that has consumed a descriptor. -/
abbrev at1 (p : Paddock) (x : Desc) : State :=
  { base with paddocks := [(1, { p with live := true, w := 1, h := 1 })], descs := [x] }

/-- A ring of 16 entries at host address 0x1000, completions at 0x2000, doorbell record at 0x3000. -/
abbrev ring16 : Ring := { sq := 0x1004, cq := 0x2004, db := 0x3000, enable := true, paddock := 1 }

theorem test_premises_HostRings :
    let s : State := { base with rings := [(1, ring16)], ready := true, regs := [(0x28000 / 8, 0x100C8)], hostMem := [(0x1000, 1), (0x3000, 1)] }
    let s1 := s.readDoorbell 1
    let r := s1.ring 1
    let b := s1.hostRead (ringBase r.sq + 64 * r.sqHead) 64
    let ev : State := { base with eventLost := 3, regs := [(0x28018 / 8, 0x5004)] }
    let d : Desc := { dsc 1 [] with status := some 2, bytes := dbytes 1 2 0 [] }
    let c : State := { at1 {} d with rings := [(1, { ring16 with cqTail := 15 })] }
    s.ready = true ∧ s.halted = false ∧ s.d3hot = false ∧ bitOf (s.frameReg 0x00028000 0xC8) 16 = true
      ∧ (∀ j, j < 256 → j ≠ 1 → (s.ring j).enable = false) ∧ r.enable = true ∧ r.error = false ∧ r.paddock ≠ 0
      ∧ r.sqTail = r.sqHead + 1 ∧ r.sqTail < ringSize r.sq ∧ descNat b 0 2 ≠ 2 ∧ extensionsOf b = 0 ∧ s1.mayConsume 1 b = true
      ∧ s1.shared r.paddock = false ∧ (base.ring 255).enable = false ∧ base.eventLost = 0
      ∧ bitOf (0x8000000000000000 : BitVec 64) 63 = true ∧ 0 < ev.eventLost ∧ ev.d3hot = false ∧ d.opcode ≠ 2
      ∧ ({ ev with eventEnable := true, eventUnread := ev.eventLeft 5, eventHead := 5 } : State).eventFull = false ∧ canonical {} s.rings = true
      ∧ (at1 {} (dsc 1 [])).desc 0 = some (dsc 1 []) ∧ c.desc 0 = some d ∧ d.completed = false ∧ c.sealDue d = false
      ∧ c.d3hot = false ∧ (c.paddock 1).primary = true ∧ c.shared 1 = false ∧ (c.ring 1).enable = true ∧ 8 ≤ d.bytes.length ∧ d.mute = false ∧ d.staged = none
      ∧ d.flags / 2 % 2 = 1 ∧ ({ c with msix := [(1, 0)] } : State).msixMasked 0 = false
      ∧ (c.ring 1).cqTail + 1 = ringSize (c.ring 1).cq := by
  and_intros <;> decide +kernel

theorem test_premises_DescriptorsMoving :
    let pd : Paddock := { nearUnits := [5], farUnits := [6], winNear := 0x20000000, slots := [(2, { state := 2 })] }
    let si := dsc 0x10 [0, 0xFC0, 64, 0x5000]
    let so := dsc 0x11 [0, 0, 64, 0x5000]
    let bad : State := { at1 pd so with near := { Tier.near with failed := [0] } }
    let rel := dsc 0x70 [0x00030000]
    let ck := dsc 0x50 [0, 0x1000, 0x1000]
    let early : Desc := { dsc 0x30 [] with status := some 0, started := true }
    let c : Checkpoint := { chains := [], tiles := [(3, [])], barriers := [(0, [])], wafer := [], sessions := [] }
    (at1 pd (dsc 1 [])).atDesc 0 1 (dsc 1 []) ∧ (at1 pd (dsc 2 [])).atDesc 0 2 (dsc 2 [])
      ∧ (at1 pd (dsc 3 [])).atDesc 0 3 (dsc 3 [])
      ∧ ({ at1 pd (dsc 3 []) with descs := [{ dsc 1 [] with status := some 0 }, { dsc 3 [] with id := 1 }] } : State).atDesc 1 3 { dsc 3 [] with id := 1 }
      ∧ (at1 pd si).atDesc 0 0x10 si ∧ (at1 pd si).shared 1 = false
      ∧ ((at1 pd so).paddock 1).inShare false 0 64 = true ∧ (at1 pd so).atDesc 0 0x11 so ∧ so.slot = none
      ∧ (at1 pd so).shareLocked 1 false 0 64 = false ∧ ((at1 pd so).shareBytes 1 false 0 64).any Prod.snd = false
      ∧ bad.atDesc 0 0x11 so ∧ (bad.shareBytes 1 false 0x0 64).any Prod.snd = false
      ∧ (at1 pd rel).atDesc 0 0x70 rel ∧ rel.nat 10 2 = 3 ∧ rel.nat 8 2 = 0 ∧ (0 : Nat) + 3 ≤ 2 ^ (29 - ((at1 pd rel).paddock 1).slotLog)
      ∧ (∀ k, k < 3 → (((at1 pd rel).paddock 1).slot k).state ≠ 1)
      ∧ (at1 pd (dsc 0x61 [0, 0x6000, 64])).atDesc 0 0x61 (dsc 0x61 [0, 0x6000, 64])
      ∧ ((at1 pd (dsc 0x61 [])).paddock 1).primary = true
      ∧ (at1 pd ck).atDesc 0 0x50 ck ∧ ((at1 pd ck).paddock 1).inShare true (ck.nat 16 8) (ck.nat 24 8) = true
      ∧ (at1 pd (dsc 0x51 [0, 0x1000])).atDesc 0 0x51 (dsc 0x51 [0, 0x1000])
      ∧ look ((at1 pd (dsc 0x51 [])).paddock 1).checkpoints 0x1000 = none
      ∧ look ((at1 { pd with checkpoints := [(0x1000, c)] } (dsc 0x51 [])).paddock 1).checkpoints 0x1000 = some c
      ∧ (at1 pd ck).chainsReady ck = true ∧ ({ at1 pd ck with descs := [early, { ck with id := 1 }] } : State).atDesc 1 0x50 { ck with id := 1 }
      ∧ ({ at1 pd ck with descs := [early, { ck with id := 1 }] } : State).chainsReady { ck with id := 1 } = false
      ∧ (c.tiles.map Prod.fst).Nodup ∧ (c.barriers.map Prod.fst).Nodup := by
  and_intros <;> decide +kernel

/-- A STAGE_IN of one granule: length, share offset and host address in bytes 24, 16 and 32. -/
theorem test_premises_DescriptorsMoving_stageIn :
    let pd : Paddock := { nearUnits := [5], farUnits := [6], winNear := 0x20000000 }
    let x := dsc 0x10 [0, 0xFC0, 64, 0x5000]
    let s := at1 pd x
    let bad : State := { at1 pd (dsc 0x11 [0, 0, 64, 0x5000]) with near := { Tier.near with failed := [unitOf false (5 * 2 ^ 30)] } }
    s.atDesc 0 0x10 x ∧ x.staged = none ∧ x.nat 24 8 = 64 ∧ (s.paddock 1).inShare false (x.nat 16 8) 64 = true
      ∧ s.takesGranule 1 false (x.nat 16 8) (5 * 2 ^ 30 + 0xFC0) ∧ (∀ i, i < 64 → s.hostPoison.contains (x.nat 32 8 + i) = false)
      ∧ (bad.shareBytes 1 false 0 64).any Prod.snd = true := by
  and_intros <;> decide +kernel

/-- A program image of 1,024 bytes for one region: a directory of pace tables, an empty pace store, 64 unused barrier
objects, no tile set-up and no units. The digests were computed by SHA-256 outside the model. -/
abbrev imageBytes (flags : BitVec 8) (content : List (BitVec 8)) : List (BitVec 8) :=
  [0x51, 0x47, 0x49, 0x4D, 0x47, 0, 0, 0, 1, 0, 1, 0, 0x10, 0x72, flags, 0, 0, 4, 0, 0, 0, 0, 0, 0] ++ content
    ++ [0x9e, 0x13, 0x24, 0x85, 0xd5, 0x10, 0x72, 0x11, 0xde, 0x32, 0x5a, 0x45, 0xe7, 0x91, 0x7c, 0xbe,
        0x3e, 0x4b, 0x5b, 0x9c, 0xde, 0x3e, 0x4e, 0xe9, 0x1d, 0x7d, 0x21, 0x02, 0x31, 0x77, 0x59, 0xee]
    ++ [5, 0, 0, 0, 0, 0, 1, 1] ++ List.replicate 160 0
    ++ [1, 0, 0, 0, 1, 0, 0, 0, 6, 0, 0, 0, 2, 0, 0, 0, 2, 0, 0, 0, 1, 0, 0, 0, 6, 0, 0, 0, 0, 0, 0, 0]
    ++ [3, 0, 0, 0, 1, 0, 0, 0, 8, 0, 0, 0, 8, 0, 0, 0, 5, 0, 0, 0, 1, 0, 0, 0, 6, 0, 0, 0, 0, 0, 0, 0]
    ++ [10, 0, 0, 0, 1, 0, 0, 0, 6, 0, 0, 0, 0, 0, 0, 0] ++ List.replicate 688 0

abbrev contentDigest : List (BitVec 8) :=
  [0x0a, 0xc2, 0x62, 0x11, 0xc1, 0x94, 0x5a, 0xd0, 0x48, 0xb4, 0x63, 0x91, 0xd1, 0xb8, 0xfd, 0xe8,
   0x9b, 0x50, 0x42, 0x1f, 0x4b, 0x16, 0x14, 0x97, 0x8c, 0xa8, 0xca, 0x04, 0x38, 0xdb, 0xa8, 0xb1]

/-- The host memory that holds bytes from address 0x100000 on, without its zeros. -/
abbrev hostWith (b : List (BitVec 8)) : Map (BitVec 8) :=
  (((List.range b.length).zip b).filter (fun x => x.2 != 0)).map (fun x => (0x100000 + x.1, x.2))

theorem test_imageBytes_pass : imageBytesOk (imageBytes 0 contentDigest) (0, 0, 1, 1) 1024 false = true := by decide +kernel
theorem test_planBytes_pass : imageBytesOk (imageBytes 4 (List.replicate 32 0)) (0, 0, 1, 1) 1024 true = true := by decide +kernel

theorem test_premises_DescriptorsImages_load :
    let x := dsc 0x20 [0, 1024, 0x100000, 0]
    let pd : Paddock := { nearUnits := [5], farUnits := [6] }
    let s : State := { at1 pd x with hostMem := hostWith (imageBytes 0 contentDigest) }
    let raw := imageBytes 0 contentDigest
    let i := readImage raw 0 1024 none
    s.atDesc 0 0x20 x ∧ (s.paddock 1).current = none ∧ x.nat 8 1 = 0 ∧ x.nat 16 8 = 1024 ∧ x.nat 24 8 = 0x100000 ∧ x.nat 32 8 = 0
      ∧ (s.paddock 1).inShare false 0 1024 = true ∧ s.shared 1 = false
      ∧ (s.hostBytes 0x100000 1024).map (fun b => BitVec.ofNat 8 b.1) = raw
      ∧ imageBytesOk [] (0, 0, 1, 1) 1024 false = false ∧ s.imageRefused 1 i raw = none ∧ s.placementFor i = some 0 := by
  and_intros <;> decide +kernel

theorem test_premises_DescriptorsImages_shared :
    let x := dsc 0x20 [0x0202, 1024, 0x100000, 0]
    let i0 : Image := { header := [], sections := [], digest := 0, base := 0, length := 1024, shared := none }
    let s : State := { at1 {} x with hostMem := hostWith (imageBytes 4 (List.replicate 32 0)), paddocks := [(1, { live := true, w := 1, h := 1, nearUnits := [5] }), (2, { live := true, nearUnits := [9], image := some i0 })] }
    let raw := imageBytes 4 (List.replicate 32 0)
    let i := { readImage raw 0 1024 (some 2) with sections := (readImage raw 0 1024 none).sections ++ i0.sections.filter (fun x => x.kind == 8) }
    s.atDesc 0 0x20 x ∧ x.nat 8 1 = 2 ∧ x.nat 9 1 = 2 ∧ s.shared 1 = false ∧ (s.paddock 2).image = some i0
      ∧ (s.hostBytes 0x100000 1024).map (fun b => BitVec.ofNat 8 b.1) = raw
      ∧ i.digest = i0.digest ∧ mayMap (s.paddock 2) (s.paddock 1) i0 0 = true
      ∧ s.imageRefused 1 i ((s.shareBytes 2 false 0 1024).map (fun b => BitVec.ofNat 8 b.1)) = none := by
  and_intros <;> decide +kernel

theorem test_premises_DescriptorsImages_others :
    let pd : Paddock := { image := some image1 }
    let ul := dsc 0x21 []
    let mk := adm 0x100 28 [0x0000000001010000 + 0x0001000100000000, 16, 0, 2]
    let free : State := { base with paddocks := [], regions := [(0, { state := .gated })], rings := [(1, { ring16 with paddock := 0 })], descs := [mk] }
    let ds := adm 0x101 1 []
    let bs := adm 0x102 1 [0x321400]
    let own : State := { at1 {} ds with rings := [(1, ring16)] }
    (at1 pd ul).atDesc 0 0x21 ul ∧ ((at1 pd ul).paddock 1).pairMode = 0
      ∧ free.atDesc 0 0x100 mk ∧ free.createBad mk = false ∧ mk.nat 3 1 = 28 ∧ ringMask mk = [1]
      ∧ (allotUnits false (tierUnitCount false) (mk.nat 12 2) 0 (free.unitsHeld false)).isSome = true
      ∧ (allotUnits true (tierUnitCount true) (mk.nat 14 2) 0 (free.unitsHeld true)).isSome = true
      ∧ own.atDesc 0 0x101 ds ∧ canonical {} own.rings = true ∧ (∀ x ∈ own.descs, x.paddock = 1 → x.id = 0 ∨ x.completed = true)
      ∧ (at1 pd bs).atDesc 0 0x102 bs ∧ bs.nat 8 1 = 0 ∧ image1.usesClass 0 = false := by
  and_intros <;> decide +kernel

/-- An image of region 0 with a group of tile 0, and a decode plan of capacity 100 whose tables of each kind are table 0. -/
abbrev planImage : Image :=
  { header := List.replicate 14 0 ++ [2] ++ List.replicate 79 0 ++ [1, 1], digest := 0, base := 0, length := 0, shared := none, sections := [⟨4, 0, 0, [0, 0, 1, 0, 0, 0, 0, 0] ++ List.replicate 8 0⟩, ⟨0x18, 31, 0, [100, 0, 0, 0, 0, 0, 0, 0, 3, 0, 0, 0, 0, 0, 0, 0, 0, 0, 0, 0, 9, 0, 0, 0, 0, 0, 0, 0, 0, 0, 0, 0, 1, 0, 0, 0, 9, 0, 0, 0, 0, 0, 0, 0, 0, 0, 0, 0, 2, 4, 0, 0, 9, 0, 0, 0, 0, 0, 0, 0, 0, 0, 0, 0]⟩] }

/-- A module with that image, table 0 in use, a declaration and a session. -/
abbrev planned (x : Desc) : State :=
  { at1 { image := some planImage, tallies := [(0, ⟨0, 31, true, 1, 0x1000, 0x2000, 0⟩)], sessions := [(7, { seed := 1, sample := false, c := 0, k := 4, stops := [], maxNew := 9, limit := 9 })] } x with regions := [(0, { state := .active, owner := 1, dir := [(0, 0x2001000)] })] }

theorem test_premises_DescriptorsStrides_begin :
    let st := dsc 0x30 [0x10000, 0]
    let op := dsc 0x32 [0x01, 5, 9 + 91 * 2 ^ 32]
    let over_ := dsc 0x32 [0x01, 5, 9 + 92 * 2 ^ 32]
    let cl := dsc 0x34 [7]
    let step := fun (kind : Nat) => dsc 0x33 [7 + 256 * kind]
    let tr := dsc 0x40 [0, 0, 0, 0]
    let z : Session := { seed := 1, sample := false, c := 0, k := 4, stops := [], maxNew := 9, limit := 9 }
    (planned st).atDesc 0 0x30 st ∧ ((planned st).paddock 1).strideWaits = false ∧ (planned st).tableUsed 1 (st.nat 8 1) = true
      ∧ st.nat 10 4 = 1 ∧ (planned op).atDesc 0 0x32 op ∧ (planImage.decodePlan 0).map Prod.fst = some 100
      ∧ look ((planned op).paddock 1).sessions (op.nat 8 1) = none ∧ op.nat 10 1 ≤ 8
      ∧ ((((planned op).paddock 1).sessions.map (fun kv => kv.2.limit)).sum + op.nat 28 4 ≤ 100)
      ∧ 100 < (((planned over_).paddock 1).sessions.map (fun kv => kv.2.limit)).sum + over_.nat 28 4
      ∧ (planned over_).atDesc 0 0x32 over_ ∧ positiveFinite 0x3F800000 = true ∧ planImage.maquette = true
      ∧ (planned cl).atDesc 0 0x34 cl ∧ look ((planned cl).paddock 1).sessions 7 = some z
      ∧ (∀ k, k ≤ 2 → (planned (step k)).atDesc 0 0x33 (step k) ∧ (step k).nat 9 1 = k
        ∧ (planImage.decodePlan 0).bind (fun p => planTable p.2.2 k 4 (if k = 0 then 0 else if k = 2 then 4 else 1)) = some 0)
      ∧ (planTable ((planImage.decodePlan 0).getD (0, 0, [])).2.2 1 4
          ((⟨1, 7, 4, [], [], false⟩ : DecodeWork).stop z 0)).or (lastTable ((planImage.decodePlan 0).getD (0, 0, [])).2.2 1 4) = some 0
      ∧ (planned (step 1)).tableUsed 1 0 = true
      ∧ z.depth 4 = 4 ∧ z.finished = false ∧ ((planned (step 1)).paddock 1).current = none
      ∧ look ({ (planned (step 1)).paddock 1 with sessions := [(7, { z with finished := true })] } : Paddock).sessions 7 = some { z with finished := true } ∧ (planned tr).atDesc 0 0x40 tr ∧ tr.nat 10 1 = 0 ∧ samplerOk 0 0 0 = true
      ∧ tr.nat 16 8 + 1 * (((planned tr).paddock 1).tallyOwners 0).length ≤ 2 ^ 36 := by
  and_intros <;> decide +kernel

theorem test_premises_DescriptorsStrides_end :
    let run : TallyRun := { ctx := ⟨0, 5, 1, 1, 2, 3, 4⟩, clear := true, slot := 0, desc := 0 }
    let x := dsc 0x40 []
    let s : State := { planned x with paddocks := [(1, { live := true, w := 1, h := 1, image := some planImage, tallies := [(0, ⟨0, 31, true, 1, 0x1000, 0x2000, 0⟩)], run := some run, eraseDue := [2] })] }
    let u := s.setTile 0 { tile0 with mem := [(0x400, { val := pendingCell })] }
    let sc := fun (m : Nat) => dsc 0x60 [m, 0x0001000000000000, 0, 0x7000, 1, 0x8000, 0x0000000200000001]
    let sl : Desc := { dsc 1 [] with status := some 0, bytes := dbytes 1 4 0 [] }
    u.desc 0 = some x ∧ (u.paddock 1).run = some run ∧ (u.paddock 1).tallyOwners 0 = [0]
      ∧ (u.tile 0).word (0x2000 / 8) = ⟨pendingCell, false⟩ ∧ ((u.tile 0).word (0x1000 / 8)).poison = false
      ∧ (noiseOf 1 1 2 3 4 5 (2 ^ 32)).isSome = true
      ∧ (∀ m, m ≤ 2 → (at1 {} (sc m)).atDesc 0 0x60 (sc m) ∧ (sc m).nat 8 1 = m)
      ∧ (at1 {} (sc 0)).screenMaskOk (sc 0) = true ∧ (sc 0).slot = none ∧ ((at1 {} (sc 0)).paddock 1).primary = true
      ∧ (sc 2).nat 40 4 = 1 ∧ (sc 2).nat 56 4 = 1 ∧ (sc 2).nat 60 4 = 2
      ∧ (∀ b ∈ recordsOf 32 (({ at1 {} (sc 2) with hostMem := [(0x7018, 1)] } : State).hostRead 0x7000 32), descNat b 24 1 ≠ 0
            ∧ samplerOk (descNat b 24 1) 1 2 = true)
      ∧ (at1 { seals := { enable := true } } sl).desc 0 = some sl ∧ (at1 { seals := { enable := true } } sl).sealDue sl = true := by
  and_intros <;> decide +kernel

/-! ## The host interface: results from the rules -/

theorem test_nop_completes : leads (exec (.nop 0) (at1 {} (dsc 1 []))) (fun u => leads (exec (.descriptorComplete 0) { u with rings := [(1, ring16)] })
    (fun v => decide ((v.ring 1).cqTail = 1 ∧ getD 0 v.hostMem 0x201F = 1 ∧ getD 0 v.hostMem 0x2000 = 0xEE))) = true := by decide +kernel

theorem test_unmapped_create_is_refused : leads (exec (.paddockCreate 0) (at1 {} (adm 0x100 1 [])))
    (fun s => decide ((s.descs.map (·.status)) = [some 0x0200])) = true := by decide +kernel

/-! ## Administration, errors, repairs, power: the premises of their statements -/

/-- The answer of a twin that suits a mode 2 attachment of paddock 1. -/
abbrev twinSays : AttachMsg := { serial := 0, mode := 2, mask := 2, authentic := true, profileSame := true, familySame := true, shapesSame := true, images := false, debug := false, attached := false }

theorem test_premises_DescriptorsAdmin :
    let at_ := adm 0x110 0 [2, 2, 0]
    let dt := adm 0x111 0 []
    let fs := adm 0x120 0 [1, 1280, 0x100000]
    let fa := adm 0x121 0 [1]
    let tok := adm 0x130 0 [0, 1600, 0x100000]
    let up : State := { at1 {} at_ with yoke := { down := false } }
    let heard := fun (a : AttachMsg) => ({ at1 {} at_ with yoke := { down := false, heard := some a } } : State)
    (at1 {} at_).atDesc 0 0x110 at_ ∧ (at1 {} at_).yoke.attachDesc = none ∧ (at1 {} at_).yoke.down = true
      ∧ up.atDesc 0 0x110 at_ ∧ up.yoke.down = false ∧ up.yoke.heard = none
      ∧ (heard { twinSays with familySame := false }).attachReason at_ { twinSays with familySame := false } = some 5
      ∧ (heard twinSays).attachReason at_ twinSays = none ∧ (heard twinSays).atDesc 0 0x110 at_ ∧ at_.nat 8 1 = 2
      ∧ (at1 {} dt).atDesc 0 0x111 dt ∧ (∀ q, q ≤ 28 → ((at1 {} dt).paddock q).pairMode = 0)
      ∧ ((at1 { pairMode := 1 } dt).paddock 1).pairMode ≠ 0 ∧ ((at1 { pairMode := 1 } dt).paddock 1).primary = true
      ∧ (at1 { pairMode := 1 } dt).atDesc 0 0x111 dt ∧ (∀ q, q ≤ 28 → q ≠ 1 → ((at1 { pairMode := 1 } dt).paddock q).pairMode = 0)
      ∧ (at1 {} fs).atDesc 0 0x120 fs ∧ (at1 {} fs).bankBusy 0 = false ∧ (at1 {} fs).stageRefused true (List.replicate 1280 0) = true
      ∧ (at1 {} fa).atDesc 0 0x121 fa ∧ (at1 {} fa).sec.bankEmpty true = false
      ∧ ({ at1 {} fa with sec := { bankB := .empty } } : State).sec.bankEmpty true = true
      ∧ (at1 {} tok).atDesc 0 0x130 tok ∧ tok.nat 16 8 = 1600 ∧ (at1 {} tok).tokenFail [] = some 1 := by
  and_intros <;> decide +kernel

/-- A firmware image of 1,280 bytes: root key of zeros in slot 0, six empty stages with the SHA-256 of no bytes. -/
def fwImage : List (BitVec 8) :=
  let stage : List (BitVec 8) := List.replicate 16 0 ++ [0xe3, 0xb0, 0xc4, 0x42, 0x98, 0xfc, 0x1c, 0x14, 0x9a, 0xfb, 0xf4, 0xc8,
    0x99, 0x6f, 0xb9, 0x24, 0x27, 0xae, 0x41, 0xe4, 0x64, 0x9b, 0x93, 0x4c, 0xa4, 0x95, 0x99, 0x1b, 0x78, 0x52, 0xb8, 0x55]
  [0x51, 0x46, 0x57, 0x49, 0x4D, 0x47, 0, 0, 1, 0, 1, 0, 0x10, 0x72, 0, 0, 0, 0, 0, 0, 0, 0, 0, 0, 0, 5, 0, 0, 0, 0, 0, 0]
    ++ stage ++ stage ++ stage ++ stage ++ stage ++ stage ++ List.replicate 960 0

/-- With the first root-key slot holding the hash of that key and its signature good, the ROM accepts the image. -/
theorem test_premises_SecureChannels_accepts (hk : Config.rootHash 0 = hashNat (List.replicate 384 0))
    (hv : ∀ k m g, Config.verifies k m g = true) : base.sec.accepts fwImage = true := by
  have h1 : headerFixed fwImage = true := by decide +kernel
  have h2 : (fwImage.drop 320).take 384 = List.replicate 384 0 := by decide +kernel
  have h4 : stageOk fwImage 0 = true := by decide +kernel
  have h5 : descNat fwImage 11 1 = 0 := by decide +kernel
  have h6 : descNat fwImage 20 1 = 0 := by decide +kernel
  have h11 : base.sec.revoked.getLsbD 0 = false := by decide +kernel
  have h12 : base.sec.rootKey 0 (List.replicate 384 0) = true := by simp only [Security.rootKey, hk, h11, beq_self_eq_true]; rfl
  simp only [Security.accepts, h1, h2, h4, h5, h6, h12, hv]; rfl

/-- Then it may be staged. -/
theorem test_premises_DescriptorsAdmin_stage (hk : Config.rootHash 0 = hashNat (List.replicate 384 0))
    (hv : ∀ k m g, Config.verifies k m g = true) : base.stageRefused true fwImage = false ∧ fwImage.length = 1280 := by
  have h3 : (List.range 6).all (stageOk fwImage) = true := by decide +kernel
  have h7 : descNat fwImage 24 8 = fwImage.length := by decide +kernel
  have h8 : descNat fwImage 14 2 = base.bootedFamily := by decide +kernel
  have h9 : (base.sec.booted == some true) = false := by decide +kernel
  have h14 : fwImage.length = 1280 := by decide +kernel
  refine ⟨?_, h14⟩
  simp only [State.stageRefused, h3, h7, h8, h9, test_premises_SecureChannels_accepts hk hv, bne_self_eq_false]
  rfl

/-- An owner's debug token for this module: scope 1, key and signatures of zeros. -/
def ownToken : List (BitVec 8) :=
  [0x51, 0x44, 0x42, 0x47, 1, 0, 2, 0] ++ bytesLE 6 Config.serial.toNat ++ List.replicate 34 0 ++ [1] ++ List.replicate 1551 0

/-- With an owner key of zeros and its signatures good, the token opens a module that is not attached. -/
theorem test_premises_DescriptorsAdmin_token (hv : ∀ k m g, Config.verifies k m g = true) :
    ({ base with sec := { owner := some (List.replicate 384 0) } } : State).tokenFail ownToken = none := by
  have h1 : (ownToken.length != 1600 || ownToken.take 4 != [0x51, 0x44, 0x42, 0x47] || descNat ownToken 4 2 != 1
      || (descNat ownToken 6 1 != 1 && descNat ownToken 6 1 != 2) || (descNat ownToken 6 1 == 2 && descNat ownToken 7 1 != 0)
      || descNat ownToken 14 2 != 0 || descNat ownToken 56 8 != 0) = false := by decide +kernel
  have h2 : descNat ownToken 8 6 = Config.serial.toNat := by
    show natLE (bytesLE 6 Config.serial.toNat) = _
    rw [natLE_bytesLE]; exact Nat.mod_eq_of_lt Config.serial.isLt
  have h3 : descNat ownToken 16 32 = 0 := by decide +kernel
  have h4 : tokenField ownToken 64 384 = List.replicate 384 0 := by decide +kernel
  have h5 : descNat ownToken 48 8 = 1 := by decide +kernel
  have h6 : descNat ownToken 6 1 = 2 := by decide +kernel
  have h7 : (!({ base with sec := { owner := some (List.replicate 384 0) } } : State).tokenSigner ownToken) = false := by
    simp only [State.tokenSigner, h4, h6, beq_self_eq_true]; rfl
  simp only [State.tokenFail, h1, h7]
  simp only [h2, h3, h5, h6, hv, bne_self_eq_false]
  rfl

/-- A report of a tile or of the frame. -/
abbrev rep (source code : Nat) (cls : BitVec 7) (p : Nat) (x y : BitVec 10) (poison : Bool) : Report :=
  ⟨BitVec.ofNat 16 source, BitVec.ofNat 16 code, cls, p, x, y, 0, 0, false, poison, 0, 0⟩

theorem test_premises_ErrorReports :
    let q := fun (r : Report) => ({ base with raised := [r], ready := true } : State)
    let note := rep 0 0x0600 clsNote 1 0 0 false
    let ue := rep 0 0x0104 clsUE 1 0 0 true
    let tile := rep 0x0003 0x0300 clsColl 1 3 0 false
    let reg := rep 0x3000 0x0300 clsColl 0 0x3FF 0x3FF false
    let bad := rep 0x2000 0x0400 8 0 0x3FF 0x3FF false
    let old : State := ({ base with fcCtrl := 1, collectors := [(0, { valid := true })] } : State)
    (q note).raised = note :: [] ∧ (q note).reactionOf note ≤ 1 ∧ isPath note = false ∧ (q note).compat = false
      ∧ old.reactionOf tile ≤ 1 ∧ old.compat = true ∧ (old.compat && (old.collector 1).valid) = false
      ∧ (q ue).reactionOf ue = 2 ∧ ((q ue).paddock ue.paddock).live = true ∧ ((q ue).paddock ue.paddock).ended = none
      ∧ (q tile).reactionOf tile = 3 ∧ reportTile tile = some 3 ∧ (q tile).present 3 = true ∧ isPath tile = true
      ∧ (q reg).reactionOf reg = 4 ∧ reportRegion reg = some 0 ∧ (q reg).sampled 0 = true
      ∧ 5 ≤ (q bad).reactionOf bad ∧ (q bad).ready = true ∧ (q bad).halted = false
      ∧ note.listed = true ∧ bad.listed = true ∧ note.code ≠ 0x0101 ∧ sourceType note.source ≠ 3
      ∧ reportRegion note = some 0 ∧ base.sampled 0 = true ∧ base.present 3 = true
      ∧ reportRegion (base.pathReport 0x0003 3 0x0300) = some 0
      ∧ bitOf base.fcCtrl 63 = false ∧ (∀ kv ∈ base.collectors, kv.2.valid = false)
      ∧ bitOf (0x8000000000000000 : BitVec 64) 63 = true := by
  and_intros <;> decide +kernel

theorem test_premises_RepairsAndPatina :
    let turned : Map Region := (List.range 28).map (fun r => (r, { state := .gated, epoch := true }))
    let s : State := { base with paddocks := [], regions := turned, flip := true }
    let r : State := { s with repairs := [⟨5, 5, true⟩], holes := [5] }
    let hole : State := { r with segIdle := [(r.segOf 5, modifyAt shippedCols 5 (fun _ => none))] }
    let due : State := { base with paddocks := [], regions := [(0, { state := .gated })], holes := [5], repairs := [⟨5, 5, false⟩] }
    let fb : Image := { image1 with sections := [⟨0xA, 0, 1, []⟩] }
    let rp := fun (i : Image) => at1 { replaceDue := some 0, image := some i } (dsc 1 [])
    let free : State := { base with paddocks := [], regions := [(0, { state := .gated })], retireDue := [base.tilePlace 5] }
    base.flip = false ∧ (List.replicate 32 (0 : BitVec 64)).length ≤ 32 ∧ canonical Tile.reset base.tiles = true
      ∧ s.flip = true ∧ (∀ r, r < 28 → (s.region r).epoch = !s.epoch) ∧ s.oldFlits = false 
      ∧ s.flipQueue = [] ∧ s.repairs = [] ∧ r.repairs = [⟨5, 5, true⟩] ∧ r.ownerOf 5 = 0 ∧ r.flipQueue = [] ∧ r.oldFlits = false
      ∧ ((getD shippedCols r.segIdle (r.segOf 5)).getD (tileX 5 % 70) none).isSome = true ∧ hole.ownerOf 5 = 0
      ∧ (getD shippedCols hole.segIdle (hole.segOf 5)).getD (tileX 5 % 70) none = none ∧ hole.oldFlits = false
      ∧ due.flip = false ∧ due.repairs = [⟨5, 5, false⟩] ∧ due.ownerOf 5 = 0 ∧ base.repairs = []
      ∧ ((rp image1).paddock 1).replaceDue = some 0 ∧ ((rp image1).paddock 1).image = some image1 ∧ (rp image1).shared 1 = false
      ∧ (bitOf ((rp image1).repairCtrl 1) 0 && image1.placements.contains 1) = false ∧ ((rp image1).paddock 1).live = true
      ∧ ((rp image1).paddock 1).ended = none
      ∧ (bitOf ((rp fb).repairCtrl 1) 0 && fb.placements.contains 1 && (((rp fb).paddock 1).excluded == none)) = true
      ∧ free.present 5 = true ∧ free.worn (free.tilePlace 5) = true ∧ free.ownerOf 5 = 0 ∧ free.halted = false := by
  and_intros <;> decide +kernel

theorem test_premises_PowerAndHeat :
    let s : State := { base with ready := true, feedA := true }
    let t : State := { base with regions := [(0, { state := .active, throttle := [1, 3], phases := 44 })] }
    (List.replicate 31 20).length = 31 ∧ (List.replicate 59 20).length = 59 ∧ s.ready = true ∧ s.hotPairs = [] ∧ (s.region 0).supplied = true ∧ s.clocked 0 = true
      ∧ (t.region 0).throttle.contains 1 = true ∧ (t.region 0).throttle.contains 3 = true ∧ (t.region 0).phases ≠ 0
      ∧ (t.region 0).supplied = true ∧ s.feedOk false = true ∧ s.feedOk true = false ∧ ({ s with pwrGood := true } : State).pwrGood = true ∧ s.pwrGood = base.pwrGood
      ∧ s.converters ≠ 0 := by
  and_intros <;> decide +kernel

/-! ## Administration, errors, repairs, power: results from the rules -/

theorem test_halt_now : leads (exec .haltNow base) (fun s => s.halted && s.haltCause == 5) = true := by decide +kernel

theorem test_error_sets_first : leads (exec (.errorReport none) { base with raised := [rep 0 0x0600 clsNote 1 0 0 false] })
    (fun s => decide ((s.collector 0).valid = true ∧ (s.collector 0).seq = 1)) = true := by decide +kernel

theorem test_phase_below_20 : leads (exec (.phaseFail 0) { base with regions := [(0, { state := .active, phases := 20 })] })
    (fun s => decide (s.raised.map (·.code) = [0x0701])) = true := by decide +kernel

/-! ## Links, the twin, security, counters, power-up: the premises of their statements -/

/-- A module with one link up and the yoke not declared down. -/
abbrev linkedTo (n : Nat) (x : PortLink) (p : Paddock) : State :=
  { base with ports := [(n, { x with state := 2 })], yoke := { down := false }, ready := true, released := true, paddocks := [(1, { p with live := true, w := 1, h := 1 })] }

/-- The bytes of a packet of an operation code: two words of header. -/
abbrev packetBytes (op : Nat) : List Byte := bytesLE 8 (op * 2 ^ 40) ++ bytesLE 8 0

/-- A DATA frame to engine 0. -/
abbrev dataFrame (seq op : Nat) : LinkFrame := { seq := seq, good := true, kind := 1, dest := 0, channel := 0, poison := 0, body := packetBytes op }

theorem test_premises_LinksOfThePeers :
    let s := linkedTo 29 { expect := 4095 } {}
    let fp := fun (x : PortLink) => linkedTo 19 x {}
    let f : LinkOut := { seq := 7, kind := 1 }
    let un : PortLink := { unacked := [f] }
    let outc : Channel := { id := 31, inbound := false, twin := true, engine := 0, dest := 0, credit := 1, inFlight := [(0, 3)] }
    let inc : Channel := { id := 31, inbound := true, twin := true, engine := 0, dest := 0x4000001F, credit := 256 }
    let ch := linkedTo 29 {} { channels := [outc, inc] }
    let down : State := { base with ready := true, released := true }
    s.linkUp 29 = true ∧ s.halted = false ∧ (dataFrame 4095 15).dest.toNat = 0 ∧ (dataFrame 4095 15).seq % 4096 = (s.link 29).expect
      ∧ (s.takeData 29 0 (packetOfBytes (dataFrame 4095 15).body 0)).isSome = true
      ∧ (∃ op, op < 16 ∧ (packetOfBytes (packetBytes op) 0).op = .get ∧ s.inboundWindow 29 (packetOfBytes (packetBytes op) 0) = none)
      ∧ (0 : Nat) % 4096 ≠ (s.link 29).expect ∧ ({ dataFrame 0 0 with kind := 2 } : LinkFrame).kind ≠ 1
      ∧ (fp un).linkUp 19 = true ∧ ((fp un).link 19).unacked.findIdx? (fun f => f.seq == 7) = some 0
      ∧ (∀ f ∈ ((fp un).link 19).unacked, f.seq ≠ 6) ∧ ((fp un).link 19).unacked.length ≤ 512 ∧ ((fp un).link 19).unacked ≠ []
      ∧ (ch.outChannels 29).find? (fun y => y.2.id == 31) = some (1, outc)
      ∧ s.yoke.down = false ∧ ((fp {}).link 19).state = 2 ∧ ((fp {}).link 19).sparesUsed < 2 ∧ (s.link 29).sparesUsed < 1
      ∧ 2 ≤ ((fp { sparesUsed := 2 }).link 19).sparesUsed ∧ 1 ≤ ((linkedTo 29 { sparesUsed := 1 } {}).link 29).sparesUsed
      ∧ (down.link 19).state ≠ 2 ∧ (down.link 19).enable = true ∧ (down.link 29).state ≠ 2 ∧ down.ready = true ∧ down.released = true
      ∧ ch.inChannel 29 31 = some (1, inc) ∧ ch.inChannel 29 30 = none ∧ inc.expect = 0 ∧ inc.held = [] ∧ 0 < inc.credit := by
  and_intros <;> decide +kernel

theorem test_premises_TwinMessages :
    let pr : Paddock := { pairMode := 2, twin := { joined := true } }
    let st : Paddock := { pr with primary := false, nearUnits := [5], winNear := 0x20000000 }
    let up := fun (p : Paddock) => linkedTo 20 {} p
    let o : OpenStride := { open0 with mismatches := 2, stopped := true }
    (up pr).yokeGroup = some 20 ∧ (up pr).halted = false ∧ (up pr).shared 1 = true ∧ ((up pr).paddock 1).primary = true
      ∧ (up st).shared 1 = true ∧ ((up st).paddock 1).primary = false ∧ ((up st).paddock 1).current = none
      ∧ ((up st).paddock 1).nextNumber ≠ 5 ∧ (up st).standby 1 = true
      ∧ (up { pr with current := some o }).shared 1 = true ∧ ((up { pr with current := some o }).paddock 1).current = some o
      ∧ o.mismatches = 2 ∧ o.stopped = true ∧ o.replayDue = false ∧ ((up st).paddock 1).twin.joined = true
      ∧ ((up st).paddock 1).ended = none ∧ ((up { pr with current := some o }).paddock 1).pairMode ≠ 3
      ∧ (List.replicate 64 ((1 : Byte), false)).length = 64 ∧ ((up st).paddock 1).shareAddr false 0 = some (5 * 2 ^ 30)
      ∧ (up st).readOnlyShare 1 false 0 = false ∧ (up pr).yoke.attachDesc = none := by
  and_intros <;> decide +kernel

theorem test_premises_TwinEvents :
    let d := adm 0x110 0 []
    let at_ : State := { at1 {} d with yoke := { down := false, attachDesc := some 0, mask := 2 } }
    let jn : State := { at1 { pairMode := 1 } d with yoke := { down := false, attachDesc := some 0, mask := 2, attached := true } }
    let cp := fun (n : Nat) => ({ base with yoke := { down := false, copying := true, mask := 2, copyAt := n }, paddocks := [(1, { live := true, nearUnits := [5], farUnits := [] })] } : State)
    let st : State := { at1 { pairMode := 2, primary := false, twin := { joined := true } } d with released := true }
    at_.yoke.attachDesc = some 0 ∧ at_.desc 0 = some d ∧ d.status = none ∧ at_.yoke.copying = false ∧ at_.yoke.attached = false
      ∧ (jn.paddock 1).pairMode = 1 ∧ (jn.paddock 1).twin.joined = false ∧ (jn.paddock 1).current = none ∧ (jn.paddock 1).primary = true
      ∧ maskPaddocks jn.yoke.mask = [1] ∧ copyGranule (cp (2 ^ 18)).copyPlan (2 ^ 18) = none
      ∧ copyGranule (cp (2 ^ 18 - 1)).copyPlan (2 ^ 18 - 1) = some (1, false, 4096 * (2 ^ 18 - 1))
      ∧ (cp 0).shareLocked 1 false 0 4096 = false ∧ (st.paddock 1).primary = false ∧ (st.paddock 1).twin.joined = true
      ∧ (st.paddock 1).ended = none ∧ st.halted = false ∧ st.released = true ∧ st.yoke.down = true ∧ jn.yoke.down = false
      ∧ ((at1 { twin := { takeoverDue := true } } d).paddock 1).twin.takeoverDue = true := by
  and_intros <;> decide +kernel

theorem test_premises_SecureChannels :
    let s : State := { base with released := true, halted := true, sec := { sessions := [(1, false)], secrets := [(7, [])] }, paddocks := [(1, { live := true, relKeys := [(3, 5)] })] }
    let own : State := { s with sec := { owner := some [], sessions := [(1, true), (2, false)] } }
    let run : TallyRun := { ctx := ⟨0, 0, 1, 1, 2, 3, 4⟩, clear := true, slot := 3, desc := 0 }
    s.halted = true ∧ s.tokenFail [] = some 1 ∧ bitOf (0x8000000000080001 : BitVec 64) 63 = true ∧ (s.paddock 1).live = true
      ∧ field (0x8000000000080001 : BitVec 64) 0 5 = 1 ∧ bitOf (0x8000000000080001 : BitVec 64) 19 = true
      ∧ (s.paddock 1).slotInUse 3 = false ∧ ({ run := some run } : Paddock).slotInUse 3 = true ∧ s.linkReady = true
      ∧ s.debugOpen = false ∧ s.signingSlot = 0 ∧ s.mayChange 1 = true ∧ own.mayChange 1 = true ∧ own.mayChange 2 = false
      ∧ look own.sec.sessions 1 = some true ∧ own.sec.owner.isSome = true ∧ (List.replicate 32 (0 : Byte)).length = 32
      ∧ (List.replicate 384 (0 : Byte)).length = 384 ∧ s.mayPutKey 1 1 0 = true ∧ look s.sec.secrets 7 = some []
      ∧ (look s.sec.sessions 1).isSome = true ∧ ({ base with sec := { recovery := true } } : State).sec.recovery = true
      ∧ base.sec.accepts [] = false := by
  and_intros <;> decide +kernel

theorem test_premises_TapCountersChassis :
    let s : State := { base with released := true, pldm := { thresholds := [(69, 5)], events := [(1, 2)] } }
    let dbg : State := { s with debugOpen := true, sec := { scope := 1 } }
    dbg.debugOpen = true ∧ dbg.sec.scope.getLsbD 0 = true ∧ s.debugOpen = false ∧ bitOf (0x8000000000060000 : BitVec 64) 63 = true
      ∧ canonical 0 s.cntWin = true ∧ (0x81FF : Nat) < 0x8200 ∧ gaugeWord 0x81FF = false ∧ s.released = true
      ∧ s.sensorsServed = true ∧ (s.sensor 36).isSome = true ∧ s.sensor 37 = none ∧ s.pldm.events = (1, 2) :: []
      ∧ s.pldm.events.length < 64 ∧ look s.pldm.thresholds (2 * 34) = none ∧ look s.pldm.thresholds (2 * 34 + 1) = some 5
      ∧ (5 : Int) < 6 ∧ 2 * 34 + 1 ∉ s.pldm.crossed
      ∧ getD 0 ({ s with ready := true } : State).pldm.states 35 ≠ ({ s with ready := true } : State).moduleState := by
  and_intros <;> decide +kernel

theorem test_premises_PowerUpAndReset :
    let s : State := { State.reset with pwrGood := true }
    let scan : ScanResult := ⟨true, true, true, false, (30, 23), [], []⟩
    State.reset.pwrGood = false ∧ s.pwrGood = true ∧ s.ready = false ∧ s.bootFailed = false ∧ s.released = false
      ∧ s.sec.cold.bootBank { scan with bankAok := false, bankBok := false } = none ∧ s.sec.cold.bootBank scan = some false
      ∧ s.sec.cold.bootBank { scan with bankAok := false } = some true
      ∧ 45 ≤ appliedFlow scan.pairFlows ∧ scan.refOk = true ∧ appliedFlow (22, 30) < 45
      ∧ s.msixPending = [] ∧ s.eventLost = 0 ∧ s.halted = false
      ∧ ({ s with released := true, bootStep := 7 } : State).bootStep < 8 := by
  and_intros <;> decide +kernel

theorem test_premises_IdleAndIllFormed :
    State.reset.pending = [] ∧ State.reset.released = false ∧ ({ State.reset with released := true } : State).released = true
      ∧ State.reset.near.migration = none ∧ State.reset.far.migration = none ∧ (Instr.patinaWrite 0).wellFormed = false := by
  and_intros <;> decide +kernel

theorem test_reset_fusesOk : State.reset.fusesOk := by decide +kernel

theorem test_premises_FusesOnlyGrow :
    ∃ t, ({ State.reset with pending := [.powerUp true true] } : State).fusesOk ∧ step { State.reset with pending := [.powerUp true true] } = .next t :=
  ⟨_, by decide +kernel, rfl⟩

theorem test_premises_TileFaultRecord : ({} : Tile).fcValid = false ∧ ({ fcValid := true } : Tile).fcValid = true := ⟨rfl, rfl⟩

theorem test_premises_IntegerLanesWrap : laneInt .int8 = true ∧ laneInt .int32 = true ∧ laneInt .int64 = true := ⟨rfl, rfl, rfl⟩

theorem test_premises_StepTakesFrontCommand :
    ({ State.reset with pending := [.powerUp true true, .haltNow] } : State).pending = .powerUp true true :: [.haltNow] := rfl

/-! ## Links, the twin, security, counters, power-up: results from the rules -/

theorem test_bypass_is_one_bit : leads (exec (.tapBypass true) base) (fun s => leads (exec (.tapBypass false) s)
    (fun u => decide (u.out = [.tdo [false], .tdo [true]]))) = true := by decide +kernel

theorem test_ack_drops_frames :
    leads (exec (.ack 19 7) (linkedTo 19 { unacked := [{ seq := 6, kind := 1 }, { seq := 7, kind := 1 }, { seq := 8, kind := 1 }] } {}))
      (fun u => decide ((u.link 19).unacked.map (·.seq) = [8])) = true := by decide +kernel

theorem test_power_up : leads (exec (.powerUp true true) State.reset) (fun u => u.pwrGood && u.feedA && u.feedB && !u.released) = true := by
  decide +kernel

end Sys2Proof.Tests
end

section
namespace Sys2Proof.Machine

/-! ## The idle step and operands outside a row (log entries 9 and 121) -/

/-- With no migration in a tier, an idle reference period copies nothing. -/
theorem State.advanceCopies_of_no_migration (s : State) (hn : s.near.migration = none) (hf : s.far.migration = none) :
    s.advanceCopies = s := by
  simp [State.advanceCopies, hn, hf]

/-- The copies to spare sites change the tiers and the counter of free values only. -/
theorem State.advanceCopies_frame (s : State) :
    { s.advanceCopies with near := s.near, far := s.far, free := s.free } = s := by
  unfold State.advanceCopies
  split <;> rfl

theorem State.advanceCopies_refCount (s : State) : s.advanceCopies.refCount = s.refCount := by
  unfold State.advanceCopies
  split <;> rfl

theorem State.advanceCopies_released (s : State) : s.advanceCopies.released = s.released := by
  unfold State.advanceCopies
  split <;> rfl

/-- A reference period in terms of what it does to the copies. -/
theorem State.tick_eq (s : State) :
    s.tick = { s.advanceCopies with refCount := if s.released then s.refCount + 1 else s.refCount } := by
  have htick : s.tick = if s.advanceCopies.released then
      { s.advanceCopies with refCount := s.advanceCopies.refCount + 1 } else s.advanceCopies := rfl
  rw [htick, s.advanceCopies_released, ← s.advanceCopies_refCount]
  cases s.released <;> rfl

/-- On an empty queue one reference period passes. -/
theorem step_of_idle (s : State) (h : s.pending = []) : step s = .next s.tick := by
  simp only [step, h]

/-- A command whose operands are outside its row is turned away. -/
theorem exec_of_not_wellFormed (c : Instr) (s : State) (h : c.wellFormed = false) : exec c s = .next s := by
  unfold Instr.wellFormed at h
  split at h
  case h_1 k w => simp only [exec_reservedMajorOpcode, execReservedMajorOpcode, h]; rfl
  case h_2 off data => simp only [exec_bar2Write, execBar2Write, Instr.wellFormed, h]; rfl
  case h_3 e => simp only [exec_patinaWrite, execPatinaWrite, Instr.wellFormed, h]; rfl
  case h_4 temps => simp only [exec_ledgerPeriod, execLedgerPeriod, Instr.wellFormed, h]; rfl
  case h_5 link channel chseq words =>
    simp only [exec_remoteChannelMsg, execRemoteChannelMsg, Instr.wellFormed, h]; rfl
  case h_6 r => simp only [exec_errorReport, execErrorReport, h]; rfl
  case h_7 => cases h

/-- Settles O58: an idle step is a reference period, and the six commands with a row narrower than their operands' types check it. -/
theorem idleAndIllFormed : Obligations.IdleAndIllFormed := by
  unfold Obligations.IdleAndIllFormed
  refine ⟨fun s hq => ⟨fun hn hf => ⟨fun hr => ?_, fun hr => ?_⟩, s.tick, step_of_idle s hq, ?_, ?_⟩, exec_of_not_wellFormed⟩
  · rw [step_of_idle s hq, s.tick_eq, s.advanceCopies_of_no_migration hn hf, if_pos hr]
  · rw [step_of_idle s hq, s.tick_eq, s.advanceCopies_of_no_migration hn hf, if_neg (by simp [hr])]
  · rw [s.tick_eq]
  · rw [s.tick_eq]
    exact congrArg (fun u : State => { u with refCount := s.refCount }) s.advanceCopies_frame

end Sys2Proof.Machine
end

section
/-! Rules of the state's operations that the statements of the pace and of the descriptors share: one region, paddock or tile
changed, a run of changes over a list, counters, and what a beat's entry leaves alone. -/

namespace Sys2Proof.Machine

/-! ## One record changed -/

@[simp] theorem State.region_onRegion (s : State) (r : Nat) (f : Region → Region) :
    (s.onRegion r f).region r = f (s.region r) := s.region_setRegion r _

theorem State.region_onRegion_other (s : State) (r j : Nat) (f : Region → Region) (h : j ≠ r) :
    (s.onRegion r f).region j = s.region j := s.region_setRegion_other r j _ h

@[simp] theorem State.paddock_onPaddock (s : State) (p : Nat) (f : Paddock → Paddock) :
    (s.onPaddock p f).paddock p = f (s.paddock p) := s.paddock_setPaddock p _

theorem State.paddock_onPaddock_other (s : State) (p q : Nat) (f : Paddock → Paddock) (h : q ≠ p) :
    (s.onPaddock p f).paddock q = s.paddock q := s.paddock_setPaddock_other p q _ h

@[simp] theorem State.onPaddock_regions (s : State) (p : Nat) (f : Paddock → Paddock) :
    (s.onPaddock p f).regions = s.regions := rfl
@[simp] theorem State.onPaddock_tiles (s : State) (p : Nat) (f : Paddock → Paddock) :
    (s.onPaddock p f).tiles = s.tiles := rfl
@[simp] theorem State.region_onPaddock (s : State) (p r : Nat) (f : Paddock → Paddock) :
    (s.onPaddock p f).region r = s.region r := rfl

theorem State.region_congr {s t : State} (h : s.regions = t.regions) (r : Nat) : s.region r = t.region r := by
  unfold State.region; rw [h]

theorem State.paddock_congr {s t : State} (h : s.paddocks = t.paddocks) (p : Nat) : s.paddock p = t.paddock p := by
  unfold State.paddock; rw [h]

theorem State.tile_congr {s t : State} (h : s.tiles = t.tiles) (k : Nat) : s.tile k = t.tile k := by
  unfold State.tile; rw [h]

/-! ## Runs of changes over a list -/

/-- What every change of a run leaves alone, the run leaves alone. -/
theorem foldl_keeps {σ α β : Type} (proj : σ → β) (f : σ → α → σ) (h : ∀ s a, proj (f s a) = proj s) (l : List α) (s : σ) :
    proj (l.foldl f s) = proj s := by
  induction l generalizing s with
  | nil => rfl
  | cons a l ih => rw [List.foldl_cons, ih, h]

/-- A run of changes of regions, each region once: the change may read of the state what no region's change alters. -/
theorem State.region_foldl_onRegion (f : State → Region → Region) (hf : ∀ s r g, f (s.setRegion r g) = f s) (l : List Nat)
    (hl : l.Nodup) (s : State) (j : Nat) :
    (l.foldl (fun s r => s.onRegion r (f s)) s).region j = if j ∈ l then f s (s.region j) else s.region j := by
  induction l generalizing s with
  | nil => rfl
  | cons r l ih =>
    obtain ⟨hr, hl⟩ := List.nodup_cons.mp hl
    rw [List.foldl_cons, ih hl, show f (s.onRegion r (f s)) = f s from hf _ _ _]
    by_cases hj : j = r
    · subst hj
      rw [if_neg hr, if_pos List.mem_cons_self, s.region_onRegion]
    · rw [s.region_onRegion_other r j _ hj]
      simp [hj]

theorem State.regionsOf_nodup (s : State) (p : Nat) : (s.regionsOf p).Nodup := by
  unfold State.regionsOf
  split
  · exact List.nodup_nil
  · exact List.nodup_range.filter _


/-- A change of every region of a paddock. -/
theorem State.region_onRegionsOf (s : State) (p j : Nat) (f : Region → Region) :
    (s.onRegionsOf p f).region j = if j ∈ s.regionsOf p then f (s.region j) else s.region j :=
  State.region_foldl_onRegion (fun _ => f) (fun _ _ _ => rfl) _ (s.regionsOf_nodup p) s j

@[simp] theorem State.onRegionsOf_paddocks (s : State) (p : Nat) (f : Region → Region) :
    (s.onRegionsOf p f).paddocks = s.paddocks :=
  foldl_keeps State.paddocks (fun s r => s.onRegion r f) (fun _ _ => rfl) _ s
@[simp] theorem State.onRegionsOf_tiles (s : State) (p : Nat) (f : Region → Region) :
    (s.onRegionsOf p f).tiles = s.tiles :=
  foldl_keeps State.tiles (fun s r => s.onRegion r f) (fun _ _ => rfl) _ s
@[simp] theorem State.onRegionsOf_net (s : State) (p : Nat) (f : Region → Region) : (s.onRegionsOf p f).net = s.net :=
  foldl_keeps State.net (fun s r => s.onRegion r f) (fun _ _ => rfl) _ s
@[simp] theorem State.paddock_onRegionsOf (s : State) (p q : Nat) (f : Region → Region) :
    (s.onRegionsOf p f).paddock q = s.paddock q := State.paddock_congr (s.onRegionsOf_paddocks p f) q

/-- The regions of a paddock are read off the owners. -/
theorem State.regionsOf_congr {s t : State} (h : ∀ r, (s.region r).owner = (t.region r).owner) (p : Nat) :
    s.regionsOf p = t.regionsOf p := by
  simp only [State.regionsOf, h]

@[simp] theorem State.regionsOf_onPaddock (s : State) (p q : Nat) (f : Paddock → Paddock) :
    (s.onPaddock p f).regionsOf q = s.regionsOf q := rfl

/-- The regions whose pace units run are read off owners and states, and the fallback in force. -/
theorem State.paceRegions_congr {s t : State}
    (h : ∀ r, (s.region r).owner = (t.region r).owner ∧ (s.region r).state = (t.region r).state) (p : Nat)
    (hp : (s.paddock p).excluded = (t.paddock p).excluded) : s.paceRegions p = t.paceRegions p := by
  simp only [State.paceRegions, State.regionsOf_congr (fun r => (h r).1), h, hp]

/-- The length of a table is read off the directories of those regions. -/
theorem State.tableLength_congr {s t : State} (h : ∀ r, (s.region r).owner = (t.region r).owner
    ∧ (s.region r).state = (t.region r).state ∧ (s.region r).dir = (t.region r).dir) (p table : Nat)
    (hp : (s.paddock p).excluded = (t.paddock p).excluded) : s.tableLength p table = t.tableLength p table := by
  unfold State.tableLength State.tableDir
  rw [State.paceRegions_congr (t := t) (fun r => ⟨(h r).1, (h r).2.1⟩) p hp]
  cases t.paceRegions p with
  | nil => rfl
  | cons r rs => simp only [Region.dirEntry, (h r).2.2]

/-! ## Counters (20, R582) -/

/-- A count changes the counter words only. -/
theorem State.countWin_frame (s : State) (key n : Nat) : s.countWin key n = { s with cntWin := (s.countWin key n).cntWin } := by
  unfold State.countWin
  split <;> rfl

@[simp] theorem State.cntRegion_paddocks (s : State) (r i n : Nat) : (s.cntRegion r i n).paddocks = s.paddocks := by
  rw [State.cntRegion, s.countWin_frame]
@[simp] theorem State.cntRegion_regions (s : State) (r i n : Nat) : (s.cntRegion r i n).regions = s.regions := by
  rw [State.cntRegion, s.countWin_frame]
@[simp] theorem State.cntRegion_tiles (s : State) (r i n : Nat) : (s.cntRegion r i n).tiles = s.tiles := by
  rw [State.cntRegion, s.countWin_frame]
@[simp] theorem State.cntPaddock_regions (s : State) (p i n : Nat) : (s.cntPaddock p i n).regions = s.regions := by
  rw [State.cntPaddock, s.countWin_frame]
@[simp] theorem State.cntPaddock_tiles (s : State) (p i n : Nat) : (s.cntPaddock p i n).tiles = s.tiles := by
  rw [State.cntPaddock, s.countWin_frame]

/-! ## Control messages of the yoke (18, R534) -/

/-- A frame sent on a link changes the link, what is sent, and counters. -/
theorem State.linkSend_frame (s : State) (n : Nat) (f : LinkOut) :
    ∃ ports out cntWin bw, s.linkSend n f = { s with ports := ports, out := out, cntWin := cntWin, bw := bw } := by
  unfold State.linkSend
  dsimp only
  split
  · rw [State.putFrame, State.addBw, if_neg (by simp [frameBytes]), State.cntPort, State.countWin_frame]
    exact ⟨_, _, _, _, rfl⟩
  · exact ⟨_, _, _, _, rfl⟩

/-- A control message changes links, what is sent, and counters. -/
theorem State.yokeSend_frame (s : State) (kind p : Nat) (body : List (BitVec 8)) :
    ∃ ports out cntWin bw, s.yokeSend kind p body = { s with ports := ports, out := out, cntWin := cntWin, bw := bw } := by
  unfold State.yokeSend
  split
  · exact ⟨_, _, _, _, rfl⟩
  · exact s.linkSend_frame _ _

/-! ## Marks (02, R83; 07, R245; 10, R340) -/

/-- What a mark makes of the state, but for links, what is sent, and counters. -/
def State.markRecords (s : State) (p beat : Nat) : State :=
  (s.setPaddock p ({ s.paddock p with
      ckptLast := paceCountOf (strideOf (s.paddock p).paceCount) beat
      wafer := { (s.paddock p).wafer with marked := (s.paddock p).wafer.objs } }.onRemount Remount.mark)).onRegionsOf p
    (fun g => { g with marked := g.barriers })

/-- A mark remembers the objects; on the primary of a standby pair a message says so. -/
theorem State.mark_cases (s : State) (p beat : Nat) : ∃ ports out cntWin bw,
    s.mark p beat = { s.markRecords p beat with ports := ports, out := out, cntWin := cntWin, bw := bw } := by
  unfold State.mark
  dsimp only
  split
  · exact State.yokeSend_frame _ _ _ _
  · exact ⟨_, _, _, _, rfl⟩

@[simp] theorem State.mark_tiles (s : State) (p beat : Nat) : (s.mark p beat).tiles = s.tiles := by
  obtain ⟨_, _, _, _, h⟩ := s.mark_cases p beat
  rw [h]
  exact State.onRegionsOf_tiles _ _ _

/-- What a mark makes of its paddock. -/
theorem State.paddock_mark (s : State) (p beat : Nat) : (s.mark p beat).paddock p = { s.paddock p with
    ckptLast := paceCountOf (strideOf (s.paddock p).paceCount) beat
    wafer := { (s.paddock p).wafer with marked := (s.paddock p).wafer.objs }
    remount := (s.paddock p).remount.mark } := by
  obtain ⟨_, _, _, _, h⟩ := s.mark_cases p beat
  rw [h]
  show (s.markRecords p beat).paddock p = _
  rw [State.markRecords, State.paddock_onRegionsOf, State.paddock_setPaddock]
  rfl

/-- What a mark makes of a region. -/
theorem State.region_mark (s : State) (p beat r : Nat) : (s.mark p beat).region r
    = if r ∈ s.regionsOf p then { s.region r with marked := (s.region r).barriers } else s.region r := by
  obtain ⟨_, _, _, _, h⟩ := s.mark_cases p beat
  rw [h]
  exact State.region_onRegionsOf _ p r _

/-! ## The entry of a beat (02, R71) -/

/-- Entries that become due in some regions. -/
def State.addDue (s : State) (rs : List Nat) (new : Region → List PaceEntry) : State :=
  rs.foldl (fun s r => s.onRegion r (fun g => { g with due := g.due ++ new g })) s

/-- A beat's entry: entries become due in some regions, and where some are issued ahead the paddock notes the beat. -/
theorem State.enterBeat_cases (s : State) (p : Nat) :
    ∃ (t : State) (rs : List Nat) (new : Region → List PaceEntry), s.enterBeat p = t.addDue rs new
      ∧ (t = s ∨ ∃ b, t = s.onPaddock p (fun d => { d with ahead := some b })) := by
  cases hcur : (s.paddock p).current with
  | none => exact ⟨s, [], fun _ => [], by simp only [State.enterBeat, hcur]; rfl, .inl rfl⟩
  | some o =>
    simp only [State.enterBeat, hcur]
    exact ⟨_, _, _, rfl, (ite_eq_or_eq _ _ _).symm.imp id (fun h => ⟨_, h⟩)⟩

/-- What changes of regions and of paddocks leave alone, a beat's entry leaves alone. -/
theorem State.enterBeat_keeps {β : Type} (proj : State → β) (hr : ∀ s r g, proj (s.setRegion r g) = proj s)
    (hp : ∀ s p d, proj (s.setPaddock p d) = proj s) (s : State) (p : Nat) : proj (s.enterBeat p) = proj s := by
  obtain ⟨t, rs, new, h, ht⟩ := s.enterBeat_cases p
  rw [h, show proj (t.addDue rs new) = proj t from foldl_keeps proj _ (fun _ _ => hr _ _ _) rs t]
  obtain rfl | ⟨b, rfl⟩ := ht
  · rfl
  · exact hp _ _ _

theorem State.paddock_addDue (s : State) (rs : List Nat) (new : Region → List PaceEntry) (p : Nat) :
    (s.addDue rs new).paddock p = s.paddock p := by
  unfold State.addDue
  exact foldl_keeps (fun s : State => s.paddock p) _ (fun _ _ => by rfl) rs s

/-- Entries that become due change of a region its due entries only. -/
theorem State.region_addDue (s : State) (rs : List Nat) (new : Region → List PaceEntry) (r : Nat) :
    ∃ es, (s.addDue rs new).region r = { s.region r with due := es } := by
  induction rs generalizing s with
  | nil => exact ⟨_, rfl⟩
  | cons a rs ih =>
    obtain ⟨es, h⟩ := ih (s.onRegion a (fun g => { g with due := g.due ++ new g }))
    rw [State.addDue, List.foldl_cons, ← State.addDue, h]
    by_cases hr : r = a
    · subst hr
      exact ⟨es, by rw [s.region_onRegion]⟩
    · exact ⟨es, by rw [s.region_onRegion_other a r _ hr]⟩

/-- A beat's entry changes of its paddock only at which beat entries were last issued ahead. -/
theorem State.paddock_enterBeat (s : State) (p : Nat) : ∃ a, (s.enterBeat p).paddock p = { s.paddock p with ahead := a } := by
  obtain ⟨t, rs, new, h, rfl | ⟨b, rfl⟩⟩ := s.enterBeat_cases p
  · exact ⟨_, by rw [h, State.paddock_addDue]⟩
  · exact ⟨_, by rw [h, State.paddock_addDue, s.paddock_onPaddock]⟩

/-- A beat's entry changes of a region only its due entries. -/
theorem State.region_enterBeat (s : State) (p r : Nat) : ∃ es, (s.enterBeat p).region r = { s.region r with due := es } := by
  obtain ⟨t, rs, new, h, rfl | ⟨b, rfl⟩⟩ := s.enterBeat_cases p <;> rw [h] <;> exact State.region_addDue _ rs new r

@[simp] theorem State.enterBeat_net (s : State) (p : Nat) : (s.enterBeat p).net = s.net :=
  State.enterBeat_keeps State.net (fun _ _ _ => rfl) (fun _ _ _ => rfl) s p
@[simp] theorem State.enterBeat_tiles (s : State) (p : Nat) : (s.enterBeat p).tiles = s.tiles :=
  State.enterBeat_keeps State.tiles (fun _ _ _ => rfl) (fun _ _ _ => rfl) s p

end Sys2Proof.Machine
end

section
namespace Sys2Proof.Machine

/-! ## Beats and deadlines (02, R71, R76 to R79; log entry 141) -/

/-- For an id other than the device's, BEAT_BOUNDARY is a boundary of the paddock's stride. -/
theorem execBeatBoundary_of_ne (p : PaddockId) (s : State) (h : p.val ≠ 0) : execBeatBoundary p s = beatBoundary p s := by
  rw [execBeatBoundary, if_neg h]

/-- The end of a held beat begins another held beat. -/
theorem beatBoundary_of_held {p : PaddockId} {o : OpenStride} {s : State} (hrun : s.running p = some o) (ht : o.test = .held) :
    beatBoundary p s
      = .next (s.onPaddock p (fun d => { d with current := some { o with test := .untested, inHeld := true } })).bump := by
  simp [beatBoundary, hrun, ht]

/-- A beat with nothing left to test, not the last of its stride, passes to the next. -/
theorem beatBoundary_of_passed {p : PaddockId} {o : OpenStride} {s : State} (hrun : s.running p = some o)
    (htest : s.hasDeadline p = false ∨ o.test = .passed) (ht : o.test ≠ .held) (hlast : s.lastBeat p o = false) :
    beatBoundary p s = .next (s.nextBeat p o).bump := by
  have huntested : ¬ (s.hasDeadline p = true ∧ o.test = .untested) := by
    rintro ⟨hd, hu⟩
    obtain h | h := htest
    · simp [h] at hd
    · simp [h] at hu
  simp [beatBoundary, hrun, huntested, ht, hlast]

@[simp] theorem State.countLate_paddocks (s : State) (p : Nat) (o : OpenStride) : (s.countLate p o).paddocks = s.paddocks :=
  foldl_keeps State.paddocks _ (fun s _ => s.cntRegion_paddocks _ _ _) _ _
@[simp] theorem State.countLate_regions (s : State) (p : Nat) (o : OpenStride) : (s.countLate p o).regions = s.regions :=
  foldl_keeps State.regions _ (fun s _ => s.cntRegion_regions _ _ _) _ _
@[simp] theorem State.countLate_tiles (s : State) (p : Nat) (o : OpenStride) : (s.countLate p o).tiles = s.tiles :=
  foldl_keeps State.tiles _ (fun s _ => s.cntRegion_tiles _ _ _) _ _

@[simp] theorem State.nextBeat_tiles (s : State) (p : Nat) (o : OpenStride) : (s.nextBeat p o).tiles = s.tiles := by
  simp [State.nextBeat]

/-- What the next beat makes of its paddock. -/
theorem State.paddock_nextBeat (s : State) (p : Nat) (o : OpenStride) : ∃ a, (s.nextBeat p o).paddock p
    = { s.paddock p with
        paceCount := (s.paddock p).paceCount + 1
        current := some { o with test := .untested, inHeld := false }
        ahead := a } := by
  obtain ⟨a, h⟩ := State.paddock_enterBeat (((s.countLate p o).onPaddock p (fun d => { d with
    paceCount := d.paceCount + 1
    current := some { o with test := .untested, inHeld := false } })).onRegionsOf p (fun g => { g with deadlines := [] })) p
  refine ⟨a, ?_⟩
  rw [State.nextBeat, h, State.paddock_onRegionsOf, State.paddock_onPaddock, State.paddock_congr (s.countLate_paddocks p o)]

/-- What the next beat makes of a region. -/
theorem State.region_nextBeat (s : State) (p : Nat) (o : OpenStride) (r : Nat) : ∃ es, (s.nextBeat p o).region r
    = { s.region r with deadlines := if r ∈ s.regionsOf p then [] else (s.region r).deadlines, due := es } := by
  obtain ⟨es, h⟩ := State.region_enterBeat (((s.countLate p o).onPaddock p (fun d => { d with
    paceCount := d.paceCount + 1
    current := some { o with test := .untested, inHeld := false } })).onRegionsOf p (fun g => { g with deadlines := [] })) p r
  refine ⟨es, ?_⟩
  rw [State.nextBeat, h, State.region_onRegionsOf, State.region_onPaddock, State.region_congr (s.countLate_regions p o),
    State.regionsOf_onPaddock, State.regionsOf_congr (t := s) (fun q => congrArg Region.owner (State.region_congr (s.countLate_regions p o) q))]
  split <;> rfl

/-- The deadlines of a beat may be tested: the beat has some, they are not tested yet, and in the last beat nothing is due. -/
abbrev State.testable (s : State) (p : Nat) (o : OpenStride) : Prop :=
  o.test = .untested ∧ s.hasDeadline p = true ∧ (s.lastBeat p o = true → s.dueDone p = true)

/-- The open stride with its oldest unresolved overrun noted: that of this beat where none stands. -/
def State.noteOverrun (s : State) (p : Nat) (o : OpenStride) : OpenStride :=
  let refused := (s.unmet p).any (fun y => (s.region y.1).refusedLoads.contains y.2)
  { o with reconf := some (o.reconf.getD (beatOf (s.paddock p).paceCount, refused)) }

/-- An overrun counted for a beat that is not a held one (log entry 141). -/
def State.countOverrun (s : State) (p : Nat) (o : OpenStride) : State :=
  s.onPaddock p (fun d => { d with overrunTotal := if o.inHeld then d.overrunTotal else d.overrunTotal + 1 })

/-- An overrun of an unshared pace that is treated as FAULT, with fewer than two replays before it: the replay waits. -/
theorem State.faultStride_of_replays_left {s : State} {p : Nat} {o : OpenStride} (hshared : s.shared p = false)
    (hreplays : o.overrunReplays < 2) (r : Nat) :
    s.faultStride p r o = s.onPaddock p (fun d => { d with current := some { o with faulted := true } }) := by
  simp [State.faultStride, hshared, Nat.not_le.mpr hreplays]

@[simp] theorem State.shared_countOverrun (s : State) (p : Nat) (o : OpenStride) :
    (s.countOverrun p o).shared p = s.shared p := by
  simp only [State.shared, State.countOverrun, State.paddock_onPaddock]; rfl

section
variable {p : PaddockId} {o : OpenStride} {s : State} (hrun : s.running p = some o) (htest : s.testable p o)
include hrun htest

/-- A test of an unshared pace with every object at its target passes. -/
theorem deadlineTest_of_met (hshared : s.shared p = false) (hmet : s.unmet p = []) : execDeadlineTest p s
    = .next ((s.resolveLoads p).onPaddock p (fun d => { d with current := some { o with
        test := .passed
        reconf := o.reconf.filter (fun x => decide (beatOf (s.paddock p).paceCount < x.1)) } })).bump := by
  obtain ⟨hu, hd, hdue⟩ := htest
  simp only [execDeadlineTest, hrun, hmet, hshared, hu, hd]
  by_cases hl : s.lastBeat p o = true <;> simp [hl, hdue]

/-- A test with an object short of its target is an overrun: a fault under the policy FAULT or at the limit, else a held beat. -/
theorem deadlineTest_of_unmet {x : Nat × Nat} {xs : List (Nat × Nat)} (hunmet : s.unmet p = x :: xs) : execDeadlineTest p s
    = if o.policyFault || decide (o.stretchMax < (s.paddock p).strideHeld + 1) then
        .next ((s.countOverrun p o).faultStride p x.1 (s.noteOverrun p o)).bump
      else .next ((s.countOverrun p o).onPaddock p (fun d => { d with
        strideHeld := d.strideHeld + 1
        current := some { s.noteOverrun p o with test := .held } })).bump := by
  obtain ⟨hu, hd, hdue⟩ := htest
  have hmay : ¬ (o.test ≠ .untested ∨ (!s.hasDeadline p) = true ∨ (s.lastBeat p o = true ∧ (!s.dueDone p) = true)) := by
    rintro (h | h | ⟨hl, h⟩)
    · exact h hu
    · simp [hd] at h
    · simp [hdue hl] at h
  have hheld : ((s.countOverrun p o).paddock p).strideHeld = (s.paddock p).strideHeld := by
    rw [State.countOverrun, State.paddock_onPaddock]
  simp only [execDeadlineTest, hrun, if_neg hmay, hunmet, ← hheld, State.noteOverrun]
  rfl

end

/-- What a passed test does to the refused loads of a region. -/
theorem State.region_resolveLoads (s : State) (p r : Nat) : (s.resolveLoads p).region r = if r ∈ s.regionsOf p then
    { s.region r with refusedLoads := (s.region r).refusedLoads.filter (fun i => !(s.region r).deadlines.contains i) }
    else s.region r := s.region_onRegionsOf p r _

@[simp] theorem State.resolveLoads_tiles (s : State) (p : Nat) : (s.resolveLoads p).tiles = s.tiles :=
  s.onRegionsOf_tiles p _

@[simp] theorem State.paddock_resolveLoads (s : State) (p q : Nat) : (s.resolveLoads p).paddock q = s.paddock q :=
  s.paddock_onRegionsOf p q _

/-- A held beat adds nothing to the count of overruns, any other beat one. -/
theorem overrun_count (n : BitVec 32) (b : Bool) :
    (if b = true then n else n + 1#32) = n + if b = false then 1#32 else 0#32 := by
  cases b <;> simp

/-- Settles O38: a boundary and a test each have one equation, read off field by field. -/
theorem beatsAndDeadlines : Obligations.BeatsAndDeadlines := by
  unfold Obligations.BeatsAndDeadlines
  intro p o s hp hrun hshared
  dsimp only
  simp only [exec_beatBoundary, exec_deadlineTest, execBeatBoundary_of_ne p s hp]
  refine ⟨fun ht => ?_, fun htest ht hlast => ?_, fun hu hd hdue => ⟨fun hmet => ?_,
    fun x xs hunmet => ⟨fun hpol hmax => ?_, fun hf hr => ?_⟩⟩⟩
  · refine ⟨_, beatBoundary_of_held hrun ht, ?_⟩
    simp
  · refine ⟨_, beatBoundary_of_passed hrun htest ht hlast, ?_⟩
    obtain ⟨a, hpad⟩ := s.paddock_nextBeat p o
    simp only [State.paddock_bump, State.region_bump, State.bump_tiles, State.nextBeat_tiles, hpad, true_and, and_true]
    refine ⟨fun r hr => ?_, fun r => ?_⟩ <;> obtain ⟨es, hreg⟩ := s.region_nextBeat p o r
    · rw [hreg, if_pos hr]
    · rw [hreg]
  · refine ⟨_, deadlineTest_of_met hrun ⟨hu, hd, hdue⟩ hshared hmet, ?_⟩
    simp only [State.paddock_bump, State.region_bump, State.bump_tiles, State.paddock_onPaddock, State.region_onPaddock,
      State.onPaddock_tiles, State.resolveLoads_tiles, State.paddock_resolveLoads, State.region_resolveLoads, true_and]
    refine ⟨fun r hr => by rw [if_pos hr], fun r => ?_⟩
    split <;> exact ⟨rfl, rfl⟩
  · refine ⟨_, (deadlineTest_of_unmet hrun ⟨hu, hd, hdue⟩ hunmet).trans (if_neg (by simp [hpol]; omega)), ?_⟩
    simp [State.countOverrun, State.noteOverrun, hunmet, overrun_count]
  · refine ⟨_, (deadlineTest_of_unmet hrun ⟨hu, hd, hdue⟩ hunmet).trans (if_pos (by simpa using hf)), ?_⟩
    rw [State.faultStride_of_replays_left (o := s.noteOverrun p o) (by rw [State.shared_countOverrun, hshared]) hr]
    simp [State.countOverrun, State.noteOverrun, hunmet, overrun_count]

end Sys2Proof.Machine
end

section
namespace Sys2Proof.Machine

/-! ## Entries of a pace table at their issue (02, R71 to R75, Table 2.4) -/

/-- The next due entry of a region is of an action; the pace of its owner issues entries, and no earlier effect waits. -/
abbrev State.atEntry (s : State) (r : RegionIx) (e : PaceEntry) (rest : List PaceEntry) (act : Nat) : Prop :=
  (s.region r).opens = [] ∧ (s.region r).due = e :: rest ∧ e.action = act ∧ s.issues (s.region r).owner = true

/-- The state with a region's first due entry taken off. -/
def State.offDue (s : State) (r : Nat) (rest : List PaceEntry) : State := s.setRegion r { s.region r with due := rest }

@[simp] theorem State.offDue_tiles (s : State) (r : Nat) (rest : List PaceEntry) : (s.offDue r rest).tiles = s.tiles := rfl
@[simp] theorem State.paddock_offDue (s : State) (r p : Nat) (rest : List PaceEntry) :
    (s.offDue r rest).paddock p = s.paddock p := rfl
@[simp] theorem State.tile_offDue (s : State) (r k : Nat) (rest : List PaceEntry) : (s.offDue r rest).tile k = s.tile k := rfl
@[simp] theorem State.rein_offDue (s : State) (r p id : Nat) (rest : List PaceEntry) :
    (s.offDue r rest).rein p id = s.rein p id := rfl
@[simp] theorem State.linksHeld_offDue (s : State) (r p : Nat) (x : Rein) (rest : List PaceEntry) :
    (s.offDue r rest).linksHeld p x = s.linksHeld p x := rfl

theorem State.atEntry.action {r : RegionIx} {e : PaceEntry} {rest : List PaceEntry} {act : Nat} {s : State}
    (h : s.atEntry r e rest act) : e.action = act := by
  obtain ⟨-, -, ha, -⟩ := h
  exact ha

theorem State.atEntry.is {r : RegionIx} {e : PaceEntry} {rest : List PaceEntry} {act : Nat} {s : State}
    (h : s.atEntry r e rest act) : e.is act = true := by
  simp [PaceEntry.is, h.action]

theorem State.region_offDue (s : State) (r q : Nat) (rest : List PaceEntry) :
    (s.offDue r rest).region q = { s.region q with due := if q = r then rest else (s.region q).due } := by
  unfold State.offDue
  by_cases h : q = r
  · subst h; simp
  · rw [s.region_setRegion_other r q _ h, if_neg h]

/-- Only a gather open ever waits with its effect. -/
theorem State.entryWaits_of_ne (s : State) (r : Nat) (e : PaceEntry) (h : e.action ≠ 0x06) : s.entryWaits r e = false := by
  simp [State.entryWaits, h]

/-- The entry at the front of a region issues and takes effect. -/
theorem issueEntry_of_due {r : RegionIx} {e : PaceEntry} {rest : List PaceEntry} {act : Nat} {s : State}
    (h : s.atEntry r e rest act) {mine : PaceEntry → Bool} (hmine : mine e = true) (hwaits : s.entryWaits r e = false)
    (body : Nat → PaceEntry → State → State) :
    issueEntry r mine s body = .next (body (s.region r).owner e (s.offDue r rest)).bump := by
  obtain ⟨hopens, hdue, -, hissues⟩ := h
  simp [issueEntry, issueNext, hopens, hdue, hmine, hissues, hwaits, State.offDue]

/-- As above, for an entry of any action but GATHER_OPEN. -/
theorem issueEntry_of_action {r : RegionIx} {e : PaceEntry} {rest : List PaceEntry} {act : Nat} {s : State}
    (h : s.atEntry r e rest act) (hact : act ≠ 0x06) {mine : PaceEntry → Bool} (hmine : mine e = true)
    (body : Nat → PaceEntry → State → State) :
    issueEntry r mine s body = .next (body (s.region r).owner e (s.offDue r rest)).bump :=
  issueEntry_of_due h hmine (s.entryWaits_of_ne r e (by rw [h.action]; exact hact)) body

section
variable {r : RegionIx} {e : PaceEntry} {rest : List PaceEntry} {s : State}

/-- NOP is issued and does nothing else. -/
theorem exec_paceNop_of_due (h : s.atEntry r e rest 0x00) : exec (.paceNop r) s = .next (s.offDue r rest).bump :=
  issueEntry_of_action h (by decide) h.is _

/-! ### Reins (09, R302, R303; 02, R73) -/

/-- REIN_OPEN of a closed rein whose links are free: it is opening. -/
theorem exec_reinOpen_of_closed (h : s.atEntry r e rest 0x01) {x : Rein} (hx : s.rein (s.region r).owner e.target = some x)
    (hst : x.state = .closed) (hfree : s.linksHeld (s.region r).owner x = false) : exec (.reinOpen r) s
      = .next (((s.offDue r rest).setRein (s.region r).owner e.target .opening).stampRein (s.region r).owner e.target).bump := by
  refine (issueEntry_of_action h (by decide) h.is _).trans ?_
  simp [hx, hst, hfree]

/-- REIN_OPEN of a ready rein is redundant. -/
theorem exec_reinOpen_of_ready (h : s.atEntry r e rest 0x01) {x : Rein} (hx : s.rein (s.region r).owner e.target = some x)
    (hst : x.state = .ready) : exec (.reinOpen r) s = .next ((s.offDue r rest).cntRegion r 8 1).bump := by
  refine (issueEntry_of_action h (by decide) h.is _).trans ?_
  simp [hx, hst, State.redundant]

/-- REIN_CLOSE of a closed rein is redundant. -/
theorem exec_reinClose_of_closed (h : s.atEntry r e rest 0x02) {x : Rein} (hx : s.rein (s.region r).owner e.target = some x)
    (hst : x.state = .closed) : exec (.reinClose r) s = .next ((s.offDue r rest).cntRegion r 8 1).bump := by
  refine (issueEntry_of_action h (by decide) h.is _).trans ?_
  simp [hx, hst, State.redundant]

end

/-! ### A rein that closes (09, R303) -/

theorem State.rein_id {s : State} {p id : Nat} {x : Rein} (h : s.rein p id = some x) : x.id = id := by
  simpa using List.find?_some h

/-- A rein whose state is set reads back so; a closed or broken one forgets the shifts of its path. -/
theorem State.rein_setRein {s : State} {p id : Nat} {x : Rein} (h : s.rein p id = some x) (st : ReinState) :
    (s.setRein p id st).rein p id
      = some { x with state := st, shifts := if st = .closed || st = .broken then [] else x.shifts } := by
  have hid := State.rein_id h
  have hsame : ∀ f : Rein → Rein, (∀ r, (f r).id = r.id) → (fun r => r.id == id) ∘ f = fun r => r.id == id := by
    intro f hf; funext r; simp [hf]
  unfold State.rein State.setRein at *
  rw [State.paddock_onPaddock, List.find?_map, hsame _ (fun r => by split <;> rfl), h, Option.map_some, if_pos hid]

@[simp] theorem State.setRein_bursts (s : State) (p id : Nat) (st : ReinState) : (s.setRein p id st).bursts = s.bursts := rfl
@[simp] theorem State.setRein_regions (s : State) (p id : Nat) (st : ReinState) : (s.setRein p id st).regions = s.regions := rfl

@[simp] theorem State.settleRein_regions (s : State) (p id : Nat) : (s.settleRein p id).regions = s.regions := by
  unfold State.settleRein
  split
  · rfl
  · split <;> rfl

/-- A burst on a rein keeps it from closing. -/
theorem State.settleRein_of_burst {s : State} {p id : Nat} (h : s.bursts.any (fun b => b.paddock == p && b.rein == id) = true) :
    s.settleRein p id = s := by
  unfold State.settleRein
  split
  · rfl
  · simp [h]

/-- A rein being closed with no burst queued or in flight is closed. -/
theorem State.settleRein_of_idle {s : State} {p id : Nat} {x : Rein} (hx : s.rein p id = some x) (hst : x.state = .closing)
    (hnone : s.bursts.any (fun b => b.paddock == p && b.rein == id) = false)
    (hq : getD [] (s.tile (tileAt x.x x.y)).srcBursts x.dir = []) : s.settleRein p id = s.setRein p id .closed := by
  simp [State.settleRein, hx, hst, hnone, State.reinQueued, hq]

/-- With no burst on a rein no tap holds its flits. -/
theorem State.tapHolds_of_no_burst {s : State} {p : Nat} {x : Rein}
    (h : s.bursts.any (fun b => b.paddock == p && b.rein == x.id) = false) : s.tapHolds p x = false := by
  simp only [State.tapHolds, List.any_eq_false, Bool.and_eq_true, not_and] at h ⊢
  exact fun b hb hon _ => h b hb hon.1 hon.2

section
variable {r : RegionIx} {e : PaceEntry} {rest : List PaceEntry} {s : State}

/-- The state in which a REIN_CLOSE has counted what its taps hold. -/
def State.countTapHold (s : State) (p : Nat) (x : Rein) : State :=
  if s.tapHolds p x then s.onTile (tileAt x.x x.y) (fun t => t.countIdx 0x1A2 1) else s

@[simp] theorem State.countTapHold_regions (s : State) (p : Nat) (x : Rein) : (s.countTapHold p x).regions = s.regions := by
  unfold State.countTapHold; split <;> rfl
@[simp] theorem State.countTapHold_bursts (s : State) (p : Nat) (x : Rein) : (s.countTapHold p x).bursts = s.bursts := by
  unfold State.countTapHold; split <;> rfl
@[simp] theorem State.rein_countTapHold (s : State) (p q id : Nat) (x : Rein) :
    (s.countTapHold p x).rein q id = s.rein q id := by
  unfold State.countTapHold; split <;> rfl

/-- A ready rein closed: it is being closed, and closes at once where nothing is on it. -/
def State.closeRein (s : State) (p : Nat) (x : Rein) : State :=
  ((s.countTapHold p x).setRein p x.id .closing).settleRein p x.id

@[simp] theorem State.closeRein_regions (s : State) (p : Nat) (x : Rein) : (s.closeRein p x).regions = s.regions := by
  simp [State.closeRein]

/-- A ready rein with a burst on it is being closed. -/
theorem State.rein_closeRein_of_burst {p : Nat} {x : Rein} (hx : s.rein p x.id = some x)
    (hb : s.bursts.any (fun b => b.paddock == p && b.rein == x.id) = true) :
    (s.closeRein p x).rein p x.id = some { x with state := .closing } := by
  rw [State.closeRein, State.settleRein_of_burst (by simpa using hb), State.rein_setRein (x := x) (by simpa using hx)]
  rfl

/-- A ready rein with no burst queued or in flight is closed. -/
theorem State.rein_closeRein_of_idle {p : Nat} {x : Rein} (hx : s.rein p x.id = some x)
    (hb : s.bursts.any (fun b => b.paddock == p && b.rein == x.id) = false)
    (hq : getD [] (s.tile (tileAt x.x x.y)).srcBursts x.dir = []) :
    (s.closeRein p x).rein p x.id = some { x with state := .closed, shifts := [] } := by
  have htap : s.countTapHold p x = s := by
    rw [State.countTapHold, State.tapHolds_of_no_burst hb]
    rfl
  have hclosing := State.rein_setRein hx .closing
  rw [State.closeRein, htap, State.settleRein_of_idle hclosing rfl hb hq, State.rein_setRein hclosing]
  rfl

/-- REIN_CLOSE of a ready rein closes it. -/
theorem exec_reinClose_of_ready (h : s.atEntry r e rest 0x02) {x : Rein} (hx : s.rein (s.region r).owner e.target = some x)
    (hst : x.state = .ready) :
    exec (.reinClose r) s = .next ((s.offDue r rest).closeRein (s.region r).owner x).bump := by
  refine (issueEntry_of_action h (by decide) h.is _).trans ?_
  simp [hx, hst, State.countTapHold, State.closeRein]

end

/-! ### Gather opens (09, R309) -/

section
variable {r : RegionIx} {e : PaceEntry} {rest : List PaceEntry} {s : State}

/-- A gather open of a tree with one node in the region, whose slot is free, and no leaf there: the node is armed. -/
theorem exec_gatherOpen_of_free_node (h : s.atEntry r e rest 0x06) {t : Tree} {n : TreeNode}
    (ht : (s.paddock (s.region r).owner).trees.find? (fun t => t.id == e.target) = some t) (hn : t.nodesIn r = [n])
    (hl : t.leavesIn r = []) (hfree : getD none (s.tile (placeTile n.place)).nodes (nodeSlot n.place) = none) :
    exec (.gatherOpen r) s = .next ((s.offDue r rest).setTile (placeTile n.place) { s.tile (placeTile n.place) with
      nodes := putD none (s.tile (placeTile n.place)).nodes (nodeSlot n.place) (some
        ⟨t.id, (s.region r).owner, !bitOf e.arg 0, field e.arg 1 2 + 1, n.inputs, n.parentInput, n.parent, n.rootSync, [],
          false⟩) }).bump := by
  have hwaits : s.entryWaits r e = false := by
    simp [State.entryWaits, ht, State.openWaits, hn, hl, State.slotBusy, hfree]
  refine (issueEntry_of_due h h.is hwaits _).trans ?_
  simp [ht, State.armTree, hn, hl, State.onTile, Tile.armNode, Tile.armNode.arm, hfree]

/-! ### Deadlines and window marks (02, R75, R76) -/

/-- DEADLINE: its object joins the beat's, and the beat's test is open again. -/
theorem exec_deadline_of_due (h : s.atEntry r e rest 0x08) : exec (.deadline r) s
    = .next (((s.offDue r rest).setRegion r { s.region r with
          due := rest
          deadlines := (s.region r).deadlines ++ [e.target] }).onPaddock (s.region r).owner
        (fun d => { d with current := d.current.map OpenStride.untest })).bump := by
  refine (issueEntry_of_action h (by decide) h.is _).trans ?_
  simp [State.onRegion, State.offDue]

/-- WINDOW_MARK: the region's epoch changes where a flip is requested. -/
theorem exec_windowMark_of_due (h : s.atEntry r e rest 0x09) : exec (.windowMark r) s
    = .next (if s.flip = true then (s.offDue r rest).setRegion r { s.region r with due := rest, epoch := !s.epoch }
        else s.offDue r rest).bump := by
  refine (issueEntry_of_action h (by decide) h.is _).trans ?_
  simp [State.onRegion, State.offDue]

end

/-! ### Marks (02, R83; log entry 140) -/

@[simp] theorem State.regionsOf_offDue (s : State) (r p : Nat) (rest : List PaceEntry) :
    (s.offDue r rest).regionsOf p = s.regionsOf p :=
  State.regionsOf_congr (fun q => by rw [s.region_offDue]) p

/-- The length of a table does not depend on what is due. -/
@[simp] theorem State.tableLength_offDue (s : State) (r p table : Nat) (rest : List PaceEntry) :
    (s.offDue r rest).tableLength p table = s.tableLength p table :=
  State.tableLength_congr (fun q => by rw [s.region_offDue]; exact ⟨rfl, rfl, rfl⟩) p table rfl

/-- The beat that a CKPT_MARK entry names: counted from the stride's end where its offset is negative. -/
def State.markBeat (s : State) (p : Nat) (o : OpenStride) (e : PaceEntry) : Nat :=
  if e.offset < 0 then ((s.tableLength p o.table : Int) + e.offset).toNat else e.offset.toNat

section
variable {r : RegionIx} {e : PaceEntry} {rest : List PaceEntry} {s : State}

/-- CKPT_MARK sets the mark at the beat that its entry names. -/
theorem exec_ckptMark_of_due (h : s.atEntry r e rest 0x07) {o : OpenStride}
    (ho : (s.paddock (s.region r).owner).current = some o) : exec (.ckptMark r) s
    = .next ((s.offDue r rest).mark (s.region r).owner (s.markBeat (s.region r).owner o e)).bump := by
  refine (issueEntry_of_action h (by decide) h.is _).trans ?_
  simp [ho, State.markBeat, earlyBeat]

/-! ### Remounts (10, R336, R342) -/

/-- REMOUNT_ISSUE on demand: an early entry arms its layer for the next stride, any other for this one. -/
theorem exec_remountIssueDemand_of_due (h : s.atEntry r e rest 0x05) (hd : bitOf e.arg 62 = false) :
    exec (.remountIssueDemand r) s = .next ((s.offDue r rest).onPaddock (s.region r).owner (fun d => d.onRemount (fun m =>
      if e.offset < 0 then { m with armedNext := m.armedNext ++ [field e.arg 0 7] }
      else { m.beginLayer (field e.arg 0 7) with armed := m.armed ++ [field e.arg 0 7] }))).bump := by
  refine (issueEntry_of_action h (by decide) (by simp [h.is, hd]) _).trans ?_
  split <;> simp [*]

/-- The fetch that a prediction begins for an expert that no slot holds, where a slot can be taken (R342). -/
def State.predictExpert (p group slots layer : Nat) (s : State) (x : Nat) : State :=
  let m := (s.paddock p).remount
  if (m.holder group slots layer x).isSome then s
  else match m.victim group slots with
    | some n => s.startFetch p group n layer x false true true 0
    | none => s

/-- A prediction for a layer (R342). -/
def State.predict (s : State) (p layer : Nat) : State :=
  let m := (s.paddock p).remount
  let ctrl := s.remountCtrl p
  if !bitOf ctrl 4 then s
  else if m.history.length < 16 then s.cntPaddock p 6 1
  else match look m.layers layer with
    | none => s
    | some l =>
      let slots := ((look m.groups l.group).map RemountGroup.slots).getD 0
      ((m.ranked layer l.experts).take (field ctrl 0 4)).foldl (State.predictExpert p l.group slots layer) s

/-- REMOUNT_ISSUE as a prediction runs the predictor for its layer. -/
theorem exec_remountIssuePredict_of_due (h : s.atEntry r e rest 0x05) (hp : bitOf e.arg 62 = true) :
    exec (.remountIssuePredict r) s
      = .next ((s.offDue r rest).predict (s.region r).owner (field e.arg 0 7)).bump :=
  issueEntry_of_action h (by decide) (by simp [h.is, hp]) _

end

section
variable {s : State} {p layer : Nat}

theorem State.predict_of_off (h : bitOf (s.remountCtrl p) 4 = false) : s.predict p layer = s := by
  simp [State.predict, h]

theorem State.predict_of_short_history (hon : bitOf (s.remountCtrl p) 4 = true)
    (h : (s.paddock p).remount.history.length < 16) : s.predict p layer = s.cntPaddock p 6 1 := by
  simp [State.predict, hon, h]

/-- With the predictor on and its history complete, each expert of its depth is looked at in turn. -/
theorem State.predict_of_history (hon : bitOf (s.remountCtrl p) 4 = true)
    (h : 16 ≤ (s.paddock p).remount.history.length) {l : RemountLayer} (hl : look (s.paddock p).remount.layers layer = some l) :
    s.predict p layer
      = (((s.paddock p).remount.ranked layer l.experts).take (field (s.remountCtrl p) 0 4)).foldl (State.predictExpert p l.group
        (((look (s.paddock p).remount.groups l.group).map RemountGroup.slots).getD 0) layer) s := by
  simp [State.predict, hon, Nat.not_lt.mpr h, hl]

theorem State.predictExpert_of_held {group slots x : Nat}
    (h : ((s.paddock p).remount.holder group slots layer x).isSome = true) :
    State.predictExpert p group slots layer s x = s := by
  simp [State.predictExpert, h]

theorem State.predictExpert_of_victim {group slots x n : Nat}
    (h : (s.paddock p).remount.holder group slots layer x = none) (hn : (s.paddock p).remount.victim group slots = some n) :
    State.predictExpert p group slots layer s x = s.startFetch p group n layer x false true true 0 := by
  simp [State.predictExpert, h, hn]

/-- Experts that slots hold are passed over. -/
theorem State.foldl_predictExpert_of_held {group slots : Nat} (xs : List Nat)
    (h : ∀ x ∈ xs, ((s.paddock p).remount.holder group slots layer x).isSome = true) :
    xs.foldl (State.predictExpert p group slots layer) s = s := by
  induction xs with
  | nil => rfl
  | cons x xs ih =>
    rw [List.foldl_cons, State.predictExpert_of_held (h x List.mem_cons_self), ih (fun y hy => h y (List.mem_cons_of_mem x hy))]

/-- A prediction that finds every expert of its depth held fetches nothing. -/
theorem State.predict_of_held (hon : bitOf (s.remountCtrl p) 4 = true) (h : 16 ≤ (s.paddock p).remount.history.length)
    {l : RemountLayer} (hl : look (s.paddock p).remount.layers layer = some l)
    (hheld : ∀ x ∈ ((s.paddock p).remount.ranked layer l.experts).take (field (s.remountCtrl p) 0 4),
      ((s.paddock p).remount.holder l.group (((look (s.paddock p).remount.groups l.group).map RemountGroup.slots).getD 0)
        layer x).isSome = true) : s.predict p layer = s := by
  rw [State.predict_of_history hon h hl, State.foldl_predictExpert_of_held _ hheld]

/-- A prediction of depth one fetches its expert into the victim slot where none holds it. -/
theorem State.predict_of_one (hon : bitOf (s.remountCtrl p) 4 = true) (h : 16 ≤ (s.paddock p).remount.history.length)
    {l : RemountLayer} (hl : look (s.paddock p).remount.layers layer = some l) {x n : Nat}
    (hone : ((s.paddock p).remount.ranked layer l.experts).take (field (s.remountCtrl p) 0 4) = [x])
    (hnone : (s.paddock p).remount.holder l.group
      (((look (s.paddock p).remount.groups l.group).map RemountGroup.slots).getD 0) layer x = none)
    (hvictim : (s.paddock p).remount.victim l.group
      (((look (s.paddock p).remount.groups l.group).map RemountGroup.slots).getD 0) = some n) :
    s.predict p layer = s.startFetch p l.group n layer x false true true 0 := by
  rw [State.predict_of_history hon h hl, hone, List.foldl_cons, List.foldl_nil, State.predictExpert_of_victim hnone hvictim]

/-- An eviction counted changes counters only. -/
theorem State.countEvicted_frame (s : State) (p g slot : Nat) : ∃ m, s.countEvicted p g slot = { s with cntWin := m } := by
  unfold State.countEvicted
  split
  · split
    · exact ⟨_, by rw [State.cntPaddock, State.countWin_frame]⟩
    · exact ⟨_, rfl⟩
  · exact ⟨_, rfl⟩

/-- A fetch puts its content into its slot: not pinned, not begun and not predicted but as it is told; no other slot changes. -/
theorem State.slots_startFetch (s : State) (p g slot layer expert : Nat) (pinned begun predicted : Bool) (owed : Nat) :
    ∃ c : RemountSlot, ((s.startFetch p g slot layer expert pinned begun predicted owed).paddock p).remount.slots
        = putD none (s.paddock p).remount.slots (16 * g + slot) (some c)
      ∧ c.layer = layer ∧ c.expert = expert ∧ c.pinned = pinned ∧ c.begun = begun ∧ c.predicted = predicted := by
  obtain ⟨m, h⟩ := s.countEvicted_frame p g slot
  unfold State.startFetch
  rw [h, State.paddock_onPaddock]
  exact ⟨_, rfl, rfl, rfl, rfl, rfl, rfl⟩

@[simp] theorem State.startFetch_tiles (s : State) (p g slot layer expert : Nat) (pinned begun predicted : Bool) (owed : Nat) :
    (s.startFetch p g slot layer expert pinned begun predicted owed).tiles = s.tiles := by
  obtain ⟨m, h⟩ := s.countEvicted_frame p g slot
  unfold State.startFetch
  rw [h, State.onPaddock_tiles]

end

/-- REIN_READY: an opening rein is ready once its links are free and its path is live. -/
theorem exec_reinReady_of_live {p : PaddockId} {rein : BitVec 12} {x : Rein} {s : State} (hx : s.rein p rein.toNat = some x)
    (hst : x.state = .opening) (hfree : s.linksHeld p x = false) (hlive : x.hops.all s.hopLive = true) :
    exec (.reinReady p rein) s = .next (s.setRein p x.id .ready).bump := by
  simp only [exec_reinReady, execReinReady, hx]
  exact if_pos ⟨hst, by simp [hfree], hlive⟩

/-- Settles O36: each action is its body's effect on the state without the entry (log entry 140 for the beat of CKPT_MARK). -/
theorem paceEntriesOfThePlan : Obligations.PaceEntriesOfThePlan := by
  unfold Obligations.PaceEntriesOfThePlan
  refine ⟨fun r e rest s => ?_, fun p rein x s hx hst hfree hlive => exec_reinReady_of_live hx hst hfree hlive⟩
  dsimp only
  refine ⟨exec_paceNop_of_due, fun x h hx => ⟨exec_reinOpen_of_closed h hx, exec_reinOpen_of_ready h hx⟩,
    fun x h hx => ⟨exec_reinClose_of_closed h hx, fun hst => ?_⟩,
    fun t n h ht hn hl hfree => exec_gatherOpen_of_free_node h ht hn hl hfree, fun o h ho => ?_,
    exec_deadline_of_due, exec_windowMark_of_due, fun h hd => ?_, fun h hp => ⟨fun hoff => ?_, fun hon hshort => ?_,
    fun l hon hlong hl => ⟨fun hheld => ?_, fun x n hone hnone hvictim => ?_⟩⟩⟩
  · refine ⟨_, exec_reinClose_of_ready h hx hst, ?_⟩
    have hid := State.rein_id hx
    rw [← hid] at hx ⊢
    refine ⟨?_, State.rein_closeRein_of_burst (s := s.offDue r rest) hx, State.rein_closeRein_of_idle (s := s.offDue r rest) hx⟩
    rw [State.region_bump, State.region_congr (State.closeRein_regions _ _ _), s.region_offDue, if_pos rfl]
  · refine ⟨_, exec_ckptMark_of_due h ho, ?_⟩
    simp only [State.paddock_bump, State.region_bump, State.bump_tiles, State.mark_tiles, State.paddock_mark, State.region_mark,
      State.paddock_offDue, State.regionsOf_offDue, State.offDue_tiles, true_and, and_true]
    refine ⟨rfl, fun q hq => ?_⟩
    rw [if_pos hq, s.region_offDue]
  · refine ⟨_, exec_remountIssueDemand_of_due h hd, fun hneg => if_pos hneg, fun hpos => ?_⟩
    dsimp only
    rw [if_neg (Int.not_lt.mpr hpos)]
    exact ⟨rfl, rfl⟩
  · rw [exec_remountIssuePredict_of_due h hp, State.predict_of_off (s := s.offDue r rest) hoff]
    rfl
  · rw [exec_remountIssuePredict_of_due h hp, State.predict_of_short_history (s := s.offDue r rest) hon hshort]
    rfl
  · rw [exec_remountIssuePredict_of_due h hp, State.predict_of_held (s := s.offDue r rest) hon hlong hl hheld]
    rfl
  · obtain ⟨c, hslots, hlayer, hexpert, hpinned, hbegun, hpredicted⟩ := State.slots_startFetch (s.offDue r rest)
      (s.region r).owner l.group n (field e.arg 0 7) x false true true 0
    refine ⟨_, c, exec_remountIssuePredict_of_due h hp, ?_⟩
    rw [State.predict_of_one (s := s.offDue r rest) hon hlong hl hone hnone hvictim]
    simp only [State.paddock_bump, State.bump_tiles, State.startFetch_tiles, hslots, getD_putD_same, State.offDue_tiles, true_and]
    exact ⟨hlayer, hexpert, hpinned, hbegun, hpredicted, fun j hj => getD_putD_other _ _ _ _ _ hj⟩

end Sys2Proof.Machine
end

section
/-! Rules of what tiers, links, tiles and reports leave alone, and of descriptors. -/

namespace Sys2Proof.Machine

/-! ## What tiers, links, tiles, reports and counters leave alone -/

/-- The records of paddocks and regions, the packets on the mesh and the descriptors. -/
def State.records (s : State) : Map Paddock × Map Region × List Packet × List Desc := (s.paddocks, s.regions, s.net, s.descs)

section
variable {s t : State} (h : s.records = t.records)
include h

theorem State.paddock_of_records (p : Nat) : s.paddock p = t.paddock p := State.paddock_congr (congrArg Prod.fst h) p
theorem State.region_of_records (r : Nat) : s.region r = t.region r := State.region_congr (congrArg (fun x => x.2.1) h) r
theorem State.net_of_records : s.net = t.net := congrArg (fun x => x.2.2.1) h
theorem State.desc_of_records (id : Nat) : s.desc id = t.desc id := by
  have hd : s.descs = t.descs := congrArg (fun x => x.2.2.2) h
  unfold State.desc; rw [hd]

end

/-- A run of steps that each keep the records keeps them. -/
theorem records_foldl {α : Type} (f : State → α → State) (h : ∀ s a, (f s a).records = s.records) (l : List α) (s : State) :
    (l.foldl f s).records = s.records := foldl_keeps State.records f h l s

@[simp] theorem State.records_raise (s : State) (r : Report) : (s.raise r).records = s.records := rfl
@[simp] theorem State.records_onTile (s : State) (k : Nat) (f : Tile → Tile) : (s.onTile k f).records = s.records := rfl
@[simp] theorem State.records_setTier (s : State) (far : Bool) (t : Tier) : (s.setTier far t).records = s.records := by
  cases far <;> rfl
@[simp] theorem State.records_countWin (s : State) (key n : Nat) : (s.countWin key n).records = s.records := by
  rw [s.countWin_frame]; rfl
@[simp] theorem State.records_cntPaddock (s : State) (p i n : Nat) : (s.cntPaddock p i n).records = s.records :=
  s.records_countWin _ _
@[simp] theorem State.records_cntRegion (s : State) (r i n : Nat) : (s.cntRegion r i n).records = s.records :=
  s.records_countWin _ _
@[simp] theorem State.records_cntUnit (s : State) (far : Bool) (u i n : Nat) : (s.cntUnit far u i n).records = s.records := by
  have hbw : ∀ key, (s.addBw key n).records = s.records := by
    intro key; unfold State.addBw; split <;> rfl
  unfold State.cntUnit
  dsimp only
  rw [State.records_countWin]
  split
  · exact hbw _
  · rfl

@[simp] theorem State.records_linkSend (s : State) (n : Nat) (f : LinkOut) : (s.linkSend n f).records = s.records := by
  obtain ⟨_, _, _, _, h⟩ := s.linkSend_frame n f
  rw [h]; rfl

@[simp] theorem State.records_forward (s : State) (p kind addr : Nat) (bs : List (Nat × Bool)) :
    (s.forward p kind addr bs).records = s.records := by
  unfold State.forward
  split
  · rfl
  · refine (records_foldl _ (fun s _ => s.records_linkSend _ _) _ _).trans ?_
    exact s.records_countWin _ _

@[simp] theorem State.records_writeTier (s : State) (far : Bool) (a : Nat) (bs : List (Nat × Bool)) :
    (s.writeTier far a bs).records = s.records :=
  records_foldl _ (fun s _ => s.records_setTier far _) _ s

/-- A write of pieces changes tiers, reports, counters, and what `each` changes. -/
theorem State.records_writePieces (s : State) (p : Nat) (far : Bool) (off : Nat) (bs : List (Nat × Bool))
    (each : State → Nat → List (Nat × Bool) → State) (h : ∀ s o b, (each s o b).records = s.records) :
    (s.writePieces p far off bs each).records = s.records := by
  refine records_foldl _ (fun s x => ?_) _ s
  split
  · rfl
  · split
    · rfl
    · rw [State.records_cntUnit, State.records_writeTier, h]

/-- A write of a share changes tiers, links, reports and counters. -/
@[simp] theorem State.records_writeShare (s : State) (p : Nat) (far : Bool) (off : Nat) (bs : List (Nat × Bool)) :
    (s.writeShare p far off bs).records = s.records := by
  refine s.records_writePieces p far off bs _ (fun s o b => ?_)
  split
  · exact s.records_forward _ _ _ _
  · rfl

@[simp] theorem State.records_uncorrectable (s : State) (far : Bool) (g : Nat) : (s.uncorrectable far g).records = s.records := by
  have hnote : ∀ unit, (s.noteUe far unit).records = s.records := fun unit => s.records_setTier far _
  unfold State.uncorrectable
  dsimp only
  split
  · split
    · exact hnote _
    · rw [State.records_setTier, hnote]
  · rw [State.records_setTier, hnote]

@[simp] theorem State.records_touchGranule (s : State) (far : Bool) (g : Nat) : (s.touchGranule far g).records = s.records := by
  unfold State.touchGranule
  dsimp only
  split
  · rfl
  · rw [State.records_cntUnit, State.records_raise, State.noteCe, State.records_setTier, State.records_setTier]
  · rw [State.records_cntUnit, State.records_raise, State.records_uncorrectable]

/-- A read of a share changes tiers, reports and counters. -/
@[simp] theorem State.records_touchShare (s : State) (p : Nat) (far : Bool) (off n : Nat) :
    (s.touchShare p far off n).records = s.records :=
  records_foldl _ (fun s g => s.records_touchGranule far g) _ s

/-- What a stride open does to T changes tiles and tiers. -/
@[simp] theorem State.records_tallyOpen (s : State) (p : Nat) (run : TallyRun) (zero : Bool) :
    (s.tallyOpen p run zero).records = s.records := by
  unfold State.tallyOpen
  dsimp only
  split
  · rfl
  · refine records_foldl _ (fun s x => ?_) _ s
    split
    · rfl
    · rw [State.records_writeShare, State.records_onTile]

/-- T returned to its value changes tiles, tiers and reports. -/
@[simp] theorem State.records_tallyRestore (s : State) (p : Nat) (run : TallyRun) (zeroed : Bool) :
    (s.tallyRestore p run zeroed).records = s.records := by
  unfold State.tallyRestore
  dsimp only
  split
  · rfl
  · refine records_foldl _ (fun s x => ?_) _ s
    split
    · rfl
    · rw [State.records_onTile, State.records_touchShare]

/-! ## A descriptor changed (14, R427) -/

theorem State.desc_id {s : State} {id : Nat} {d : Desc} (h : s.desc id = some d) : d.id = id := by
  simpa using List.find?_some h

/-- A descriptor changed reads back changed. -/
theorem State.desc_onDesc {s : State} {id : Nat} {d : Desc} (h : s.desc id = some d) {f : Desc → Desc}
    (hf : ∀ d, (f d).id = d.id) : (s.onDesc id f).desc id = some (f d) := by
  have hsame : (fun d => d.id == id) ∘ (fun d => if d.id = id then f d else d) = fun d => d.id == id := by
    funext d
    by_cases hd : d.id = id <;> simp [hd, hf]
  unfold State.desc State.onDesc at *
  rw [List.find?_map, hsame, h, Option.map_some, if_pos (by simpa using List.find?_some h)]

end Sys2Proof.Machine
end

section
namespace Sys2Proof.Machine

/-! ## Pace counts (02, R56) -/

theorem field_lt (v : BitVec 64) (lo n : Nat) : field v lo n < 2 ^ n := Nat.mod_lt _ (Nat.two_pow_pos n)

theorem strideOf_lt (c : BitVec 64) : strideOf c < 2 ^ 44 := field_lt c 20 44

theorem beatOf_lt (c : BitVec 64) : beatOf c < 2 ^ 20 := field_lt c 0 20

@[simp] theorem strideOf_paceCountOf (stride beat : Nat) : strideOf (paceCountOf stride beat) = stride % 2 ^ 44 := by
  simp only [strideOf, paceCountOf, field, BitVec.toNat_ofNat]
  omega

@[simp] theorem beatOf_paceCountOf (stride beat : Nat) : beatOf (paceCountOf stride beat) = beat % 2 ^ 20 := by
  simp only [beatOf, paceCountOf, field, BitVec.toNat_ofNat]
  omega

@[simp] theorem paceCountOf_mod (stride beat : Nat) : paceCountOf (stride % 2 ^ 44) beat = paceCountOf stride beat := by
  simp only [paceCountOf, Nat.mod_mod]

/-! ## The device pace count (02, R58, R59; 09, R298; log entry 134) -/

/-- What the device's boundary does to a region with no owner: its epoch changes. -/
def Region.deviceFlip (g : Region) (epoch : Bool) : Region := if g.owner = 0 then { g with epoch := !epoch } else g

theorem Region.epoch_deviceFlip (g : Region) (epoch : Bool) :
    (g.deviceFlip epoch).epoch = if g.owner = 0 then !epoch else g.epoch := by
  unfold Region.deviceFlip
  split <;> rfl

theorem State.deviceBoundary_of_no_flip {s : State} (h : s.flip = false) : s.deviceBoundary = s := by
  simp [State.deviceBoundary, h]

/-- With a flip requested, the device's boundary changes the epoch of each region with no owner. -/
theorem State.region_deviceBoundary_of_flip {s : State} (h : s.flip = true) {r : Nat} (hr : r < 28) :
    s.deviceBoundary.region r = (s.region r).deviceFlip s.epoch := by
  have hfold : s.deviceBoundary = (List.range 28).foldl (fun s r => s.onRegion r (fun g => g.deviceFlip s.epoch)) s := by
    simp [State.deviceBoundary, h, Region.deviceFlip]
  rw [hfold, State.region_foldl_onRegion (fun s g => g.deviceFlip s.epoch) (fun _ _ _ => rfl) _ List.nodup_range,
    if_pos (List.mem_range.mpr hr)]

@[simp] theorem State.deviceBoundary_paddocks (s : State) : s.deviceBoundary.paddocks = s.paddocks := by
  unfold State.deviceBoundary
  split
  · rfl
  · exact foldl_keeps State.paddocks _ (fun _ _ => by rfl) _ _

@[simp] theorem State.deviceBoundary_tiles (s : State) : s.deviceBoundary.tiles = s.tiles := by
  unfold State.deviceBoundary
  split
  · rfl
  · exact foldl_keeps State.tiles _ (fun _ _ => by rfl) _ _

/-- DEVICE_STRIDE while the reference is present: one stride of the device passes. -/
theorem exec_deviceStride_of_released {s : State} (href : s.refLost = false) (hrel : s.released = true) :
    exec .deviceStride s = .next (s.deviceStride (beatOf (s.paddock 0).paceCount)).bump := by
  simp [execDeviceStride, href, hrel]

/-- The device pace count replaced. -/
def State.setDevicePace (s : State) (c : BitVec 64) : State := s.onPaddock 0 (fun d => { d with paceCount := c })

@[simp] theorem State.paceCount_setDevicePace (s : State) (c : BitVec 64) : ((s.setDevicePace c).paddock 0).paceCount = c := by
  rw [State.setDevicePace, State.paddock_onPaddock]

/-- A stride of the device count that does not wrap: the count, perhaps a pulse, and the device's boundary. -/
theorem State.deviceStride_of_lt {s : State} (h : strideOf (s.paddock 0).paceCount < 2 ^ 44 - 1) (beat : Nat) :
    ∃ t : State, s.deviceStride beat = t.deviceBoundary
      ∧ t.paddocks = (s.setDevicePace (paceCountOf (strideOf (s.paddock 0).paceCount + 1) beat)).paddocks
      ∧ t.tiles = s.tiles ∧ t.regions = s.regions ∧ t.flip = s.flip := by
  unfold State.deviceStride
  dsimp only
  rw [if_neg (Nat.ne_of_lt h)]
  refine ⟨_, rfl, ?_⟩
  split <;> exact ⟨rfl, rfl, rfl, rfl⟩

/-- A beat of the device count, but for the last of a stride. -/
theorem State.deviceBeat_of_lt {s : State} (h : beatOf (s.paddock 0).paceCount < 2 ^ 20 - 1) :
    s.deviceBeat = (s.setDevicePace
      (paceCountOf (strideOf (s.paddock 0).paceCount) (beatOf (s.paddock 0).paceCount + 1))).deviceBoundary :=
  if_neg (Nat.ne_of_lt h)

/-- BEAT_BOUNDARY of id 0 while the reference is present: one beat of the device passes. -/
theorem exec_beatBoundary_device {s : State} (href : s.refLost = false) (hrel : s.released = true) :
    exec (.beatBoundary ⟨0, Nat.zero_lt_succ _⟩) s = .next s.deviceBeat.bump := by
  simp [execBeatBoundary, href, hrel]

/-- DEVICE_STRIDE adds one stride to the device count. -/
theorem deviceStride_passes (s : State) (href : s.refLost = false) (hrel : s.released = true)
    (h : strideOf (s.paddock 0).paceCount < 2 ^ 44 - 1) :
    ∃ u, exec .deviceStride s = .next u ∧ strideOf (u.paddock 0).paceCount = strideOf (s.paddock 0).paceCount + 1
      ∧ beatOf (u.paddock 0).paceCount = beatOf (s.paddock 0).paceCount ∧ u.tiles = s.tiles
      ∧ (s.flip = false → u.regions = s.regions) := by
  obtain ⟨t, hu, hpad, htiles, hregions, hflip⟩ := State.deviceStride_of_lt h (beatOf (s.paddock 0).paceCount)
  refine ⟨_, exec_deviceStride_of_released href hrel, ?_⟩
  rw [hu, State.paddock_bump, State.paddock_congr (State.deviceBoundary_paddocks t), State.paddock_congr hpad,
    State.paceCount_setDevicePace, strideOf_paceCountOf, beatOf_paceCountOf, Nat.mod_eq_of_lt (by omega),
    Nat.mod_eq_of_lt (beatOf_lt _), State.bump_tiles, State.deviceBoundary_tiles]
  exact ⟨rfl, rfl, htiles, fun hf => by rw [State.bump_regions, State.deviceBoundary_of_no_flip (hflip.trans hf), hregions]⟩

/-- BEAT_BOUNDARY of id 0 adds one beat to the device count; a requested flip reaches the regions with no owner. -/
theorem deviceBeat_passes (s : State) (href : s.refLost = false) (hrel : s.released = true)
    (h : beatOf (s.paddock 0).paceCount < 2 ^ 20 - 1) :
    ∃ u, exec (.beatBoundary ⟨0, Nat.zero_lt_succ _⟩) s = .next u
      ∧ strideOf (u.paddock 0).paceCount = strideOf (s.paddock 0).paceCount
      ∧ beatOf (u.paddock 0).paceCount = beatOf (s.paddock 0).paceCount + 1 ∧ u.tiles = s.tiles
      ∧ (s.flip = false → u.regions = s.regions)
      ∧ (s.flip = true → ∀ r, r < 28 → (u.region r).epoch
          = if (s.region r).owner = 0 then !s.epoch else (s.region r).epoch) := by
  refine ⟨_, exec_beatBoundary_device href hrel, ?_⟩
  rw [State.deviceBeat_of_lt h, State.paddock_bump, State.paddock_congr (State.deviceBoundary_paddocks _),
    State.paceCount_setDevicePace, strideOf_paceCountOf, beatOf_paceCountOf, Nat.mod_eq_of_lt (strideOf_lt _),
    Nat.mod_eq_of_lt (by omega), State.bump_tiles, State.deviceBoundary_tiles]
  refine ⟨rfl, rfl, rfl, fun hf => ?_, fun hf r hr => ?_⟩
  · rw [State.bump_regions, State.deviceBoundary_of_no_flip (s := s.setDevicePace _) hf]
    rfl
  · rw [State.region_bump, State.region_deviceBoundary_of_flip (s := s.setDevicePace _) hf hr]
    exact (s.region r).epoch_deviceFlip s.epoch

/-! ## A stride opens (02, R53, R56, R60, R66; log entry 50) -/

/-- A pending stride may open: the paddock is idle, unpaired and has an image, and nothing holds its pace. -/
abbrev State.mayOpen (s : State) (p : Nat) (n : PendingStride) : Prop :=
  let d := s.paddock p
  d.nextStride = some n ∧ d.current = none ∧ d.ended = none ∧ d.image.isSome = true ∧ d.run = none ∧ d.twin.stopped = false
    ∧ d.twin.detaching = false ∧ s.halted = false ∧ s.refLost = false ∧ d.pairMode = 0 ∧ s.decodeRefused p n = none

theorem State.shared_of_unpaired {s : State} {p : Nat} (h : (s.paddock p).pairMode = 0) : s.shared p = false := by
  simp [State.shared, h]

section
variable {p : PaddockId} {n : PendingStride} {s : State} (h : s.mayOpen p n)
include h

/-- A stride that the planner admits opens. -/
theorem exec_strideOpen_of_admitted {st : Nat} (hst : s.admittedStep p n.table = some st) :
    exec (.strideOpen p) s = .next (s.openStride p n st (max (stepM st) (s.paddock p).mMin) false).bump := by
  obtain ⟨hnext, hcur, hended, himage, hrun, hstop, hdet, hhalt, href, hpair, hdec⟩ := h
  have himage' : (s.paddock p).image.isNone = false := by simpa using himage
  simp only [exec_strideOpen, execStrideOpen, hnext, hcur, hended, himage', hrun, hstop, hdet, hhalt, href, hpair, hdec,
    State.shared_of_unpaired hpair, hst]
  rfl

/-- A stride that the planner does not admit is deferred and counted. -/
theorem exec_strideOpen_of_deferred (hst : s.admittedStep p n.table = none) :
    exec (.strideOpen p) s = .next (s.cntPaddock p 1 1).bump := by
  obtain ⟨hnext, hcur, hended, himage, hrun, hstop, hdet, hhalt, href, hpair, hdec⟩ := h
  have himage' : (s.paddock p).image.isNone = false := by simpa using himage
  simp only [exec_strideOpen, execStrideOpen, hnext, hcur, hended, himage', hrun, hstop, hdet, hhalt, href, hpair, hdec,
    State.shared_of_unpaired hpair, hst]
  rfl

end

@[simp] theorem State.settleSteps_paddocks (s : State) : s.settleSteps.paddocks = s.paddocks := by
  refine foldl_keeps State.paddocks _ (fun s' r => ?_) _ s
  dsimp only
  split
  · split <;> rfl
  · rfl
  · rfl

@[simp] theorem State.records_emit_if (c : Prop) [Decidable c] (s : State) (x : Out) :
    (if c then s.emit x else s).records = s.records := by
  split <;> rfl

/-- What a change of regions, the settling of their steps and a change of tiles leave of the paddocks. -/
theorem State.paddock_wakeTiles (s : State) (p : Nat) (rs : List Nat) (f : Region → Region) (g : Nat → Tile → Tile)
    (ks : List Nat) : ((ks.foldl (fun s k => s.onTile k (g k)) (rs.foldl (fun s r => s.onRegion r f) s).settleSteps).paddock p)
      = s.paddock p := by
  rw [State.paddock_of_records (records_foldl _ (fun _ _ => by rfl) _ _), State.paddock_congr (State.settleSteps_paddocks _),
    State.paddock_congr (foldl_keeps State.paddocks _ (fun _ _ => by rfl) _ _)]

/-- What the opening of a stride makes of its paddock before the mark and the entry of beat 0. -/
theorem State.openStride_cases (s : State) (p : Nat) (n : PendingStride) (st m : Nat) (shared : Bool) :
    ∃ t : State, s.openStride p n st m shared = (t.mark p 0).enterBeat p ∧ ∃ o : OpenStride,
      (t.paddock p).current = some o ∧ o.table = n.table ∧ o.kind = n.kind ∧ o.desc = n.desc ∧ o.test = .untested
        ∧ o.stretchMax = (s.paddock p).stretchMax ∧ (t.paddock p).paceCount = paceCountOf (s.paddock p).nextNumber 0
        ∧ (t.paddock p).started = true ∧ (t.paddock p).mStep = st ∧ (t.paddock p).m = m ∧ (t.paddock p).strideHeld = 0 := by
  unfold State.openStride
  dsimp only
  refine ⟨_, rfl, ?_⟩
  rw [State.paddock_of_records (State.records_cntPaddock _ _ _ _), State.paddock_of_records (State.records_emit_if _ _ _)]
  cases n.kind
  case tally run =>
    rw [State.paddock_of_records (State.records_tallyOpen _ _ _ _), State.paddock_wakeTiles, State.paddock_setPaddock]
    exact ⟨_, rfl, rfl, rfl, rfl, rfl, rfl, rfl, rfl, rfl, rfl, rfl⟩
  all_goals
    rw [State.paddock_wakeTiles, State.paddock_setPaddock]
    exact ⟨_, rfl, rfl, rfl, rfl, rfl, rfl, rfl, rfl, rfl, rfl, rfl⟩

/-- A pending stride that is admitted opens at beat 0 of the next number, its mark there. -/
theorem strideOpen_opens {p : PaddockId} {n : PendingStride} {s : State} (h : s.mayOpen p n) {st : Nat}
    (hst : s.admittedStep p n.table = some st) : ∃ u o, exec (.strideOpen p) s = .next u ∧ (u.paddock p).current = some o
        ∧ o.table = n.table ∧ o.kind = n.kind ∧ o.desc = n.desc ∧ o.test = .untested ∧ o.stretchMax = (s.paddock p).stretchMax
        ∧ (u.paddock p).paceCount = paceCountOf (s.paddock p).nextNumber 0
        ∧ (u.paddock p).ckptLast = (u.paddock p).paceCount ∧ (u.paddock p).started = true
        ∧ (u.paddock p).mStep = st ∧ (u.paddock p).m = max (stepM st) (s.paddock p).mMin ∧ (u.paddock p).strideHeld = 0 := by
  obtain ⟨t, hu, o, hcur, htable, hkind, hdesc, htest, hmax, hpace, hstarted, hstep, hm, hheld⟩ :=
    s.openStride_cases p n st (max (stepM st) (s.paddock p).mMin) false
  obtain ⟨a, ha⟩ := (t.mark p 0).paddock_enterBeat p
  refine ⟨_, o, exec_strideOpen_of_admitted h hst, ?_⟩
  rw [hu, State.paddock_bump, ha, State.paddock_mark]
  refine ⟨hcur, htable, hkind, hdesc, htest, hmax, hpace, ?_, hstarted, hstep, hm, hheld⟩
  show paceCountOf (strideOf (t.paddock p).paceCount) 0 = (t.paddock p).paceCount
  rw [hpace, strideOf_paceCountOf, paceCountOf_mod]

/-! ## A stride closes (02, R64) -/

section
variable {p : PaddockId} {o : OpenStride} {s : State}

/-- The last beat of an unshared stride, tested and with nothing due, closes it. -/
theorem exec_strideClose_of_passed (hrun : s.running p = some o) (hshared : s.shared p = false) (hlast : s.lastBeat p o = true)
    (htest : o.test = .passed) (hdue : s.dueDone p = true) : exec (.strideClose p) s = .next (s.closeStride p o).bump := by
  simp [execStrideClose, hrun, hlast, htest, hdue, State.twinAgrees, hshared]

@[simp] theorem State.desc_onPaddock (s : State) (p id : Nat) (f : Paddock → Paddock) : (s.onPaddock p f).desc id = s.desc id := rfl

@[simp] theorem State.records_dueTile (s : State) (kind k : Nat) : (s.dueTile kind k).records = s.records := rfl

end

/-- The end of a descriptor's last stride in its record: held beats and the count noted, and, but for a run of tally strides that
draws noise, its status. -/
def State.endWork (s : State) (p : Nat) (o : OpenStride) (id : Nat) : State :=
  let d := s.paddock p
  let s := (s.onDesc id (fun x => { x with
    stretched := x.stretched || decide (0 < d.strideHeld)
    result := match o.kind with
      | .stride => x.result + BitVec.ofNat 64 (1 + d.strideHeld * 2 ^ 32)
      | _ => x.result })).onDesc id (fun x => { x with count := some d.paceCount })
  match o.kind with
  | .tally run => if run.ctx.sampler = 0 then s.onDesc id (fun x => { x with status := some x.strideStatus })
      else s.onPaddock p (fun d => { d with run := some run })
  | _ => s.onDesc id (fun x => { x with status := some x.strideStatus })

/-- A paddock whose open stride has closed. -/
def Paddock.closed (d : Paddock) : Paddock :=
  { d with
    current := none
    seals := { d.seals with stretched := d.seals.stretched || decide (0 < d.strideHeld), held := d.seals.held + d.strideHeld } }.onRemount
      Remount.closeStride

@[simp] theorem State.paddock_onDesc (s : State) (id p : Nat) (f : Desc → Desc) : (s.onDesc id f).paddock p = s.paddock p := rfl

theorem State.paceCount_endWork (s : State) (p : Nat) (o : OpenStride) (id : Nat) :
    ((s.endWork p o id).paddock p).paceCount = (s.paddock p).paceCount := by
  unfold State.endWork
  dsimp only
  split
  · split
    · rfl
    · rw [State.paddock_onPaddock]
      rfl
  · rfl

/-- The close of a descriptor's last stride ends its work: OK, stretched, or replayed. -/
theorem State.desc_endWork {s : State} {id : Nat} {x : Desc} (hx : s.desc id = some x) (p : Nat) {o : OpenStride}
    (hkind : o.kind = .stride) : ∃ y, (s.endWork p o id).desc id = some y ∧ y.count = some (s.paddock p).paceCount
      ∧ y.status = some (if x.replayed = true then 2
        else if x.stretched = true ∨ 0 < (s.paddock p).strideHeld then 1 else 0) := by
  simp only [State.endWork, hkind]
  rw [State.desc_onDesc (State.desc_onDesc (State.desc_onDesc hx (fun _ => by rfl)) (fun _ => by rfl)) (fun _ => by rfl)]
  exact ⟨_, rfl, rfl, by simp [Desc.strideStatus]⟩

/-- The close of a descriptor's last stride that runs no decode step, in a paddock that is not to be detached. -/
theorem State.closeStride_of_last {s : State} {p : Nat} {o : OpenStride} {id : Nat} {x : Desc} (hdesc : o.desc = some id)
    (hx : s.desc id = some x) (hdec : x.decode = none) (hnext : (s.paddock p).next = none)
    (hdet : (s.paddock p).twin.detaching = false) : s.closeStride p o
      = (o.suspects.foldl (fun s k => s.dueTile 2 k) (s.endWork p o id)).onPaddock p Paddock.closed := by
  have hdecode : s.decodeOf p o = none := by simp [State.decodeOf, hdesc, hx, hdec]
  simp only [State.closeStride, hdecode, hdesc, hnext, hdet, Option.any_none, Bool.false_eq_true, if_false, State.endWork]
  rfl

/-- The last beat of a stride, tested and with nothing due, closes it with its descriptor's status. -/
theorem strideClose_closes {p : PaddockId} {o : OpenStride} {id : Nat} {x : Desc} {s : State} (hrun : s.running p = some o)
    (hshared : s.shared p = false) (hlast : s.lastBeat p o = true) (htest : o.test = .passed) (hdue : s.dueDone p = true)
    (hdesc : o.desc = some id) (hx : s.desc id = some x) (hdec : x.decode = none) (hnext : (s.paddock p).next = none)
    (hdet : (s.paddock p).twin.detaching = false) :
    ∃ u, exec (.strideClose p) s = .next u ∧ (u.paddock p).current = none
      ∧ (u.paddock p).paceCount = (s.paddock p).paceCount
      ∧ (o.kind = .stride → ∃ y, u.desc id = some y ∧ y.count = some (s.paddock p).paceCount
        ∧ y.status = some (if x.replayed = true then 2
          else if x.stretched = true ∨ 0 < (s.paddock p).strideHeld then 1 else 0)) := by
  have hsuspects := records_foldl (fun s k => s.dueTile 2 k) (fun s k => s.records_dueTile 2 k) o.suspects (s.endWork p o id)
  refine ⟨_, exec_strideClose_of_passed hrun hshared hlast htest hdue, ?_⟩
  rw [State.closeStride_of_last hdesc hx hdec hnext hdet, State.paddock_bump, State.paddock_onPaddock,
    State.paddock_of_records hsuspects]
  refine ⟨rfl, s.paceCount_endWork p o id, fun hkind => ?_⟩
  obtain ⟨y, hy, hcount, hstatus⟩ := State.desc_endWork hx p hkind
  exact ⟨y, (State.desc_of_records hsuspects id).trans hy, hcount, hstatus⟩

/-! ## A replay (02, R84; 07, R245) -/

/-- A region returned to a mark: its entries as R84 and R88 keep them, its objects at their marked values. -/
def Region.replayed (g : Region) (beat : Nat) : Region :=
  { g.keepEntries beat with digest := 0, barriers := restoreObjects g.barriers g.marked }

/-- The open stride after a replay. -/
def OpenStride.replayed (o : OpenStride) : OpenStride :=
  { o with
    test := .untested, inHeld := false, faulted := false, replayDue := false, stopped := false, closeSent := false
    overrunReplays := o.overrunReplays + (if o.faulted then 1 else 0) }

/-- A paddock returned to a mark with its open stride. -/
def Paddock.replayed (d : Paddock) (o : OpenStride) (beat : Nat) : Paddock :=
  { d with
    paceCount := paceCountOf (strideOf d.paceCount) beat
    strideHeld := 0
    digest := 0
    twin := { d.twin with close := none }
    wafer := { d.wafer with objs := restoreObjects d.wafer.objs d.wafer.marked }
    current := some o.replayed
    seals := { d.seals with
      replayed := true
      replays := d.seals.replays + 1
      stretched := d.seals.stretched || decide (0 < d.strideHeld)
      held := d.seals.held + d.strideHeld } }.onRemount Remount.replay

/-- Of the paddock's packets only the acknowledgements of remount bursts stay on the mesh. -/
theorem State.putAck_of_dropTraffic {s : State} {p : Nat} {a : Packet} (ha : a ∈ (s.dropTraffic p).net) (hp : a.paddock = p) :
    a.op = .putAck := by
  have hkept := (List.mem_filter.mp ha).2
  simp only [hp, bne_self_eq_false, Bool.false_or, Bool.and_eq_true, beq_iff_eq] at hkept
  exact hkept.1

/-- A replay: the traffic is dropped, tiles and tiers are rebuilt, regions and paddock return to the mark, the descriptor notes
it, and the mark's beat is entered. -/
theorem State.replayFrom_cases {s : State} {p : Nat} {o : OpenStride} (ho : (s.paddock p).current = some o)
    (himage : (s.paddock p).image.isSome = true) : ∃ t v : State, s.replayFrom p = v.enterBeat p
      ∧ t.records = (s.dropTraffic p).records ∧ v.net = t.net
      ∧ v.regions = (t.onRegionsOf p (fun g => g.replayed (beatOf (s.paddock p).ckptLast))).regions
      ∧ v.paddock p = (t.paddock p).replayed o (beatOf (s.paddock p).ckptLast) := by
  obtain ⟨i, hi⟩ := Option.isSome_iff_exists.mp himage
  simp only [State.replayFrom, ho, hi]
  generalize ht : List.foldl (α := State) (β := Nat) _ _ _ = t
  have hrecords : t.records = (s.dropTraffic p).records := by
    rw [← ht, records_foldl _ (fun s k => by split <;> rfl)]
    cases o.kind
    case tally run => exact State.records_tallyRestore _ _ _ _
    all_goals rfl
  refine ⟨t, _, rfl, hrecords, ?_⟩
  rw [State.net_of_records (State.records_cntPaddock _ _ _ _), State.cntPaddock_regions,
    State.paddock_of_records (State.records_cntPaddock _ _ _ _)]
  have hpad : ∀ f : Paddock → Paddock, ((t.onRegionsOf p (fun g => g.replayed (beatOf (s.paddock p).ckptLast))).onPaddock p f).paddock p
      = f (t.paddock p) := fun f => by rw [State.paddock_onPaddock, State.paddock_onRegionsOf]
  refine ⟨?_, ?_, ?_⟩
  · split <;> exact State.onRegionsOf_net t p _
  · split <;> rfl
  · split <;> exact hpad (fun d => d.replayed o (beatOf (s.paddock p).ckptLast))

/-- A faulted stride replays from its mark's beat. -/
theorem replay_returns {p : PaddockId} {o : OpenStride} {s : State} (ho : (s.paddock p).current = some o)
    (himage : (s.paddock p).image.isSome = true) (hfault : o.faulted = true) (hhalt : s.halted = false)
    (href : s.refLost = false) : ∃ u, exec (.replay p) s = .next u
      ∧ (u.paddock p).paceCount = paceCountOf (strideOf (s.paddock p).paceCount) (beatOf (s.paddock p).ckptLast)
      ∧ (u.paddock p).strideHeld = 0 ∧ (u.paddock p).seals.replays = (s.paddock p).seals.replays + 1
      ∧ (∀ o', (u.paddock p).current = some o' → o'.faulted = false ∧ o'.test = .untested
        ∧ o'.overrunReplays = o.overrunReplays + 1)
      ∧ (∀ a ∈ u.net, a.paddock = p → a.op = .putAck)
      ∧ (∀ r ∈ s.regionsOf p, (u.region r).barriers = restoreObjects (s.region r).barriers (s.region r).marked) := by
  obtain ⟨t, v, hu, hrecords, hnet, hregions, hpad⟩ := State.replayFrom_cases ho himage
  have hexec : exec (.replay p) s = .next (s.replayFrom p).bump := by simp [execReplay, ho, hfault, hhalt, href]
  obtain ⟨a, ha⟩ := v.paddock_enterBeat p
  have htpad : t.paddock p = s.paddock p := State.paddock_of_records hrecords p
  refine ⟨_, hexec, ?_⟩
  rw [hu, State.paddock_bump, ha, hpad, htpad]
  refine ⟨rfl, rfl, rfl, fun o' ho' => ?_, fun b hb hbp => ?_, fun r hr => ?_⟩
  · obtain rfl : o.replayed = o' := Option.some.inj ho'
    exact ⟨rfl, rfl, by simp [OpenStride.replayed, hfault]⟩
  · rw [State.bump_net, State.enterBeat_net, hnet, State.net_of_records hrecords] at hb
    exact State.putAck_of_dropTraffic hb hbp
  · obtain ⟨es, hes⟩ := v.region_enterBeat p r
    have hregion : ∀ q, t.region q = s.region q := fun q => State.region_of_records hrecords q
    rw [State.region_bump, hes, State.region_congr hregions, State.region_onRegionsOf,
      if_pos (by rw [State.regionsOf_congr (fun q => congrArg Region.owner (hregion q))]; exact hr), hregion]
    rfl

/-- Settles O39: a stride's opening, close and replay, and the device count, each from the one equation of its command (log entry
50 for stride number 0, 134 for the device's beats). -/
theorem stridesOpenCloseReplay : Obligations.StridesOpenCloseReplay := by
  unfold Obligations.StridesOpenCloseReplay
  refine ⟨fun p n s => ?_, fun p o id x s hrun hshared hlast htest hdue hdesc hx hdec hnext hdet => ?_,
    fun p o s ho himage hfault hhalt href => replay_returns ho himage hfault hhalt href, deviceStride_passes,
    deviceBeat_passes⟩
  · dsimp only
    intro hnext hcur hended himage hrun hstop hdet hhalt href hpair hdec
    have hopen : s.mayOpen p n := ⟨hnext, hcur, hended, himage, hrun, hstop, hdet, hhalt, href, hpair, hdec⟩
    exact ⟨fun st hst => strideOpen_opens hopen hst, exec_strideOpen_of_deferred hopen⟩
  · exact strideClose_closes hrun hshared hlast htest hdue hdesc hx hdec hnext hdet

end Sys2Proof.Machine
end

section
/-! Descriptors that open strides or end at once (02, R60 to R62; 11, R352, R354; 13, R389; 14, R427 to R433). -/

namespace Sys2Proof.Machine

/-! ## The work of a descriptor and its end (14, R430, R440) -/

theorem State.desc_of_atDesc {s : State} {id op : Nat} {d : Desc} (h : s.atDesc id op d) : s.desc id = some d := h.1

theorem State.status_of_atDesc {s : State} {id op : Nat} {d : Desc} (h : s.atDesc id op d) : d.status = none := h.2.2.1

/-- The work of a descriptor that may be done now is done. -/
theorem descWork_of_atDesc {s t : State} {id op : Nat} {d : Desc} {body : Desc → State → Option State} (h : s.atDesc id op d)
    (hbody : body d s = some t) : descWork id op s body = .next t.bump := by
  obtain ⟨hd, hop, hstatus, hstarted, hhalted, hd3, hfirst⟩ := h
  have hearlier : s.descs.filter (fun x => decide (x.id < id) && x.paddock == d.paddock && x.status.isNone
      && serialOpcode x.opcode) = [] := by
    refine List.filter_eq_nil_iff.mpr fun x hx => ?_
    simp only [Bool.and_eq_true, decide_eq_true_eq, beq_iff_eq, Option.isNone_iff_eq_none]
    exact fun ⟨⟨⟨hlt, hp⟩, hnone⟩, _⟩ => hfirst x hx hlt hp hnone
  unfold descWork
  simp only [hd, hearlier, hop, hstatus, hstarted, hhalted, hbody]
  rw [if_neg]
  simpa using hd3

theorem State.desc_finishDesc {s : State} {id : Nat} {d : Desc} (h : s.desc id = some d) (hs : d.status = none)
    (st : Nat) (r : BitVec 64) : (s.finishDesc id st r).desc id = some { d with status := some st, result := r } := by
  rw [State.finishDesc, State.desc_onDesc h (fun d => by cases d.status <;> rfl)]
  simp only [hs]

/-- A descriptor with no status ends with the one it is given. -/
theorem State.ended_finishDesc {s : State} {id : Nat} {d : Desc} (h : s.desc id = some d) (hs : d.status = none)
    (st : Nat) (r : BitVec 64) : (s.finishDesc id st r).bump.ended id st r :=
  ⟨_, State.desc_finishDesc h hs st r, rfl, rfl⟩

@[simp] theorem State.paddock_finishDesc (s : State) (id st : Nat) (r : BitVec 64) (p : Nat) :
    (s.finishDesc id st r).paddock p = s.paddock p := rfl

/-! ## A stride becomes pending (02, R60, R86) -/

theorem State.next_onPaddock {s : State} {p : Nat} {f : Paddock → Paddock} (hf : ∀ d, (f d).next = d.next) :
    ((s.onPaddock p f).paddock p).next = (s.paddock p).next := by
  rw [State.paddock_onPaddock, hf]

/-- Of what a stride that becomes pending changes: no tile and no descriptor, and of the paddocks its own, whose pending
stride stays. -/
theorem State.notePending_keeps (s : State) (p : Nat) : (s.notePending p).tiles = s.tiles ∧ (s.notePending p).descs = s.descs
    ∧ (∀ q, q ≠ p → (s.notePending p).paddock q = s.paddock q) ∧ ((s.notePending p).paddock p).next = (s.paddock p).next := by
  have hcount : ∀ n : State → Nat → Nat, ((s.paceRegions p).foldl (fun s r => s.cntRegion r 9 (n s r)) s).tiles = s.tiles
      ∧ ((s.paceRegions p).foldl (fun s r => s.cntRegion r 9 (n s r)) s).records = s.records := fun n =>
    ⟨foldl_keeps State.tiles _ (fun _ _ => State.cntRegion_tiles _ _ _ _) _ _,
      records_foldl _ (fun _ _ => State.records_cntRegion _ _ _ _) _ _⟩
  unfold State.notePending
  dsimp only
  split
  · exact ⟨rfl, rfl, fun _ _ => rfl, rfl⟩
  · split
    · obtain ⟨htiles, hrec⟩ := hcount fun s r => _
      exact ⟨htiles, congrArg (fun x => x.2.2.2) hrec, fun q _ => State.paddock_of_records hrec q,
        congrArg Paddock.next (State.paddock_of_records hrec p)⟩
    · obtain ⟨htiles, hrec⟩ := hcount fun s r => _
      refine ⟨htiles, congrArg (fun x => x.2.2.2) hrec, fun q hq => ?_, ?_⟩
      · rw [State.paddock_onPaddock_other _ _ _ _ hq]
        exact State.paddock_of_records hrec q
      · exact (State.next_onPaddock fun _ => by rfl).trans (congrArg Paddock.next (State.paddock_of_records hrec p))

/-- A descriptor's stride is pending in `u`: the paddock `p` holds it, the descriptor has begun and has no status, and no
tile and no other paddock changed since `s`. -/
def State.pends (s u : State) (p id : Nat) (n : PendingStride) (work : Option DecodeWork) : Prop :=
  (u.paddock p).next = some n ∧ (∃ x, u.desc id = some x ∧ x.started = true ∧ x.status = none ∧ x.decode = work)
    ∧ u.tiles = s.tiles ∧ ∀ q, q ≠ p → u.paddock q = s.paddock q

/-- A descriptor whose stride starts leaves it pending. -/
theorem State.pends_startStride {s : State} {d x : Desc} {id : Nat} (hid : d.id = id) (h : s.desc id = some x)
    (hx : x.status = none) (n : PendingStride) : s.pends (s.startStride d n) d.paddock id n x.decode := by
  subst hid
  set t := (s.onDesc d.id (fun x => { x with started := true })).onPaddock d.paddock (fun pd => { pd with next := some n })
    with ht
  have hnext : (t.paddock d.paddock).next = some n := congrArg Paddock.next (State.paddock_onPaddock _ _ _)
  have hdesc : t.desc d.id = some { x with started := true } := State.desc_onDesc h (fun _ => by rfl)
  have hother : ∀ q, q ≠ d.paddock → t.paddock q = s.paddock q := fun q hq => by
    rw [ht, State.paddock_onPaddock_other _ _ _ _ hq, State.paddock_onDesc]
  unfold State.startStride
  dsimp only
  rw [← ht]
  split
  · exact ⟨hnext, ⟨{ x with started := true }, hdesc, rfl, hx, rfl⟩, rfl, hother⟩
  · obtain ⟨htiles, hdescs, hpads, hkept⟩ := t.notePending_keeps d.paddock
    refine ⟨hkept.trans hnext, ⟨{ x with started := true }, ?_, rfl, hx, rfl⟩, htiles, fun q hq => (hpads q hq).trans (hother q hq)⟩
    rw [State.desc, hdescs]
    exact hdesc

/-- A stride pending since a state that differs from `s` in records of `p` and of descriptors only. -/
theorem State.pends.of_before {s t u : State} {p id : Nat} {n : PendingStride} {work : Option DecodeWork} (h : t.pends u p id n work)
    (htiles : t.tiles = s.tiles) (hpads : ∀ q, q ≠ p → t.paddock q = s.paddock q) : s.pends u p id n work := by
  obtain ⟨hnext, hdesc, htiles', hpads'⟩ := h
  exact ⟨hnext, hdesc, htiles'.trans htiles, fun q hq => (hpads' q hq).trans (hpads q hq)⟩

/-- A command that leaves a stride pending, with the descriptor that it begins. -/
theorem State.begins_of_pends {s : State} {c : Instr} {p id : Nat} {n : PendingStride} {work : Option DecodeWork}
    (h : ∃ u, exec c s = .next u ∧ s.pends u p id n work) : ∃ u x, exec c s = .next u ∧ (u.paddock p).next = some n
      ∧ u.desc id = some x ∧ x.started = true ∧ x.status = none ∧ x.decode = work ∧ u.tiles = s.tiles
      ∧ ∀ q, q ≠ p → u.paddock q = s.paddock q := by
  obtain ⟨u, hu, hnext, ⟨x, hx, hstarted, hstatus, hwork⟩, htiles, hpads⟩ := h
  exact ⟨u, x, hu, hnext, hx, hstarted, hstatus, hwork, htiles, hpads⟩

/-! ## STRIDE (02, R60 to R62) -/

/-- The stride that a STRIDE descriptor asks for. -/
def Desc.strideAsked (d : Desc) (id : Nat) : PendingStride := {
  table := d.nat 8 1
  kind := .stride
  desc := some id
  key := BitVec.ofNat 64 (d.nat 16 8)
  left := d.nat 10 4 }

/-- A paddock that remembers a stride as its last run (R62). -/
def Paddock.ran (n : PendingStride) (pd : Paddock) : Paddock := { pd with lastRun := some { n with desc := none, left := 1 } }

theorem exec_stride_pends {s : State} {id : Nat} {d : Desc} {i : Image} (h : s.atDesc id 0x0030 d)
    (himage : (s.paddock d.paddock).image = some i) (hfree : (s.paddock d.paddock).strideWaits = false)
    (hused : s.tableUsed d.paddock (d.nat 8 1) = true) (hone : (s.paddock d.paddock).paceSrc = 0 → d.nat 10 4 = 1) :
    ∃ u, exec (.stride id) s = .next u ∧ s.pends u d.paddock id (d.strideAsked id) d.decode := by
  have hbody : (!s.tableUsed d.paddock (d.nat 8 1) || ((s.paddock d.paddock).paceSrc == 0 && d.nat 10 4 != 1)) = false := by
    simpa [hused] using hone
  rw [exec_stride, execStride]
  refine ⟨_, descWork_of_atDesc (t := (s.onPaddock d.paddock (Paddock.ran (d.strideAsked id))).startStride d
    (d.strideAsked id)) h ?_, ?_⟩
  · simp only [himage, Option.isNone_some, Bool.false_or, hbody, hfree, Bool.false_eq_true, if_false]
    rfl
  · have hd : (s.onPaddock d.paddock (Paddock.ran (d.strideAsked id))).desc id = some d := State.desc_of_atDesc h
    exact (State.pends_startStride (State.desc_id hd) hd (State.status_of_atDesc h) _).of_before rfl
      fun q hq => State.paddock_onPaddock_other _ _ _ _ hq

/-! ## Decode sessions (11, R352, R354, R357) -/

/-- A paddock's sessions changed. -/
def Paddock.onSessions (f : Map Session → Map Session) (pd : Paddock) : Paddock := { pd with sessions := f pd.sessions }

theorem State.sessions_onSessions (s : State) (p : Nat) (f : Map Session → Map Session) :
    ((s.onPaddock p (Paddock.onSessions f)).paddock p).sessions = f (s.paddock p).sessions := by
  rw [State.paddock_onPaddock]
  rfl

section
variable {s : State} {id : Nat} {d : Desc} {i : Image} {capacity : Nat} {a : Nat} {b : List DecodeTable}
  (h : s.atDesc id 0x0032 d) (himage : (s.paddock d.paddock).image = some i)
  (hplan : i.decodePlan (s.paddock d.paddock).placement = some (capacity, a, b))
  (hnew : look (s.paddock d.paddock).sessions (d.nat 8 1) = none) (hk : d.nat 10 1 ≤ 8)
  (hmaquette : 1 ≤ d.nat 10 1 → i.maquette = true) (hscale : d.nat 9 1 = 1 → positiveFinite (d.nat 12 4) = true)
include h himage hplan hnew hk hmaquette hscale

/-- A session beyond the plan's capacity is not opened (R352). -/
theorem exec_decodeOpen_full (hfull : capacity < ((s.paddock d.paddock).sessions.map (fun kv => kv.2.limit)).sum + d.nat 28 4) :
    exec (.decodeOpen id) s = .next (s.finishDesc id 0x0201 0).bump := by
  rw [exec_decodeOpen, execDecodeOpen]
  refine descWork_of_atDesc h ?_
  simp only [himage, hplan, hnew, if_pos hfull]
  rw [if_neg]
  simpa [Nat.not_lt.mpr hk] using ⟨hmaquette, hscale⟩

/-- The session that DECODE_OPEN opens (Table 11.2). -/
def Desc.session (d : Desc) : Session := {
  seed := BitVec.ofNat 64 (d.nat 16 8)
  sample := d.nat 9 1 == 1
  c := BitVec.ofNat 32 (d.nat 12 4)
  k := d.nat 10 1
  stops := (List.range (d.nat 11 1)).map (fun j => d.nat (32 + 4 * j) 4)
  maxNew := d.nat 24 4
  limit := d.nat 28 4 }

/-- A session within the plan's capacity is opened (R352). -/
theorem exec_decodeOpen_fits (hfits : ((s.paddock d.paddock).sessions.map (fun kv => kv.2.limit)).sum + d.nat 28 4 ≤ capacity) :
    exec (.decodeOpen id) s = .next ((s.onPaddock d.paddock (Paddock.onSessions fun m =>
      insertAt m (d.nat 8 1) d.session)).finishDesc id 0 0).bump := by
  rw [exec_decodeOpen, execDecodeOpen]
  refine descWork_of_atDesc h ?_
  simp only [himage, hplan, hnew, if_neg (Nat.not_lt.mpr hfits)]
  rw [if_neg]
  · rfl
  · simpa [Nat.not_lt.mpr hk] using ⟨hmaquette, hscale⟩

end

/-- DECODE_CLOSE of an open session drops it. -/
theorem exec_decodeClose_open {s : State} {id : Nat} {d : Desc} {x : Session} (h : s.atDesc id 0x0034 d)
    (hx : look (s.paddock d.paddock).sessions (d.nat 8 1) = some x) :
    exec (.decodeClose id) s = .next ((s.onPaddock d.paddock (Paddock.onSessions fun m =>
      drop m (d.nat 8 1))).finishDesc id 0 0).bump := by
  rw [exec_decodeClose, execDecodeClose]
  refine descWork_of_atDesc h ?_
  simp only [hx, Option.isNone_some, Bool.false_eq_true, if_false]
  rfl

/-- With no step of a session in the open stride, the session is at its committed position. -/
theorem State.sessionAhead_of_other {s : State} {p n : Nat} {x : Session}
    (h : ∀ o, (s.paddock p).current = some o → o.kind ≠ .decode n) : s.sessionAhead p n x = x.pos := by
  unfold State.sessionAhead
  cases ho : (s.paddock p).current with
  | none => rfl
  | some o => exact if_neg (h o ho)

/-- The work of a DECODE_STEP, as its descriptor asks for it. -/
def State.decodeWork (s : State) (d : Desc) (x : Session) (kind : Nat) (maquette : List (List (BitVec 32))) : DecodeWork := {
  kind := kind
  session := d.nat 8 1
  k := x.k
  prompt := if kind = 0 then s.stepTokens d.bytes d.staged else []
  maquette := maquette
  last := d.nat 11 1 == 1 }

section
variable {s : State} {id : Nat} {d : Desc} {i : Image} {x : Session} {kind : Nat}
  (h : s.atDesc id 0x0033 d) (himage : (s.paddock d.paddock).image = some i)
  (hx : look (s.paddock d.paddock).sessions (d.nat 8 1) = some x) (hkind : d.nat 9 1 = kind) (hk : kind = 2 → x.k ≠ 0)
include h himage hx hkind hk

/-- A step of a finished session ends at once, with no token (R357). -/
theorem decodeStep_finished (hfin : x.finished = true) (maquette : List (List (BitVec 32))) :
    decodeStep id kind (d.nat 8 1) s maquette = .next (s.finishDesc id 0 (BitVec.ofNat 64 (x.pos * 2 ^ 32))).bump := by
  rw [decodeStep]
  refine descWork_of_atDesc h ?_
  simp only [hkind, himage, hx, hfin, ne_eq, not_true_eq_false, or_self, if_false, if_true]
  rw [if_neg (fun hc => hk hc.1 hc.2)]

/-- A step of a session that the plan has a table for leaves its stride pending (R354). -/
theorem decodeStep_pends {plan : Nat × Nat × List DecodeTable} {table : Nat} (maquette : List (List (BitVec 32)))
    (hplan : i.decodePlan (s.paddock d.paddock).placement = some plan) (hfree : (s.paddock d.paddock).strideWaits = false)
    (hrun : x.finished = false) (hother : ∀ o, (s.paddock d.paddock).current = some o → o.kind ≠ .decode (d.nat 8 1))
    (htable : (planTable plan.2.2 kind x.k ((s.decodeWork d x kind maquette).stop x x.pos)).or (lastTable plan.2.2 kind x.k)
      = some table) (hused : s.tableUsed d.paddock table = true) :
    ∃ u, decodeStep id kind (d.nat 8 1) s maquette = .next u ∧ s.pends u d.paddock id
      { table := table, kind := .decode (d.nat 8 1), desc := some id, key := x.seed, left := 1 }
      (some (s.decodeWork d x kind maquette)) := by
  have hd := State.desc_of_atDesc h
  have hs : d.status = none := State.status_of_atDesc h
  rw [decodeStep]
  refine ⟨_, descWork_of_atDesc (t := (s.onDesc id (fun y => { y with decode := some (s.decodeWork d x kind maquette) })).startStride d
    { table := table, kind := .decode (d.nat 8 1), desc := some id, key := x.seed, left := 1 }) h ?_, ?_⟩
  · simp only [hkind, himage, hx, hrun, hplan, Option.bind_some, State.sessionAhead_of_other hother, ne_eq, not_true_eq_false,
      or_self, if_false, Bool.false_eq_true]
    rw [if_neg (fun hc => hk hc.1 hc.2)]
    unfold State.decodeWork at htable
    simp only [htable, hused, hfree, Bool.not_true, Bool.false_eq_true, if_false]
    rfl
  · exact (State.pends_startStride (State.desc_id hd) (State.desc_onDesc hd (fun _ => by rfl)) hs _).of_before rfl
      fun q _ => rfl

end

/-! ## TALLY_RUN (13, R389, R398, R403) -/

/-- The run that a TALLY_RUN descriptor asks for, under the key of its noise. -/
def Desc.tallyStride (d : Desc) (id : Nat) (key : BitVec 256) : PendingStride := {
  table := d.nat 32 1
  kind := .tally {
    ctx := { decl := d.nat 8 1, base := d.nat 16 8, sampler := d.nat 10 1, p1 := d.nat 24 4, p2 := d.nat 28 4,
             k0 := (noiseKey key (d.nat 12 4)).1, k1 := (noiseKey key (d.nat 12 4)).2 }
    clear := d.nat 9 1 % 2 == 1
    slot := d.nat 11 1
    desc := id }
  desc := some id
  key := BitVec.ofNat 64 (d.nat 36 8)
  left := d.nat 34 2 }

/-- The record of the key of a run's noise joins its descriptor's. -/
def State.tallyKeyed (s : State) (d : Desc) (id : Nat) (key : BitVec 256) : State :=
  if d.nat 10 1 = 0 then s else s.chain id (keyRecord key).kind (keyRecord key).payload

/-- TALLY_RUN with its checks passed leaves its stride pending. -/
theorem exec_tallyRun_pends {s : State} {id : Nat} {d : Desc} {i : Image} {t : TallyDecl} {key : BitVec 256}
    (h : s.atDesc id 0x0040 d) (ht : look (s.paddock d.paddock).tallies (d.nat 8 1) = some t)
    (hkey : (if d.nat 10 1 = 0 then some 0 else look (s.paddock d.paddock).relKeys (d.nat 11 1)) = some key)
    (henable : t.enable = true)
    (hcells : d.nat 16 8 + t.cpo * ((s.paddock d.paddock).tallyOwners (d.nat 8 1)).length ≤ 2 ^ 36)
    (hsampler : samplerOk (d.nat 10 1) (d.nat 24 4) (d.nat 28 4) = true) (himage : (s.paddock d.paddock).image = some i)
    (hused : s.tableUsed d.paddock (d.nat 32 1) = true) (hfree : (s.paddock d.paddock).strideWaits = false) :
    ∃ u, exec (.tallyRun id) s = .next u ∧ s.pends u d.paddock id (d.tallyStride id key) d.decode := by
  have hd := State.desc_of_atDesc h
  have hs : d.status = none := State.status_of_atDesc h
  rw [exec_tallyRun, execTallyRun]
  refine ⟨_, descWork_of_atDesc (t := (s.tallyKeyed d id key).startStride d (d.tallyStride id key)) h ?_, ?_⟩
  · simp only [ht, hkey, henable, hsampler, himage, hused, hfree, Nat.not_lt.mpr hcells, Bool.not_true, decide_false,
      Option.isNone_some, Bool.or_self, Bool.false_eq_true, if_false]
    rfl
  · unfold State.tallyKeyed
    split
    · exact State.pends_startStride (State.desc_id hd) hd hs _
    · exact (State.pends_startStride (State.desc_id hd) (State.desc_onDesc hd (fun _ => by rfl)) hs _).of_before rfl
        fun q _ => rfl

end Sys2Proof.Machine
end

section
/-! The finishing step of a tally run (13, R402, R403; 19, R572). -/

namespace Sys2Proof.Machine

theorem State.tile_onTile (s : State) (k : Nat) (f : Tile → Tile) : (s.onTile k f).tile k = f (s.tile k) :=
  State.tile_setTile _ _ _

theorem State.otherTiles_onTile (s : State) (k : Nat) (f : Tile → Tile) : s.otherTiles (s.onTile k f) k :=
  fun _ hj => State.tile_setTile_other _ _ _ _ hj

@[simp] theorem Tile.word_raise (t : Tile) (r : Report) (i : Nat) : (t.raise r).word i = t.word i := rfl

@[simp] theorem State.cntFrame_tiles (s : State) (i n : Nat) : (s.cntFrame i n).tiles = s.tiles := by
  rw [State.cntFrame, State.countWin_frame]

@[simp] theorem State.records_cntFrame (s : State) (i n : Nat) : (s.cntFrame i n).records = s.records := s.records_countWin _ _

/-- A pending cell whose count is not poisoned takes the noisy count; no other tile changes. -/
theorem State.finishCell_pending {s : State} {t : TallyDecl} {c : TallyCtx} {rank k i : Nat}
    (hcell : (s.tile k).word (t.prot / 8 + i) = ⟨pendingCell, false⟩) (hcount : ((s.tile k).word (t.table / 8 + i)).poison = false) :
    ∃ u : State, s.finishCell t c rank k i = (u, true) ∧ u.records = s.records ∧ s.otherTiles u k
      ∧ (u.tile k).word (t.prot / 8 + i) = (noisyCount ((s.tile k).word (t.table / 8 + i)).val (noiseUnbounded c.sampler c.p1 c.p2
          c.k0 c.k1 (BitVec.ofNat 64 (c.base + rank * t.cpo + i)))).1.stored := by
  unfold State.finishCell
  simp only [hcell, hcount, bne_self_eq_false, Bool.or_self, Bool.false_eq_true, if_false]
  refine ⟨_, rfl, ?_, ?_, ?_⟩
  · split
    · rw [State.records_onTile, State.records_onTile]
    · rw [State.records_onTile]
  · split
    · exact fun j hj => (State.otherTiles_onTile _ _ _ j hj).trans (State.otherTiles_onTile _ _ _ j hj)
    · exact State.otherTiles_onTile _ _ _
  · split <;> simp only [State.tile_onTile, Tile.word_raise, Tile.word_putWord_same, PWord.stored]

/-- What the end of a run leaves of its paddock: no run, and the erases that waited for it done (R572). -/
def Paddock.runEnded (pd : Paddock) : Paddock :=
  { pd with run := none, relKeys := pd.eraseDue.foldl (fun m k => drop m k) pd.relKeys, eraseDue := [] }

/-- A descriptor of a run that ended, with the count of its finished cells. -/
def Desc.runEnded (n : Nat) (x : Desc) : Desc :=
  { x with status := some (x.status.getD x.strideStatus), result := BitVec.ofNat 64 n }

/-- TALLY_FINISH of a run whose one cell is pending (R403). -/
theorem exec_tallyFinish_one {s : State} {id : Nat} {d : Desc} {run : TallyRun} {t : TallyDecl} {k : Nat} (hd : s.desc id = some d)
    (hrun : (s.paddock d.paddock).run = some run) (hid : run.desc = id)
    (ht : look (s.paddock d.paddock).tallies run.ctx.decl = some t) (hcpo : t.cpo = 1)
    (hk : (s.paddock d.paddock).tallyOwners run.ctx.decl = [k]) {u : State}
    (hu : s.finishCell t run.ctx 0 k 0 = (u, true)) (hrec : u.records = s.records) :
    exec (.tallyFinish id) s = .next ((((u.onPaddock d.paddock Paddock.runEnded).cntPaddock d.paddock 18 1).cntFrame 23
      (s.paddock d.paddock).eraseDue.length).onDesc id (Desc.runEnded 1)).bump := by
  rw [exec_tallyFinish, execTallyFinish]
  simp only [hd, hrun, ht, hid, ne_eq, not_true_eq_false, if_false, hk, hcpo, List.length_singleton, List.range_one,
    List.zip_cons_cons, List.zip_nil_left, List.map_cons, List.map_nil, List.flatten_cons, List.flatten_nil, List.append_nil,
    List.foldl_cons, List.foldl_nil, hu, if_true, State.paddock_of_records hrec]
  rfl

/-- A run of one pending cell ends: its paddock has no run and no erase that waits, its descriptor a status and the count of
one, its cell the noisy count. -/
theorem tallyFinish_ends {s : State} {id : Nat} {d : Desc} {run : TallyRun} {t : TallyDecl} {k : Nat} (hd : s.desc id = some d)
    (hrun : (s.paddock d.paddock).run = some run) (hid : run.desc = id)
    (ht : look (s.paddock d.paddock).tallies run.ctx.decl = some t) (hcpo : t.cpo = 1)
    (hk : (s.paddock d.paddock).tallyOwners run.ctx.decl = [k]) (hcell : (s.tile k).word (t.prot / 8) = ⟨pendingCell, false⟩)
    (hcount : ((s.tile k).word (t.table / 8)).poison = false) :
    ∃ u : State, exec (.tallyFinish id) s = .next u ∧ u.paddock d.paddock = (s.paddock d.paddock).runEnded
      ∧ u.desc id = some (d.runEnded 1) ∧ s.otherTiles u k
      ∧ (u.tile k).word (t.prot / 8) = (noisyCount ((s.tile k).word (t.table / 8)).val (noiseUnbounded run.ctx.sampler
          run.ctx.p1 run.ctx.p2 run.ctx.k0 run.ctx.k1 (BitVec.ofNat 64 run.ctx.base))).1.stored := by
  obtain ⟨u, hu, hrec, hother, hword⟩ := State.finishCell_pending (c := run.ctx) (rank := 0) (i := 0) hcell hcount
  simp only [Nat.zero_mul, Nat.add_zero] at hword
  set v := ((u.onPaddock d.paddock Paddock.runEnded).cntPaddock d.paddock 18 1).cntFrame 23 (s.paddock d.paddock).eraseDue.length
    with hv
  have hvrec : v.records = (u.onPaddock d.paddock Paddock.runEnded).records := by
    rw [hv, State.records_cntFrame, State.records_cntPaddock]
  have hvtiles : v.tiles = u.tiles := by
    rw [hv, State.cntFrame_tiles, State.cntPaddock_tiles]
    rfl
  have htile : ∀ j, ((v.onDesc id (Desc.runEnded 1)).bump).tile j = u.tile j := State.tile_congr hvtiles
  refine ⟨_, exec_tallyFinish_one hd hrun hid ht hcpo hk hu hrec, ?_, ?_, fun j hj => (htile j).trans (hother j hj), ?_⟩
  · calc v.paddock d.paddock = (u.onPaddock d.paddock Paddock.runEnded).paddock d.paddock := State.paddock_of_records hvrec _
      _ = (u.paddock d.paddock).runEnded := State.paddock_onPaddock _ _ _
      _ = (s.paddock d.paddock).runEnded := by rw [State.paddock_of_records hrec]
  · have hvd : v.desc id = some d := by
      rw [State.desc_of_records hvrec, State.desc_onPaddock, State.desc_of_records hrec, hd]
    exact State.desc_onDesc hvd (fun _ => by rfl)
  · rw [htile k, hword]

end Sys2Proof.Machine
end

section
/-! Known-answer SCREENs (13, R386; 14, R439; 01, Table 1.2). -/

namespace Sys2Proof.Machine

/-! ## Host memory reads back what was written -/

theorem getD_foldl_putD_snoc (m : Map (BitVec 8)) (a : Nat) (bs : List (BitVec 8)) (b : BitVec 8) :
    ((List.range (bs ++ [b]).length).zip (bs ++ [b])).foldl (fun m x => putD 0 m (a + x.1) x.2) m
      = putD 0 (((List.range bs.length).zip bs).foldl (fun m x => putD 0 m (a + x.1) x.2) m) (a + bs.length) b := by
  rw [List.length_append, List.length_singleton, List.range_succ, List.zip_append List.length_range, List.foldl_append]
  rfl

theorem State.hostRead_bump (s : State) (a n : Nat) : s.bump.hostRead a n = s.hostRead a n := rfl

theorem State.hostRead_finishDesc (s : State) (id st : Nat) (r : BitVec 64) (a n : Nat) :
    (s.finishDesc id st r).hostRead a n = s.hostRead a n := rfl

/-- A range of host memory reads back the bytes written to it. -/
@[simp] theorem State.hostRead_hostWrite (s : State) (a : Nat) (bs : List (BitVec 8)) :
    (s.hostWrite a bs).hostRead a bs.length = bs := by
  unfold State.hostRead State.hostWrite
  dsimp only
  induction bs using List.reverseRecOn with
  | nil => rfl
  | append_singleton bs b ih =>
    rw [getD_foldl_putD_snoc, List.length_append, List.length_singleton, List.range_succ, List.map_append, List.map_singleton,
      getD_putD_same]
    congr 1
    refine Eq.trans (List.map_congr_left fun i hi => ?_) ih
    have := List.mem_range.mp hi
    exact getD_putD_other _ _ _ _ _ (by omega)

/-! ## The regions of a SCREEN enter and leave SERVICE (01, Table 1.2; log entry 129) -/

/-- Whether the tiles of a region in a state stand in the grid. -/
def RegionState.stands : RegionState → Bool
  | .isolated | .lost | .off => false
  | _ => true

/-- `t` differs from `s` in regions and stirrups only, and the same regions stand. -/
def State.aside (s t : State) : Prop :=
  (∃ regions stirrups, t = { s with regions := regions, stirrups := stirrups })
    ∧ ∀ r, (t.region r).state.stands = (s.region r).state.stands

theorem State.aside.refl (s : State) : s.aside s := ⟨⟨_, _, rfl⟩, fun _ => rfl⟩

theorem State.aside.trans {s t u : State} (h : s.aside t) (h' : t.aside u) : s.aside u := by
  obtain ⟨⟨_, _, rfl⟩, hst⟩ := h
  obtain ⟨⟨_, _, rfl⟩, htu⟩ := h'
  exact ⟨⟨_, _, rfl⟩, fun r => (htu r).trans (hst r)⟩

theorem State.aside_foldl {α : Type} (f : State → α → State) (h : ∀ (s : State) a, s.aside (f s a)) (l : List α) (s : State) :
    s.aside (l.foldl f s) := by
  induction l generalizing s with
  | nil => exact .refl s
  | cons a l ih => exact (h s a).trans (ih _)

theorem State.aside_setRegion {s : State} {r : Nat} {g : Region} (h : g.state.stands = (s.region r).state.stands) :
    s.aside (s.setRegion r g) := by
  refine ⟨⟨_, _, rfl⟩, fun j => ?_⟩
  by_cases hj : j = r
  · rw [hj, State.region_setRegion, h]
  · rw [State.region_setRegion_other _ _ _ _ hj]

theorem State.aside_enterService (s : State) (d : Desc) : s.aside (s.enterService d) := by
  unfold State.enterService
  split
  · exact .refl s
  · refine State.aside_foldl _ (fun s r => State.aside_setRegion ?_) _ s
    cases hg : (s.region r).state <;> simp only [hg, RegionState.stands]

theorem State.aside_if {s t : State} (c : Prop) [Decidable c] (h : s.aside t) : s.aside (if c then t else s) := by
  split
  · exact h
  · exact .refl s

theorem State.aside_installStirrups (s : State) : s.aside s.installStirrups := ⟨⟨_, _, rfl⟩, fun _ => rfl⟩

theorem State.aside_settleTransit (s : State) : s.aside s.settleTransit := by
  refine State.aside.trans (State.aside_foldl _ (fun s r => ?_) _ s) (State.aside_installStirrups _)
  dsimp only
  split
  case h_1 hg => exact State.aside_if _ (State.aside_setRegion (by rw [hg]; rfl))
  case h_2 hg => exact State.aside_if _ (State.aside_setRegion (by rw [hg]; rfl))
  case h_3 => exact .refl s

theorem State.aside_leaveService (s : State) (d : Desc) : s.aside (s.leaveService d) := by
  unfold State.leaveService
  split
  · exact .refl s
  · refine State.aside.trans (State.aside_foldl _ (fun s r => State.aside_setRegion ?_) _ s) (State.aside_settleTransit _)
    by_cases hg : (s.region r).state = .service <;> simp [hg, RegionState.stands]

/-- The state after the regions of a SCREEN entered SERVICE and left it. -/
def State.screened (s : State) (d : Desc) : State := (s.enterService d).leaveService d

theorem State.aside_screened (s : State) (d : Desc) : s.aside (s.screened d) :=
  (s.aside_enterService d).trans (State.aside_leaveService _ d)

/-- The SCREEN of a paddock moves no region. -/
theorem State.screened_of_paddock {d : Desc} (h : d.paddock ≠ 0) (s : State) : s.screened d = s := by
  simp [State.screened, State.enterService, State.leaveService, h]

section
variable {s t : State} (h : s.aside t)
include h

theorem State.aside.tiles : t.tiles = s.tiles := by obtain ⟨⟨_, _, rfl⟩, _⟩ := h; rfl
theorem State.aside.descs : t.descs = s.descs := by obtain ⟨⟨_, _, rfl⟩, _⟩ := h; rfl
theorem State.aside.paddocks : t.paddocks = s.paddocks := by obtain ⟨⟨_, _, rfl⟩, _⟩ := h; rfl
theorem State.aside.hostMem : t.hostMem = s.hostMem := by obtain ⟨⟨_, _, rfl⟩, _⟩ := h; rfl

/-- The same tiles stand in the grid. -/
theorem State.aside.standing : t.standing = s.standing := by
  obtain ⟨⟨_, _, ht⟩, hstands⟩ := h
  have hpresent : t.present = s.present := by rw [ht]; rfl
  funext k
  have hs : ∀ s : State, s.standing k = (s.present k && (s.region (regionOfTile k)).state.stands) := fun _ => by
    rfl
  rw [hs, hs, hpresent, hstands]

end

@[simp] theorem State.hostRead_enterService (s : State) (d : Desc) (a n : Nat) :
    (s.enterService d).hostRead a n = s.hostRead a n := by
  unfold State.hostRead
  rw [(s.aside_enterService d).hostMem]

/-! ## The end of a SCREEN (14, R439) -/

/-- Bytes delivered to host memory. -/
theorem State.deliver_host {d : Desc} (hslot : d.slot = none) {s : State} (hring : (s.paddock d.paddock).primary = true ∨ d.ring = 0)
    (v : Nat) (bs : List (Nat × Bool)) : s.deliver d v bs = s.hostWrite v (bs.map (fun b => BitVec.ofNat 8 b.1)) := by
  unfold State.deliver
  simp only [hslot]
  exact if_pos (by simpa using hring)

/-- The state after the output of a SCREEN went to host memory. -/
def State.delivered (s : State) (d : Desc) (bs : List (Nat × Bool)) : State :=
  (s.screened d).hostWrite (d.nat 48 8) ((cleanPrefix 0 bs).1.map (fun b => BitVec.ofNat 8 b.1))

section
variable (s : State) (d : Desc) (bs : List (Nat × Bool))

@[simp] theorem State.delivered_tiles : (s.delivered d bs).tiles = s.tiles := (s.aside_screened d).tiles

theorem State.desc_delivered (id : Nat) : (s.delivered d bs).desc id = s.desc id := by
  have h : (s.delivered d bs).descs = s.descs := (s.aside_screened d).descs
  rw [State.desc, h]
  rfl

theorem State.tiles_finishDelivered (id st : Nat) (r : BitVec 64) :
    ((s.delivered d bs).finishDesc id st r).bump.tiles = s.tiles := by
  rw [← s.delivered_tiles d bs]
  rfl

/-- A descriptor with no status that ends after its output was delivered. -/
theorem State.ended_delivered {s : State} {d : Desc} {id : Nat} (h : s.desc id = some d) (hs : d.status = none)
    (bs : List (Nat × Bool)) (st : Nat) (r : BitVec 64) : ((s.delivered d bs).finishDesc id st r).bump.ended id st r :=
  State.ended_finishDesc ((s.desc_delivered d bs id).trans h) hs st r

@[simp] theorem State.standing_delivered : (s.delivered d bs).standing = s.standing := (s.aside_screened d).standing

end

/-- A SCREEN whose body leaves the state as it is ends with the tiles tested, or with POISON_CONSUMED where its output holds
poison. -/
theorem screenWork_ends {s : State} {id mode : Nat} {d : Desc} {body : Desc → State → Option (State × List (Nat × Bool) × Nat)}
    {bs : List (Nat × Bool)} (h : s.atDesc id 0x0060 d) (hmode : d.nat 8 1 = mode)
    (hidle : (s.paddock d.paddock).current = none) (hmask : s.screenMaskOk d = true) (hslot : d.slot = none)
    (hring : (s.paddock d.paddock).primary = true ∨ d.ring = 0)
    (hbody : body d (s.enterService d) = some (s.enterService d, bs, 0)) :
    screenWork id mode s body = .next (if (cleanPrefix 0 bs).2
      then ((s.delivered d bs).egress d.paddock 0xDFFF (BitVec.ofNat 64 (d.nat 48 8))).finishDesc id 0x0100 0
      else (s.delivered d bs).finishDesc id 0 (BitVec.ofNat 64 ((screenTiles d).filter s.standing).length)).bump := by
  have hpad : (s.screened d).paddock d.paddock = s.paddock d.paddock := State.paddock_congr (s.aside_screened d).paddocks _
  have hdeliver : ((s.enterService d).leaveService d).deliver d (d.nat 48 8) (cleanPrefix 0 bs).1 = s.delivered d bs :=
    State.deliver_host hslot (hpad ▸ hring) _ _
  unfold screenWork
  refine descWork_of_atDesc h ?_
  simp only [hmode, hidle, hmask, hbody, hdeliver, State.standing_delivered, ne_eq, not_true_eq_false, decide_false,
    Option.isSome_none, Bool.or_self, Bool.not_true, Bool.false_eq_true, if_false, Nat.zero_mul, Nat.add_zero]
  exact (apply_ite some _ _ _).symm

/-- Bytes with no poison are all clean. -/
theorem cleanPrefix_of_clean {bs : List (Nat × Bool)} (h : ∀ b ∈ bs, b.2 = false) : cleanPrefix 0 bs = (bs, false) := by
  have hnone : bs.findIdx? Prod.snd = none := List.findIdx?_eq_none_iff.mpr h
  unfold cleanPrefix
  rw [hnone]

/-- Bytes marked as not poisoned. -/
def unpoisoned (bs : List (BitVec 8)) : List (Nat × Bool) := bs.map (fun b => (b.toNat, false))

theorem cleanPrefix_unpoisoned (bs : List (BitVec 8)) : cleanPrefix 0 (unpoisoned bs) = (unpoisoned bs, false) :=
  cleanPrefix_of_clean (by simp [unpoisoned])

theorem State.delivered_unpoisoned (s : State) (d : Desc) (bs : List (BitVec 8)) :
    s.delivered d (unpoisoned bs) = (s.screened d).hostWrite (d.nat 48 8) bs := by
  have hbytes : (fun b : Nat × Bool => BitVec.ofNat 8 b.1) ∘ (fun b : BitVec 8 => (b.toNat, false)) = fun b => b := by
    funext b
    simp
  rw [State.delivered, cleanPrefix_unpoisoned, unpoisoned, List.map_map, hbytes, List.map_id']

/-- The output of a SCREEN stands in host memory. -/
theorem State.hostRead_delivered (s : State) (d : Desc) (bs : List (BitVec 8)) :
    (s.delivered d (unpoisoned bs)).hostRead (d.nat 48 8) bs.length = bs := by
  rw [State.delivered_unpoisoned, State.hostRead_hostWrite]

/-- A SCREEN of a paddock with no output leaves all but the marks of poison in host memory. -/
theorem State.delivered_nil {d : Desc} (h : d.paddock ≠ 0) (s : State) : s.delivered d [] = s.hostWrite (d.nat 48 8) [] := by
  rw [State.delivered, State.screened_of_paddock h]
  rfl

section
variable {s : State} {id : Nat} {d : Desc} (h : s.atDesc id 0x0060 d) (hidle : (s.paddock d.paddock).current = none)
  (hmask : s.screenMaskOk d = true) (hslot : d.slot = none) (hring : (s.paddock d.paddock).primary = true ∨ d.ring = 0)
include h hidle hmask hslot hring

/-- A self-test with no failing tile ends with the tiles tested. -/
theorem exec_screenSelfTest_passes (hmode : d.nat 8 1 = 0) : exec (.screenSelfTest id []) s
    = .next ((s.delivered d []).finishDesc id 0 (BitVec.ofNat 64 ((screenTiles d).filter s.standing).length)).bump := by
  rw [exec_screenSelfTest, execScreenSelfTest]
  rw [screenWork_ends (bs := []) h hmode hidle hmask hslot hring]
  · rfl
  · rfl

/-- What a self-test with no failing tile leaves. -/
theorem screenSelfTest_passes (hmode : d.nat 8 1 = 0) : ∃ u, exec (.screenSelfTest id []) s = .next u
    ∧ u.ended id 0 (BitVec.ofNat 64 ((screenTiles d).filter s.standing).length)
    ∧ (d.paddock ≠ 0 → { u with descs := s.descs, hostPoison := s.hostPoison, free := s.free } = s) ∧ u.tiles = s.tiles := by
  refine ⟨_, exec_screenSelfTest_passes h hidle hmask hslot hring hmode,
    State.ended_delivered (State.desc_of_atDesc h) (State.status_of_atDesc h) _ _ _, fun hp => ?_,
    State.tiles_finishDelivered s d [] _ _ _⟩
  rw [State.delivered_nil hp]
  rfl

/-- The words that a generator SCREEN writes for its records (R386). -/
def generatorOutput (recs : List (List (BitVec 8))) : List (BitVec 8) :=
  (recs.map (fun b =>
    let w := fun i => BitVec.ofNat 32 (descNat b (4 * i) 4)
    ((generator (w 0) (w 1) (w 2) (w 3) (w 4) (w 5)).map (fun x => bytesLE 4 x.toNat)).flatten)).flatten

/-- A generator SCREEN writes every record's words and ends with the tiles tested. -/
theorem exec_screenGeneratorKa_ends (hmode : d.nat 8 1 = 1) : exec (.screenGeneratorKa id) s
    = .next ((s.delivered d (unpoisoned (generatorOutput (recordsOf 24 (s.hostRead (d.nat 32 8) (24 * d.nat 40 4)))))).finishDesc id 0
      (BitVec.ofNat 64 ((screenTiles d).filter s.standing).length)).bump := by
  rw [exec_screenGeneratorKa, execScreenGeneratorKa]
  rw [screenWork_ends (bs := unpoisoned (generatorOutput (recordsOf 24 (s.hostRead (d.nat 32 8) (24 * d.nat 40 4)))))
    h hmode hidle hmask hslot hring]
  · rw [cleanPrefix_unpoisoned]
    rfl
  · rw [State.hostRead_enterService]
    rfl

/-- What a generator SCREEN leaves: its output stands in host memory. -/
theorem screenGeneratorKa_ends (hmode : d.nat 8 1 = 1) :
    let out := generatorOutput (recordsOf 24 (s.hostRead (d.nat 32 8) (24 * d.nat 40 4)))
    ∃ u, exec (.screenGeneratorKa id) s = .next u
      ∧ u.ended id 0 (BitVec.ofNat 64 ((screenTiles d).filter s.standing).length)
      ∧ u.hostRead (d.nat 48 8) out.length = out ∧ u.tiles = s.tiles := by
  refine ⟨_, exec_screenGeneratorKa_ends h hidle hmask hslot hring hmode,
    State.ended_delivered (State.desc_of_atDesc h) (State.status_of_atDesc h) _ _ _, ?_,
    State.tiles_finishDelivered s d _ _ _ _⟩
  rw [State.hostRead_bump, State.hostRead_finishDesc, State.hostRead_delivered]

/-- A sampler SCREEN of good records ends with the tiles tested, or with POISON_CONSUMED. -/
theorem exec_screenSamplerKa_ends (hmode : d.nat 8 1 = 2)
    (hgood : ∀ b ∈ recordsOf 32 (s.hostRead (d.nat 32 8) (32 * d.nat 40 4)), descNat b 24 1 ≠ 0
      ∧ samplerOk (descNat b 24 1) (d.nat 56 4) (d.nat 60 4) = true) :
    ∃ bs, exec (.screenSamplerKa id) s = .next (if (cleanPrefix 0 bs).2
      then ((s.delivered d bs).egress d.paddock 0xDFFF (BitVec.ofNat 64 (d.nat 48 8))).finishDesc id 0x0100 0
      else (s.delivered d bs).finishDesc id 0 (BitVec.ofNat 64 ((screenTiles d).filter s.standing).length)).bump := by
  have hany : (recordsOf 32 (s.hostRead (d.nat 32 8) (32 * d.nat 40 4))).any
      (fun b => descNat b 24 1 == 0 || !samplerOk (descNat b 24 1) (d.nat 56 4) (d.nat 60 4)) = false := by
    refine List.any_eq_false.mpr fun b hb => ?_
    obtain ⟨hne, hok⟩ := hgood b hb
    simp [hne, hok]
  rw [exec_screenSamplerKa, execScreenSamplerKa]
  exact ⟨_, screenWork_ends h hmode hidle hmask hslot hring
    (by simp only [State.hostRead_enterService, hany, Bool.false_eq_true, if_false]; rfl)⟩

/-- What a sampler SCREEN of good records leaves. -/
theorem screenSamplerKa_ends (hmode : d.nat 8 1 = 2)
    (hgood : ∀ b ∈ recordsOf 32 (s.hostRead (d.nat 32 8) (32 * d.nat 40 4)), descNat b 24 1 ≠ 0
      ∧ samplerOk (descNat b 24 1) (d.nat 56 4) (d.nat 60 4) = true) :
    ∃ u st r, exec (.screenSamplerKa id) s = .next u ∧ u.ended id st r ∧ u.tiles = s.tiles
      ∧ (st = 0 ∧ r = BitVec.ofNat 64 ((screenTiles d).filter s.standing).length ∨ st = 0x0100 ∧ r = 0) := by
  have hd := State.desc_of_atDesc h
  have hs := State.status_of_atDesc h
  obtain ⟨bs, hu⟩ := exec_screenSamplerKa_ends h hidle hmask hslot hring hmode hgood
  cases hbad : (cleanPrefix 0 bs).2 with
  | false =>
    rw [hbad] at hu
    exact ⟨_, 0, _, hu, State.ended_delivered hd hs _ _ _, State.tiles_finishDelivered s d bs _ _ _, .inl ⟨rfl, rfl⟩⟩
  | true =>
    rw [hbad] at hu
    refine ⟨_, 0x0100, 0, hu, State.ended_finishDesc (d := d) ?_ hs _ _, ?_, .inr ⟨rfl, rfl⟩⟩
    · exact (State.desc_delivered s d bs id).trans hd
    · rw [← s.delivered_tiles d bs]
      rfl

end

end Sys2Proof.Machine
end

section
/-! Seals (12, R377, R382), and what the descriptors of strides, sessions, runs and screens do. -/

namespace Sys2Proof.Machine

/-! ## SEAL_ISSUE (12, R377 to R382) -/

theorem State.desc_bump (s : State) (id : Nat) : s.bump.desc id = s.desc id := rfl

theorem State.hostRead_cntPaddock (s : State) (p i n a len : Nat) : (s.cntPaddock p i n).hostRead a len = s.hostRead a len := by
  rw [State.cntPaddock, State.countWin_frame]
  rfl

/-- Chain records added to a descriptor, one after another. -/
theorem State.foldl_chain {id : Nat} (rs : List ChainRec) {s : State} {d : Desc} (h : s.desc id = some d) :
    (rs.foldl (fun s r => s.chain id r.kind r.payload) s).desc id = some { d with records := d.records ++ rs }
      ∧ ∃ descs, rs.foldl (fun s r => s.chain id r.kind r.payload) s = { s with descs := descs } := by
  induction rs generalizing s d with
  | nil => exact ⟨by simpa using h, s.descs, rfl⟩
  | cons r rs ih =>
    obtain ⟨hdesc, descs, hs⟩ := ih (s := s.chain id r.kind r.payload) (State.desc_onDesc h (fun _ => by rfl))
    exact ⟨by simpa using hdesc, descs, hs⟩

/-- The records that a descriptor owes change its records alone. -/
theorem State.addLate_cases {s : State} {id : Nat} {d : Desc} (h : s.desc id = some d) :
    (∃ rs, (s.addLate d).desc id = some { d with records := d.records ++ rs }) ∧ ∃ descs, s.addLate d = { s with descs := descs } := by
  have hid := State.desc_id h
  subst hid
  obtain ⟨hdesc, hs⟩ := State.foldl_chain (s.lateRecords ((s.desc d.id).getD d)) h
  exact ⟨⟨_, hdesc⟩, hs⟩

/-- The descriptor whose seal is issued, with the records that it owed. -/
def State.sealed (s : State) (id : Nat) (d : Desc) (st : Nat) : Desc :=
  { ((s.addLate d).desc id).getD d with status := some st }

/-- The state whose chains hold the records of the descriptor whose seal is issued. -/
def State.sealChained (s : State) (id : Nat) (d : Desc) (st : Nat) : State :=
  (s.addLate d).setRing d.ring ((s.sealed id d st).chainRecords.foldl Ring.addRecord ((s.addLate d).ring d.ring))

/-- What a seal leaves of its descriptor. -/
def Desc.sealIssued (st : Nat) (y : Desc) : Desc := { y with status := some st, slot := none, records := [], sealed := true }

/-- What a seal leaves of its paddock, whose seals were `x`: the flags of the next seal are clear and its span starts (R379). -/
def Paddock.sealIssued (x : SealState) (count : Option (BitVec 64)) (pd : Paddock) : Paddock :=
  { pd with seals := { x with
      sequence := x.sequence + 1
      unsealedIn := false
      unsealedOut := false
      replayed := false
      restored := false
      takeover := false
      stretched := false
      spanStart := count.getD pd.paceCount
      held := 0 } }

/-- A seal record written, its descriptor sealed, and the paddock's next seal begun. -/
def State.writeSeal (s : State) (id p st : Nat) (record : List (BitVec 8)) (x : SealState) (count : Option (BitVec 64)) : State :=
  ((((s.hostWrite (x.base.toNat + 1024 * ((x.sequence.toNat + 1) % 2 ^ x.log2)) record).onDesc id (Desc.sealIssued st)).onPaddock p
    (Paddock.sealIssued x count)).cntPaddock p 3 1).bump

section
variable (s : State) (id p st : Nat) (record : List (BitVec 8)) (x : SealState) (count : Option (BitVec 64))

theorem State.hostRead_writeSeal : (s.writeSeal id p st record x count).hostRead
    (x.base.toNat + 1024 * ((x.sequence.toNat + 1) % 2 ^ x.log2)) record.length = record := by
  rw [State.writeSeal, State.hostRead_bump, State.hostRead_cntPaddock]
  exact State.hostRead_hostWrite s _ record

theorem State.paddock_writeSeal : (s.writeSeal id p st record x count).paddock p = (s.paddock p).sealIssued x count := by
  rw [State.writeSeal, State.paddock_bump, State.paddock_of_records (State.records_cntPaddock _ _ _ _), State.paddock_onPaddock]
  rfl

theorem State.desc_writeSeal {d : Desc} (h : s.desc id = some d) :
    (s.writeSeal id p st record x count).desc id = some (d.sealIssued st) := by
  rw [State.writeSeal, State.desc_bump, State.desc_of_records (State.records_cntPaddock _ _ _ _),
    State.desc_onPaddock]
  exact State.desc_onDesc h (fun _ => by rfl)

theorem State.writeSeal_tiles : (s.writeSeal id p st record x count).tiles = s.tiles := by
  rw [State.writeSeal, State.bump, State.cntPaddock_tiles]
  rfl

end

section
variable {s : State} {id : Nat} {d : Desc} {st : Nat} (hd : s.desc id = some d)
include hd

/-- The records that a seal adds change the ring pairs and the descriptor's records alone. -/
theorem State.sealChained_cases : (∃ rs, (s.sealChained id d st).desc id = some { d with records := d.records ++ rs })
    ∧ ∃ descs rings, s.sealChained id d st = { s with descs := descs, rings := rings } := by
  obtain ⟨hdesc, descs, hs⟩ := State.addLate_cases hd
  refine ⟨hdesc, descs, (s.sealChained id d st).rings, ?_⟩
  unfold State.sealChained
  rw [hs]
  rfl

/-- A seal is due of a descriptor that kept its ring pair and its place: its record is built, signed and written. -/
theorem exec_sealIssue_due (hst : d.status = some st) (hdue : s.sealDue d = true) (hhalted : s.halted = false)
    (hd3 : s.d3hot = false) (hslot : d.slot = none) (hstaged : d.staged = none) :
    exec (.sealIssue id) s = .next ((s.sealChained id d st).writeSeal id d.paddock st
      ((s.sealChained id d st).sealRecord (s.sealed id d st)) (s.paddock d.paddock).seals d.count) := by
  obtain ⟨⟨rs, hdesc⟩, descs, hs⟩ := State.addLate_cases hd
  have hfinal : (s.addLate d).finalSlot d st = (s.addLate d, st) := by
    unfold State.finalSlot
    rw [hslot]
  have hadd : (s.addLate d).addRecords (s.sealed id d st) (s.sealed id d st).chainRecords = s.sealChained id d st := by
    unfold State.addRecords State.sealed
    rw [hdesc]
    simp only [Option.getD_some, hstaged, Option.isNone_none, if_true]
    rw [State.sealChained, State.sealed, hdesc]
    rfl
  have hseals : ((s.sealChained id d st).paddock d.paddock) = s.paddock d.paddock := by
    obtain ⟨_, _, _, h⟩ := State.sealChained_cases (st := st) hd
    rw [h]
    rfl
  have hcount : (((s.addLate d).desc id).getD d).count = d.count := by
    rw [hdesc]
    rfl
  have hsealed : { ((s.addLate d).desc id).getD d with status := some st } = s.sealed id d st := rfl
  rw [exec_sealIssue, execSealIssue]
  simp only [hd, hst, hdue, hhalted, hd3, Bool.not_true, Bool.or_self, Bool.false_eq_true, if_false, hfinal, hsealed, hadd]
  simp only [hseals, hcount]
  rfl

/-- A seal's record stands in host memory, its paddock's next seal has begun, and its descriptor is sealed. -/
theorem sealIssue_issues (hst : d.status = some st) (hdue : s.sealDue d = true) (hhalted : s.halted = false)
    (hd3 : s.d3hot = false) (hslot : d.slot = none) (hstaged : d.staged = none) :
    let seals := (s.paddock d.paddock).seals
    ∃ u x, exec (.sealIssue id) s = .next u
      ∧ u.hostRead (seals.base.toNat + 1024 * ((seals.sequence.toNat + 1) % 2 ^ seals.log2))
          ((s.sealChained id d st).sealRecord (s.sealed id d st)).length = (s.sealChained id d st).sealRecord (s.sealed id d st)
      ∧ u.paddock d.paddock = (s.paddock d.paddock).sealIssued seals d.count
      ∧ u.desc id = some x ∧ x.sealed = true ∧ x.status = some st ∧ u.tiles = s.tiles := by
  obtain ⟨⟨rs, hdesc⟩, descs, rings, ht⟩ := State.sealChained_cases (st := st) hd
  have hpad : (s.sealChained id d st).paddock d.paddock = s.paddock d.paddock := by rw [ht]; rfl
  have htiles : (s.sealChained id d st).tiles = s.tiles := by rw [ht]
  refine ⟨_, _, exec_sealIssue_due hd hst hdue hhalted hd3 hslot hstaged, State.hostRead_writeSeal _ _ _ _ _ _ _, ?_,
    State.desc_writeSeal _ _ _ _ _ _ _ hdesc, rfl, rfl, (State.writeSeal_tiles _ _ _ _ _ _ _).trans htiles⟩
  rw [← hpad]
  exact State.paddock_writeSeal _ _ _ _ _ _ _

end

/-! ## The obligation -/

/-- Settles O47: a stride, a decode step and a run leave their stride pending; sessions open and close; a run, a screen and a
seal end as their descriptors ask. -/
theorem descriptorsStrides : Obligations.DescriptorsStrides := by
  unfold Obligations.DescriptorsStrides
  intro id d s
  dsimp only
  refine ⟨?_, ?_, ?_, ?_, ?_, ?_, ?_, ?_, ?_⟩
  · intro i h himage hfree hused hone
    exact State.begins_of_pends (exec_stride_pends h himage hfree hused hone)
  · intro i capacity a b h himage hplan hnew hk hmaquette hscale
    have hd := State.desc_of_atDesc h
    have hs := State.status_of_atDesc h
    refine ⟨fun hfits => ?_, fun hfull => ?_⟩
    · refine ⟨_, d.session, exec_decodeOpen_fits h himage hplan hnew hk hmaquette hscale hfits,
        State.ended_finishDesc (s := s.onPaddock _ _) hd hs _ _, ?_, rfl, ?_, rfl, rfl, rfl, rfl, rfl, rfl, rfl⟩
      · rw [State.paddock_bump, State.paddock_finishDesc, State.sessions_onSessions, look_insertAt_same]
      · simp [Desc.session]
    · exact ⟨_, exec_decodeOpen_full h himage hplan hnew hk hmaquette hscale hfull, State.ended_finishDesc hd hs _ _, rfl⟩
  · intro x h hx
    have hd := State.desc_of_atDesc h
    have hs := State.status_of_atDesc h
    refine ⟨_, exec_decodeClose_open h hx, State.ended_finishDesc (s := s.onPaddock _ _) hd hs _ _, ?_, fun n hn => ?_, rfl⟩
    · rw [State.paddock_bump, State.paddock_finishDesc, State.sessions_onSessions, look_drop_same]
    · rw [State.paddock_bump, State.paddock_finishDesc, State.sessions_onSessions, look_drop_other _ _ _ hn]
  · intro i x plan table kind maquette h himage hx hplan _ hkind hfree hk hrun hother htable hused
    have hpends := decodeStep_pends h himage hx hkind hk (if kind = 2 then maquette else []) hplan hfree hrun hother htable hused
    refine ⟨?_, ?_, ?_⟩
    all_goals
      rintro rfl
      exact State.begins_of_pends hpends
  · intro i x h himage hx hfin hkind
    have hd := State.desc_of_atDesc h
    have hs := State.status_of_atDesc h
    exact ⟨_, decodeStep_finished h himage hx hkind (fun h => absurd h (by decide)) hfin [],
      State.ended_finishDesc hd hs _ _, rfl⟩
  · intro i t key h ht hkey henable hcells hsampler himage hused hfree
    exact State.begins_of_pends (exec_tallyRun_pends h ht hkey henable hcells hsampler himage hused hfree)
  · intro run t k hd hrun hid ht hcpo hk hcell hcount
    obtain ⟨u, hu, hpad, hx, hother, hword⟩ := tallyFinish_ends hd hrun hid ht hcpo hk hcell hcount
    exact ⟨u, _, hu, by rw [hpad]; rfl, by rw [hpad]; rfl, by rw [hpad]; rfl, hx, rfl, rfl, hword,
      fun j hj => (hother j hj).symm⟩
  · intro h hidle hmask hslot hring
    exact ⟨screenSelfTest_passes h hidle hmask hslot hring, screenGeneratorKa_ends h hidle hmask hslot hring,
      screenSamplerKa_ends h hidle hmask hslot hring⟩
  · intro st hd hst hdue hhalted hd3 hslot hstaged
    obtain ⟨u, x, hu, hread, hpad, hx, hsealed, hstatus, htiles⟩ := sealIssue_issues hd hst hdue hhalted hd3 hslot hstaged
    exact ⟨u, x, hu, hread, congrArg Paddock.seals hpad, hx, hsealed, hstatus, htiles⟩

end Sys2Proof.Machine
end

section
/-! The control core (03, R96 to R108): what its immediate, arithmetic, branch and CSR instructions leave. -/

namespace Sys2Proof.Machine

/-! ## The tile that an instruction finds (03, R96) -/

section
variable (s : State) (k : TileIx)

@[simp] theorem State.fetched_pc : (s.fetched k).pc = (s.tile k).pc := s.fetch_pc k _
@[simp] theorem State.reg_fetched (r : BitVec 5) : (s.fetched k).reg r = (s.tile k).reg r := s.reg_fetch k _ r

end

/-! ## Results and the first cause that applies (03, R106, R107, R120, R127) -/

theorem resultOf_one (v : BitVec 64) (a : GReg) : resultOf v [a] = { val := v, mark := a.mark, poison := a.poison } := by
  simp [resultOf]

theorem resultOf_two (v : BitVec 64) (a b : GReg) :
    resultOf v [a, b] = { val := v, mark := a.mark || b.mark, poison := a.poison || b.poison } := by
  simp [resultOf]

@[simp] theorem lowestCause_nil : lowestCause [] = none := rfl

@[simp] theorem lowestCause_cons_true (c : Nat) (l : List (Bool × Nat)) : lowestCause ((true, c) :: l) = some c := rfl

@[simp] theorem lowestCause_cons_false (c : Nat) (l : List (Bool × Nat)) : lowestCause ((false, c) :: l) = lowestCause l := rfl

/-! ## Immediate operations (03, R100, Table 3.3) -/

/-- A truth value as a register holds it. -/
theorem ofBool_decide (p : Prop) [Decidable p] : ofBool (decide p) = if p then 1 else 0 := by
  by_cases hp : p <;> simp [ofBool, hp]

/-- A shift by its kind: left, right, arithmetic right, rotation right (Table 3.3). -/
def shiftOf (kind : Nat) (a : BitVec 64) (n : Nat) : BitVec 64 :=
  match kind with
  | 0 => a <<< n
  | 1 => a >>> n
  | 2 => a.sshiftRight n
  | _ => a.rotateRight n

/-- g.shi with imm[15:8] zero: the kind is imm[7:6], the amount imm[5:0]. -/
theorem exec_gShi_retires {k : TileIx} {rd rs1 : BitVec 5} {imm : BitVec 16} {s : State} {v : BitVec 64}
    (h : s.atInsn k (.gShi k rd rs1 imm) [rs1]) (hi : imm.toNat / 64 < 4)
    (hv : shiftOf (imm.toNat / 64) ((s.fetched k).reg rs1).val (imm.toNat % 64) = v) :
    exec (.gShi k rd rs1 imm) s = .next (s.retires k ((s.fetched k).setReg rd (resultOf v [(s.fetched k).reg rs1]))) := by
  rw [exec_gShi, execGShi, ← hv]
  refine issue_retire h _ ?_
  rw [if_neg (by omega), Nat.mod_eq_of_lt hi]
  rfl

/-- Settles O2: each immediate operation retires with its result; the kinds of g.shi by imm[7:6]. -/
theorem coreImmediates : Obligations.CoreImmediates := by
  unfold Obligations.CoreImmediates
  intro k rd rs1 imm s
  simp only [exec_gAddi, execGAddi, exec_gLogicImm, execGLogicImm, exec_gLhi, execGLhi, exec_gLti, execGLti,
    ← resultOf_one, ← ofBool_decide]
  refine ⟨?_, ?_, ?_, ?_, ?_, ?_, ?_, fun hi h => ?_, fun hi h => ?_, fun hi h => ?_, fun hi h => ?_, fun hi h => ?_⟩
  case refine_8 =>
    rw [exec_gShi, execGShi]
    exact issue_fault h 0 0x01 0 (if_pos hi)
  case refine_9 => exact exec_gShi_retires h (by omega) (by rw [show imm.toNat / 64 = 0 by omega, Nat.mod_eq_of_lt hi]; rfl)
  case refine_10 => exact exec_gShi_retires h (by omega) (by rw [hi]; rfl)
  case refine_11 => exact exec_gShi_retires h (by omega) (by rw [hi]; rfl)
  case refine_12 => exact exec_gShi_retires h (by omega) (by rw [hi]; rfl)
  all_goals exact fun h => issue_retire h _ rfl

/-! ## The base register ALU (03, R101, Table 3.4) -/

section
variable {k : TileIx} {rd rs1 rs2 : BitVec 5} {func : BitVec 11} {s : State}

theorem exec_alu_retires (h : s.atInsn k (.baseRegisterAlu k rd rs1 rs2 func) [rs1, rs2]) {v : BitVec 64}
    (hv : aluResult func.toNat ((s.fetched k).reg rs1).val ((s.fetched k).reg rs2).val = some v)
    (hu : aluUnary func.toNat = true → rs2 = 0) :
    exec (.baseRegisterAlu k rd rs1 rs2 func) s
      = .next (s.retires k ((s.fetched k).setReg rd (resultOf v [(s.fetched k).reg rs1, (s.fetched k).reg rs2]))) := by
  rw [exec_baseRegisterAlu, execBaseRegisterAlu]
  refine issue_retire h _ ?_
  have hfields : (aluUnary func.toNat && rs2 != 0) = false := by
    cases hf : aluUnary func.toNat with
    | false => rfl
    | true => simp [hu hf]
  simp only [hv, hfields, Bool.false_eq_true, ite_false]

theorem exec_alu_reserved (h : s.atInsn k (.baseRegisterAlu k rd rs1 rs2 func) [rs1, rs2])
    (hv : aluResult func.toNat ((s.fetched k).reg rs1).val ((s.fetched k).reg rs2).val = none) :
    exec (.baseRegisterAlu k rd rs1 rs2 func) s = .next (s.faults k 0 0x01 0) := by
  rw [exec_baseRegisterAlu, execBaseRegisterAlu]
  exact issue_fault h 0 0x01 0 (by simp only [hv])

theorem exec_alu_of_nonzero_rs2 (h : s.atInsn k (.baseRegisterAlu k rd rs1 rs2 func) [rs1, rs2])
    (hu : aluUnary func.toNat = true) (hr : rs2 ≠ 0) :
    exec (.baseRegisterAlu k rd rs1 rs2 func) s = .next (s.faults k 0 0x01 0) := by
  cases hv : aluResult func.toNat ((s.fetched k).reg rs1).val ((s.fetched k).reg rs2).val with
  | none => exact exec_alu_reserved h hv
  | some v =>
    rw [exec_baseRegisterAlu, execBaseRegisterAlu]
    refine issue_fault h 0 0x01 0 ?_
    have hfields : (aluUnary func.toNat && rs2 != 0) = true := by rw [hu, Bool.true_and, bne_iff_ne]; exact hr
    simp only [hv, hfields, ite_true]

end

/-- The func codes that Table 3.4 does not list. -/
theorem aluResult_reserved {f : Nat} (a b : BitVec 64)
    (hf : f = 0x00F ∨ (0x015 ≤ f ∧ f < 0x018) ∨ (0x01C ≤ f ∧ f < 0x020) ∨ 0x024 ≤ f) : aluResult f a b = none := by
  unfold aluResult
  split
  case h_29 => rfl
  all_goals omega

section
variable {a b x y : BitVec 64}

theorem ite_slt : (if a.slt b then x else y) = if a.toInt < b.toInt then x else y := by simp [BitVec.slt]

theorem ite_ult : (if a.ult b then x else y) = if a.toNat < b.toNat then x else y := by simp [BitVec.ult]

/-- The high word of an unsigned product. -/
theorem highOf_natCast (n : Nat) : highOf (n : Int) = BitVec.ofNat 64 (n / 2 ^ 64) := BitVec.ofInt_natCast 64 (n / 2 ^ 64)

/-- By zero the quotient of integers is zero, as R101 says. -/
theorem divSigned_eq : divSigned a b = BitVec.ofInt 64 (a.toInt.tdiv b.toInt) := by
  unfold divSigned
  split
  case isTrue hb => simp [hb]
  case isFalse => rfl

theorem modSigned_eq : modSigned a b = BitVec.ofInt 64 (a.toInt.tmod b.toInt) := by
  unfold modSigned
  split
  case isTrue hb => simp [hb]
  case isFalse => rfl

theorem divUnsigned_eq : (if b = 0 then 0 else a / b) = BitVec.ofNat 64 (a.toNat / b.toNat) := by
  split
  case isTrue hb => simp [hb]
  case isFalse => rw [← BitVec.toNat_udiv, BitVec.ofNat_toNat, BitVec.setWidth_eq]

theorem modUnsigned_eq : (if b = 0 then a else a % b) = BitVec.ofNat 64 (a.toNat % b.toNat) := by
  split
  case isTrue hb => simp [hb]
  case isFalse => rw [← BitVec.toNat_umod, BitVec.ofNat_toNat, BitVec.setWidth_eq]

end

/-- Settles O3: the result of each func code of Table 3.4, and the words that are ILLEGAL_INSTR. -/
theorem coreAlu : Obligations.CoreAlu := by
  unfold Obligations.CoreAlu
  intro k rd rs1 rs2 s
  simp only [← resultOf_two, ← ofBool_decide, ← ite_slt, ← ite_ult, ← divSigned_eq, ← modSigned_eq, ← divUnsigned_eq,
    ← modUnsigned_eq, ← highOf_natCast]
  refine ⟨?_, ?_, ?_, ?_, ?_, ?_, ?_, ?_, ?_, ?_, ?_, ?_, ?_, ?_, ?_, ?_, ?_, ?_, ?_, ?_, ?_, ?_, ?_, ?_,
    fun hr h => exec_alu_retires h rfl (fun _ => hr), fun hr h => exec_alu_retires h rfl (fun _ => hr),
    fun hr h => exec_alu_retires h rfl (fun _ => hr), fun hr h => exec_alu_retires h rfl (fun _ => hr),
    fun f hf hr h => exec_alu_of_nonzero_rs2 h ?_ hr, fun f hf h => exec_alu_reserved h (aluResult_reserved _ _ hf)⟩
  case refine_25 =>
    simp only [List.mem_cons, List.not_mem_nil, or_false] at hf
    rcases hf with rfl | rfl | rfl | rfl <;> rfl
  all_goals exact fun h => exec_alu_retires h rfl (fun hu => absurd hu (by decide))

/-! ## What the ALU's results mean (03, Table 3.4, R101) -/

/-- The quotient and the remainder make up the dividend, with a zero divisor and the wrapping quotient among the cases. -/
theorem divSigned_mul_add_modSigned (a b : BitVec 64) : divSigned a b * b + modSigned a b = a := by
  calc divSigned a b * b + modSigned a b
      = BitVec.ofInt 64 (a.toInt.tdiv b.toInt) * BitVec.ofInt 64 b.toInt + BitVec.ofInt 64 (a.toInt.tmod b.toInt) := by
        rw [divSigned_eq, modSigned_eq, BitVec.ofInt_toInt]
    _ = BitVec.ofInt 64 (a.toInt.tdiv b.toInt * b.toInt + a.toInt.tmod b.toInt) := by
        rw [BitVec.ofInt_add, BitVec.ofInt_mul]
    _ = a := by rw [Int.tdiv_mul_add_tmod, BitVec.ofInt_toInt]

theorem divUnsigned_mul_add_modUnsigned (a b : BitVec 64) :
    (if b = 0 then 0 else a / b) * b + (if b = 0 then a else a % b) = a := by
  calc (if b = 0 then 0 else a / b) * b + (if b = 0 then a else a % b)
      = BitVec.ofNat 64 (a.toNat / b.toNat) * BitVec.ofNat 64 b.toNat + BitVec.ofNat 64 (a.toNat % b.toNat) := by
        rw [divUnsigned_eq, modUnsigned_eq, BitVec.ofNat_toNat, BitVec.setWidth_eq]
    _ = BitVec.ofNat 64 (a.toNat / b.toNat * b.toNat + a.toNat % b.toNat) := by
        rw [BitVec.ofNat_add, BitVec.ofNat_mul]
    _ = a := by rw [Nat.div_add_mod', BitVec.ofNat_toNat, BitVec.setWidth_eq]

@[simp] theorem State.tile_retires (s : State) (k : TileIx) (t : Tile) :
    (s.retires k t).tile k = { t with pc := (s.fetched k).pc + 4, instret := t.instret + 1 } := s.tile_setTile k _

/-- What an ALU instruction with unpoisoned operands leaves in its destination. -/
theorem alu_result {k : TileIx} {rd rs1 rs2 : BitVec 5} {func : BitVec 11} {s u : State} {v : BitVec 64} (hrd : rd ≠ 0)
    (h : s.atInsn k (.baseRegisterAlu k rd rs1 rs2 func) [rs1, rs2])
    (hv : aluResult func.toNat ((s.fetched k).reg rs1).val ((s.fetched k).reg rs2).val = some v)
    (hu : aluUnary func.toNat = false)
    (hp1 : ((s.fetched k).reg rs1).poison = false) (hp2 : ((s.fetched k).reg rs2).poison = false)
    (hx : exec (.baseRegisterAlu k rd rs1 rs2 func) s = .next u) : ((u.tile k).reg rd).val = v := by
  rw [exec_alu_retires h hv (by simp [hu]), Host.Outcome.next.injEq] at hx
  rw [← hx, State.tile_retires]
  show (((s.fetched k).setReg rd _).reg rd).val = v
  rw [Tile.reg_setReg_same _ _ _ hrd, resultOf_two]
  simp only [hp1, hp2, Bool.or_self, Bool.false_eq_true, ite_false]

/-! ### Bit counts and byte reversal -/

theorem bitOf_eq_getLsbD (a : BitVec 64) (i : Nat) : bitOf a i = a.getLsbD i := by
  unfold bitOf field
  rw [← BitVec.testBit_toNat, Nat.testBit_eq_decide_div_mod_eq]
  rfl

theorem leadingZeros_spec (a : BitVec 64) :
    leadingZeros a ≤ 64 ∧ (∀ i, 64 - leadingZeros a ≤ i → a.getLsbD i = false)
      ∧ (leadingZeros a < 64 → a.getLsbD (63 - leadingZeros a) = true) := by
  unfold leadingZeros
  simp only [← BitVec.testBit_toNat]
  split
  case isTrue h0 => simp [h0]
  case isFalse h0 =>
    have hlog : Nat.log2 a.toNat < 64 := (Nat.log2_lt h0).mpr a.isLt
    refine ⟨by omega, fun i hi => ?_, fun _ => ?_⟩
    · exact Nat.testBit_lt_two_pow (Nat.lt_of_lt_of_le Nat.lt_log2_self (Nat.pow_le_pow_right (by decide) (by omega)))
    · rw [show 63 - (63 - Nat.log2 a.toNat) = Nat.log2 a.toNat by omega]
      exact Nat.testBit_log2 h0

/-- Looking at `n` bits from bit `i` on. -/
theorem trailingZerosFrom_spec (a : BitVec 64) : ∀ n i,
    i ≤ trailingZerosFrom n i a ∧ trailingZerosFrom n i a ≤ i + n
      ∧ (∀ j, i ≤ j → j < trailingZerosFrom n i a → a.getLsbD j = false)
      ∧ (trailingZerosFrom n i a < i + n → a.getLsbD (trailingZerosFrom n i a) = true) := by
  intro n
  induction n with
  | zero =>
    intro i
    exact ⟨Nat.le_refl i, Nat.le_refl i, fun j hi hj => absurd hj (Nat.not_lt.mpr hi), fun h => absurd h (Nat.lt_irrefl i)⟩
  | succ n ih =>
    intro i
    unfold trailingZerosFrom
    rw [bitOf_eq_getLsbD]
    split
    case isTrue hbit => exact ⟨Nat.le_refl i, by omega, fun j hi hj => absurd hj (Nat.not_lt.mpr hi), fun _ => hbit⟩
    case isFalse hbit =>
      obtain ⟨hlow, hhigh, hclear, hset⟩ := ih (i + 1)
      refine ⟨by omega, by omega, fun j hi hj => ?_, fun h => hset (by omega)⟩
      rcases Nat.eq_or_lt_of_le hi with rfl | hlt
      · simpa using hbit
      · exact hclear j hlt hj

theorem popCount_eq (n : Nat) : ∀ v, popCount n v = ((List.range n).filter (fun i => v.testBit i)).length := by
  induction n with
  | zero => intro v; rfl
  | succ n ih =>
    intro v
    rw [popCount, ih, List.range_succ_eq_map, List.filter_cons, List.filter_map, Nat.testBit_zero]
    have htail : (fun i => v.testBit i) ∘ Nat.succ = fun i => (v / 2).testBit i := funext (fun i => Nat.testBit_succ v i)
    rw [htail]
    rcases Nat.mod_two_eq_zero_or_one v with h | h <;> simp [h, Nat.add_comm]

/-- A byte of a number given by its bytes. -/
theorem natLE_div_mod : ∀ (l : List (BitVec 8)) (j : Nat), natLE l / 256 ^ j % 256 = (l.getD j 0).toNat
  | [], j => by simp [natLE]
  | b :: l, 0 => by
    have := b.isLt
    simp only [natLE, Nat.pow_zero, Nat.div_one, List.getD_cons_zero]
    omega
  | b :: l, j + 1 => by
    have := b.isLt
    rw [natLE, Nat.pow_succ', ← Nat.div_div_eq_div_mul, show (b.toNat + 256 * natLE l) / 256 = natLE l by omega,
      natLE_div_mod l j, List.getD_cons_succ]

theorem natLE_lt : ∀ l : List (BitVec 8), natLE l < 256 ^ l.length
  | [] => by decide
  | b :: l => by
    have := b.isLt
    have := natLE_lt l
    rw [natLE, List.length_cons, Nat.pow_succ']
    omega

@[simp] theorem length_bytesLE : ∀ n v, (bytesLE n v).length = n
  | 0, _ => rfl
  | n + 1, v => by rw [bytesLE, List.length_cons, length_bytesLE n]

theorem getD_bytesLE (n v j : Nat) (hj : j < n) : ((bytesLE n v).getD j 0).toNat = v / 256 ^ j % 256 := by
  rw [← natLE_div_mod, natLE_bytesLE]
  rw [show 256 ^ n = 256 ^ j * 256 ^ (n - j) by rw [← Nat.pow_add]; congr 1; omega, Nat.mod_mul_right_div_self]
  exact Nat.mod_mod_of_dvd _ (dvd_pow_self 256 (by omega))

/-- A byte of a word, as a digit to the base 256. -/
theorem field_byte (v : BitVec 64) (j : Nat) : field v (8 * j) 8 = v.toNat / 256 ^ j % 256 := by
  unfold field
  rw [Nat.pow_mul]
  rfl

theorem field_byteSwap (a : BitVec 64) (j : Nat) (hj : j < 8) :
    field (byteSwap a) (8 * j) 8 = field a (8 * (7 - j)) 8 := by
  have hlt : natLE (bytesLE 8 a.toNat).reverse < 2 ^ 64 := by simpa using natLE_lt (bytesLE 8 a.toNat).reverse
  rw [field_byte, field_byte, byteSwap, BitVec.toNat_ofNat, Nat.mod_eq_of_lt hlt, natLE_div_mod,
    ← getD_bytesLE 8 a.toNat (7 - j) (by omega), List.getD_eq_getElem _ _ (by simpa using hj),
    List.getD_eq_getElem _ _ (by simp; omega), List.getElem_reverse]
  simp

/-- Settles O4: the bit counts by induction over the bits, and q * b + r from the division of integers. -/
theorem aluMeansArithmetic : Obligations.AluMeansArithmetic := by
  unfold Obligations.AluMeansArithmetic
  refine ⟨fun a => ⟨leadingZeros_spec a, ?_, ?_, field_byteSwap a⟩, ?_⟩
  · obtain ⟨-, hle, hclear, hset⟩ := trailingZerosFrom_spec a 64 0
    rw [Nat.zero_add] at hle hset
    exact ⟨hle, fun i hi => hclear i (Nat.zero_le i) hi, hset⟩
  · simpa only [BitVec.testBit_toNat] using popCount_eq 64 a.toNat
  · intro k rd rs1 rs2 s s' q r signed hrd ha hb hp1 hp2 hp1' hp2' hs hs' hq hr
    rw [← s.reg_fetched k rs1, ← s.reg_fetched k rs2]
    cases signed with
    | true =>
      rw [alu_result hrd hs rfl rfl hp1 hp2 hq, alu_result hrd hs' rfl rfl hp1' hp2' hr, ha, hb]
      exact (divSigned_mul_add_modSigned _ _).symm
    | false =>
      rw [alu_result hrd hs rfl rfl hp1 hp2 hq, alu_result hrd hs' rfl rfl hp1' hp2' hr, ha, hb]
      exact (divUnsigned_mul_add_modUnsigned _ _).symm

end Sys2Proof.Machine
end

section
/-! Control flow, marks, CSRs and tile faults (03, R96 to R108, R120 to R128). -/

namespace Sys2Proof.Machine

/-! ## Marks and poison of operands (03, R107, R120) -/

theorem Tile.markFault_of_unmarked {t : Tile} {gs : List GReg} (h : t.service = true ∨ gs.any (·.mark) = false) :
    t.markFault gs = false := by
  unfold Tile.markFault
  rcases h with h | h <;> simp [h]

theorem Tile.markFault_of_marked {t : Tile} {gs : List GReg} (hs : t.service = false) (h : gs.any (·.mark) = true) :
    t.markFault gs = true := by
  rw [Tile.markFault, hs, h]
  rfl

theorem any_one (f : GReg → Bool) (a : GReg) : [a].any f = f a := by simp

theorem any_two (f : GReg → Bool) (a b : GReg) : [a, b].any f = (f a || f b) := by simp

theorem any_three (f : GReg → Bool) (a b c : GReg) : [a, b, c].any f = (f a || f b || f c) := by simp [Bool.or_assoc]

/-! ## Branches and jumps (03, R102, R107) -/

section
variable {k : TileIx} {op : BrOp} {rd rs1 : BitVec 5} {imm : BitVec 16} {s : State}

theorem exec_branch_of_clear (h : s.atInsn k (.branch k op rd rs1 imm) [rd, rs1])
    (hm : (s.fetched k).markFault [(s.fetched k).reg rd, (s.fetched k).reg rs1] = false)
    (hp : anyPoison [(s.fetched k).reg rd, (s.fetched k).reg rs1] = false) :
    exec (.branch k op rd rs1 imm) s
      = .next (if branchTaken op ((s.fetched k).reg rd).val ((s.fetched k).reg rs1).val then
          s.jumps k (s.fetched k) (branchTarget (s.fetched k).pc imm) else s.retires k (s.fetched k)) := by
  rw [exec_branch, execBranch]
  cases hc : branchTaken op ((s.fetched k).reg rd).val ((s.fetched k).reg rs1).val with
  | true => exact issue_jump h _ _ (by simp only [hm, hp, hc, lowestCause_cons_false, lowestCause_nil, ite_true])
  | false => exact issue_retire h _ (by simp only [hm, hp, hc, lowestCause_cons_false, lowestCause_nil, Bool.false_eq_true, ite_false])

theorem exec_branch_faults {c : Nat} (h : s.atInsn k (.branch k op rd rs1 imm) [rd, rs1])
    (hc : lowestCause [((s.fetched k).markFault [(s.fetched k).reg rd, (s.fetched k).reg rs1], 0x07),
      (anyPoison [(s.fetched k).reg rd, (s.fetched k).reg rs1], 0x0C)] = some c) :
    exec (.branch k op rd rs1 imm) s = .next (s.faults k 0 c 0) := by
  rw [exec_branch, execBranch]
  exact issue_fault h 0 c 0 (by simp only [hc])

theorem exec_jReg_of_clear (h : s.atInsn k (.jReg k rd rs1 imm) [rs1])
    (hc : lowestCause [((((s.fetched k).reg rs1).val + imm.signExtend 64 * 4).toNat % 4 != 0, 0x03),
      ((s.fetched k).markFault [(s.fetched k).reg rs1], 0x07), (anyPoison [(s.fetched k).reg rs1], 0x0C)] = none) :
    exec (.jReg k rd rs1 imm) s = .next (s.jumps k ((s.fetched k).setReg rd { val := ((s.fetched k).pc + 4).setWidth 64 })
      ((((s.fetched k).reg rs1).val + imm.signExtend 64 * 4).setWidth 18)) := by
  rw [exec_jReg, execJReg]
  exact issue_jump h _ _ (by simp only [sextImm, hc]; rfl)

theorem exec_jReg_faults {c : Nat} (h : s.atInsn k (.jReg k rd rs1 imm) [rs1])
    (hc : lowestCause [((((s.fetched k).reg rs1).val + imm.signExtend 64 * 4).toNat % 4 != 0, 0x03),
      ((s.fetched k).markFault [(s.fetched k).reg rs1], 0x07), (anyPoison [(s.fetched k).reg rs1], 0x0C)] = some c) :
    exec (.jReg k rd rs1 imm) s
      = .next (s.faults k 0 c (if c = 0x03 then ((s.fetched k).reg rs1).val + imm.signExtend 64 * 4 else 0)) := by
  rw [exec_jReg, execJReg]
  exact issue_fault h 0 c _ (by simp only [sextImm, hc])

end

/-- What each branch compares (R102). -/
theorem branchTaken_iff (op : BrOp) (a b : BitVec 64) : branchTaken op a b = true ↔ match op with
    | .eq => a = b
    | .ne => a ≠ b
    | .lt => a.toInt < b.toInt
    | .ge => b.toInt ≤ a.toInt
    | .ltu => a.toNat < b.toNat
    | .geu => b.toNat ≤ a.toNat := by
  cases op <;> simp [branchTaken, BitVec.slt, BitVec.ult]

/-- Settles O5: a branch by what it compares, a jump by its target. -/
theorem coreBranches : Obligations.CoreBranches := by
  unfold Obligations.CoreBranches
  intro k rd rs1 imm s
  dsimp only
  refine ⟨fun hmark ha hb => ?_, fun hr h => ?_, fun hr h => ?_, fun hfar h => ?_, fun hfar hmark hb h => ?_⟩
  · have hm : (s.fetched k).markFault [(s.fetched k).reg rd, (s.fetched k).reg rs1] = false :=
      Tile.markFault_of_unmarked (by rwa [any_two, Bool.or_eq_false_iff])
    have hp : anyPoison [(s.fetched k).reg rd, (s.fetched k).reg rs1] = false := by rw [anyPoison, any_two, ha, hb]; rfl
    have hgoes : ∀ op, (branchTaken op ((s.fetched k).reg rd).val ((s.fetched k).reg rs1).val = true →
          s.atInsn k (.branch k op rd rs1 imm) [rd, rs1] → exec (.branch k op rd rs1 imm) s
            = .next (s.jumps k (s.fetched k) (branchTarget (s.fetched k).pc imm)))
        ∧ (¬branchTaken op ((s.fetched k).reg rd).val ((s.fetched k).reg rs1).val = true →
          s.atInsn k (.branch k op rd rs1 imm) [rd, rs1] → exec (.branch k op rd rs1 imm) s = .next (s.retires k (s.fetched k))) :=
      fun op => ⟨fun hc h => by rw [exec_branch_of_clear h hm hp, if_pos hc],
        fun hc h => by rw [exec_branch_of_clear h hm hp, if_neg hc]⟩
    simp only [branchTaken_iff] at hgoes
    exact ⟨hgoes .eq, hgoes .ne, hgoes .lt, hgoes .ge, hgoes .ltu, hgoes .geu⟩
  · rw [exec_jLink, execJLink]
    exact issue_jump h _ _ (if_neg (not_not_intro hr))
  · rw [exec_jLink, execJLink]
    exact issue_fault h 0 0x01 0 (if_pos hr)
  · exact exec_jReg_faults h (by rw [bne_iff_ne.mpr hfar]; rfl)
  · have hm : (s.fetched k).markFault [(s.fetched k).reg rs1] = false := Tile.markFault_of_unmarked (by rwa [any_one])
    have hp : anyPoison [(s.fetched k).reg rs1] = false := by rw [anyPoison, any_one, hb]
    exact exec_jReg_of_clear h (by rw [hfar, hm, hp]; rfl)

/-! ## Remote operations: their checks at issue (03, R122) -/

section
variable {k : TileIx} {i : Instr} {isGet : Bool} {rd rs1 rs2 : BitVec 5} {func : BitVec 11} {s : State}

theorem remoteOp_operand_faults {c : Nat} (h : s.atInsn k i [rd, rs1, rs2]) (hf : func.toNat < 32)
    (hc : (s.fetched k).remoteOperands ((s.fetched k).reg rd) ((s.fetched k).reg rs1) ((s.fetched k).reg rs2) = some c) :
    remoteOp k i isGet rd rs1 rs2 func s = .next (s.faults k 0 c (if c = 0x09 then ((s.fetched k).reg rs1).val else 0)) := by
  unfold remoteOp
  refine issue_fault h 0 c _ ?_
  rw [if_neg (by omega), hc]

end

/-- Settles O6: the first cause that applies, with the mark before the poison. -/
theorem markedControlFaults : Obligations.MarkedControlFaults := by
  unfold Obligations.MarkedControlFaults
  intro k rd rs1 rs2 imm func op s
  dsimp only
  refine ⟨fun hs hm h => ?_, fun hs hp h => ?_, fun hfar hs hm h => ?_, fun hfar hs hp h => ?_, fun hf hs hm => ?_,
    fun hf hs hc hm => ?_⟩
  · exact exec_branch_faults h (by rw [Tile.markFault_of_marked hs (by rwa [any_two])]; rfl)
  · exact exec_branch_faults h (by
      rw [Tile.markFault_of_unmarked (by rwa [any_two]), anyPoison, any_two, hp]; rfl)
  · exact exec_jReg_faults (c := 0x07) h (by rw [hfar, Tile.markFault_of_marked hs (by rwa [any_one])]; rfl)
  · exact exec_jReg_faults (c := 0x0C) h (by
      rw [hfar, Tile.markFault_of_unmarked (by rwa [any_one]), anyPoison, any_one, hp]; rfl)
  · have hops : (s.fetched k).remoteOperands ((s.fetched k).reg rd) ((s.fetched k).reg rs1) ((s.fetched k).reg rs2)
        = some 0x08 := by
      rw [Tile.remoteOperands, Tile.markFault_of_marked hs (by rwa [any_one])]
      rfl
    exact ⟨fun h => remoteOp_operand_faults h hf hops, fun h => remoteOp_operand_faults h hf hops⟩
  · have hops : (s.fetched k).remoteOperands ((s.fetched k).reg rd) ((s.fetched k).reg rs1) ((s.fetched k).reg rs2)
        = some 0x09 := by
      rw [Tile.remoteOperands, Tile.markFault_of_unmarked (gs := [(s.fetched k).reg rs2]) (.inr (by rwa [any_one])),
        Tile.markFault_of_marked hs (by rwa [any_one])]
      rfl
    exact ⟨fun h => remoteOp_operand_faults h hf hops, fun h => remoteOp_operand_faults h hf hops⟩

/-! ## The core's own instructions and the fetch (03, R96, R99, R120, R123) -/

theorem Tile.fenced_iff (t : Tile) : t.fenced = true ↔
    t.remote = [] ∧ (∀ e ∈ t.outbound, e.tally = false) ∧ ∀ e ∈ t.vxQueue, e.kind ≠ .tally := by
  simp [Tile.fenced, and_assoc]

/-- A fetch at or above 0x30000, or outside the protected area in PROGRAM mode, is FETCH_RANGE. -/
theorem Tile.fetchCause_of_out {t : Tile} (h : memEnd ≤ t.pc.toNat ∨ (t.service = false ∧ t.protEnd ≤ t.pc.toNat)) :
    t.fetchCause = some 0x05 := by
  unfold Tile.fetchCause
  dsimp only
  split
  case isTrue => rfl
  case isFalse hlow =>
    obtain ⟨hs, hp⟩ := h.resolve_left hlow
    rw [if_pos (by simp [hs, hp])]

theorem Tile.fetchCause_of_poison {t : Tile} (h : ¬(memEnd ≤ t.pc.toNat ∨ (t.service = false ∧ t.protEnd ≤ t.pc.toNat)))
    (hp : t.fetchWord.poison = true) : t.fetchCause = some 0x0B := by
  obtain ⟨hlow, hprot⟩ := not_or.mp h
  unfold Tile.fetchCause
  dsimp only
  rw [if_neg hlow, if_neg (by simpa using hprot), if_pos hp]

theorem exec_fetchFault_of_cause {k : TileIx} {s : State} {c : Nat} (h : s.canIssue k = true)
    (hc : (s.tile k).fetchCause = some c) : exec (.fetchFault k) s = .next (s.faults k 0 c 0) := by
  simp only [exec_fetchFault, execFetchFault, issue, hc, h, Option.isNone_some, Bool.not_true, Bool.false_eq_true, ite_false,
    State.faults, s.fetched_pc k]
  rfl

/-- Settles O9: the core's own instructions by their fields and mode, a fetch by its cause. -/
theorem coreSystem : Obligations.CoreSystem := by
  unfold Obligations.CoreSystem
  intro k s
  dsimp only
  refine ⟨fun hs h => ?_, fun hs h => ?_, fun rd rs1 rs2 func hf => ⟨fun h => ?_, fun h => ?_⟩, fun hr ho hv h => ?_,
    fun w hw h => ?_, fun hi ho => exec_fetchFault_of_cause hi (Tile.fetchCause_of_out ho),
    fun hi ho hp => exec_fetchFault_of_cause hi (Tile.fetchCause_of_poison ho hp)⟩
  · rw [exec_sysBrk, execSysBrk]
    exact issue_retire h _ (if_neg (by rw [hs]; simp))
  · rw [exec_sysBrk, execSysBrk]
    exact issue_fault h 0 0x01 0 (if_pos (by rw [hs]; simp))
  · rw [exec_sysBrk, execSysBrk]
    exact issue_fault h 0 0x01 0 (if_pos (by tauto))
  · rw [exec_rFence, execRFence]
    exact issue_fault h 0 0x01 0 (if_pos hf)
  · rw [exec_rFence, execRFence]
    refine issue_retire h _ ?_
    rw [if_neg (by simp), if_pos ((s.fetched k).fenced_iff.mpr ⟨hr, ho, hv⟩)]
  · rw [exec_reservedMajorOpcode, execReservedMajorOpcode, if_neg (by rw [show reservedWord w = true from hw]; simp)]
    exact issue_fault h 0 0x01 0 rfl

/-! ## CSRs (03, R106, R108) -/

section
variable {k : TileIx} {i : Instr} {rd rs1 : BitVec 5} {imm : BitVec 16} {xchg : Bool} {f : BitVec 64 → BitVec 64 → BitVec 64}
  {s : State}

theorem exec_cRd_retires {v : BitVec 64} (h : s.atInsn k (.cRd k rd rs1 imm) []) (hn : imm.toNat < 4096) (hr : rs1 = 0)
    (hv : s.csrRead k (s.fetched k) imm.toNat (!(s.fetched k).service) = some v) :
    exec (.cRd k rd rs1 imm) s = .next (s.retires k ((s.fetched k).setReg rd { val := v, mark := csrMarked imm.toNat })) := by
  rw [exec_cRd, execCRd]
  refine issue_retire h _ ?_
  simp only [Nat.mod_eq_of_lt hn, hv]
  exact if_neg (not_or.mpr ⟨not_not_intro hr, by omega⟩)

/-- c.xchg, c.set and c.clr are updates of a CSR. -/
theorem exec_csrUpdate {c : Instr} (hc : c ∈ [Instr.cXchg k rd rs1 imm, .cSet k rd rs1 imm, .cClr k rd rs1 imm]) (s : State) :
    ∃ xchg f, exec c s = csrUpdate k c rd rs1 imm xchg f s := by
  simp only [List.mem_cons, List.not_mem_nil, or_false] at hc
  rcases hc with rfl | rfl | rfl
  · exact ⟨_, _, exec_cXchg k rd rs1 imm s⟩
  · exact ⟨_, _, exec_cSet k rd rs1 imm s⟩
  · exact ⟨_, _, exec_cClr k rd rs1 imm s⟩

theorem csrUpdate_out_of_range (h : s.atInsn k i [rs1]) (hn : 4096 ≤ imm.toNat) :
    csrUpdate k i rd rs1 imm xchg f s = .next (s.faults k 0 0x01 0) := by
  unfold csrUpdate
  exact issue_fault h 0 0x01 0 (if_pos (by omega))

theorem csrUpdate_undefined (h : s.atInsn k i [rs1]) (hn : imm.toNat < 4096)
    (hv : s.csrRead k (s.fetched k) imm.toNat (!(s.fetched k).service) = none) :
    csrUpdate k i rd rs1 imm xchg f s = .next (s.faults k 0 0x02 0) := by
  unfold csrUpdate
  refine issue_fault h 0 0x02 0 ?_
  simp only [Nat.mod_eq_of_lt hn, hv]
  exact if_neg (by omega)

/-- A register that needs no unmarked value reads `old`: a poisoned operand faults. -/
theorem csrUpdate_poisoned {old : BitVec 64} (h : s.atInsn k i [rs1]) (hn : imm.toNat < 4096)
    (hv : s.csrRead k (s.fetched k) imm.toNat (!(s.fetched k).service) = some old) (hc : csrCounts imm.toNat = false)
    (hp : ((s.fetched k).reg rs1).poison = true) : csrUpdate k i rd rs1 imm xchg f s = .next (s.faults k 0 0x0C 0) := by
  unfold csrUpdate
  refine issue_fault h 0 0x0C 0 ?_
  simp only [Nat.mod_eq_of_lt hn, hv, hc, hp, Bool.false_and, lowestCause_cons_false, lowestCause_cons_true]
  exact if_neg (by omega)

theorem csrUpdate_writes {old : BitVec 64} {t : Tile} (h : s.atInsn k i [rs1]) (hn : imm.toNat < 4096)
    (hv : s.csrRead k (s.fetched k) imm.toNat (!(s.fetched k).service) = some old) (hc : csrCounts imm.toNat = false)
    (hp : ((s.fetched k).reg rs1).poison = false)
    (hw : s.csrWrite k (s.fetched k) imm.toNat (f old ((s.fetched k).reg rs1).val) (!(s.fetched k).service) xchg = .done t) :
    csrUpdate k i rd rs1 imm xchg f s = .next (s.retires k (t.setReg rd (csrResult imm.toNat old))) := by
  unfold csrUpdate
  refine issue_retire h _ ?_
  simp only [Nat.mod_eq_of_lt hn, hv, hc, hp, hw, Bool.false_and, lowestCause_cons_false, lowestCause_nil]
  exact if_neg (by omega)

end

theorem State.csrRead_srBase (s : State) (k : Nat) (t : Tile) (hide : Bool) : s.csrRead k t 0x0E2 hide = some t.srBase := rfl

theorem State.csrWrite_srBase (s : State) (k : Nat) (t : Tile) (v : BitVec 64) (hide xchg : Bool) :
    s.csrWrite k t 0x0E2 v hide xchg = .done { t with srBase := v } := rfl

/-- Settles O10: c.rd by the CSR's value, the updates by what csrWrite leaves of VX_SR_BASE. -/
theorem coreCsrs : Obligations.CoreCsrs := by
  unfold Obligations.CoreCsrs
  intro k rd rs1 imm s
  dsimp only
  refine ⟨fun hn hr v hv h => exec_cRd_retires h hn hr hv, fun hbad h => ?_, fun c hc => ?_, fun hn hp c hc h => ?_,
    fun hn hp => ?_⟩
  · rw [exec_cRd, execCRd]
    exact issue_fault h 0 0x01 0 (if_pos (hbad.symm.imp_right (by omega)))
  · obtain ⟨xchg, f, hx⟩ := exec_csrUpdate hc s
    rw [hx]
    exact ⟨fun hn h => csrUpdate_out_of_range h hn, fun hn hv h => csrUpdate_undefined h hn hv⟩
  · obtain ⟨xchg, f, hx⟩ := exec_csrUpdate hc s
    rw [hx]
    refine csrUpdate_poisoned (old := (s.fetched k).srBase) h (by omega) ?_ ?_ hp
    · rw [hn, State.csrRead_srBase]
    · rw [hn]
      rfl
  · have hv : s.csrRead k (s.fetched k) imm.toNat (!(s.fetched k).service) = some (s.fetched k).srBase := by
      rw [hn, State.csrRead_srBase]
    have hw : ∀ v xchg, s.csrWrite k (s.fetched k) imm.toNat v (!(s.fetched k).service) xchg
        = .done { s.fetched k with srBase := v } := fun v xchg => by rw [hn, State.csrWrite_srBase]
    have hres : csrResult imm.toNat (s.fetched k).srBase = { val := (s.fetched k).srBase } := by rw [hn]; rfl
    have hcounts : csrCounts imm.toNat = false := by rw [hn]; rfl
    rw [← hres, exec_cXchg, execCXchg, exec_cSet, execCSet, exec_cClr, execCClr]
    exact ⟨fun h => csrUpdate_writes h (by omega) hv hcounts hp (hw _ _),
      fun h => csrUpdate_writes h (by omega) hv hcounts hp (hw _ _),
      fun h => csrUpdate_writes h (by omega) hv hcounts hp (hw _ _)⟩

end Sys2Proof.Machine
end

section
/-! Tile faults (03, R127, R128), and what the operations that write one register at most leave alone (03, R93, R97). -/

namespace Sys2Proof.Machine

/-! ## Tile faults (03, R127, R128) -/

section
variable (s : State) (k : Nat) (t : Tile) (unit cause : Nat) (pc : BitVec 18) (addr : BitVec 64)

@[simp] theorem State.reg_tileFault (r : BitVec 5) : (s.tileFault k t unit cause pc addr).reg r = t.reg r := by
  unfold State.tileFault
  split <;> rfl

@[simp] theorem State.tileFault_mem : (s.tileFault k t unit cause pc addr).mem = t.mem := by
  unfold State.tileFault
  split <;> rfl

/-- A fault touches the core's status only. -/
theorem State.sameUnits_tileFault : t.sameUnits (s.tileFault k t unit cause pc addr) := by
  unfold State.tileFault
  split <;> and_intros <;> rfl

/-- The first fault is recorded. -/
theorem State.tileFault_of_clear (h : t.fcValid = false) : s.tileFault k t unit cause pc addr
    = { t with fcValid := true, fcMode := t.service, fcUnit := BitVec.ofNat 8 unit, fcCause := BitVec.ofNat 8 cause, fcPc := pc,
               fcAddr := addr, parked := true, wait := .none,
               raised := t.raised ++ [s.faultReport k t unit cause pc addr] } := by
  unfold State.tileFault
  rw [h]
  rfl

/-- A later fault is counted. -/
theorem State.tileFault_of_valid (h : t.fcValid = true) : s.tileFault k t unit cause pc addr
    = { t with fcCount := if t.fcCount = 0xFFFF then t.fcCount else t.fcCount + 1, parked := true, wait := .none,
               raised := t.raised ++ [s.faultReport k t unit cause pc addr] } := by
  unfold State.tileFault
  rw [h]
  rfl

end

/-- Settles O13: the first fault by what it records, a later one by what it counts. -/
theorem tileFaultRecord : Obligations.TileFaultRecord := by
  unfold Obligations.TileFaultRecord
  intro s k t unit cause pc addr
  dsimp only
  cases hv : t.fcValid with
  | false =>
    rw [s.tileFault_of_clear k t unit cause pc addr hv]
    exact ⟨rfl, rfl, by simp, rfl, rfl, rfl, fun _ => rfl, rfl, by and_intros <;> rfl,
      fun _ => ⟨rfl, rfl, rfl, rfl, rfl, rfl⟩, nofun⟩
  | true =>
    rw [s.tileFault_of_valid k t unit cause pc addr hv]
    exact ⟨rfl, rfl, by simp, hv, rfl, rfl, fun _ => rfl, rfl, by and_intros <;> rfl, nofun,
      fun _ => ⟨rfl, rfl, rfl, rfl, rfl, rfl⟩⟩

/-! ## What an instruction keeps of its tile (03, R93, R97) -/

theorem Tile.sameUnits.trans {a b c : Tile} (h : a.sameUnits b) (h' : b.sameUnits c) : a.sameUnits c := by
  unfold Tile.sameUnits at *
  simp only [h, h', and_self]

theorem Tile.sameUnits_of_asRead {a b : Tile} (h : a.asRead b) : a.sameUnits b := by
  rw [h]
  and_intros <;> rfl

theorem Tile.sameUnits_setReg (t : Tile) (r : BitVec 5) (g : GReg) : t.sameUnits (t.setReg r g) := by
  unfold Tile.setReg
  split <;> and_intros <;> rfl

/-- Local memory reads as before, the units stand, and so do the registers of a set. -/
def Tile.keeps (kept : BitVec 5 → Prop) (a b : Tile) : Prop :=
  a.sameMem b ∧ a.sameUnits b ∧ ∀ r, kept r → b.reg r = a.reg r

section
variable {kept : BitVec 5 → Prop} {a b c : Tile}

theorem Tile.keeps.trans (h : a.keeps kept b) (h' : b.keeps kept c) : a.keeps kept c := by
  obtain ⟨hmem, hunits, hregs⟩ := h
  obtain ⟨hmem', hunits', hregs'⟩ := h'
  exact ⟨fun i => (hmem' i).trans (hmem i), hunits.trans hunits', fun r hr => (hregs' r hr).trans (hregs r hr)⟩

theorem Tile.keeps_refl (t : Tile) : t.keeps kept t := ⟨fun _ => rfl, by and_intros <;> rfl, fun _ _ => rfl⟩

theorem Tile.keeps_setReg (t : Tile) {rd : BitVec 5} (h : ¬kept rd) (g : GReg) : t.keeps kept (t.setReg rd g) :=
  ⟨fun i => t.word_setReg rd g i, t.sameUnits_setReg rd g,
    fun r hr => t.reg_setReg_other rd r g (fun e => h (e ▸ hr))⟩

theorem Tile.keeps_retireTo (t : Tile) (pc : BitVec 18) : t.keeps kept (t.retireTo pc) :=
  ⟨fun _ => rfl, by and_intros <;> rfl, fun _ _ => rfl⟩

theorem State.keeps_tileFault (s : State) (k : Nat) (t : Tile) (unit cause : Nat) (pc : BitVec 18) (addr : BitVec 64) :
    t.keeps kept (s.tileFault k t unit cause pc addr) :=
  ⟨fun i => Tile.word_congr (s.tileFault_mem k t unit cause pc addr) i, s.sameUnits_tileFault k t unit cause pc addr,
    fun r _ => s.reg_tileFault k t unit cause pc addr r⟩

theorem State.keeps_touch (s : State) (k : Nat) (t : Tile) (i : Nat) : t.keeps kept (s.touch k t i) :=
  ⟨fun j => s.word_touch k t i j, Tile.sameUnits_of_asRead (s.touch_asRead k t i), fun r _ => s.reg_touch k t i r⟩

theorem State.keeps_fetched (s : State) (k : TileIx) : (s.tile k).keeps kept (s.fetched k) :=
  ⟨fun i => s.word_fetch k _ i, Tile.sameUnits_of_asRead (s.fetch_asRead k _), fun r _ => s.reg_fetch k _ r⟩

end

/-- A body's answer keeps what is kept of the tile it was given; one that leaves no tile of its own does. -/
def Issued.keeps (kept : BitVec 5 → Prop) (t : Tile) : Issued → Prop
  | .retire t' => t.keeps kept t'
  | .jump t' _ => t.keeps kept t'
  | .hold t' => t.keeps kept t'
  | .fault _ _ _ => True
  | .stall => True

/-- The frame of a state with one tile changed. -/
theorem State.frame_setTile (s : State) (k : Nat) (t : Tile) :
    s.sameFrame (s.setTile k t).bump ∧ s.otherTiles (s.setTile k t).bump k ∧ (s.setTile k t).bump.tile k = t :=
  ⟨by cases s; rfl, fun j hj => s.tile_setTile_other k j t hj, s.tile_setTile k t⟩

/-- The issue of an instruction leaves everything outside its tile, and of its tile what the body keeps. -/
theorem issue_keeps {k : TileIx} {i : Instr} {reads : List (BitVec 5)} {s t : State} {body : Tile → Issued}
    {kept : BitVec 5 → Prop} (hbody : ∀ t, (body t).keeps kept t) (h : issue k i reads s body = .next t) :
    s.sameFrame t ∧ s.otherTiles t k ∧ (s.tile k).keeps kept (t.tile k) := by
  have hset : ∀ t' : Tile, (s.fetched k).keeps kept t' → s.sameFrame (s.setTile k t').bump
      ∧ s.otherTiles (s.setTile k t').bump k ∧ (s.tile k).keeps kept ((s.setTile k t').bump.tile k) := by
    intro t' hk
    obtain ⟨hframe, hothers, htile⟩ := s.frame_setTile k t'
    exact ⟨hframe, hothers, by rw [htile]; exact (s.keeps_fetched k).trans hk⟩
  rcases issue_cases h with rfl | ⟨c, -, rfl⟩ | ⟨-, rfl⟩
  · exact ⟨rfl, fun _ _ => rfl, Tile.keeps_refl _⟩
  · exact hset _ (s.keeps_tileFault k _ _ _ _ _)
  · have hb := hbody (s.fetched k)
    cases hi : body (s.fetched k) with
    | retire t' => rw [hi] at hb; exact hset _ (hb.trans (t'.keeps_retireTo _))
    | jump t' target => rw [hi] at hb; exact hset _ (hb.trans (t'.keeps_retireTo _))
    | hold t' => rw [hi] at hb; exact hset _ hb
    | fault unit cause addr => exact hset _ (s.keeps_tileFault k _ _ _ _ _)
    | stall => exact ⟨rfl, fun _ _ => rfl, Tile.keeps_refl _⟩

/-! ## Operations that write one register at most -/

section
variable {k : TileIx} {rd rs1 rs2 : BitVec 5} {imm : BitVec 16} {func : BitVec 11} {s t : State} {kept : BitVec 5 → Prop}

/-- What the register operations answer: the frame, and of the tile all but the registers outside `kept`. -/
abbrev State.keepsBut (kept : BitVec 5 → Prop) (s t : State) (k : TileIx) : Prop :=
  s.sameFrame t ∧ s.otherTiles t k ∧ (s.tile k).keeps kept (t.tile k)

/-- An instruction that always retires with its register written. -/
theorem issue_setReg_keeps {i : Instr} {reads : List (BitVec 5)} {g : Tile → GReg} (hrd : ¬kept rd)
    (h : issue k i reads s (fun t => .retire (t.setReg rd (g t))) = .next t) : s.keepsBut kept t k := by
  refine issue_keeps (fun a => ?_) h
  exact a.keeps_setReg hrd (g a)

theorem baseRegisterAlu_keeps (hrd : ¬kept rd) (h : exec (.baseRegisterAlu k rd rs1 rs2 func) s = .next t) :
    s.keepsBut kept t k := by
  rw [exec_baseRegisterAlu] at h
  refine issue_keeps (fun a => ?_) h
  dsimp only
  split
  · trivial
  · split
    · trivial
    · exact a.keeps_setReg hrd _

theorem gShi_keeps (hrd : ¬kept rd) (h : exec (.gShi k rd rs1 imm) s = .next t) : s.keepsBut kept t k := by
  rw [exec_gShi] at h
  refine issue_keeps (fun a => ?_) h
  dsimp only
  split
  · trivial
  · exact a.keeps_setReg hrd _

theorem cRd_keeps (hrd : ¬kept rd) (h : exec (.cRd k rd rs1 imm) s = .next t) : s.keepsBut kept t k := by
  rw [exec_cRd] at h
  refine issue_keeps (fun a => ?_) h
  dsimp only
  split
  · trivial
  · split
    · trivial
    · exact a.keeps_setReg hrd _

theorem ld_keeps {op : LdOp} (hrd : ¬kept rd) (h : exec (.ld k op rd rs1 imm) s = .next t) : s.keepsBut kept t k := by
  rw [exec_ld] at h
  refine issue_keeps (fun a => ?_) h
  dsimp only
  split
  · trivial
  · split
    · trivial
    · exact (s.keeps_touch k a _).trans (Tile.keeps_setReg _ hrd _)

theorem branch_keeps {op : BrOp} (h : exec (.branch k op rd rs1 imm) s = .next t) : s.keepsBut kept t k := by
  rw [exec_branch] at h
  refine issue_keeps (fun a => ?_) h
  dsimp only
  split
  · trivial
  · split
    · exact a.keeps_refl
    · exact a.keeps_refl

theorem jLink_keeps (hrd : ¬kept rd) (h : exec (.jLink k rd rs1 imm) s = .next t) : s.keepsBut kept t k := by
  rw [exec_jLink] at h
  refine issue_keeps (fun a => ?_) h
  split
  · trivial
  · exact a.keeps_setReg hrd _

theorem jReg_keeps (hrd : ¬kept rd) (h : exec (.jReg k rd rs1 imm) s = .next t) : s.keepsBut kept t k := by
  rw [exec_jReg] at h
  refine issue_keeps (fun a => ?_) h
  dsimp only
  split
  · trivial
  · exact a.keeps_setReg hrd _

end

/-- Settles O14: what the issue keeps, with every register but rd kept, and every register for a branch. -/
theorem registerOnlyFrame : Obligations.RegisterOnlyFrame := by
  unfold Obligations.RegisterOnlyFrame
  intro k rd rs1 rs2 imm func lop lt ld br c s t hc h
  suffices hkeeps : s.keepsBut (fun r => r ≠ rd ∨ c = .branch k br rd rs1 imm) t k by
    obtain ⟨hframe, hothers, hmem, hunits, hregs⟩ := hkeeps
    exact ⟨hframe, hothers, hmem, hunits, hregs⟩
  simp only [List.mem_cons, List.not_mem_nil, or_false] at hc
  rcases hc with rfl | rfl | rfl | rfl | rfl | rfl | rfl | rfl | rfl | rfl | rfl
  · exact baseRegisterAlu_keeps (by simp) h
  · rw [exec_gAddi, execGAddi] at h
    exact issue_setReg_keeps (by simp) h
  · rw [exec_gLogicImm, execGLogicImm] at h
    exact issue_setReg_keeps (by simp) h
  · exact gShi_keeps (by simp) h
  · rw [exec_gLhi, execGLhi] at h
    exact issue_setReg_keeps (by simp) h
  · rw [exec_gLti, execGLti] at h
    exact issue_setReg_keeps (by simp) h
  · exact cRd_keeps (by simp) h
  · exact ld_keeps (by simp) h
  · exact branch_keeps h
  · exact jLink_keeps (by simp) h
  · exact jReg_keeps (by simp) h

end Sys2Proof.Machine
end

section
/-! Local loads and stores (03, R106, R114 to R116, R119, R120; log entry 147). -/

namespace Sys2Proof.Machine

/-! ## The bytes of an access inside one word -/

/-- The digits to the base 256 of a number, put together again. -/
theorem foldr_digits (n : Nat) : ∀ v : Nat,
    (List.range n).foldr (fun j acc => v / 256 ^ j % 256 + 256 * acc) 0 = v % 256 ^ n := by
  induction n with
  | zero => intro v; simp [Nat.mod_one]
  | succ n ih =>
    intro v
    have hstep : ∀ j acc, v / 256 ^ (j + 1) % 256 + 256 * acc = v / 256 / 256 ^ j % 256 + 256 * acc := by
      intro j acc
      rw [Nat.pow_succ', Nat.div_div_eq_div_mul]
    rw [List.range_succ_eq_map, List.foldr_cons, List.foldr_map]
    simp only [Nat.succ_eq_add_one, hstep]
    rw [ih, Nat.pow_zero, Nat.div_one, Nat.pow_succ', Nat.mod_mul]

/-- An access of `n` bytes that does not leave its word. -/
theorem Tile.byteAt_of_inside (t : Tile) {off n j : Nat} (h : off % 8 + n ≤ 8) (hj : j < n) :
    t.byteAt (off + j) = ((t.word (off / 8)).val.toNat / 256 ^ (off % 8) / 256 ^ j % 256, (t.word (off / 8)).poison) := by
  unfold Tile.byteAt
  dsimp only
  rw [show (off + j) / 8 = off / 8 by omega, show (off + j) % 8 = off % 8 + j by omega, field_byte, Nat.pow_add,
    Nat.div_div_eq_div_mul]

theorem Tile.bytesAt_of_inside (t : Tile) {off n : Nat} (h : off % 8 + n ≤ 8) (hn : 0 < n) :
    t.bytesAt off n = ((t.word (off / 8)).val.toNat / 256 ^ (off % 8) % 256 ^ n, (t.word (off / 8)).poison) := by
  have hbyte : ∀ j ∈ List.range n, t.byteAt (off + j)
      = ((t.word (off / 8)).val.toNat / 256 ^ (off % 8) / 256 ^ j % 256, (t.word (off / 8)).poison) :=
    fun j hj => t.byteAt_of_inside h (List.mem_range.mp hj)
  unfold Tile.bytesAt
  refine Prod.ext ?_ ?_
  · rw [← foldr_digits]
    exact List.foldr_ext _ _ _ (fun j hj acc => by rw [hbyte j hj])
  · cases hp : (t.word (off / 8)).poison with
    | true => exact List.any_eq_true.mpr ⟨0, List.mem_range.mpr hn, by rw [hbyte 0 (List.mem_range.mpr hn), hp]⟩
    | false => exact List.any_eq_false.mpr (fun j hj => by rw [hbyte j hj, hp]; simp)

theorem inside_of_aligned {off n : Nat} (hn : n ∣ 8) (h : off % n = 0) : off % 8 + n ≤ 8 := by
  have hn0 : 0 < n := Nat.pos_of_dvd_of_pos hn (by decide)
  obtain ⟨q, hq⟩ := hn
  have hdvd : n ∣ off % 8 := (Nat.dvd_mod_iff ⟨q, hq⟩).mpr (Nat.dvd_of_mod_eq_zero h)
  obtain ⟨p, hp⟩ := hdvd
  have hlt : off % 8 < 8 := Nat.mod_lt _ (by decide)
  rw [hp, hq] at hlt
  have := Nat.mul_le_mul_left n (Nat.lt_of_mul_lt_mul_left hlt)
  rw [← hq] at this
  rw [hp]
  exact this

/-! ## Extension of a loaded value (03, R100) -/

theorem signedOf_toNat {w : Nat} (hw : w ≠ 0) (x : BitVec w) : signedOf w x.toNat = x.toInt := by
  have hx := x.isLt
  have hhalf : 2 ^ w = 2 * 2 ^ (w - 1) := by rw [← Nat.pow_succ']; congr 1; omega
  unfold signedOf
  rw [BitVec.toInt_eq_toNat_cond, Nat.mod_eq_of_lt hx]
  by_cases hneg : 2 ^ (w - 1) ≤ x.toNat
  · simp only [if_pos (And.intro hw hneg), if_neg (show ¬2 * x.toNat < 2 ^ w by omega)]
  · simp only [if_neg (show ¬(w ≠ 0 ∧ 2 ^ (w - 1) ≤ x.toNat) from fun h => hneg h.2), if_pos (show 2 * x.toNat < 2 ^ w by omega)]

theorem extendValue_signed {n : Nat} (hn : 0 < n) (x : BitVec (8 * n)) : extendValue true n x.toNat = x.signExtend 64 := by
  unfold extendValue
  rw [if_pos rfl, signedOf_toNat (by omega)]
  rfl

theorem extendValue_unsigned {n : Nat} (x : BitVec (8 * n)) : extendValue false n x.toNat = x.setWidth 64 := by
  unfold extendValue
  rw [if_neg (by decide)]
  exact BitVec.ofNat_toNat 64 x

/-- The value a load makes of the word shifted to its first byte. -/
def loadExtend (op : LdOp) (v : BitVec 64) : BitVec 64 :=
  match op with
  | .ld64 => v
  | .ld32s => (v.setWidth 32).signExtend 64
  | .ld32u => (v.setWidth 32).setWidth 64
  | .ld16s => (v.setWidth 16).signExtend 64
  | .ld16u => (v.setWidth 16).setWidth 64
  | .ld8s => (v.setWidth 8).signExtend 64
  | .ld8u => (v.setWidth 8).setWidth 64

theorem toNat_shiftRight_bytes (v : BitVec 64) (o : Nat) : (v >>> (8 * o)).toNat = v.toNat / 256 ^ o := by
  rw [BitVec.toNat_ushiftRight, Nat.shiftRight_eq_div_pow, Nat.pow_mul]

theorem State.protEnd_touch (s : State) (k : Nat) (t : Tile) (i : Nat) : (s.touch k t i).protEnd = t.protEnd := by
  rw [Tile.protEnd, s.touch_protTop]
  rfl

theorem extendValue_load (op : LdOp) (v : BitVec 64) :
    extendValue (loadSigned op) (loadSize op) (v.toNat % 256 ^ loadSize op) = loadExtend op v := by
  have hlow : ∀ n, v.toNat % 256 ^ n = (v.setWidth (8 * n)).toNat := fun n => by
    rw [BitVec.toNat_setWidth, Nat.pow_mul]
  rw [hlow]
  cases op with
  | ld64 => exact (extendValue_unsigned (n := 8) _).trans (BitVec.setWidth_eq _)
  | ld32s => exact extendValue_signed (n := 4) (by decide) _
  | ld32u => exact extendValue_unsigned (n := 4) _
  | ld16s => exact extendValue_signed (n := 2) (by decide) _
  | ld16u => exact extendValue_unsigned (n := 2) _
  | ld8s => exact extendValue_signed (n := 1) (by decide) _
  | ld8u => exact extendValue_unsigned (n := 1) _

theorem loadSize_dvd (op : LdOp) : loadSize op ∣ 8 := by cases op <;> decide

theorem loadSize_pos (op : LdOp) : 0 < loadSize op := by cases op <;> decide

/-! ## The checks of a local access, in rising cause order (03, R127) -/

section
variable {t : Tile} {base : GReg} {addr : BitVec 64} {n : Nat} {isStore : Bool}

theorem Tile.localCause_of_misaligned (h : addr.toNat % n ≠ 0) : t.localCause base addr n isStore = some 0x03 := by
  rw [Tile.localCause, bne_iff_ne.mpr h]
  rfl

theorem Tile.localCause_of_aligned (h : addr.toNat % n = 0) : t.localCause base addr n isStore
    = lowestCause [(decide (memEnd ≤ addr.toNat), 0x04), (isStore && t.protects addr.toNat n, 0x06), (base.poison, 0x0C)] := by
  rw [Tile.localCause, h]
  rfl

theorem Tile.localCause_of_out (h : addr.toNat % n = 0) (hout : memEnd ≤ addr.toNat) :
    t.localCause base addr n isStore = some 0x04 := by
  rw [Tile.localCause_of_aligned h, decide_eq_true hout]
  rfl

theorem Tile.localCause_of_inside (h : addr.toNat % n = 0) (hin : addr.toNat < memEnd) : t.localCause base addr n isStore
    = lowestCause [(isStore && t.protects addr.toNat n, 0x06), (base.poison, 0x0C)] := by
  rw [Tile.localCause_of_aligned h, decide_eq_false (Nat.not_le.mpr hin)]
  rfl

end

theorem Tile.protects_iff (t : Tile) (off : Nat) {n : Nat} (hn : 0 < n) :
    t.protects off n = true ↔ t.service = false ∧ off < t.protEnd := by
  simp [Tile.protects, hn]

/-! ## Loads -/

section
variable {k : TileIx} {op : LdOp} {rd rs1 : BitVec 5} {imm : BitVec 16} {s : State}

theorem exec_ld_faults {c : Nat} (h : s.atInsn k (.ld k op rd rs1 imm) [rs1])
    (hc : (s.fetched k).localCause ((s.fetched k).reg rs1) (((s.fetched k).reg rs1).val + imm.signExtend 64) (loadSize op) false
      = some c) :
    exec (.ld k op rd rs1 imm) s = .next (s.faults k 0 c (((s.fetched k).reg rs1).val + imm.signExtend 64)) := by
  rw [exec_ld, execLd]
  exact issue_fault h 0 c _ (by simp only [localAddr, sextImm, hc])

theorem exec_ld_retires {off : Nat} (hoff : (((s.fetched k).reg rs1).val + imm.signExtend 64).toNat = off)
    (h : s.atInsn k (.ld k op rd rs1 imm) [rs1]) (ha : off % loadSize op = 0)
    (hc : (s.fetched k).localCause ((s.fetched k).reg rs1) (((s.fetched k).reg rs1).val + imm.signExtend 64) (loadSize op) false
      = none) (hw : (s.fetched k).mustWait (s.fetched k).seq off (loadSize op) = false) :
    exec (.ld k op rd rs1 imm) s = .next (s.retires k ((s.touch k (s.fetched k) (off / 8)).setReg rd
      { val := loadExtend op (((s.fetched k).word (off / 8)).val >>> (8 * (off % 8)))
        mark := decide ((s.fetched k).protEnd ≤ off), poison := ((s.fetched k).word (off / 8)).poison })) := by
  rw [exec_ld, execLd]
  refine issue_retire h _ ?_
  simp only [localAddr, sextImm, hc, hoff, hw, Bool.false_eq_true, ite_false,
    Tile.bytesAt_of_inside _ (inside_of_aligned (loadSize_dvd op) ha) (loadSize_pos op)]
  rw [← extendValue_load, toNat_shiftRight_bytes, State.protEnd_touch]

end

/-- Settles O7: a load by the first check that fails, and by the bytes of its word where none does. -/
theorem coreLoads : Obligations.CoreLoads := by
  unfold Obligations.CoreLoads
  intro k op rd rs1 imm s
  dsimp only
  refine ⟨fun ha h => exec_ld_faults h (Tile.localCause_of_misaligned ha),
    fun ha hout h => exec_ld_faults h (Tile.localCause_of_out ha hout), fun ha hin hp h => exec_ld_faults h ?_,
    fun ha hin hp hw h => ?_⟩
  · rw [Tile.localCause_of_inside ha hin, hp]
    rfl
  · have hc := Tile.localCause_of_inside (t := s.fetched k) (base := (s.fetched k).reg rs1) (isStore := false) ha hin
    rw [hp] at hc
    refine (exec_ld_retires rfl h ha hc hw).trans ?_
    cases op <;> rfl

/-! ## What a store leaves (03, R114) -/

/-- The mask of `n` bytes from byte `o` on has just those bits. -/
theorem testBit_byteMask (n o j : Nat) : ((2 ^ n - 1) * 2 ^ o).testBit j = decide (o ≤ j ∧ j < o + n) := by
  rw [Nat.testBit_mul_two_pow, Nat.testBit_two_pow_sub_one, ← Bool.decide_and]
  exact decide_eq_decide.mpr (by omega)

theorem getD_map_range {β : Type} (f : Nat → β) (d : β) {n j : Nat} (hj : j < n) : ((List.range n).map f).getD j d = f j := by
  rw [List.getD_eq_getElem _ _ (by simpa using hj), List.getElem_map, List.getElem_range]

theorem field_mergeBytes (old new : BitVec 64) (mask j : Nat) (hj : j < 8) :
    field (mergeBytes old new mask) (8 * j) 8 = if mask.testBit j then field new (8 * j) 8 else field old (8 * j) 8 := by
  unfold mergeBytes
  generalize hl : (List.range 8).map (fun j => if mask / 2 ^ j % 2 = 1 then BitVec.ofNat 8 (field new (8 * j) 8)
    else BitVec.ofNat 8 (field old (8 * j) 8)) = l
  have hlt : natLE l < 2 ^ 64 := by simpa [← hl] using natLE_lt l
  have hbyte : ∀ v : BitVec 64, (BitVec.ofNat 8 (field v (8 * j) 8)).toNat = field v (8 * j) 8 :=
    fun v => Nat.mod_eq_of_lt (field_lt v (8 * j) 8)
  rw [field_byte, BitVec.toNat_ofNat, Nat.mod_eq_of_lt hlt, natLE_div_mod, ← hl, getD_map_range _ _ hj,
    Nat.testBit_eq_decide_div_mod_eq]
  by_cases hm : mask / 2 ^ j % 2 = 1 <;> simp [hm, hbyte]

/-- A byte of a word shifted left by whole bytes. -/
theorem field_shiftLeft (v : BitVec 64) {o j : Nat} (ho : o ≤ j) (hj : j < 8) :
    field (v <<< (8 * o)) (8 * j) 8 = field v (8 * (j - o)) 8 := by
  have hextract : ∀ (x : BitVec 64) (lo : Nat), field x lo 8 = (x.extractLsb' lo 8).toNat := by
    intro x lo
    rw [BitVec.extractLsb'_toNat, Nat.shiftRight_eq_div_pow]
    rfl
  rw [hextract, hextract]
  congr 1
  ext i hi
  simp only [BitVec.getElem_extractLsb', BitVec.getLsbD_shiftLeft]
  rw [decide_eq_true (show 8 * j + i < 64 by omega), decide_eq_false (show ¬8 * j + i < 8 * o by omega),
    show 8 * j + i - 8 * o = 8 * (j - o) + i by omega]
  rfl

section
variable {t : Tile} {i mask : Nat} {w : PWord} (hm : mask % 256 ≠ 0)
include hm

/-- A write of some bytes of a word is a write of the whole word. -/
theorem Tile.putBytes_eq : ∃ v, t.putBytes i mask w
      = t.putWord i { val := v, poison := w.poison || (decide (mask % 256 ≠ 255) && (t.word i).poison) }
    ∧ ∀ j, j < 8 → field v (8 * j) 8 = if mask.testBit j then field w.val (8 * j) 8 else field (t.word i).val (8 * j) 8 := by
  unfold Tile.putBytes
  rw [if_neg hm]
  split
  case isTrue h255 =>
    refine ⟨w.val, by simp [h255], fun j hj => ?_⟩
    have hbit : mask.testBit j = true := by
      have hlow : (mask % 2 ^ 8).testBit j = mask.testBit j := by
        rw [Nat.testBit_mod_two_pow, decide_eq_true hj, Bool.true_and]
      rw [← hlow, show mask % 2 ^ 8 = 2 ^ 8 - 1 from h255, Nat.testBit_two_pow_sub_one, decide_eq_true hj]
    rw [if_pos hbit]
  case isFalse h255 =>
    refine ⟨mergeBytes (t.word i).val w.val mask, ?_, fun j hj => field_mergeBytes _ _ _ _ hj⟩
    simp [h255, Bool.or_comm]

end

theorem Tile.sameUnits_putWord (t : Tile) (i : Nat) (w : PWord) : t.sameUnits (t.putWord i w) := by
  simp [Tile.sameUnits]

/-! ## Stores -/

/-- The mask of a store whose bytes lie in one word: some bytes, and all of them only for st64. -/
theorem storeMask (op : StOp) {o : Nat} (h : o + storeSize op ≤ 8) : (2 ^ storeSize op - 1) * 2 ^ o % 256 ≠ 0
    ∧ decide ((2 ^ storeSize op - 1) * 2 ^ o % 256 ≠ 255) = decide (storeSize op < 8) := by
  have hfacts : ∀ n ∈ [1, 2, 4, 8], ∀ o < 8, o + n ≤ 8 →
      (2 ^ n - 1) * 2 ^ o % 256 ≠ 0 ∧ decide ((2 ^ n - 1) * 2 ^ o % 256 ≠ 255) = decide (n < 8) := by decide
  refine hfacts _ ?_ o ?_ h
  · cases op <;> decide
  · have : 0 < storeSize op := by cases op <;> decide
    omega

theorem storeSize_dvd (op : StOp) : storeSize op ∣ 8 := by cases op <;> decide

theorem storeSize_pos (op : StOp) : 0 < storeSize op := by cases op <;> decide

section
variable {k : TileIx} {op : StOp} {rd rs1 : BitVec 5} {imm : BitVec 16} {s : State}

theorem exec_st_faults {c : Nat} (h : s.atInsn k (.st k op rd rs1 imm) [rd, rs1])
    (hc : (s.fetched k).localCause ((s.fetched k).reg rs1) (((s.fetched k).reg rs1).val + imm.signExtend 64) (storeSize op) true
      = some c) :
    exec (.st k op rd rs1 imm) s = .next (s.faults k 0 c (((s.fetched k).reg rs1).val + imm.signExtend 64)) := by
  rw [exec_st, execSt]
  exact issue_fault h 0 c _ (by simp only [localAddr, sextImm, hc])

theorem exec_st_retires {off : Nat} (hoff : (((s.fetched k).reg rs1).val + imm.signExtend 64).toNat = off)
    (h : s.atInsn k (.st k op rd rs1 imm) [rd, rs1])
    (hc : (s.fetched k).localCause ((s.fetched k).reg rs1) (((s.fetched k).reg rs1).val + imm.signExtend 64) (storeSize op) true
      = none) (hw : (s.fetched k).mustWait (s.fetched k).seq off (storeSize op) = false) :
    exec (.st k op rd rs1 imm) s = .next (s.retires k ((s.fetched k).putBytes (off / 8) ((2 ^ storeSize op - 1) * 2 ^ (off % 8))
      { val := ((s.fetched k).reg rd).val <<< (8 * (off % 8)), poison := ((s.fetched k).reg rd).poison })) := by
  rw [exec_st, execSt]
  refine issue_retire h _ ?_
  simp only [localAddr, sextImm, hc, hoff, hw, Bool.false_eq_true, ite_false]

end

/-- Settles O8: a store by the first check that fails, and where none does by the bytes that its mask names. -/
theorem coreStores : Obligations.CoreStores := by
  unfold Obligations.CoreStores
  intro k op rd rs1 imm s
  dsimp only
  have hprot := (s.fetched k).protects_iff (((s.fetched k).reg rs1).val + imm.signExtend 64).toNat (storeSize_pos op)
  refine ⟨fun ha h => exec_st_faults h (Tile.localCause_of_misaligned ha),
    fun ha hout h => exec_st_faults h (Tile.localCause_of_out ha hout), fun ha hin hg h => exec_st_faults h ?_,
    fun ha hin hg hp h => exec_st_faults h ?_, fun ha hin hg hp hw => ?_⟩
  · rw [Tile.localCause_of_inside ha hin, hprot.mpr hg]
    rfl
  · rw [Tile.localCause_of_inside ha hin, Bool.eq_false_iff.mpr (mt hprot.mp hg), hp]
    rfl
  · have hc := Tile.localCause_of_inside (t := s.fetched k) (base := (s.fetched k).reg rs1) (isStore := true) ha hin
    rw [Bool.eq_false_iff.mpr (mt hprot.mp hg), hp] at hc
    have hinside := inside_of_aligned (storeSize_dvd op) ha
    obtain ⟨hmask, hfull⟩ := storeMask op hinside
    refine ⟨_, fun h => exec_st_retires rfl h hc hw, ?_⟩
    obtain ⟨v, hput, hbytes⟩ := Tile.putBytes_eq (t := s.fetched k) (i := (((s.fetched k).reg rs1).val + imm.signExtend 64).toNat / 8)
      (w := { val := ((s.fetched k).reg rd).val <<< (8 * ((((s.fetched k).reg rs1).val + imm.signExtend 64).toNat % 8))
              poison := ((s.fetched k).reg rd).poison }) hmask
    rw [hput, hfull, Tile.word_putWord_same]
    refine ⟨?_, fun hnp j hj => ?_, fun i hi => Tile.word_putWord_other _ _ _ _ hi, fun r => Tile.reg_putWord _ _ _ r,
      Tile.sameUnits_putWord _ _ _⟩
    · split
      case isTrue hpoison => exact hpoison.symm
      case isFalse => rfl
    · split at hnp
      case isTrue => cases hnp
      case isFalse hpoison =>
        rw [if_neg hpoison, hbytes j hj, testBit_byteMask]
        simp only [decide_eq_true_eq]
        split
        case isTrue hj' => exact field_shiftLeft _ hj'.1 hj
        case isFalse => rfl

end Sys2Proof.Machine
end

section
/-! Local memory's own steps and the clearing of a cause (03, R112, R117, R127); the operands and the start of a remote
operation (03, R121 to R123). -/

namespace Sys2Proof.Machine

/-! ## Steps of local memory (03, R112, R117) -/

/-- A tile with the corrected word of a read written back. -/
def Tile.wroteBack (t : Tile) (w : Nat) : Tile :=
  { t with ceFound := t.ceFound.filter (· != w), mem := modD {} t.mem w (fun m => { m with ecc := .good }) }

theorem Tile.not_mem_ceFound_wroteBack (t : Tile) (w : Nat) : w ∉ (t.wroteBack w).ceFound := by
  simp [Tile.wroteBack]

theorem Tile.ecc_wroteBack (t : Tile) (w : Nat) : (getD {} (t.wroteBack w).mem w).ecc = .good := by
  unfold Tile.wroteBack modD
  rw [getD_putD_same]

theorem Tile.word_wroteBack_other (t : Tile) {w i : Nat} (h : i ≠ w) : (t.wroteBack w).word i = t.word i := by
  unfold Tile.word Tile.wroteBack modD
  rw [getD_putD_other _ _ _ _ _ h]

/-- A tile after the scrub of its next line. -/
def State.scrubbed (s : State) (k : Nat) (t : Tile) : Tile :=
  { s.touchAll k t (rangeFrom (16 * t.scrubLine) 16) with scrubLine := (t.scrubLine + 1) % 1536 }

theorem State.keeps_touchAll {kept : BitVec 5 → Prop} (s : State) (k : Nat) (t : Tile) (is : List Nat) :
    t.keeps kept (s.touchAll k t is) := by
  have h := s.touchAll_asRead k is t
  exact ⟨fun i => s.word_touchAll k is t i, Tile.sameUnits_of_asRead h, fun r _ => by rw [h]; rfl⟩

theorem Tile.keeps_scrubLine {kept : BitVec 5 → Prop} (t : Tile) (n : Nat) : t.keeps kept { t with scrubLine := n } :=
  ⟨fun _ => rfl, by and_intros <;> rfl, fun _ _ => rfl⟩

theorem State.keeps_scrubbed {kept : BitVec 5 → Prop} (s : State) (k : Nat) (t : Tile) : t.keeps kept (s.scrubbed k t) :=
  (s.keeps_touchAll k t (rangeFrom (16 * t.scrubLine) 16)).trans (Tile.keeps_scrubLine _ _)

section
variable {k : TileIx} {s : State}

theorem exec_ceWriteback_found {w : Nat} (h : s.runs k) (hw : w ∈ (s.tile k).ceFound) :
    exec (.ceWriteback k w) s = .next (s.engineStep k ((s.tile k).wroteBack w)) := by
  rw [exec_ceWriteback, execCeWriteback]
  exact engine_some h _ (if_pos (List.contains_iff_mem.mpr hw))

theorem exec_memScrub_runs (h : s.runs k) : exec (.memScrub k) s = .next (s.engineStep k (s.scrubbed k (s.tile k))) := by
  rw [exec_memScrub, execMemScrub]
  exact engine_some h _ rfl

end

/-- Settles O12: the write-back and the scrub by what they leave of the tile. -/
theorem localMemorySteps : Obligations.LocalMemorySteps := by
  unfold Obligations.LocalMemorySteps
  intro k s
  dsimp only
  refine ⟨fun w h _ hw => ?_, fun h => ?_, fun h => ?_⟩
  · exact ⟨_, exec_ceWriteback_found h hw, Tile.ecc_wroteBack _ w, Tile.not_mem_ceFound_wroteBack _ w,
      fun i hi => Tile.word_wroteBack_other _ hi⟩
  · obtain ⟨hmem, hunits, hregs⟩ := s.keeps_scrubbed (kept := fun _ => True) k (s.tile k)
    exact ⟨_, exec_memScrub_runs h, hmem, rfl, fun r => hregs r trivial, hunits⟩
  · rw [exec_fcTileCauseClear, execFcTileCauseClear, if_pos h]
    rfl

/-! ## Remote operations (03, R121 to R123) -/

section
variable {k : TileIx} {i : Instr} {isGet : Bool} {rd rs1 rs2 : BitVec 5} {func : BitVec 11} {s : State}

theorem remoteOp_range_faults {c a : Nat} (h : s.atInsn k i [rd, rs1, rs2]) (hf : func.toNat < 32)
    (hops : (s.fetched k).remoteOperands ((s.fetched k).reg rd) ((s.fetched k).reg rs1) ((s.fetched k).reg rs2) = none)
    (hc : (s.fetched k).remoteRange isGet ((s.fetched k).reg rd).val.toNat ((s.fetched k).reg rs1).val.toNat
      ((s.fetched k).reg rs2).val.toNat = some (c, a)) :
    remoteOp k i isGet rd rs1 rs2 func s = .next (s.faults k 2 c (BitVec.ofNat 64 a)) := by
  unfold remoteOp
  refine issue_fault h 2 c _ ?_
  rw [if_neg (by omega), hops]
  dsimp only
  rw [hc]

/-- The tile object that a completed operation signals: func[4] asks, func[3:0] names it. -/
def remoteSignal (func : BitVec 11) : Option (BitVec 4) := if func.toNat / 16 = 1 then some (func.setWidth 4) else none

theorem remoteOp_starts (h : s.atInsn k i [rd, rs1, rs2]) (hf : func.toNat < 32)
    (hops : (s.fetched k).remoteOperands ((s.fetched k).reg rd) ((s.fetched k).reg rs1) ((s.fetched k).reg rs2) = none)
    (hc : (s.fetched k).remoteRange isGet ((s.fetched k).reg rd).val.toNat ((s.fetched k).reg rs1).val.toNat
      ((s.fetched k).reg rs2).val.toNat = none)
    (hfree : ((s.fetched k).reg rs2).val.toNat ≠ 0 → (s.fetched k).remoteFull = false ∧ (s.fetched k).mustWait (s.fetched k).seq
      ((s.fetched k).reg rd).val.toNat ((s.fetched k).reg rs2).val.toNat = false) :
    remoteOp k i isGet rd rs1 rs2 func s = .next (s.retires k (s.startRemote k (s.fetched k) isGet
      ((s.fetched k).reg rd).val.toNat ((s.fetched k).reg rs1).val ((s.fetched k).reg rs2).val.toNat (remoteSignal func))) := by
  have hstall : ¬(((s.fetched k).reg rs2).val ≠ 0 ∧ ((s.fetched k).remoteFull || (s.fetched k).mustWait (s.fetched k).seq
      ((s.fetched k).reg rd).val.toNat ((s.fetched k).reg rs2).val.toNat) = true) := by
    rintro ⟨hlen, hwait⟩
    obtain ⟨hfull, hmust⟩ := hfree (fun h0 => hlen (BitVec.eq_of_toNat_eq h0))
    rw [hfull, hmust] at hwait
    cases hwait
  unfold remoteOp
  refine issue_retire h _ ?_
  rw [if_neg (by omega), hops]
  dsimp only
  rw [hc]
  dsimp only
  rw [if_neg hstall, remoteSignal, Nat.mod_eq_of_lt (show func.toNat / 16 < 2 by omega)]

end

section
variable {t : Tile} {loc addr len : GReg}

theorem Tile.remoteOperands_of_unmarked (h : t.service = true ∨ (len.mark = false ∧ addr.mark = false)) :
    t.remoteOperands loc addr len = lowestCause [(loc.poison || addr.poison || len.poison, 0x0C)] := by
  rw [Tile.remoteOperands, Tile.markFault_of_unmarked (gs := [len]) (h.imp_right (fun h => by rw [any_one]; exact h.1)),
    Tile.markFault_of_unmarked (gs := [addr]) (h.imp_right (fun h => by rw [any_one]; exact h.2)), anyPoison, any_three]
  rfl

end

/-! ### The start of an operation -/

theorem remotePieces_ne_nil (cut : Bool) (addr fuel at_ left : Nat) (h : left ≠ 0) :
    remotePieces cut addr (fuel + 1) at_ left ≠ [] := by
  rw [remotePieces, if_neg h]
  exact List.cons_ne_nil _ _

theorem State.remotePackets_ne_nil (s : State) (k : Nat) (t : Tile) (isGet : Bool) (ref loc : Nat) (addr : BitVec 64) {len : Nat}
    (h : len ≠ 0) : s.remotePackets k t isGet ref loc addr len ≠ [] := by
  unfold State.remotePackets
  rw [ne_eq, List.map_eq_nil_iff]
  exact remotePieces_ne_nil _ _ _ _ _ h

theorem Tile.keeps_count {kept : BitVec 5 → Prop} (t : Tile) (i n : Nat) : t.keeps kept (t.count i n) := by
  refine ⟨fun j => Tile.word_congr (t.count_mem i n) j, by simp [Tile.sameUnits], fun r _ => by simp [Tile.reg]⟩

/-- A remote operation entered in the list of those outstanding, its packets in the injection port. -/
def Tile.listRemote (t : Tile) (o : RemoteOp) (ps : List Packet) : Tile :=
  { t with inject := t.inject ++ ps, remote := t.remote ++ [o], nextRef := t.nextRef + 1 }

theorem Tile.keeps_listRemote {kept : BitVec 5 → Prop} (t : Tile) (o : RemoteOp) (ps : List Packet) :
    t.keeps kept (t.listRemote o ps) := ⟨fun _ => rfl, by and_intros <;> rfl, fun _ _ => rfl⟩

section
variable {s : State} {k : Nat} {t : Tile} {isGet : Bool} {loc len : Nat} {addr : BitVec 64} {sig : Option (BitVec 4)}

theorem State.startRemote_of_zero : s.startRemote k t isGet loc addr 0 sig = s.remoteDone k (t.count 8 1) sig := by
  rw [State.startRemote, if_pos rfl]

/-- The tile once a put has read its source words. -/
def State.readSource (s : State) (k : Nat) (t : Tile) (isGet : Bool) (loc len : Nat) : Tile :=
  if isGet then t else s.touchAll k t (rangeFrom (loc / 8) (len / 8))

theorem State.readSource_asRead : t.asRead (s.readSource k t isGet loc len) := by
  unfold State.readSource
  split
  · exact t.asRead_refl
  · exact s.touchAll_asRead k _ t

theorem State.keeps_readSource {kept : BitVec 5 → Prop} : t.keeps kept (s.readSource k t isGet loc len) := by
  unfold State.readSource
  split
  · exact t.keeps_refl
  · exact s.keeps_touchAll k t _

/-- A start without an address error: the source read, then the operation listed. -/
theorem State.startRemote_eq (hlen : len ≠ 0)
    (herr : s.addrError { tile := k, service := t.service, isPut := !isGet, isMsg := false, addr := addr, len := len } = false) :
    s.startRemote k t isGet loc addr len sig = (s.readSource k (t.count 8 1) isGet loc len).listRemote
      (RemoteOp.mk (s.readSource k (t.count 8 1) isGet loc len).nextRef isGet loc len addr sig len)
      (s.remotePackets k (t.count 8 1) isGet (t.count 8 1).nextRef loc addr len) := by
  unfold State.startRemote
  dsimp only
  rw [if_neg hlen, t.count_service, if_neg (by rw [herr]; decide)]
  rfl

/-- What a start without an address error leaves: packets injected, the operation listed, registers, words and units kept. -/
theorem State.startRemote_starts (hlen : len ≠ 0)
    (herr : s.addrError { tile := k, service := t.service, isPut := !isGet, isMsg := false, addr := addr, len := len } = false) :
    ∃ ps, ps ≠ [] ∧ (s.startRemote k t isGet loc addr len sig).inject = t.inject ++ ps
      ∧ (s.startRemote k t isGet loc addr len sig).remote = t.remote ++ [RemoteOp.mk t.nextRef isGet loc len addr sig len]
      ∧ (∀ r, (s.startRemote k t isGet loc addr len sig).reg r = t.reg r)
      ∧ t.sameMem (s.startRemote k t isGet loc addr len sig) ∧ t.sameUnits (s.startRemote k t isGet loc addr len sig) := by
  rw [State.startRemote_eq hlen herr]
  have hps := s.remotePackets_ne_nil k (t.count 8 1) isGet (t.count 8 1).nextRef loc addr hlen
  generalize s.remotePackets k (t.count 8 1) isGet (t.count 8 1).nextRef loc addr len = ps at hps ⊢
  have hkeeps := (t.keeps_count (kept := fun _ => True) 8 1).trans
    (s.keeps_readSource (k := k) (isGet := isGet) (loc := loc) (len := len))
  have hread := s.readSource_asRead (k := k) (t := t.count 8 1) (isGet := isGet) (loc := loc) (len := len)
  generalize s.readSource k (t.count 8 1) isGet loc len = u at hkeeps hread ⊢
  obtain ⟨hmem, hunits, hregs⟩ := hkeeps.trans (u.keeps_listRemote (RemoteOp.mk u.nextRef isGet loc len addr sig len) ps)
  have hinject : u.inject = t.inject := by rw [hread]; exact t.count_inject 8 1
  have hremote : u.remote = t.remote := by rw [hread]; exact t.count_remote 8 1
  have hnext : u.nextRef = t.nextRef := by rw [hread]; exact t.count_nextRef 8 1
  refine ⟨ps, hps, ?_, ?_, fun r => hregs r trivial, hmem, hunits⟩
  · rw [← hinject]
    rfl
  · rw [← hremote, ← hnext]
    rfl

end

section
variable {t : Tile} {isGet : Bool} {loc addr len : Nat} (h0 : len ≠ 0)
include h0

theorem Tile.remoteRange_of_long (hlong : 65536 < len) : t.remoteRange isGet loc addr len = some (0x0D, 0) := by
  rw [Tile.remoteRange, if_neg h0, if_pos hlong]

variable (hle : len ≤ 65536)
include hle

/-- A length in range: the alignment checks of R122, in order. -/
theorem Tile.remoteRange_of_short : t.remoteRange isGet loc addr len = if len % 8 ≠ 0 then some (0x03, 0)
      else if loc % 8 ≠ 0 then some (0x03, loc) else if addr % 8 ≠ 0 then some (0x03, addr)
      else if memEnd < loc + len then some (0x04, loc) else if isGet && t.protects loc len then some (0x06, loc) else none := by
  rw [Tile.remoteRange, if_neg h0, if_neg (Nat.not_lt.mpr hle)]

variable (ha : len % 8 = 0 ∧ loc % 8 = 0 ∧ addr % 8 = 0)
include ha

theorem Tile.remoteRange_of_aligned : t.remoteRange isGet loc addr len
    = if memEnd < loc + len then some (0x04, loc) else if isGet && t.protects loc len then some (0x06, loc) else none := by
  obtain ⟨hlen, hloc, haddr⟩ := ha
  rw [Tile.remoteRange_of_short h0 hle, if_neg (not_not_intro hlen), if_neg (not_not_intro hloc), if_neg (not_not_intro haddr)]

theorem Tile.remoteRange_of_out (hout : memEnd < loc + len) : t.remoteRange isGet loc addr len = some (0x04, loc) := by
  rw [Tile.remoteRange_of_aligned h0 hle ha, if_pos hout]

theorem Tile.remoteRange_of_inside (hin : loc + len ≤ memEnd) : t.remoteRange isGet loc addr len
    = if isGet && t.protects loc len then some (0x06, loc) else none := by
  rw [Tile.remoteRange_of_aligned h0 hle ha, if_neg (Nat.not_lt.mpr hin)]

end

/-- Both remote operations, each by its kind. -/
theorem exec_remoteOp {k : TileIx} {rd rs1 rs2 : BitVec 5} {func : BitVec 11} {c : Instr}
    (hc : c ∈ [Instr.rGet k rd rs1 rs2 func, .rPut k rd rs1 rs2 func]) (s : State) :
    ∃ isGet, exec c s = remoteOp k c isGet rd rs1 rs2 func s := by
  simp only [List.mem_cons, List.not_mem_nil, or_false] at hc
  rcases hc with rfl | rfl
  · exact ⟨true, exec_rGet k rd rs1 rs2 func s⟩
  · exact ⟨false, exec_rPut k rd rs1 rs2 func s⟩

/-- An operation that passes its checks and finds room: what its start leaves. -/
theorem remoteOp_started {k : TileIx} {i : Instr} {isGet : Bool} {rd rs1 rs2 : BitVec 5} {func : BitVec 11} {s : State}
    (h : s.atInsn k i [rd, rs1, rs2]) (hf : func.toNat < 32)
    (hops : (s.fetched k).remoteOperands ((s.fetched k).reg rd) ((s.fetched k).reg rs1) ((s.fetched k).reg rs2) = none)
    (hc : (s.fetched k).remoteRange isGet ((s.fetched k).reg rd).val.toNat ((s.fetched k).reg rs1).val.toNat
      ((s.fetched k).reg rs2).val.toNat = none)
    (h0 : ((s.fetched k).reg rs2).val.toNat ≠ 0)
    (hroom : (s.fetched k).remote.length < 16 ∧ (s.fetched k).mustWait (s.fetched k).seq
      ((s.fetched k).reg rd).val.toNat ((s.fetched k).reg rs2).val.toNat = false)
    (herr : s.addrError { tile := k, service := (s.fetched k).service, isPut := !isGet, isMsg := false,
                          addr := ((s.fetched k).reg rs1).val, len := ((s.fetched k).reg rs2).val.toNat } = false) :
    ∃ t' ps, remoteOp k i isGet rd rs1 rs2 func s = .next (s.retires k t') ∧ ps ≠ []
      ∧ t'.inject = (s.fetched k).inject ++ ps
      ∧ t'.remote = (s.fetched k).remote ++ [RemoteOp.mk (s.fetched k).nextRef isGet ((s.fetched k).reg rd).val.toNat
          ((s.fetched k).reg rs2).val.toNat ((s.fetched k).reg rs1).val (remoteSignal func) ((s.fetched k).reg rs2).val.toNat]
      ∧ (∀ r, t'.reg r = (s.fetched k).reg r) ∧ (s.fetched k).sameMem t' ∧ (s.fetched k).sameUnits t' := by
  obtain ⟨hlist, hmust⟩ := hroom
  obtain ⟨ps, hstarted⟩ := State.startRemote_starts (s := s) (k := k) (t := s.fetched k) (isGet := isGet)
    (loc := ((s.fetched k).reg rd).val.toNat) (sig := remoteSignal func) h0 herr
  exact ⟨_, ps, remoteOp_starts h hf hops hc (fun _ => ⟨decide_eq_false (Nat.not_le.mpr hlist), hmust⟩), hstarted⟩

/-- Settles O11: the first check of R122 that fails, and the start where none does. -/
theorem remoteOperations : Obligations.RemoteOperations := by
  unfold Obligations.RemoteOperations
  intro k rd rs1 rs2 func s hf
  dsimp only
  have hops : ((s.fetched k).service = true ∨ ((s.fetched k).reg rs2).mark = false ∧ ((s.fetched k).reg rs1).mark = false) ∧
      (((s.fetched k).reg rd).poison || ((s.fetched k).reg rs1).poison || ((s.fetched k).reg rs2).poison) = false →
      (s.fetched k).remoteOperands ((s.fetched k).reg rd) ((s.fetched k).reg rs1) ((s.fetched k).reg rs2) = none := by
    rintro ⟨hm, hp⟩
    rw [Tile.remoteOperands_of_unmarked hm, hp]
    rfl
  have hword : ∀ v : BitVec 64, BitVec.ofNat 64 v.toNat = v := fun v => by rw [BitVec.ofNat_toNat, BitVec.setWidth_eq]
  refine ⟨fun c hc h => ?_, fun h hin hg => ?_, fun h hin hg hroom herr => ?_, fun h hin hroom herr => ?_⟩
  case refine_1 =>
    obtain ⟨isGet, hx⟩ := exec_remoteOp hc s
    rw [hx]
    refine ⟨fun hm hp => ?_, fun hcl hn => ?_, fun ⟨hcl, h0, hle⟩ hn => ?_, fun ⟨hcl, h0, hle⟩ hn hl => ?_,
      fun ⟨hcl, h0, hle⟩ hn hl ha => ?_, fun ⟨⟨hcl, h0, hle⟩, ha⟩ hout => ?_, fun hcl h0 => ?_⟩
    · exact remoteOp_operand_faults (c := 0x0C) h hf (by rw [Tile.remoteOperands_of_unmarked hm, hp]; rfl)
    · exact remoteOp_range_faults h hf (hops hcl) (Tile.remoteRange_of_long (by omega) hn)
    · exact remoteOp_range_faults h hf (hops hcl) (by rw [Tile.remoteRange_of_short h0 hle, if_pos hn])
    · rw [remoteOp_range_faults h hf (hops hcl) (by
        rw [Tile.remoteRange_of_short h0 hle, if_neg (not_not_intro hn), if_pos hl]), hword]
    · rw [remoteOp_range_faults h hf (hops hcl) (by
        rw [Tile.remoteRange_of_short h0 hle, if_neg (not_not_intro hn), if_neg (not_not_intro hl), if_pos ha]), hword]
    · rw [remoteOp_range_faults h hf (hops hcl) (Tile.remoteRange_of_out h0 hle ha hout), hword]
    · rw [remoteOp_starts h hf (hops hcl) (if_pos h0) (fun h => absurd h0 h), h0, State.startRemote_of_zero]
      rfl
  all_goals
    obtain ⟨⟨⟨hcl, h0, hle⟩, ha⟩, hin⟩ := hin
    have hprot := (s.fetched k).protects_iff ((s.fetched k).reg rd).val.toNat (Nat.pos_of_ne_zero h0)
  case refine_2 =>
    have hc : (s.fetched k).remoteRange true ((s.fetched k).reg rd).val.toNat ((s.fetched k).reg rs1).val.toNat
        ((s.fetched k).reg rs2).val.toNat = some (0x06, ((s.fetched k).reg rd).val.toNat) := by
      rw [Tile.remoteRange_of_inside h0 hle ha hin, hprot.mpr hg]
      rfl
    rw [exec_rGet, execRGet, remoteOp_range_faults h hf (hops hcl) hc, hword]
  case refine_3 =>
    have hc : (s.fetched k).remoteRange true ((s.fetched k).reg rd).val.toNat ((s.fetched k).reg rs1).val.toNat
        ((s.fetched k).reg rs2).val.toNat = none := by
      rw [Tile.remoteRange_of_inside h0 hle ha hin, Bool.eq_false_iff.mpr (mt hprot.mp hg)]
      rfl
    obtain ⟨t', ps, hx, hstarted⟩ := remoteOp_started h hf (hops hcl) hc h0 hroom herr
    exact ⟨t', hx, ps, hstarted⟩
  case refine_4 =>
    have hc : (s.fetched k).remoteRange false ((s.fetched k).reg rd).val.toNat ((s.fetched k).reg rs1).val.toNat
        ((s.fetched k).reg rs2).val.toNat = none := by
      rw [Tile.remoteRange_of_inside h0 hle ha hin]
      rfl
    obtain ⟨t', ps, hx, hstarted⟩ := remoteOp_started h hf (hops hcl) hc h0 hroom herr
    exact ⟨t', hx, ps, hstarted⟩

end Sys2Proof.Machine
end

section
/-! Remote operations at a tile: gets and puts served, and their answers (03, R115, R123 to R125; 09, R285, R286). -/

namespace Sys2Proof.Machine

/-! ## A packet that ends at a tile -/

section
variable {n : Nat} {op : PacketOp} {k i : Nat} {p : Packet} {s u : State}

theorem ejectedOr_of_arrived {body : Nat → Packet → State → Option State} (h : s.arrived n op p k i)
    (hb : body k p (s.takePacket n) = some u) : ejectedOr n op s body = .next u.bump := by
  obtain ⟨hnet, hop, hpos, hfirst, hrouted⟩ := h
  simp only [ejectedOr, hnet, hpos, hop, hfirst, hrouted, hb, decide_true, Bool.and_self, ite_true]

theorem arrival_of_arrived {same : Packet → Packet → Bool} {tile : Nat → Packet → State → Option State}
    {frame : Packet → State → Option State} (h : s.arrived n op p k i) (hb : tile k p (s.takePacket n) = some u) :
    arrival n op s same tile frame = .next u.bump := by
  have hpos : p.pos ≠ .frame := by rw [h.2.2.1]; nofun
  rw [arrival, h.1]
  exact (if_neg hpos).trans (ejectedOr_of_arrived h hb)

theorem ejected_of_arrived {body : Nat → Packet → State → State} (h : s.arrived n op p k i) :
    ejected n op s body = .next (body k p (s.takePacket n)).bump := by
  obtain ⟨hnet, hop, hpos, hfirst, hrouted⟩ := h
  simp only [ejected, hnet, hpos, hop, hfirst, hrouted, decide_true, Bool.and_self, ite_true]

end

/-! ## Words written from a place on (03, R114) -/

theorem Tile.putWords_keeps {β : Type} (proj : Tile → β) (h : ∀ t i w, proj (t.putWord i w) = proj t) (ws : List PWord) :
    ∀ t i, proj (t.putWords i ws) = proj t := by
  induction ws with
  | nil => exact fun _ _ => rfl
  | cons w ws ih => exact fun t i => (ih _ _).trans (h t i w)

section
variable (t : Tile) (i : Nat) (ws : List PWord)

@[simp] theorem Tile.putWords_regs : (t.putWords i ws).regs = t.regs := Tile.putWords_keeps Tile.regs Tile.putWord_regs ws t i
@[simp] theorem Tile.putWords_remote : (t.putWords i ws).remote = t.remote :=
  Tile.putWords_keeps Tile.remote Tile.putWord_remote ws t i
@[simp] theorem Tile.putWords_inject : (t.putWords i ws).inject = t.inject :=
  Tile.putWords_keeps Tile.inject Tile.putWord_inject ws t i

end

theorem Tile.word_putWords (ws : List PWord) : ∀ (t : Tile) (i j : Nat) (v : PWord), ws[j]? = some v →
    (t.putWords i ws).word (i + j) = v.stored := by
  induction ws with
  | nil => intro t i j v h; simp at h
  | cons w ws ih =>
    intro t i j v h
    rw [Tile.putWords]
    cases j with
    | zero =>
      obtain rfl : w = v := by simpa using h
      show ((t.putWord i w).putWords (i + 1) ws).word i = w.stored
      rw [Tile.word_putWords_other _ _ _ _ (.inl (Nat.lt_succ_self i)), Tile.word_putWord_same]
      rfl
    | succ j =>
      rw [show i + (j + 1) = i + 1 + j by omega]
      exact ih _ _ _ _ (by simpa using h)

/-- These words stand from a place on, and every other word as before. -/
def Tile.wrote (a b : Tile) (i : Nat) (ws : List PWord) : Prop :=
  (∀ j v, ws[j]? = some v → b.word (i + j) = v.stored) ∧ ∀ j, j < i ∨ i + ws.length ≤ j → b.word j = a.word j

theorem Tile.wrote_putWords (t : Tile) (i : Nat) (ws : List PWord) : t.wrote (t.putWords i ws) i ws :=
  ⟨fun j v h => Tile.word_putWords ws t i j v h, fun j h => Tile.word_putWords_other ws t i j h⟩

theorem Tile.wrote_congr {a b c : Tile} {i : Nat} {ws : List PWord} (h : c.mem = b.mem) (hb : a.wrote b i ws) :
    a.wrote c i ws :=
  ⟨fun j v hv => (Tile.word_congr h _).trans (hb.1 j v hv), fun j hj => (Tile.word_congr h _).trans (hb.2 j hj)⟩

/-! ## Progress of an outstanding operation (03, R123) -/

/-- The operations outstanding once bytes of the only one have moved. -/
def RemoteOp.after (o : RemoteOp) (bytes : Nat) : List RemoteOp :=
  if o.left ≤ bytes then [] else [{ o with left := o.left - bytes }]

/-- A tile with these operations outstanding. -/
def Tile.withRemote (t : Tile) (os : List RemoteOp) : Tile := { t with remote := os }

theorem State.remoteProgress_of_one {s : State} {k bytes : Nat} {t : Tile} {o : RemoteOp} (h : t.remote = [o])
    (hsig : o.signal = none) : s.remoteProgress k t o.ref bytes = t.withRemote (o.after bytes) := by
  unfold State.remoteProgress RemoteOp.after Tile.withRemote
  rw [h]
  simp only [List.find?_cons, beq_self_eq_true]
  split
  · rw [hsig]
    simp [State.remoteDone]
  · simp

@[simp] theorem State.tile_takePacket (s : State) (n k : Nat) : (s.takePacket n).tile k = s.tile k := rfl

/-! ## The obligation -/

section
variable {n : Nat} {k : TileIx} {i : Nat} {p : Packet} {s : State}

/-- The state with a packet taken and a tile in its place. -/
abbrev State.served (s : State) (n : Nat) (k : Nat) (t : Tile) : State :=
  (({ s with net := s.net.eraseIdx n } : State).setTile k t).bump

theorem exec_put_of_arrived (h : s.arrived n .put p k i) {t : Tile} (ht : (s.takePacket n).servePut k p (s.tile k) = some t) :
    exec (.put n) s = .next (s.served n k t) := by
  rw [exec_put, execPut]
  refine arrival_of_arrived h ?_
  show ((s.takePacket n).servePut k p (s.tile k)).map _ = _
  rw [ht]
  rfl

/-- The note of a put into the protected area (03, R125). -/
def State.putNote (s : State) (k : Nat) (p : Packet) : Report :=
  { s.tileReport k 0x0006 0x0600 clsNote (BitVec.ofNat 64 (addrOff p.operand)) 0 with
    x := BitVec.ofNat 10 p.srcX, y := BitVec.ofNat 10 p.srcY }

theorem State.servePut_local {t : Tile} (hoff : addrOff p.operand < memEnd) (hlen : p.data.length = p.tag.bytes / 8) :
    s.servePut k p t = some (s.ackPut k p (if t.protects (addrOff p.operand) (8 * (p.tag.bytes / 8)) then
        t.raise (s.putNote k p)
      else t.putWords (addrOff p.operand / 8) p.data)) := by
  unfold State.servePut State.putNote
  dsimp only
  rw [if_pos hoff, List.take_of_length_le (Nat.le_of_eq hlen), hlen]

theorem exec_get_of_arrived (h : s.arrived n .get p k i) (hoff : addrOff p.operand < memEnd) (hc : s.coalesces k p = false) :
    exec (.get n) s = .next (s.served n k
      (((s.takePacket n).touchAll k (s.tile k) (rangeFrom (addrOff p.operand / 8) (p.tag.bytes / 8))).send
        ((s.takePacket n).dataPacket k p ((s.tile k).words (addrOff p.operand / 8) (p.tag.bytes / 8))))) := by
  rw [exec_get, execGet]
  refine arrival_of_arrived h ?_
  have hc' : (s.takePacket n).coalesces k p = false := hc
  have hserve : ∀ t, (s.takePacket n).serveGet k p t
      = ((s.takePacket n).touchAll k t (rangeFrom (addrOff p.operand / 8) (p.tag.bytes / 8))).send
        ((s.takePacket n).dataPacket k p (t.words (addrOff p.operand / 8) (p.tag.bytes / 8))) := by
    intro t
    unfold State.serveGet State.serveMemory
    simp only [if_pos hoff, hc', Bool.false_eq_true, ite_false, Bool.false_and]
  show some ((s.takePacket n).setTile k ((s.takePacket n).serveGet k p (s.tile k))) = _
  rw [hserve]
  rfl

variable {o : RemoteOp} (hr : (s.tile k).remote = [o]) (href : o.ref = p.tag.ref) (hsig : o.signal = none)
include hr href hsig

/-- What the only operation outstanding becomes, on a tile that its answer has changed. -/
theorem remoteProgress_of_answer {t : Tile} (ht : t.remote = (s.tile k).remote) :
    (s.takePacket n).remoteProgress k t p.tag.ref p.tag.bytes = t.withRemote (o.after p.tag.bytes) := by
  rw [← href]
  exact State.remoteProgress_of_one (ht.trans hr) hsig

theorem exec_getData_of_arrived (h : s.arrived n .getData p k i) (hlen : p.data.length = p.tag.bytes / 8) :
    exec (.getData n) s = .next (s.served n k (((s.tile k).putWords (p.tag.loc / 8) p.data).withRemote (o.after p.tag.bytes))) := by
  rw [exec_getData, execGetData, ejected_of_arrived h, List.take_of_length_le (Nat.le_of_eq hlen), State.onTile,
    State.tile_takePacket, remoteProgress_of_answer hr href hsig (Tile.putWords_remote _ _ _)]
  rfl

omit hsig in
theorem any_isGet_find : ((s.tile k).remote.find? (fun x => x.ref == p.tag.ref)).any RemoteOp.isGet = o.isGet := by
  simp [hr, href]

/-- A NACK of a get: its words become poison. -/
theorem exec_nack_of_get (h : s.arrived n .nack p k i) (hget : o.isGet = true) : exec (.nack n) s = .next (s.served n k
    (((s.tile k).putWords (p.tag.loc / 8) (List.replicate (p.tag.bytes / 8) { poison := true })).withRemote
      (o.after p.tag.bytes))) := by
  rw [exec_nack, execNack, ejected_of_arrived h, State.onTile, State.tile_takePacket]
  dsimp only
  rw [any_isGet_find hr href, if_pos hget, remoteProgress_of_answer hr href hsig (Tile.putWords_remote _ _ _)]
  rfl

/-- A NACK of a put: the loss is recorded. -/
theorem exec_nack_of_put (h : s.arrived n .nack p k i) (hget : o.isGet = false) : exec (.nack n) s = .next (s.served n k
    (((s.tile k).raise ((s.takePacket n).tileNote k 0x060C p.operand)).withRemote (o.after p.tag.bytes))) := by
  rw [exec_nack, execNack, ejected_of_arrived h, State.onTile, State.tile_takePacket]
  dsimp only
  rw [any_isGet_find hr href, if_neg (Bool.eq_false_iff.mp hget)]
  exact congrArg (fun t => Host.Outcome.next (s.served n k t)) (remoteProgress_of_answer hr href hsig rfl)

theorem exec_putAck_of_arrived (h : s.arrived n .putAck p k i) :
    exec (.putAck n) s = .next (s.served n k ((s.tile k).withRemote (o.after p.tag.bytes))) := by
  rw [exec_putAck, execPutAck]
  refine arrival_of_arrived h ?_
  rw [State.onTile, State.tile_takePacket, remoteProgress_of_answer hr href hsig rfl]
  rfl

end

/-- Settles O34: what each arrival writes, sends and leaves outstanding. -/
theorem remoteArrival : Obligations.RemoteArrival := by
  unfold Obligations.RemoteArrival
  intro n k i p s
  dsimp only
  refine ⟨fun h hoff hlen => ⟨fun hprot => ?_, fun hprot => ?_⟩, fun h hoff hc => ?_,
    fun o hr href hsig => ⟨fun h hlen => ?_, fun h hget => ?_, fun h hget => ?_, fun h => ?_⟩⟩
  · refine ⟨_, exec_put_of_arrived h (State.servePut_local hoff hlen), ?_, ?_, ?_⟩
    · rw [if_neg (Bool.eq_false_iff.mp hprot)]
      exact Tile.wrote_congr rfl ((s.tile k).wrote_putWords _ _)
    · rw [if_neg (Bool.eq_false_iff.mp hprot)]
      exact ⟨_, congrArg (· ++ [_]) (Tile.putWords_inject _ _ _), rfl, rfl, rfl, rfl, nofun⟩
    · rw [if_neg (Bool.eq_false_iff.mp hprot)]
      exact Tile.putWords_regs _ _ _
  · refine ⟨_, (s.takePacket n).putNote k p, exec_put_of_arrived h (State.servePut_local hoff hlen), ?_⟩
    rw [if_pos hprot]
    exact ⟨rfl, ⟨_, rfl, rfl, rfl, rfl, rfl, nofun⟩, rfl, rfl, rfl, rfl⟩
  · refine ⟨_, exec_get_of_arrived h hoff hc, ?_⟩
    have hmem := State.word_touchAll (s.takePacket n) k (rangeFrom (addrOff p.operand / 8) (p.tag.bytes / 8)) (s.tile k)
    have hread := (s.takePacket n).touchAll_asRead k (rangeFrom (addrOff p.operand / 8) (p.tag.bytes / 8)) (s.tile k)
    generalize (s.takePacket n).touchAll k (s.tile k) _ = u at hmem hread ⊢
    have hinj : u.inject = (s.tile k).inject := by rw [hread]
    exact ⟨hmem, ⟨_, congrArg (· ++ [_]) hinj, rfl, rfl, rfl, rfl, fun _ => ⟨rfl, rfl⟩⟩, by rw [hread]; rfl⟩
  · exact ⟨_, exec_getData_of_arrived hr href hsig h hlen, Tile.wrote_congr rfl ((s.tile k).wrote_putWords _ _), rfl,
      Tile.putWords_regs _ _ _, Tile.putWords_inject _ _ _⟩
  · exact ⟨_, exec_nack_of_get hr href hsig h hget, Tile.wrote_congr rfl ((s.tile k).wrote_putWords _ _), rfl,
      Tile.putWords_regs _ _ _, Tile.putWords_inject _ _ _⟩
  · exact ⟨_, (s.takePacket n).tileNote k 0x060C p.operand, exec_nack_of_put hr href hsig h hget, rfl, ⟨rfl, rfl, rfl⟩, rfl, rfl⟩
  · exact ⟨_, exec_putAck_of_arrived hr href hsig h, rfl, rfl, rfl, rfl⟩

end Sys2Proof.Machine
end

section
/-! The state after reset (03, R97, R111; 10, R316; the register tables of 02, 14, 15, 16). -/

namespace Sys2Proof.Machine

theorem Tile.reset_reg (r : BitVec 5) : Tile.reset.reg r = {} := by
  unfold Tile.reg
  split
  · rfl
  · rfl

/-- Every logical unit of a tier starts on a site below or above the tier's spare (R316). -/
theorem reset_sites : (∀ n < 24, State.reset.near.sites.getD n 99 = if n < 12 then n else n + 1)
    ∧ ∀ n < 16, State.reset.far.sites.getD n 99 = if n < 8 then n else n + 1 := by
  decide

theorem reset_paceRegisters : State.reset.bar0Read 0x10000 = 8 ∧ State.reset.bar0Read 0x11050 = 0x400
    ∧ State.reset.bar0Read 0x11058 = 4 := by
  decide +kernel

theorem reset_hostRegisters : State.reset.bar0Read 0x20040 = 4 ∧ State.reset.bar0Read 0x20048 = 4
    ∧ State.reset.bar0Read 0x28000 = 0xC8 := by
  decide +kernel

theorem reset_powerAndFaultRegisters : State.reset.bar0Read 0x200010 = 0x0000320028202000
    ∧ State.reset.bar0Read 0x300000 = 0x7E00 := by
  decide +kernel

/-- Settles O59: the storages are empty, so a read of any of them gives its default; the registers are evaluated. -/
theorem resetState : Obligations.ResetState := by
  unfold Obligations.ResetState
  have hfuses : State.reset.fusesOk := by decide +kernel
  have htile : ∀ k, State.reset.tile k = Tile.reset := fun _ => rfl
  obtain ⟨hnear, hfar⟩ := reset_sites
  obtain ⟨hctrl, hmax, hmin⟩ := reset_paceRegisters
  obtain ⟨hsub, hcomp, hhi⟩ := reset_hostRegisters
  obtain ⟨hplan, hfc⟩ := reset_powerAndFaultRegisters
  refine ⟨rfl, hfuses, rfl, rfl, rfl, rfl, rfl, fun k => ?_, fun _ => ⟨rfl, rfl⟩, fun _ => ⟨rfl, rfl, rfl⟩, hnear, hfar,
    rfl, hctrl, hmax, hmin, hsub, hcomp, hhi, hplan, hfc⟩
  rw [htile]
  exact ⟨Tile.reset_reg, rfl, rfl, rfl, fun _ => rfl⟩

end Sys2Proof.Machine
end

section
/-! The matrix unit (04, R139 to R142): what the core hands over at issue. -/

namespace Sys2Proof.Machine

/-! ## The issue of a matrix instruction (04, R139, R140; 03, R99) -/

section
variable {k : TileIx} {i : Instr} {reads : List (BitVec 5)} {s : State}

theorem issue_stall {body : Tile → Issued} (h : s.atInsn k i reads) (hb : body (s.fetched k) = .stall) :
    issue k i reads s body = .next s := by
  rw [issue_atInsn h, hb]; rfl

variable {bad : Bool} {op : Tile → Option MxOp} {o : MxOp}

theorem mxIssue_enters {p : Bool} (h : s.atInsn k i reads) (hroom : (s.fetched k).mxQueued < 8) (hbad : bad = false)
    (hop : op (s.fetched k) = some o) (hp : anyPoison (reads.map (s.fetched k).reg) = p) :
    mxIssue k i reads s bad op = .next (s.retires k ((s.fetched k).enqueueMx o p)) := by
  subst hbad hp
  refine issue_retire h _ ?_
  simp only [hop, Bool.false_eq_true, ite_false, if_neg (Nat.not_le.mpr hroom)]

theorem mxIssue_waits (h : s.atInsn k i reads) (hfull : ¬(s.fetched k).mxQueued < 8) (hbad : bad = false)
    (hop : op (s.fetched k) = some o) : mxIssue k i reads s bad op = .next s := by
  subst hbad
  refine issue_stall h ?_
  simp only [hop, Bool.false_eq_true, ite_false, if_pos (Nat.not_lt.mp hfull)]

theorem mxIssue_illegal (h : s.atInsn k i reads) (hbad : bad = true) :
    mxIssue k i reads s bad op = .next (s.faults k 0 0x01 0) :=
  issue_fault h 0 0x01 0 (if_pos hbad)

end

/-! ## Fields of a matrix word (04, Table 4.4) -/

theorem b5_zero (v : BitVec 5) : b5 v 0 = decide (v.toNat % 2 = 1) := by
  simp [b5, Bool.beq_eq_decide_eq]

/-- The low bit of a field that holds 0 or 1 says whether it holds 1. -/
theorem lowBit_of_lt_two {n : Nat} {v : BitVec (n + 1)} (h : v.toNat < 2) : (v.toNat % 2 == 1) = (v == 1) := by
  have hone : (1 : BitVec (n + 1)).toNat = 1 := by simp
  rw [Bool.eq_iff_iff, beq_iff_eq, beq_iff_eq, ← BitVec.toNat_inj, hone, Nat.mod_eq_of_lt h]

theorem b5_zero_of_lt_two {v : BitVec 5} (h : v.toNat < 2) : b5 v 0 = (v == 1) := by
  rw [← lowBit_of_lt_two h, b5, Nat.pow_zero, Nat.div_one]

/-- The high bit of a field below 4 (the sparse forms of mx.ldat). -/
theorem highBit_of_lt_four {n : Nat} (h : n < 4) : (n / 2 % 2 == 1) = decide (2 ≤ n) := by
  rw [Bool.beq_eq_decide_eq, decide_eq_decide]
  omega

/-- The fields of mx.mma and mx.mmv that Table 4.4 admits. -/
theorem badCompute_eq_false_iff (f : VFields) : badCompute f = false ↔
    f.vd.toNat < 4 ∧ f.vs1.toNat < 2 ∧ f.vs2.toNat < 2 ∧ f.fmt = 0 ∧ f.mask = 0 := by
  simp [badCompute, Nat.div_eq_zero_iff, and_assoc]

/-- mx.mma and mx.mmv are one instruction with two shapes (R130). -/
theorem exec_compute (mv : Bool) (k : TileIx) (f : VFields) (s : State) :
    exec (if mv then .mxMmv k f else .mxMma k f) s = mxIssue k (if mv then .mxMmv k f else .mxMma k f) [] s (badCompute f)
      (fun _ => some (.mma mv (f.vd.toNat % 4) (b5 f.vs1 0) (b5 f.vs2 0))) := by
  cases mv <;> rfl

/-- Settles O15: each instruction's fields pass its check and name its operation, so the rule of the shared issue applies. -/
theorem matrixIssue : Obligations.MatrixIssue := by
  unfold Obligations.MatrixIssue
  intro k f s
  dsimp only
  refine ⟨?lda, ?ldaWide, ?ldb, ?ldat, ?sta, fun mv h => ⟨?enters, ?waits, ?illegal⟩, ?zero, ?wait⟩
  case lda =>
    intro fmt ⟨h, hroom⟩ hfmt hmask hvd hvs2
    have hq : f.vd.toNat / 2 % 4 = f.vd.toNat / 2 := Nat.mod_eq_of_lt (by omega)
    have ha1 : ((s.tile k).reg f.vs2).val = 0 := by rw [hvs2, Tile.reg_zero]
    rw [exec_mxLda, execMxLda]
    simp only [hmask]
    exact mxIssue_enters h hroom (by simp [Nat.div_eq_of_lt hvd, hvs2]) (by simp [hfmt, b5_zero, hq, ha1])
      (by simp [anyPoison])
  case ldaWide =>
    intro fmt h hroom hfmt hmask hvd
    rw [exec_mxLda, execMxLda]
    simp only [hmask]
    exact mxIssue_enters h hroom (by simp [Nat.div_eq_of_lt hvd, Nat.div_eq_of_lt (show f.vd.toNat < 8 by omega)])
      (by simp [hfmt, b5_zero, Nat.div_eq_of_lt hvd]) (by simp [anyPoison])
  case ldb =>
    intro fmt ⟨h, hroom⟩ hfmt hmask hvd hvs2
    rw [exec_mxLdb, execMxLdb]
    exact mxIssue_enters h hroom (by simp [Nat.div_eq_of_lt hvd, Nat.div_eq_of_lt hmask, hvs2])
      (by simp [hfmt, b5_zero, lowBit_of_lt_two hmask]) (by simp [anyPoison])
  case ldat =>
    intro fmt ⟨h, hroom⟩ hfmt hmask hvd hvs2
    rw [exec_mxLdat, execMxLdat]
    exact mxIssue_enters h hroom (by simp [Nat.div_eq_of_lt hvd, Nat.div_eq_of_lt hmask, hvs2])
      (by simp [hfmt, b5_zero, highBit_of_lt_four hmask, Bool.beq_eq_decide_eq]) (by simp [anyPoison])
  case sta =>
    intro fmt ⟨h, hroom⟩ hfmt hvd hvs2 hmask
    rw [exec_mxSta, execMxSta]
    exact mxIssue_enters h hroom (by simp [Nat.div_eq_of_lt hvd, hvs2, hmask]) (by simp [hfmt, Nat.mod_eq_of_lt hvd])
      (by simp [anyPoison])
  case enters =>
    intro hsmall hroom
    have hbad := (badCompute_eq_false_iff f).mpr hsmall
    obtain ⟨hvd, hvs1, hvs2, _⟩ := hsmall
    rw [exec_compute]
    exact mxIssue_enters h hroom hbad
      (by rw [Nat.mod_eq_of_lt hvd, b5_zero_of_lt_two hvs1, b5_zero_of_lt_two hvs2]) rfl
  case waits =>
    intro hsmall hfull
    rw [exec_compute]
    exact mxIssue_waits h hfull ((badCompute_eq_false_iff f).mpr hsmall) rfl
  case illegal =>
    intro hnot
    rw [exec_compute]
    exact mxIssue_illegal h (Bool.not_eq_false _ ▸ mt (badCompute_eq_false_iff f).mp hnot)
  case zero =>
    intro h hf hvd hroom
    obtain ⟨-, hvs1, hvs2, hfmt, hmask⟩ := VFields.mk.inj hf
    rw [exec_mxZero, execMxZero]
    exact mxIssue_enters h hroom (by simp [Nat.div_eq_of_lt hvd, hvs1, hvs2, hfmt, hmask]) (by rw [Nat.mod_eq_of_lt hvd]) rfl
  case wait =>
    rintro h rfl
    rw [exec_mxWait, execMxWait]
    exact ⟨fun hempty => issue_retire h _ (by simp [hempty]), fun hwork => issue_stall h (by simp [hwork])⟩

end Sys2Proof.Machine
end

section
/-! The matrix unit (04, R134, R140, R143 to R145, R161): what its loader and its array do with the entry at their head. -/

namespace Sys2Proof.Machine

/-! ## The head of a queue of one entry (04, R140) -/

theorem splitQueue_one {p : MxEntry → Bool} {e : MxEntry} (h : p e = true) : splitQueue p [e] = ([], [e]) := by
  simp [splitQueue, h]

/-- A load is not held up by earlier entries or vector instructions where there are none (R94, R140). -/
theorem Tile.loadReady_alone {t : Tile} {e : MxEntry} (hload : e.op.isLoad = true) (hvx : t.vxQueue = []) :
    t.loadReady [] e = true := by
  unfold Tile.loadReady
  cases hop : e.op <;> simp_all [MxOp.isLoad]

/-! ## The loader (04, R133, R134, R161) -/

theorem baseCause_of_good {a : BitVec 64} {n align : Nat} (hal : a.toNat % align = 0) (hend : a.toNat + n ≤ memEnd) :
    baseCause a n align = none := by
  simp [baseCause, lowestCause, hal, Nat.not_lt.mpr hend]

/-- What a load's run makes of its tile where no other entry is in the queue: a fault (R161), or the tile loaded. -/
def MxRun.leaves (s : State) (k : Nat) (t : Tile) (e : MxEntry) : MxRun → Tile
  | .fault c a => s.tileFault k { t with mxQueue := [] } 4 c e.pc a
  | .done t' => { t' with mxQueue := [] }

section
variable {k : TileIx} {s : State} {e : MxEntry} {buf : Bool} {q : Nat} {fmt : Format} {a0 a1 : BitVec 64}

theorem exec_mxLoadRun_lda (h : s.runs k) (hq : (s.tile k).mxQueue = [e]) (hvx : (s.tile k).vxQueue = []) {mv : Bool}
    (hop : e.op = .lda buf q mv fmt a0 a1) :
    exec (.mxLoadRun k) s = .next (s.engineStep k
      ((if e.bad then (MxOp.lda buf q mv fmt a0 a1).poisonFault else runLda s k (s.tile k) buf q mv fmt a0 a1).leaves s k
        (s.tile k) e)) := by
  have hload : e.op.isLoad = true := by rw [hop]; rfl
  rw [exec_mxLoadRun, execMxLoadRun]
  refine engine_some h _ ?_
  simp only [hq, splitQueue_one (p := fun e => e.op.isLoad) hload, Tile.loadReady_alone hload hvx, hop, Bool.not_true,
    Bool.false_eq_true, ite_false]
  cases (if e.bad then (MxOp.lda buf q mv fmt a0 a1).poisonFault else runLda s k (s.tile k) buf q mv fmt a0 a1) <;> rfl

/-- The rows of a quarter of a block, each with whether a scale or metadata word read for it is poisoned (R133, R139). -/
def Tile.quarterRows (t : Tile) (base : Nat) (h : BlockHead) (fmt : Format) (q : Nat) : List (ARow × Bool) :=
  (List.range 8).map (fun i => t.blockRow base h fmt (8 * q + i))

/-- The A buffer that a quarter of a block fills (R133, R134, R137). -/
def Tile.quarterBuf (t : Tile) (base : Nat) (h : BlockHead) (fmt : Format) (q : Nat) : ABuf :=
  { mv := false, fmt := fmt, s := h.s, group := h.group, rows := (t.quarterRows base h fmt q).map Prod.fst
    poison := (t.quarterRows base h fmt q).any Prod.snd }

theorem Tile.length_quarterBuf (t : Tile) (base : Nat) (h : BlockHead) (fmt : Format) (q : Nat) :
    (t.quarterBuf base h fmt q).rows.length = 8 := by
  simp [Tile.quarterBuf, Tile.quarterRows]

/-- A row of the quarter contributes where the block has so many valid rows (R136). -/
theorem Tile.valid_quarterBuf (t : Tile) (base : Nat) (h : BlockHead) (fmt : Format) (q : Nat) {i : Nat} (hi : i < 8) :
    ((t.quarterBuf base h fmt q).rows[i]?).map (·.valid) = some (decide (8 * q + i < h.rowsValid)) := by
  simp [Tile.quarterBuf, Tile.quarterRows, hi, Tile.blockRow]

@[simp] theorem State.touchAll_aBufs (s : State) (k : Nat) (t : Tile) (is : List Nat) :
    (s.touchAll k t is).aBufs = t.aBufs := by
  rw [s.touchAll_asRead k]

/-- A tile whose loader has read a quarter of a block into an A buffer, with no entry left behind it. -/
def State.loadQuarter (s : State) (k : Nat) (t : Tile) (buf : Bool) (base : Nat) (h : BlockHead) (fmt : Format) (q : Nat) :
    Tile :=
  { s.touchAll k t (blockWords base h fmt (8 * q) 8) with
    aBufs := putD none t.aBufs (if buf then 1 else 0) (some (t.quarterBuf base h fmt q))
    mxQueue := [] }

section
variable (s : State) (k : Nat) (t : Tile) (buf : Bool) (base : Nat) (h : BlockHead) (fmt : Format) (q : Nat)

theorem State.aBuf_loadQuarter : getD none (s.loadQuarter k t buf base h fmt q).aBufs (if buf then 1 else 0)
    = some (t.quarterBuf base h fmt q) := by
  simp [State.loadQuarter]

theorem State.loadQuarter_bBufs : (s.loadQuarter k t buf base h fmt q).bBufs = t.bBufs := by
  rw [State.loadQuarter, s.touchAll_asRead]

theorem State.loadQuarter_banks : (s.loadQuarter k t buf base h fmt q).banks = t.banks := by
  rw [State.loadQuarter, s.touchAll_asRead]

theorem State.sameMem_loadQuarter : t.sameMem (s.loadQuarter k t buf base h fmt q) := s.word_touchAll k _ t

theorem State.reg_loadQuarter (r : BitVec 5) : (s.loadQuarter k t buf base h fmt q).reg r = t.reg r := by
  rw [State.loadQuarter, s.touchAll_asRead]
  rfl

end

variable {t : Tile}

theorem runLda_of_head {h : BlockHead} (hal : a0.toNat % 8 = 0) (hclean : (t.word (a0.toNat / 8)).poison = false)
    (hhead : parseHead (t.word (a0.toNat / 8)).val fmt = some h) (hend : a0.toNat + h.size fmt ≤ memEnd) :
    (runLda s k t buf q false fmt a0 a1).leaves s k t e = s.loadQuarter k t buf a0.toNat h fmt q := by
  have hfirst : baseCause a0 8 8 = none := by
    refine baseCause_of_good hal ?_
    simp only [BlockHead.size] at hend
    omega
  simp [runLda, hfirst, baseCause_of_good hal hend, hclean, hhead, MxRun.leaves, State.loadQuarter, Tile.quarterBuf,
    Tile.quarterRows]

theorem runLda_of_no_head (hal : a0.toNat % 8 = 0) (hend : a0.toNat + 8 ≤ memEnd)
    (hclean : (t.word (a0.toNat / 8)).poison = false) (hhead : parseHead (t.word (a0.toNat / 8)).val fmt = none) :
    runLda s k t buf q false fmt a0 a1 = .fault 0x20 a0 := by
  simp [runLda, baseCause_of_good hal hend, hclean, hhead]

theorem poisonFault_lda (hal : a0.toNat % 8 = 0) (hend : a0.toNat + 8 ≤ memEnd) :
    (MxOp.lda buf q false fmt a0 a1).poisonFault = .fault 0x0C a0 := by
  simp [MxOp.poisonFault, MxOp.addresses, baseCause_of_good hal hend]

end

/-! ## The array starts an operation (04, R132, R142, R143) -/

section
variable {k : TileIx} {s : State} {e : MxEntry} {mv x y : Bool} {bank : Nat} {t : Tile} {a : ABuf} {b : BBuf}

theorem computeCause_of_match (ha : getD none t.aBufs (if x then 1 else 0) = some a)
    (hb : getD none t.bBufs (if y then 1 else 0) = some b) (hma : a.mv = mv) (hmb : b.mv = mv) (hspan : b.span = 32 * a.s)
    (hpair : formatsPair a.fmt b.fmt = true) : t.computeCause mv x y = none := by
  simp [Tile.computeCause, ha, hb, hma, hmb, hspan, hpair, lowestCause]

theorem computeCause_of_empty (h : getD none t.aBufs (if x then 1 else 0) = none ∨
    getD none t.bBufs (if y then 1 else 0) = none) : t.computeCause mv x y = some 0x21 := by
  unfold Tile.computeCause
  obtain h | h := h
  · rw [h]
  · rw [h]
    cases getD none t.aBufs (if x then 1 else 0) <;> rfl

theorem exec_mxComputeStart_starts (h : s.runs k) (hq : (s.tile k).mxQueue = [e]) (hop : e.op = .mma mv bank x y)
    (hrun : e.running = false) (hc : (s.tile k).computeCause mv x y = none) :
    exec (.mxComputeStart k) s = .next (s.engineStep k
      { s.tile k with mxQueue := [{ e with running := true, index := (s.tile k).opIndex.toNat }]
                      opIndex := (s.tile k).opIndex + 1 }) := by
  have harray : (!e.op.isLoad) = true := by rw [hop]; rfl
  rw [exec_mxComputeStart, execMxComputeStart]
  refine engine_some h _ ?_
  simp [hq, splitQueue_one (p := fun e => !e.op.isLoad) harray, hop, hrun, hc]

theorem exec_mxComputeStart_faults {c : Nat} (h : s.runs k) (hq : (s.tile k).mxQueue = [e]) (hop : e.op = .mma mv bank x y)
    (hrun : e.running = false) (hc : (s.tile k).computeCause mv x y = some c) :
    exec (.mxComputeStart k) s = .next (s.engineStep k
      (s.tileFault k { s.tile k with mxQueue := [] } 4 c e.pc 0)) := by
  have harray : (!e.op.isLoad) = true := by rw [hop]; rfl
  rw [exec_mxComputeStart, execMxComputeStart]
  refine engine_some h _ ?_
  simp [hq, splitQueue_one (p := fun e => !e.op.isLoad) harray, hop, hrun, hc, State.mxFault]

end

/-! ## The entries of a bank (04, R137, R143) -/

theorem look_clearRange {α : Type} (m : Map α) (lo hi j : Nat) :
    look (clearRange m lo hi) j = if lo ≤ j ∧ j < hi then none else look m j := by
  induction m with
  | nil => simp [clearRange, look]
  | cons x m ih =>
    obtain ⟨j', v⟩ := x
    unfold clearRange at ih ⊢
    by_cases hx : lo ≤ j' ∧ j' < hi
    · rw [List.filter_cons_of_neg (by simpa using hx), ih]
      by_cases hj : j' = j
      · subst hj; rw [if_pos hx, if_pos hx]
      · simp [look, hj]
    · rw [List.filter_cons_of_pos (by rw [Bool.or_eq_true, decide_eq_true_eq, decide_eq_true_eq]; omega)]
      by_cases hj : j' = j
      · subst hj; simp [look, hx]
      · simp [look, hj, ih]

theorem getD_clearRange_inside {α : Type} (d : α) (m : Map α) {lo hi j : Nat} (h : lo ≤ j ∧ j < hi) :
    getD d (clearRange m lo hi) j = d := by
  rw [getD, look_clearRange, if_pos h]; rfl

theorem getD_clearRange_outside {α : Type} (d : α) (m : Map α) {lo hi j : Nat} (h : ¬(lo ≤ j ∧ j < hi)) :
    getD d (clearRange m lo hi) j = getD d m j := by
  rw [getD, look_clearRange, if_neg h]; rfl

/-- The 64 numbers of a bank are its entries'. -/
theorem bankKey_in_bank_iff {c bank i : Nat} (hi : i < 64) :
    64 * bank ≤ bankKey c i ∧ bankKey c i < 64 * bank + 64 ↔ c = bank := by
  unfold bankKey
  omega

/-- Entries of different banks have different numbers. -/
theorem bankKey_ne {c bank i j : Nat} (h : c ≠ bank) (hi : i < 64) (hj : j < 64) : bankKey c i ≠ bankKey bank j := by
  unfold bankKey
  omega

/-! ## What an operation writes (04, R136, R137, R145) -/

section
variable {k : TileIx} {s : State} {e : MxEntry} {mv x y : Bool} {bank : Nat} {a : ABuf} {b : BBuf}

/-- An operation writes entries of its bank only: 8 x 8 of them, or one for each of 64 rows. -/
theorem outPlaces_lt (hrows : a.rows.length ≤ if a.mv then 64 else 8) (hcols : b.cols.length ≤ 8) :
    ∀ p ∈ outPlaces a b, p.1 < 64 := by
  intro p hp
  simp only [outPlaces, List.mem_flatten, List.mem_map, List.mem_range] at hp
  obtain ⟨l, ⟨i, hi, rfl⟩, hp⟩ := hp
  split at hp
  · cases hp
  · split at hp
    · cases hp
    · simp only [List.mem_filterMap, List.mem_range, Option.map_eq_some_iff] at hp
      obtain ⟨j, hj, c, -, rfl⟩ := hp
      dsimp only
      split_ifs at hrows ⊢ <;> omega

/-- An operation changes its tile's accumulators and the matrix flags. -/
theorem Tile.applyOp_keeps (t : Tile) (bank : Nat) (a : ABuf) (b : BBuf) :
    t.applyOp bank a b = { t with banks := (t.applyOp bank a b).banks, mxFlags := (t.applyOp bank a b).mxFlags } := by
  unfold Tile.applyOp
  exact List.foldlRecOn (motive := fun u : Tile => u = { t with banks := u.banks, mxFlags := u.mxFlags }) _ _ rfl
    (fun u hu p _ => by rw [hu]; rfl)

theorem Tile.acc_applyOp_other (t : Tile) {c i : Nat} (hplaces : ∀ p ∈ outPlaces a b, p.1 < 64) (hc : c ≠ bank)
    (hi : i < 64) : (t.applyOp bank a b).acc c i = t.acc c i := by
  unfold Tile.applyOp
  refine List.foldlRecOn (motive := fun u : Tile => u.acc c i = t.acc c i) _ _ rfl (fun u hu p hp => ?_)
  rw [← hu]
  exact getD_putD_other _ _ _ _ _ (bankKey_ne hc hi (hplaces p hp))

/-! ## The array completes an operation (04, R143, R145, R155 to R159) -/

/-- Two tiles that differ only in counters, reports and the record of a plumb mismatch. -/
abbrev Tile.accounted (a b : Tile) : Prop :=
  b = { a with counters := b.counters, raised := b.raised, plumbLast := b.plumbLast, plumbCount := b.plumbCount }

theorem Tile.accounted.trans {a b c : Tile} (h : a.accounted b) (h' : b.accounted c) : a.accounted c := by
  unfold Tile.accounted at *
  rw [h', h]

theorem Tile.accounted.count {a b : Tile} (h : a.accounted b) {i n : Nat} : a.accounted (b.count i n) := by
  refine h.trans ?_
  unfold Tile.accounted Tile.count
  split <;> rfl

theorem Tile.accounted.mismatch {a b : Tile} (h : a.accounted b) {w : BitVec 44} {r : Report} :
    a.accounted ((b.recordPlumb w).raise r) :=
  h.trans rfl

/-- A tile whose array has completed mx.zero with no entry left behind it. -/
def Tile.zeroBank (t : Tile) (bank : Nat) : Tile :=
  { t.count 1 1 with mxQueue := [], banks := clearRange t.banks (64 * bank) (64 * bank + 64) }

theorem Tile.acc_zeroBank_same (t : Tile) (bank : Nat) {i : Nat} (hi : i < 64) : (t.zeroBank bank).acc bank i = {} :=
  getD_clearRange_inside _ _ ((bankKey_in_bank_iff hi).mpr rfl)

theorem Tile.acc_zeroBank_other (t : Tile) {c bank i : Nat} (hc : c ≠ bank) (hi : i < 64) :
    (t.zeroBank bank).acc c i = t.acc c i :=
  getD_clearRange_outside _ _ (mt (bankKey_in_bank_iff hi).mp hc)

theorem exec_mxComputeDone_zero (h : s.runs k) (hq : (s.tile k).mxQueue = [e]) (hvx : (s.tile k).vxQueue = [])
    (hop : e.op = .zero bank) (hrun : e.running = true) (miss : Option PlumbMiss) :
    exec (.mxComputeDone k miss) s = .next (s.engineStep k ((s.tile k).zeroBank bank)) := by
  rw [exec_mxComputeDone, execMxComputeDone]
  refine engine_some h _ ?_
  simp [hq, hvx, splitQueue_one (p := (·.running)) hrun, hop, Tile.zeroBank]

theorem exec_mxComputeDone_mma (h : s.runs k) (hq : (s.tile k).mxQueue = [e]) (hvx : (s.tile k).vxQueue = [])
    (hop : e.op = .mma mv bank x y) (hrun : e.running = true) (ha : getD none (s.tile k).aBufs (if x then 1 else 0) = some a)
    (hb : getD none (s.tile k).bBufs (if y then 1 else 0) = some b) (miss : Option PlumbMiss) :
    ∃ t', ((s.tile k).applyOp bank a b).accounted t'
      ∧ exec (.mxComputeDone k miss) s = .next (s.engineStep k { t' with mxQueue := [] }) := by
  refine ⟨?t, ?acc, ?run⟩
  case run =>
    rw [exec_mxComputeDone, execMxComputeDone]
    refine engine_some h _ ?_
    simp only [hq, hvx, splitQueue_one (p := (·.running)) hrun, hop, List.any_nil, Bool.or_false, Bool.false_eq_true,
      ite_false, ha, hb, List.append_nil]
    rfl
  case acc =>
    have hdone : ((s.tile k).applyOp bank a b).accounted ((s.tile k).applyOp bank a b) := rfl
    split
    · exact hdone.count.count.count.count.mismatch
    · exact hdone.count.count.count.count

end

/-- Settles O16: a queue of one entry has that entry at the head of the loader and of the array. -/
theorem matrixUnitSteps : Obligations.MatrixUnitSteps := by
  unfold Obligations.MatrixUnitSteps
  intro k s e hruns hq hvx
  dsimp only
  refine ⟨?loads, ?poisoned, ?headless, ?starts, ?empty, ?zeroed, ?computed⟩
  case loads =>
    intro buf q fmt a0 a1 h hop hbad hal hclean hhead hend
    refine ⟨s.loadQuarter k (s.tile k) buf a0.toNat h fmt q, (s.tile k).quarterBuf a0.toNat h fmt q, ?_, rfl,
      s.aBuf_loadQuarter _ _ _ _ _ _ _, rfl, rfl, rfl, rfl, Tile.length_quarterBuf _ _ _ _ _,
      fun i hi => Tile.valid_quarterBuf _ _ _ _ _ hi, s.loadQuarter_bBufs _ _ _ _ _ _ _,
      s.loadQuarter_banks _ _ _ _ _ _ _, s.sameMem_loadQuarter _ _ _ _ _ _ _, s.reg_loadQuarter _ _ _ _ _ _ _⟩
    rw [exec_mxLoadRun_lda hruns hq hvx hop, hbad, if_neg Bool.false_ne_true, runLda_of_head hal hclean hhead hend]
  case poisoned =>
    intro buf q fmt a0 a1 hop hbad hal hend
    rw [exec_mxLoadRun_lda hruns hq hvx hop, hbad, if_pos rfl, poisonFault_lda hal hend]
    rfl
  case headless =>
    intro buf q fmt a0 a1 hop hbad hal hend hclean hhead
    rw [exec_mxLoadRun_lda hruns hq hvx hop, hbad, if_neg Bool.false_ne_true, runLda_of_no_head hal hend hclean hhead]
    rfl
  case starts =>
    intro mv bank x y a b hop hrun ha hb hma hmb hspan hpair
    exact exec_mxComputeStart_starts hruns hq hop hrun (computeCause_of_match ha hb hma hmb hspan hpair)
  case empty =>
    intro mv bank x y hop hrun hnone
    exact exec_mxComputeStart_faults hruns hq hop hrun (computeCause_of_empty hnone)
  case zeroed =>
    intro bank miss hop hrun
    exact ⟨_, exec_mxComputeDone_zero hruns hq hvx hop hrun miss, rfl, fun i hi => Tile.acc_zeroBank_same _ _ hi,
      fun c i hc hi => Tile.acc_zeroBank_other _ hc hi, (s.tile k).count_mem 1 1, (s.tile k).count_regs 1 1,
      (s.tile k).count_opIndex 1 1⟩
  case computed =>
    intro mv bank x y a b miss hop hrun ha hb _ hrows hcols _
    obtain ⟨t', hacc, hexec⟩ := exec_mxComputeDone_mma hruns hq hvx hop hrun ha hb miss
    have hkeeps := (s.tile k).applyOp_keeps bank a b
    have hbanks : t'.banks = ((s.tile k).applyOp bank a b).banks := by rw [hacc]
    refine ⟨_, hexec, rfl, hbanks, fun c i hc _ hi => ?_, ?_, ?_, ?_, ?_⟩
    · rw [← (s.tile k).acc_applyOp_other (outPlaces_lt hrows hcols) hc hi]
      exact congrArg (fun m => getD {} m (bankKey c i)) hbanks
    all_goals rw [hacc, hkeeps]

end Sys2Proof.Machine
end

section
/-! Integer lanes (05, R170; 06, Table 6.4): the lane functions of INT8, INT32 and INT64 are operations of words of the lane's
width. -/

namespace Sys2Proof.Machine

/-! ## Wrapping and the integer formats -/

theorem wrapTo_eq_ofInt (w : Nat) (v : Int) : wrapTo w v = (BitVec.ofInt w v).toNat :=
  (BitVec.toNat_ofInt v).symm

theorem intResult_bits (fmt : Format) (v : Int) : (intResult fmt v).1 = (BitVec.ofInt fmt.width v).toNat :=
  wrapTo_eq_ofInt fmt.width v

theorem isInt_of_laneInt {fmt : Format} (h : laneInt fmt = true) : fmt.isInt = true := by
  simp only [laneInt, Bool.or_eq_true, beq_iff_eq] at h
  obtain (rfl | rfl) | rfl := h <;> rfl

theorem Format.width_ne_zero (fmt : Format) : fmt.width ≠ 0 := by
  cases fmt <;> decide

/-! ## The lane functions on words -/

section
variable {fmt : Format} (h : laneInt fmt = true) (a b c : BitVec fmt.width)

/-- The operations of R180 on words. -/
def wordArith {w : Nat} (op : ArithOp) (a b c : BitVec w) : BitVec w :=
  match op with
  | .add => a + b
  | .sub => a - b
  | .mul => a * b
  | .fma => a * b + c

theorem signedOf_lane : signedOf fmt.width a.toNat = a.toInt := signedOf_toNat fmt.width_ne_zero a

include h

theorem arithLane_int (op : ArithOp) : (arithLane op fmt a.toNat b.toNat c.toNat).1 = (wordArith op a b c).toNat := by
  rw [arithLane, if_pos (isInt_of_laneInt h), intResult_bits, signedOf_lane, signedOf_lane, signedOf_lane]
  cases op with
  | add => rw [wordArith, BitVec.ofInt_add, BitVec.ofInt_toInt, BitVec.ofInt_toInt]
  | sub =>
    rw [wordArith, Int.sub_eq_add_neg, BitVec.ofInt_add, BitVec.ofInt_neg, BitVec.ofInt_toInt, BitVec.ofInt_toInt,
      BitVec.sub_eq_add_neg]
  | mul => rw [wordArith, BitVec.ofInt_mul, BitVec.ofInt_toInt, BitVec.ofInt_toInt]
  | fma => rw [wordArith, BitVec.ofInt_add, BitVec.ofInt_mul, BitVec.ofInt_toInt, BitVec.ofInt_toInt, BitVec.ofInt_toInt]

/-- An operation that does not read its third operand, which the model gives as 0. -/
theorem arithLane_int_zero (op : ArithOp) : (arithLane op fmt a.toNat b.toNat 0).1 = (wordArith op a b 0).toNat := by
  rw [← arithLane_int h, BitVec.ofNat_eq_ofNat, BitVec.toNat_zero]

theorem minmaxLane_int (isMax : Bool) :
    (minmaxLane isMax fmt a.toNat b.toNat).1 = (if a.toInt < b.toInt then cond isMax b a else cond isMax a b).toNat := by
  rw [minmaxLane, if_pos (isInt_of_laneInt h), signedOf_lane, signedOf_lane]
  by_cases hlt : a.toInt < b.toInt <;> cases isMax <;> simp [hlt]

theorem signLane_neg_int (n : Nat) : (signLane .neg fmt a.toNat n).1 = (-a).toNat := by
  rw [signLane, if_pos (isInt_of_laneInt h), intResult_bits, signedOf_lane, BitVec.ofInt_neg, BitVec.ofInt_toInt]

theorem signLane_abs_int (n : Nat) : (signLane .abs fmt a.toNat n).1 = (if a.toInt < 0 then -a else a).toNat := by
  rw [signLane, if_pos (isInt_of_laneInt h), intResult_bits, signedOf_lane, apply_ite (BitVec.ofInt fmt.width),
    BitVec.ofInt_neg, BitVec.ofInt_toInt]

end

/-- A shift of words of any width by an amount modulo the width. -/
theorem shiftLane_word {w : Nat} (hw : w ≠ 0) (a : BitVec w) (n : Nat) :
    shiftLane .shl w a.toNat n = (a <<< (n % w)).toNat ∧ shiftLane .shr w a.toNat n = (a >>> (n % w)).toNat
      ∧ shiftLane .sra w a.toNat n = (a.sshiftRight (n % w)).toNat := by
  refine ⟨?_, ?_, ?_⟩
  · rw [shiftLane, BitVec.toNat_shiftLeft, Nat.shiftLeft_eq]
  · rw [shiftLane, BitVec.toNat_ushiftRight, Nat.shiftRight_eq_div_pow]
  · rw [shiftLane, wrapTo_eq_ofInt, signedOf_toNat hw, BitVec.sshiftRight, Int.shiftRight_eq_div_pow]

/-- Settles O20: integers wrap as words do, and the two orders of a pair are the two answers of one comparison. -/
theorem integerLanesWrap : Obligations.IntegerLanesWrap := by
  unfold Obligations.IntegerLanesWrap
  intro fmt h a b c
  obtain ⟨hshl, hshr, hsra⟩ := shiftLane_word fmt.width_ne_zero a b.toNat
  exact ⟨arithLane_int_zero h a b .add, arithLane_int_zero h a b .sub, arithLane_int_zero h a b .mul,
    arithLane_int h a b c .fma, minmaxLane_int h a b false, minmaxLane_int h a b true, signLane_neg_int h a 0,
    signLane_abs_int h a 0, hshl, hshr, hsra⟩

end Sys2Proof.Machine
end

section
/-! The ARITH group of the vector engine (06, R192 to R194, R206, R213; Table 6.4): an instruction whose engine is free writes the
active lanes of its destination with a function of its source lanes. -/

namespace Sys2Proof.Machine

/-! ## A tile whose vector instruction has written its lanes -/

/-- A tile after the only instruction of the vector queue has completed (R196). -/
def Tile.vxCompleted (t : Tile) : Tile := ({ t with vxQueue := [] } : Tile).count 5 1

@[simp] theorem Tile.vreg_vxCompleted (t : Tile) (i : Nat) : t.vxCompleted.vreg i = t.vreg i := by
  rw [Tile.vreg, Tile.vxCompleted, Tile.count_vregs, Tile.vreg]

section
variable (t : Tile) (kind : VxKind) (f : VFields) (fmt : Format) (out : Nat → LaneOut)

theorem Tile.lanesBecome_writeActive (hl : fmt.hasLanes = true) :
    t.lanesBecome ((t.enqueueVx kind f).writeActive f fmt out).vxCompleted f fmt (fun j => ((out j).bits, (out j).bad)) := by
  intro j hj
  rw [Tile.vreg_vxCompleted]
  exact (t.enqueueVx kind f).lane_writeLanes f.vd.toNat fmt _ _ hl j hj

theorem Tile.vectorOnly_writeActive :
    t.vectorOnly ((t.enqueueVx kind f).writeActive f fmt out).vxCompleted f.vd := by
  have hvd : f.vd.toNat < 32 := f.vd.isLt
  refine ⟨fun i hi hne => ?_, Tile.count_mregs _ 5 1, Tile.count_vl _ 5 1, fun i => Tile.word_congr (Tile.count_mem _ 5 1) i,
    fun r => ?_, Tile.count_banks _ 5 1, Tile.count_vxQueue _ 5 1, Tile.count_parked _ 5 1, Tile.count_outbound _ 5 1⟩
  · rw [Tile.vreg_vxCompleted]
    exact (t.enqueueVx kind f).vreg_writeLanes_other f.vd.toNat i fmt _ _ (by omega)
  · simp only [Tile.reg, Tile.vxCompleted, Tile.count_regs]
    rfl

end

/-! ## The issue of an instruction that its engine starts at once (R194, R196) -/

theorem vxIssueCause_of_legal {kind : VxKind} {f : VFields} {t : Tile} (hset : kind ≠ .setvl)
    (hlegal : vxIllegal kind f = false) : vxIssueCause kind f t = none := by
  have hk : (kind == VxKind.setvl) = false := by simpa using hset
  simp [vxIssueCause, hlegal, hk]

theorem checkedVx_of_admitted {s : State} {k : Nat} {t : Tile} {e : VxEntry} {fmt : Format}
    (hsum : vxSummary e.kind = false) (hfmt : Format.ofCode e.f.fmt = some fmt) (hadm : vxAdmitted t.shape e.kind = true) :
    checkedVx s k t e = runVx s k t e fmt := by
  simp only [checkedVx, hsum, hfmt, hadm, Bool.false_and, Bool.false_eq_true, ite_false, ite_true]

/-- The instructions that write active lanes with a function of the source lanes in the same places (Table 6.4). -/
def VxKind.lanewise : VxKind → Bool
  | .arith _ | .minmax _ | .sign _ | .logic _ | .shift _ | .function _ | .popcnt => true
  | _ => false

/-- A lanewise instruction has no check at issue but its format, and the ARITH personality admits it (R194, R198). -/
theorem VxKind.lanewise_checks {kind : VxKind} (h : kind.lanewise = true) :
    kind ≠ .setvl ∧ kind ≠ .tally ∧ vxSummary kind = false ∧ vxAdmitted false kind = true
      ∧ ∀ f, vxReads kind f = [] ∧ vxIllegal kind f = (Format.ofCode f.fmt).isNone := by
  unfold VxKind.lanewise at h
  split at h
  case h_8 => cases h
  all_goals exact ⟨by simp, by simp, rfl, rfl, fun _ => ⟨rfl, rfl⟩⟩

section
variable {k : TileIx} {i : Instr} (kind : VxKind) {f : VFields} {fmt : Format} {s : State}

/-- A lanewise instruction that its engine starts at once, by the lanes that it writes where it runs. -/
theorem vxIssue_lanewise (hk : kind.lanewise = true) (h : s.atVector k i []) (hfmt : Format.ofCode f.fmt = some fmt)
    (hshape : (s.fetched k).shape = false) (hl : fmt.hasLanes = true) (out : Nat → LaneOut)
    (hrun : runVx s k ((s.fetched k).enqueueVx kind f) (vxEntry kind f (s.fetched k)) fmt
      = .done (((s.fetched k).enqueueVx kind f).writeActive f fmt out)) :
    ∃ t', vxIssue k i true kind f s = .next (s.retires k t')
      ∧ (s.fetched k).lanesBecome t' f fmt (fun j => ((out j).bits, (out j).bad)) ∧ (s.fetched k).vectorOnly t' f.vd := by
  obtain ⟨hset, htally, hsum, hadm, hfields⟩ := VxKind.lanewise_checks hk
  obtain ⟨hreads, hlegal⟩ := hfields f
  refine ⟨_, vxIssue_now (hreads ▸ h) htally (vxIssueCause_of_legal hset ?_) _
    ((checkedVx_of_admitted hsum hfmt ?_).trans hrun), Tile.lanesBecome_writeActive _ _ _ _ _ hl,
    Tile.vectorOnly_writeActive _ _ _ _ _⟩
  · rw [hlegal, hfmt]; rfl
  · rw [Tile.enqueueVx_shape, hshape]; exact hadm

section
variable (hk : kind.lanewise = true) (h : s.atVector k i []) (hfmt : Format.ofCode f.fmt = some fmt)
  (hshape : (s.fetched k).shape = false) (hl : fmt.hasLanes = true)
include hk h hfmt hshape hl

theorem vxIssue_maps_two (g : Nat → Nat → Nat × Flags)
    (hrun : runVx s k ((s.fetched k).enqueueVx kind f) (vxEntry kind f (s.fetched k)) fmt
      = .done (((s.fetched k).enqueueVx kind f).mapLanes f fmt true g)) :
    ∃ t', vxIssue k i true kind f s = .next (s.retires k t')
      ∧ (s.fetched k).lanesBecome t' f fmt (fun j =>
        ((g ((s.fetched k).twoLanes f fmt j).1.1 ((s.fetched k).twoLanes f fmt j).1.2).1, ((s.fetched k).twoLanes f fmt j).2))
      ∧ (s.fetched k).vectorOnly t' f.vd :=
  vxIssue_lanewise kind hk h hfmt hshape hl _ hrun

theorem vxIssue_maps_one (g : Nat → Nat × Flags)
    (hrun : runVx s k ((s.fetched k).enqueueVx kind f) (vxEntry kind f (s.fetched k)) fmt
      = .done (((s.fetched k).enqueueVx kind f).mapLanes f fmt false (fun a _ => g a))) :
    ∃ t', vxIssue k i true kind f s = .next (s.retires k t')
      ∧ (s.fetched k).lanesBecome t' f fmt (fun j =>
        ((g (((s.fetched k).vreg f.vs1.toNat).lane fmt.width j).1).1, (((s.fetched k).vreg f.vs1.toNat).lane fmt.width j).2))
      ∧ (s.fetched k).vectorOnly t' f.vd := by
  obtain ⟨t', hexec, hlanes, honly⟩ := vxIssue_lanewise kind hk h hfmt hshape hl _ hrun
  refine ⟨t', hexec, fun j hj => (hlanes j hj).trans ?_, honly⟩
  simp only [Bool.or_false, Bool.false_eq_true, ite_false]
  rfl

end

end

/-! ## The formats of the lane functions (Table 6.4) -/

theorem hasLanes_of_arithFormat {fmt : Format} (h : arithFormat fmt = true) : fmt.hasLanes = true := by
  unfold arithFormat at h
  split at h
  case h_8 => cases h
  all_goals rfl

theorem arithFormat_of_laneInt {fmt : Format} (h : laneInt fmt = true) : arithFormat fmt = true := by
  simp only [laneInt, Bool.or_eq_true, beq_iff_eq] at h
  obtain (rfl | rfl) | rfl := h <;> rfl

/-- Settles O19: each instruction is lanewise, and where its format is one of its own it runs to the write of its active lanes. -/
theorem vectorArithmetic : Obligations.VectorArithmetic := by
  unfold Obligations.VectorArithmetic
  intro k f fmt s hfmt hshape
  simp only [exec_vxArith, execVxArith, exec_vxMinmax, execVxMinmax, exec_vxSign, execVxSign, exec_vxLogic, execVxLogic,
    exec_vxShift, execVxShift, exec_vxPopcnt, execVxPopcnt, exec_vxFunction, execVxFunction]
  refine ⟨fun ha => ?arith, fun hi => ?ints, ?function⟩
  case arith =>
    have hl := hasLanes_of_arithFormat ha
    refine ⟨fun h => ?add, fun h => ?sub, fun h => ?mul, fun h => ?fma, fun isMax h => ?minmax, fun h => ?abs, fun h => ?neg,
      fun h => ?csgn⟩
    case add => exact vxIssue_maps_two (.arith .add) rfl h hfmt hshape hl (fun a b => arithLane .add fmt a b 0) (if_pos ha)
    case sub => exact vxIssue_maps_two (.arith .sub) rfl h hfmt hshape hl (fun a b => arithLane .sub fmt a b 0) (if_pos ha)
    case mul => exact vxIssue_maps_two (.arith .mul) rfl h hfmt hshape hl (fun a b => arithLane .mul fmt a b 0) (if_pos ha)
    case fma => exact vxIssue_lanewise (.arith .fma) rfl h hfmt hshape hl _ (if_pos ha)
    case minmax => exact vxIssue_maps_two (.minmax isMax) rfl h hfmt hshape hl (minmaxLane isMax fmt) (if_pos ha)
    case abs => exact vxIssue_maps_one (.sign .abs) rfl h hfmt hshape hl (fun a => signLane .abs fmt a 0) (if_pos ha)
    case neg => exact vxIssue_maps_one (.sign .neg) rfl h hfmt hshape hl (fun a => signLane .neg fmt a 0) (if_pos ha)
    case csgn => exact vxIssue_maps_two (.sign .csgn) rfl h hfmt hshape hl (signLane .csgn fmt) (if_pos ha)
  case ints =>
    have hl := hasLanes_of_arithFormat (arithFormat_of_laneInt hi)
    refine ⟨fun op h => ?logic, fun op h => ?shift, fun h => ?popcnt⟩
    case logic =>
      exact vxIssue_maps_two (.logic op) rfl h hfmt hshape hl (fun a b => (logicLane op a b, Flags.none)) (if_pos hi)
    case shift =>
      exact vxIssue_maps_two (.shift op) rfl h hfmt hshape hl (fun a b => (shiftLane op fmt.width a b, Flags.none)) (if_pos hi)
    case popcnt =>
      exact vxIssue_maps_one .popcnt rfl h hfmt hshape hl (fun a => (popCount fmt.width a, Flags.none)) (if_pos hi)
  case function =>
    rintro rfl op h
    exact vxIssue_maps_one (.function op) rfl h hfmt hshape rfl (evalFn (fnOf op)) rfl

end Sys2Proof.Machine
end


section
/-! The vector engine's queue (06, R194, R196, R212, R214): what the core hands over at issue, and what the engine makes of the
entry at the head. -/

namespace Sys2Proof.Machine

/-! ## The entry at the head starts (R196, R214) -/

/-- A tile whose vector queue is discarded after its head has started (R214). -/
def Tile.vxDiscarded (t : Tile) : Tile := ({ t with vxQueue := [], gPending := [] } : Tile).count 5 1

/-- What a fault of the head leaves of its tile: the queue discarded and the core parked (R214). -/
def State.vxFaulted (s : State) (k : Nat) (t : Tile) (e : VxEntry) (cause : Nat) (addr : BitVec 64) : Tile :=
  s.tileFault k t.vxDiscarded 5 cause e.pc addr

/-- A tile after the head of its vector queue has completed, with these entries behind it (R196). -/
def Tile.vxLeaves (t : Tile) (rest : List VxEntry) : Tile := ({ t with vxQueue := rest } : Tile).count 5 1

/-- An entry that starts for the first time, not a vx.tally that waits with a later lane (13, R390). -/
abbrev VxEntry.startsFresh (e : VxEntry) : Prop := (e.kind == .tally && e.lane != 0) = false

section
variable {s : State} {k : Nat} {t : Tile} {e : VxEntry} {rest : List VxEntry}

theorem Tile.vxReady_of_no_matrix (h : t.mxQueue = []) : t.vxReady e = true := by
  unfold Tile.vxReady
  rw [h]
  cases e.kind <;> simp

theorem State.startVx_of_done {u : Tile} (hq : t.vxQueue = e :: rest) (hmx : t.mxQueue = []) (hfresh : e.startsFresh)
    (hrun : checkedVx s k t e = .done u) : s.startVx k t = some (u.vxLeaves rest) := by
  simp only [State.startVx, hq, Tile.vxReady_of_no_matrix hmx, hrun, hfresh]
  rfl

theorem State.startVx_of_fault {c : Nat} {a : BitVec 64} (hq : t.vxQueue = e :: rest) (hmx : t.mxQueue = [])
    (hfresh : e.startsFresh) (hrun : checkedVx s k t e = .fault c a) : s.startVx k t = some (s.vxFaulted k t e c a) := by
  simp only [State.startVx, hq, Tile.vxReady_of_no_matrix hmx, hrun, hfresh]
  rfl

end

section
variable (s : State) (k : Nat) (t : Tile) (e : VxEntry) (c : Nat) (a : BitVec 64)

theorem State.vxFaulted_parked : (s.vxFaulted k t e c a).parked = true := by
  unfold State.vxFaulted State.tileFault
  split <;> rfl

theorem State.vxFaulted_vxQueue : (s.vxFaulted k t e c a).vxQueue = [] := by
  obtain ⟨-, -, -, -, -, -, -, hq, -⟩ := s.sameUnits_tileFault k t.vxDiscarded 5 c e.pc a
  exact hq.trans (Tile.count_vxQueue _ 5 1)

/-- The first fault of a tile is recorded with the engine's unit (03, R127). -/
theorem State.vxFaulted_record (h : t.fcValid = false) : (s.vxFaulted k t e c a).fcUnit = 5
    ∧ (s.vxFaulted k t e c a).fcCause = BitVec.ofNat 8 c ∧ (s.vxFaulted k t e c a).fcPc = e.pc
    ∧ (s.vxFaulted k t e c a).fcAddr = a := by
  have hclear : t.vxDiscarded.fcValid = false := (Tile.count_fcValid _ 5 1).trans h
  rw [State.vxFaulted, s.tileFault_of_clear k _ 5 c e.pc a hclear]
  exact ⟨rfl, rfl, rfl, rfl⟩

end

/-! ## An entry that the personality in force refuses (R194) -/

theorem checkedVx_of_refused {s : State} {k : Nat} {t u : Tile} {e : VxEntry} {fmt : Format} (hsum : vxSummary e.kind = false)
    (hfmt : Format.ofCode e.f.fmt = some fmt) (hadm : vxAdmitted t.shape e.kind = false)
    (hrun : runVx s k t e fmt = .done u) : checkedVx s k t e = .fault 0x40 0 := by
  simp only [checkedVx, hsum, hfmt, hadm, hrun, Bool.false_and, Bool.false_eq_true, ite_false]

/-! ## Issue (R196) -/

section
variable {k : TileIx} {i : Instr} {kind : VxKind} {f : VFields} {s : State} {now : Bool}

theorem vxIssueCause_of_illegal {t : Tile} (h : vxIllegal kind f = true) : vxIssueCause kind f t = some 0x01 := by
  simp only [vxIssueCause, h, lowestCause, ite_true]

theorem vxIssue_illegal (h : s.atInsn k i (vxReads kind f)) (hbad : vxIllegal kind f = true) :
    vxIssue k i now kind f s = .next (s.faults k 0 0x01 0) :=
  issue_fault h 0 0x01 0 (by rw [vxIssueCause_of_illegal hbad])

theorem vxIssue_waits (h : s.atInsn k i (vxReads kind f)) (hc : vxIssueCause kind f (s.fetched k) = none)
    (hfull : 8 ≤ (s.fetched k).vxQueue.length) : vxIssue k i now kind f s = .next s :=
  issue_stall h (by simp only [hc, if_pos hfull])

theorem vxIssue_enters (h : s.atInsn k i (vxReads kind f)) (hc : vxIssueCause kind f (s.fetched k) = none)
    (hroom : (s.fetched k).vxQueue.length < 8) :
    vxIssue k i false kind f s = .next (s.retires k ((s.fetched k).enqueueVx kind f)) :=
  issue_retire h _ (by simp only [hc, if_neg (Nat.not_le.mpr hroom), Bool.false_and, Bool.false_eq_true, ite_false])

/-- An instruction whose engine is free starts at its issue. -/
theorem vxIssue_starts {u : Tile} (h : s.atVector k i (vxReads kind f)) (hc : vxIssueCause kind f (s.fetched k) = none)
    (hstart : s.startVx k ((s.fetched k).enqueueVx kind f) = some u) : vxIssue k i true kind f s = .next (s.retires k u) := by
  obtain ⟨hat, hempty, -⟩ := h
  exact issue_retire hat u (by simp [hc, hempty, hstart])

end

/-! ## Lanes that the head writes (R192) -/

theorem Tile.vreg_vxLeaves (t : Tile) (rest : List VxEntry) (i : Nat) : (t.vxLeaves rest).vreg i = t.vreg i := by
  rw [Tile.vreg, Tile.vxLeaves, Tile.count_vregs, Tile.vreg]

theorem Tile.lanesBecome_vxLeaves (t : Tile) (f : VFields) (fmt : Format) (out : Nat → LaneOut) (rest : List VxEntry)
    (hl : fmt.hasLanes = true) :
    t.lanesBecome ((t.writeActive f fmt out).vxLeaves rest) f fmt (fun j => ((out j).bits, (out j).bad)) := by
  intro j hj
  rw [Tile.vreg_vxLeaves]
  exact t.lane_writeLanes f.vd.toNat fmt _ _ hl j hj

/-- Settles O17: each instruction is the shared issue of its kind; the head of the queue runs or is refused by the personality. -/
theorem vectorIssue : Obligations.VectorIssue := by
  unfold Obligations.VectorIssue
  refine ⟨?issue, ?start⟩
  case issue =>
    intro k f b16 bf16 fit one isMax mop aop sop lop hop cop fop kind c s hc h
    have hexec : exec c s = vxIssue k c false kind f s := by
      -- Each place of the list names one instruction with its kind.
      repeat
        obtain hc | ⟨_, hc⟩ := hc
        · rfl
      cases hc
    rw [hexec]
    exact ⟨fun hcause hroom => ⟨vxIssue_enters h hcause hroom, by simp [Tile.enqueueVx]⟩, vxIssue_waits h,
      vxIssue_illegal h⟩
  case start =>
    intro k s e rest fmt hruns hq hmx hfmt
    dsimp only
    refine ⟨fun op hkind hint hshape => ?runs, fun op hkind hint hshape => ?refused⟩
    all_goals
      have hfresh : e.startsFresh := by rw [VxEntry.startsFresh, hkind]; rfl
      have hsum : vxSummary e.kind = false := by rw [hkind]; rfl
      have hrun : runVx s k (s.tile k) e fmt
          = .done ((s.tile k).mapLanes e.f fmt true (fun a b => (logicLane op a b, Flags.none))) := by
        simp only [runVx, hkind, if_pos hint]
    case runs =>
      have hadm : vxAdmitted (s.tile k).shape e.kind = true := by rw [hkind, hshape]; rfl
      have hstart := State.startVx_of_done hq hmx hfresh ((checkedVx_of_admitted hsum hfmt hadm).trans hrun)
      exact ⟨_, engine_some hruns _ hstart, Tile.count_vxQueue _ 5 1, Tile.lanesBecome_vxLeaves _ e.f fmt _ rest
        (hasLanes_of_arithFormat (arithFormat_of_laneInt hint))⟩
    case refused =>
      have hadm : vxAdmitted (s.tile k).shape e.kind = false := by rw [hkind, hshape]; rfl
      have hstart := State.startVx_of_fault hq hmx hfresh (checkedVx_of_refused hsum hfmt hadm hrun)
      refine ⟨_, engine_some hruns _ hstart, s.vxFaulted_vxQueue k _ e _ _, s.vxFaulted_parked k _ e _ _, fun hclear => ?_⟩
      obtain ⟨hunit, hcause, hpc, -⟩ := s.vxFaulted_record k (s.tile k) e 0x40 0 hclear
      exact ⟨hunit, hcause, hpc⟩

end Sys2Proof.Machine
end


section
/-! What a vector instruction leaves that its engine starts at once and completes (06, R192, R196, R213): lanes of one vector
register, one mask register, or one general register. -/

namespace Sys2Proof.Machine

/-! ## An instruction that starts at once and completes -/

/-- An instruction that the core hands over and the engine runs when it starts: its fields are allowed, its format is this one,
and it is allowed in the personality and in the mode (R194, R198, R212). -/
structure State.runsVx (s : State) (k : TileIx) (kind : VxKind) (f : VFields) (fmt : Format) : Prop where
  legal : vxIssueCause kind f (s.fetched k) = none
  notTally : kind ≠ .tally
  format : Format.ofCode f.fmt = some fmt
  admitted : vxAdmitted (s.fetched k).shape kind = true
  mode : vxSummary kind = false ∨ (s.fetched k).service = true

section
variable {k : TileIx} {i : Instr} {kind : VxKind} {f : VFields} {fmt : Format} {s : State}

theorem State.runsVx_of_legal (kind : VxKind) (hset : kind ≠ .setvl) (htally : kind ≠ .tally)
    (hlegal : vxIllegal kind f = false) (hfmt : Format.ofCode f.fmt = some fmt) (hadm : vxAdmitted (s.fetched k).shape kind = true)
    (hmode : vxSummary kind = false ∨ (s.fetched k).service = true) : s.runsVx k kind f fmt :=
  ⟨vxIssueCause_of_legal hset hlegal, htally, hfmt, hadm, hmode⟩

theorem checkedVx_of_runsVx (hr : s.runsVx k kind f fmt) :
    checkedVx s k ((s.fetched k).enqueueVx kind f) (vxEntry kind f (s.fetched k))
      = runVx s k ((s.fetched k).enqueueVx kind f) (vxEntry kind f (s.fetched k)) fmt := by
  obtain ⟨-, -, hfmt, hadm, hmode⟩ := hr
  have hmode : (vxSummary kind && !(s.fetched k).service) = false := by
    obtain hk | hs := hmode
    · rw [hk, Bool.false_and]
    · rw [hs, Bool.not_true, Bool.and_false]
  simp only [checkedVx, vxEntry, Tile.enqueueVx_service, Tile.enqueueVx_shape, hmode, hfmt, hadm, Bool.false_eq_true, ite_false,
    ite_true]

theorem vxIssue_completes {u : Tile} (hr : s.runsVx k kind f fmt)
    (hrun : runVx s k ((s.fetched k).enqueueVx kind f) (vxEntry kind f (s.fetched k)) fmt = .done u)
    (h : s.atVector k i (vxReads kind f)) : vxIssue k i true kind f s = .next (s.retires k u.vxCompleted) :=
  vxIssue_now h hr.notTally hr.legal u ((checkedVx_of_runsVx hr).trans hrun)

theorem vxIssue_faults {c : Nat} {a : BitVec 64} (hlegal : vxIssueCause kind f (s.fetched k) = none)
    (hrun : checkedVx s k ((s.fetched k).enqueueVx kind f) (vxEntry kind f (s.fetched k)) = .fault c a)
    (h : s.atVector k i (vxReads kind f)) : vxIssue k i true kind f s = .next (s.retires k
      (s.vxFaulted k ((s.fetched k).enqueueVx kind f) (vxEntry kind f (s.fetched k)) c a)) := by
  refine vxIssue_starts h hlegal (State.startVx_of_fault (rest := []) ?_ h.2.2 ?_ hrun)
  · rw [Tile.enqueueVx, h.2.1]; rfl
  · simp [VxEntry.startsFresh, vxEntry]

end

/-! ## A completed instruction leaves all but the queue and a counter -/

section
variable (t : Tile)

@[simp] theorem Tile.vxCompleted_vregs : t.vxCompleted.vregs = t.vregs := Tile.count_vregs _ 5 1
@[simp] theorem Tile.vxCompleted_mregs : t.vxCompleted.mregs = t.mregs := Tile.count_mregs _ 5 1
@[simp] theorem Tile.vxCompleted_vl : t.vxCompleted.vl = t.vl := Tile.count_vl _ 5 1
@[simp] theorem Tile.vxCompleted_regs : t.vxCompleted.regs = t.regs := Tile.count_regs _ 5 1
@[simp] theorem Tile.vxCompleted_mem : t.vxCompleted.mem = t.mem := Tile.count_mem _ 5 1
@[simp] theorem Tile.vxCompleted_banks : t.vxCompleted.banks = t.banks := Tile.count_banks _ 5 1
@[simp] theorem Tile.vxCompleted_parked : t.vxCompleted.parked = t.parked := Tile.count_parked _ 5 1
@[simp] theorem Tile.vxCompleted_outbound : t.vxCompleted.outbound = t.outbound := Tile.count_outbound _ 5 1
@[simp] theorem Tile.vxCompleted_vxQueue : t.vxCompleted.vxQueue = [] := Tile.count_vxQueue _ 5 1
@[simp] theorem Tile.mreg_vxCompleted (i : Nat) : t.vxCompleted.mreg i = t.mreg i := by simp [Tile.mreg]
@[simp] theorem Tile.reg_vxCompleted (r : BitVec 5) : t.vxCompleted.reg r = t.reg r := by simp [Tile.reg]
@[simp] theorem Tile.word_vxCompleted (i : Nat) : t.vxCompleted.word i = t.word i := by simp [Tile.word]

end

theorem Tile.vxCompleted_raiseVx (t : Tile) (fl : Flags) : (t.raiseVx fl).vxCompleted = t.vxCompleted.raiseVx fl := by
  simp only [Tile.vxCompleted, Tile.count]
  rfl

/-! ## Lanes of one vector register -/

section
variable (t : Tile) (kind : VxKind) (f : VFields) (fmt : Format) (which : Nat → Bool) (out : Nat → LaneOut)

/-- An instruction that has run and written lanes of its destination. -/
def Tile.vxWrote : Tile := (t.enqueueVx kind f).writeLanes f.vd.toNat fmt which out

theorem Tile.lane_vxWrote (hl : fmt.hasLanes = true) {j : Nat} (hj : j < fmt.lanes) :
    ((t.vxWrote kind f fmt which out).vxCompleted.vreg f.vd.toNat).lane fmt.width j
      = if which j then ((out j).bits % 2 ^ fmt.width, (out j).bad) else (t.vreg f.vd.toNat).lane fmt.width j := by
  rw [Tile.vreg_vxCompleted]
  exact (t.enqueueVx kind f).lane_writeLanes f.vd.toNat fmt which out hl j hj

theorem Tile.vectorOnly_vxWrote : t.vectorOnly (t.vxWrote kind f fmt which out).vxCompleted f.vd := by
  have hvd : f.vd.toNat < 32 := f.vd.isLt
  refine ⟨fun i hi hne => ?_, Tile.vxCompleted_mregs _, Tile.vxCompleted_vl _, Tile.word_vxCompleted _, Tile.reg_vxCompleted _,
    Tile.vxCompleted_banks _, Tile.vxCompleted_vxQueue _, Tile.vxCompleted_parked _, Tile.vxCompleted_outbound _⟩
  rw [Tile.vreg_vxCompleted]
  exact (t.enqueueVx kind f).vreg_writeLanes_other f.vd.toNat i fmt which out (by omega)

end

section
variable {k : TileIx} {i : Instr} {kind : VxKind} {f : VFields} {fmt dst : Format} {s : State}

theorem vxIssue_writes (hr : s.runsVx k kind f fmt) (hl : dst.hasLanes = true) (which : Nat → Bool) (out : Nat → LaneOut)
    (hrun : runVx s k ((s.fetched k).enqueueVx kind f) (vxEntry kind f (s.fetched k)) fmt
      = .done ((s.fetched k).vxWrote kind f dst which out)) (h : s.atVector k i (vxReads kind f)) :
    ∃ t', vxIssue k i true kind f s = .next (s.retires k t') ∧ (s.fetched k).vectorOnly t' f.vd
      ∧ ∀ j, j < dst.lanes → (t'.vreg f.vd.toNat).lane dst.width j
        = if which j then ((out j).bits % 2 ^ dst.width, (out j).bad)
          else ((s.fetched k).vreg f.vd.toNat).lane dst.width j :=
  ⟨_, vxIssue_completes hr hrun h, Tile.vectorOnly_vxWrote _ _ _ _ _ _, fun _ hj => Tile.lane_vxWrote _ _ _ _ _ _ hl hj⟩

theorem vxIssue_writesActive (hr : s.runsVx k kind f fmt) (hl : dst.hasLanes = true) (out : Nat → LaneOut)
    (hrun : runVx s k ((s.fetched k).enqueueVx kind f) (vxEntry kind f (s.fetched k)) fmt
      = .done (((s.fetched k).enqueueVx kind f).writeActive f dst out)) (h : s.atVector k i (vxReads kind f)) :
    ∃ t', vxIssue k i true kind f s = .next (s.retires k t')
      ∧ (s.fetched k).lanesBecome t' f dst (fun j => ((out j).bits, (out j).bad)) ∧ (s.fetched k).vectorOnly t' f.vd :=
  ⟨_, vxIssue_completes hr hrun h, Tile.lanesBecome_writeActive _ _ _ _ _ hl, Tile.vectorOnly_writeActive _ _ _ _ _⟩

end

/-! ## What reads and reports add (03, R112; 13, R402) -/

section
variable {a u v : Tile} {vd : BitVec 5}

theorem Tile.asRead_vxCompleted (h : u.asRead v) : u.vxCompleted.asRead v.vxCompleted := by
  unfold Tile.asRead at *
  rw [h]
  rfl

/-- Reads of local memory and reports add to no register. -/
theorem Tile.vectorOnly_asRead (h : a.vectorOnly u vd) (hr : u.asRead v) (hm : u.sameMem v) : a.vectorOnly v vd := by
  obtain ⟨hv, hmr, hvl, hmem, hreg, hbanks, hq, hp, ho⟩ := h
  unfold Tile.asRead at hr
  refine ⟨fun i hi hne => ?_, ?_, ?_, fun i => (hm i).trans (hmem i), fun r => ?_, ?_, ?_, ?_, ?_⟩
  case refine_1 => rw [hr]; exact hv i hi hne
  case refine_4 => rw [hr]; exact hreg r
  all_goals rw [hr]; assumption

theorem Tile.vreg_asRead (hr : u.asRead v) (i : Nat) : v.vreg i = u.vreg i := by
  unfold Tile.asRead at hr
  rw [hr]
  rfl

end

/-! ## One mask register (R190) -/

section
variable (t : Tile) (kind : VxKind) (f : VFields) (d : Nat) (m : MReg)

theorem Tile.mreg_setM (t : Tile) (d : Nat) (m : MReg) : (t.setM d m).mreg d = m := getD_putD_same _ _ _ _

theorem Tile.mreg_setM_other (t : Tile) (d : Nat) (m : MReg) {i : Nat} (h : i ≠ d) : (t.setM d m).mreg i = t.mreg i :=
  getD_putD_other _ _ _ _ _ h

theorem Tile.mreg_raiseVx (t : Tile) (fl : Flags) (i : Nat) : (t.raiseVx fl).mreg i = t.mreg i := rfl

theorem Tile.maskOnly_raiseVx {a b : Tile} {d : Nat} (h : a.maskOnly b d) (fl : Flags) : a.maskOnly (b.raiseVx fl) d := by
  obtain ⟨hm, hv, hvl, hmem, hreg, hbanks, hq, hp⟩ := h
  exact ⟨hm, hv, hvl, hmem, hreg, hbanks, hq, hp⟩

theorem Tile.maskOnly_setM : t.maskOnly ((t.enqueueVx kind f).setM d m).vxCompleted d :=
  ⟨fun i hi => (Tile.mreg_vxCompleted _ i).trans (Tile.mreg_setM_other _ d m hi), Tile.vxCompleted_vregs _,
    Tile.vxCompleted_vl _, Tile.word_vxCompleted _, Tile.reg_vxCompleted _, Tile.vxCompleted_banks _,
    Tile.vxCompleted_vxQueue _, Tile.vxCompleted_parked _⟩

end

theorem maskNo_of_lt {v : BitVec 5} (h : v.toNat < 8) : maskNo v = v.toNat := Nat.mod_eq_of_lt h

section
variable {k : TileIx} {i : Instr} {kind : VxKind} {f : VFields} {fmt : Format} {s : State} {m : MReg}

theorem vxIssue_writesMask (hr : s.runsVx k kind f fmt) (hd : f.vd.toNat < 8)
    (hrun : runVx s k ((s.fetched k).enqueueVx kind f) (vxEntry kind f (s.fetched k)) fmt
      = .done (((s.fetched k).enqueueVx kind f).setM (maskNo f.vd) m)) (h : s.atVector k i (vxReads kind f)) :
    ∃ t', vxIssue k i true kind f s = .next (s.retires k t') ∧ t'.mreg f.vd.toNat = m
      ∧ (s.fetched k).maskOnly t' f.vd.toNat := by
  rw [maskNo_of_lt hd] at hrun
  exact ⟨_, vxIssue_completes hr hrun h, (Tile.mreg_vxCompleted _ _).trans (Tile.mreg_setM _ _ _), Tile.maskOnly_setM _ _ _ _ _⟩

/-- The flags that a compare raises are no part of the mask register (R206). -/
theorem vxIssue_writesMask_raising {fl : Flags} (hr : s.runsVx k kind f fmt) (hd : f.vd.toNat < 8)
    (hrun : runVx s k ((s.fetched k).enqueueVx kind f) (vxEntry kind f (s.fetched k)) fmt
      = .done ((((s.fetched k).enqueueVx kind f).setM (maskNo f.vd) m).raiseVx fl)) (h : s.atVector k i (vxReads kind f)) :
    ∃ t', vxIssue k i true kind f s = .next (s.retires k t') ∧ t'.mreg f.vd.toNat = m
      ∧ (s.fetched k).maskOnly t' f.vd.toNat := by
  rw [maskNo_of_lt hd] at hrun
  refine ⟨_, vxIssue_completes hr hrun h, ?_, ?_⟩
  · rw [Tile.mreg_vxCompleted, Tile.mreg_raiseVx, Tile.mreg_setM]
  · rw [Tile.vxCompleted_raiseVx]
    exact Tile.maskOnly_raiseVx (Tile.maskOnly_setM _ _ _ _ _) fl

end

/-! ## One general register (R106, R212) -/

/-- A general register takes a result: marked, and zero where it is poisoned; the other registers stay. -/
def Tile.regBecomes (a b : Tile) (rd : BitVec 5) (v : Nat) (bad : Bool) : Prop :=
  b.reg rd = ⟨if bad then 0 else BitVec.ofNat 64 v, true, bad⟩ ∧ ∀ r, r ≠ rd → b.reg r = a.reg r

section
variable {t : Tile} {seq : Nat} {rd : BitVec 5} (v : Nat) (bad : Bool)
  (howed : t.gPending.contains { reg := rd, seq := seq } = true)
include howed

/-- A result that the queue still owes its general register is written there. -/
theorem Tile.giveG_of_owed : t.giveG seq rd v bad = { t.setReg rd ⟨BitVec.ofNat 64 v, true, bad⟩ with
    gPending := t.gPending.filter (· != { reg := rd, seq := seq }) } := if_pos howed

theorem Tile.regBecomes_giveG (hrd : rd ≠ 0) : t.regBecomes (t.giveG seq rd v bad) rd v bad := by
  rw [Tile.giveG_of_owed v bad howed]
  refine ⟨(Tile.reg_setReg_same t rd ⟨BitVec.ofNat 64 v, true, bad⟩ hrd).trans ?_,
    fun r hr => Tile.reg_setReg_other t rd r ⟨BitVec.ofNat 64 v, true, bad⟩ hr⟩
  cases bad <;> rfl

/-- It leaves what the engine holds, and local memory. -/
theorem Tile.giveG_keeps : (t.giveG seq rd v bad).vregs = t.vregs ∧ (t.giveG seq rd v bad).mregs = t.mregs
    ∧ (t.giveG seq rd v bad).vl = t.vl ∧ (t.giveG seq rd v bad).mem = t.mem := by
  rw [Tile.giveG_of_owed v bad howed]
  exact ⟨Tile.setReg_vregs _ _ _, Tile.setReg_mregs _ _ _, Tile.setReg_vl _ _ _, Tile.setReg_mem _ _ _⟩

end

theorem Tile.enqueueVx_owes {kind : VxKind} {f : VFields} (t : Tile) (hg : vxWritesG kind = true) (hvd : f.vd ≠ 0) :
    (t.enqueueVx kind f).gPending.contains { reg := f.vd, seq := t.seq } = true := by
  have hvd : f.vd ≠ 0#5 := hvd
  simp [Tile.enqueueVx, hg, hvd]

end Sys2Proof.Machine
end


section
/-! Moves, the vector length, masks, compares and selections (06, R192, R193, R205, R207; Table 6.4). -/

namespace Sys2Proof.Machine

/-! ## Bits of a mask register that a compare writes (R205) -/

/-- A number with the bit at a place replaced. -/
theorem testBit_replaceBit (q lo i j : Nat) (b : Bool) (hlo : lo < 2 ^ i) :
    (2 ^ i * (q - q % 2 + b.toNat) + lo).testBit j = if j = i then b else (2 ^ i * q + lo).testBit j := by
  rw [Nat.testBit_two_pow_mul_add _ hlo, Nat.testBit_two_pow_mul_add _ hlo]
  have hb := b.toNat_lt
  rcases Nat.lt_trichotomy j i with hj | rfl | hj
  · rw [if_pos hj, if_pos hj, if_neg (by omega)]
  · rw [if_neg (Nat.lt_irrefl j), if_pos rfl, Nat.sub_self, Nat.testBit_zero]
    cases b <;> simp <;> omega
  · obtain ⟨d, rfl⟩ := Nat.exists_eq_add_of_lt hj
    rw [if_neg (by omega), if_neg (by omega), if_neg (by omega), show i + d + 1 - i = d + 1 by omega, Nat.testBit_succ,
      Nat.testBit_succ, show (q - q % 2 + b.toNat) / 2 = q / 2 by omega]

theorem bitOf_setField (v : BitVec 64) (i : Nat) {j : Nat} (hj : j < 64) (b : Bool) :
    bitOf (setField v i 1 (if b then 1 else 0)) j = if j = i then b else bitOf v j := by
  have hsplit : v.toNat = 2 ^ i * (v.toNat / 2 ^ i) + v.toNat % 2 ^ i := (Nat.div_add_mod _ _).symm
  have hle : v.toNat / 2 ^ i % 2 ≤ v.toNat / 2 ^ i := Nat.mod_le _ _
  have hput : v.toNat - field v i 1 * 2 ^ i + (if b then 1 else 0) % 2 ^ 1 * 2 ^ i
      = 2 ^ i * (v.toNat / 2 ^ i - v.toNat / 2 ^ i % 2 + b.toNat) + v.toNat % 2 ^ i := by
    rw [show (if b then 1 else 0) % 2 ^ 1 = b.toNat by cases b <;> rfl, field, Nat.pow_one, Nat.mul_add, Nat.mul_sub]
    have := Nat.mul_le_mul_left (2 ^ i) hle
    rw [Nat.mul_comm (v.toNat / 2 ^ i % 2), Nat.mul_comm b.toNat]
    omega
  rw [bitOf_eq_getLsbD, bitOf_eq_getLsbD, setField, hput, BitVec.getLsbD_ofNat, decide_eq_true hj, Bool.true_and,
    testBit_replaceBit _ _ _ _ _ (Nat.mod_lt _ (Nat.two_pow_pos i)), ← hsplit, BitVec.testBit_toNat]

/-- A mask register with one bit and its poison replaced. -/
def MReg.setBit (m : MReg) (i : Nat) (b bad : Bool) : MReg :=
  { bits := setField m.bits i 1 (if b then 1 else 0), poison := setField m.poison i 1 (if bad then 1 else 0) }

/-- Bits replaced in turn, each by a function of its place. -/
theorem MReg.foldl_setBit (b bad : Nat → Bool) {j : Nat} (hj : j < 64) : ∀ (is : List Nat) (m : MReg),
    (is.foldl (fun m i => m.setBit i (b i) (bad i)) m).bit j = (if j ∈ is then b j else m.bit j)
      ∧ (is.foldl (fun m i => m.setBit i (b i) (bad i)) m).bad j = (if j ∈ is then bad j else m.bad j) := by
  intro is
  induction is with
  | nil => exact fun m => ⟨rfl, rfl⟩
  | cons i is ih =>
    intro m
    obtain ⟨hbit, hbad⟩ := ih (m.setBit i (b i) (bad i))
    have hset : (m.setBit i (b i) (bad i)).bit j = (if j = i then b i else m.bit j)
        ∧ (m.setBit i (b i) (bad i)).bad j = if j = i then bad i else m.bad j :=
      ⟨bitOf_setField _ _ hj _, bitOf_setField _ _ hj _⟩
    rw [List.foldl_cons, hbit, hbad, hset.1, hset.2]
    by_cases hji : j = i
    · subst hji; simp
    · simp [hji]

/-- The lanes that a compare counts. -/
theorem mem_activeLanes (t : Tile) (mask : BitVec 3) (n j : Nat) :
    j ∈ (List.range n).filter (t.active mask n) ↔ (t.active mask n j && decide (j < n)) = true := by
  simp [and_comm]

/-- The mask register that a compare leaves. -/
def Tile.comparedMask (t : Tile) (op : CmpOp) (f : VFields) (fmt : Format) : MReg :=
  ((List.range fmt.lanes).filter (t.active f.mask fmt.lanes)).foldl (fun m j =>
    m.setBit j (compareLane op fmt (t.twoLanes f fmt j).1.1 (t.twoLanes f fmt j).1.2).1
      ((t.twoLanes f fmt j).2 || t.maskBad f.mask j)) (t.mreg (maskNo f.vd))

theorem Tile.compareLanes_eq (t : Tile) (op : CmpOp) (f : VFields) (fmt : Format) :
    ∃ fl, t.compareLanes op f fmt = (t.setM (maskNo f.vd) (t.comparedMask op f fmt)).raiseVx fl := by
  unfold Tile.compareLanes
  dsimp only
  rw [List.foldl_map]
  exact ⟨_, rfl⟩

theorem Tile.comparedMask_bits (t : Tile) (op : CmpOp) (f : VFields) (fmt : Format) {j : Nat} (hj : j < 64) :
    (t.comparedMask op f fmt).bit j = (if t.active f.mask fmt.lanes j && decide (j < fmt.lanes)
        then (compareLane op fmt (t.twoLanes f fmt j).1.1 (t.twoLanes f fmt j).1.2).1 else (t.mreg (maskNo f.vd)).bit j)
      ∧ (t.comparedMask op f fmt).bad j = (if t.active f.mask fmt.lanes j && decide (j < fmt.lanes)
        then (t.twoLanes f fmt j).2 || t.maskBad f.mask j else (t.mreg (maskNo f.vd)).bad j) := by
  obtain ⟨hbit, hbad⟩ := MReg.foldl_setBit
    (fun j => (compareLane op fmt (t.twoLanes f fmt j).1.1 (t.twoLanes f fmt j).1.2).1)
    (fun j => (t.twoLanes f fmt j).2 || t.maskBad f.mask j) hj
    ((List.range fmt.lanes).filter (t.active f.mask fmt.lanes)) (t.mreg (maskNo f.vd))
  simp only [mem_activeLanes] at hbit hbad
  exact ⟨hbit, hbad⟩

/-! ## The vector length (R193) -/

section
variable {k : TileIx} {i : Instr} {f : VFields} {fmt : Format} {s : State}

theorem vxIssueCause_setvl {t : Tile} (h0 : f.fmt = 0) (hmask : f.mask = 0)
    (hmark : t.service = true ∨ (t.reg f.vs1).mark = false) (hclean : (t.reg f.vs1).poison = false) :
    vxIssueCause .setvl f t = none := by
  have hmarked : t.markFault [t.reg f.vs1] = false := by
    obtain hs | hm := hmark
    · simp [Tile.markFault, hs]
    · simp [Tile.markFault, hm]
  simp [vxIssueCause, vxReads, vxIllegal, h0, hmask, hmarked, anyPoison, hclean, lowestCause]

/-- A tile with another vector length. -/
def Tile.withVl (t : Tile) (n : Nat) : Tile := { t with vl := n }

theorem vxIssue_setvl (hcause : vxIssueCause .setvl f (s.fetched k) = none) (hfmt : Format.ofCode f.fmt = some fmt)
    (hvd : f.vd ≠ 0) (h : s.atVector k i [f.vs1]) :
    let n := min ((s.fetched k).reg f.vs1).val.toNat 64
    ∃ t', vxIssue k i true .setvl f s = .next (s.retires k t') ∧ t'.vl = n ∧ t'.reg f.vd = ⟨BitVec.ofNat 64 n, true, false⟩
      ∧ (∀ r, r ≠ f.vd → t'.reg r = (s.fetched k).reg r) ∧ t'.vregs = (s.fetched k).vregs
      ∧ t'.mregs = (s.fetched k).mregs ∧ (s.fetched k).sameMem t' := by
  intro n
  have hr : s.runsVx k .setvl f fmt := ⟨hcause, nofun, hfmt, rfl, .inl rfl⟩
  have howed : (((s.fetched k).enqueueVx .setvl f).withVl n).gPending.contains { reg := f.vd, seq := (s.fetched k).seq } = true :=
    (s.fetched k).enqueueVx_owes rfl hvd
  obtain ⟨hreg, hothers⟩ := Tile.regBecomes_giveG n false howed hvd
  obtain ⟨hv, hm, hvl, hmem⟩ := Tile.giveG_keeps n false howed
  refine ⟨_, vxIssue_completes hr rfl h, (Tile.vxCompleted_vl _).trans hvl, (Tile.reg_vxCompleted _ _).trans hreg,
    fun r hne => (Tile.reg_vxCompleted _ _).trans (hothers r hne), (Tile.vxCompleted_vregs _).trans hv,
    (Tile.vxCompleted_mregs _).trans hm, fun i => (Tile.word_vxCompleted _ i).trans (Tile.word_congr hmem i)⟩

end

/-! ## Accumulator entries and selections (R205, R207) -/

/-- A lane of vx.acc: the accumulator entry of its block of 16. -/
def Tile.accLane (t : Tile) (f : VFields) (j : Nat) : LaneOut :=
  let a := t.acc (f.vs1.toNat % 4) (16 * (f.vs1.toNat / 4) + j)
  { bits := a.bits.toNat, bad := a.poison }

/-- A lane of a selection: from the first source where the mask bit is set, from the second where it is not. -/
def Tile.selected (t : Tile) (f : VFields) (fmt : Format) (j : Nat) : LaneOut :=
  let l := if (t.mreg f.mask.toNat).bit j then (t.vreg f.vs1.toNat).lane fmt.width j
    else (t.vreg f.vs2.toNat).lane fmt.width j
  { bits := l.1, bad := l.2 || (t.mreg f.mask.toNat).bad j }

theorem VReg.lane_mod (v : VReg) (w j : Nat) : (v.lane w j).1 % 2 ^ w = (v.lane w j).1 := Nat.mod_mod _ _

theorem Tile.selected_mod (t : Tile) (f : VFields) (fmt : Format) (j : Nat) :
    (t.selected f fmt j).bits % 2 ^ fmt.width = (t.selected f fmt j).bits := by
  unfold Tile.selected
  split <;> exact VReg.lane_mod _ _ _

section
variable {fmt : Format} {s : State} {k : Nat} {t : Tile} {e : VxEntry}

theorem runVx_acc (hk : e.kind = .acc) (hvs1 : e.f.vs1.toNat < 16) :
    runVx s k t e .fp32 = .done (t.writeActive e.f .fp32 (t.accLane e.f)) := by
  have hfour : e.f.vs1.toNat / 4 % 4 = e.f.vs1.toNat / 4 := Nat.mod_eq_of_lt (by omega)
  simp only [runVx, hk, hfour]
  rfl

theorem runVx_sel (hk : e.kind = .sel) (hl : fmt.hasLanes = true) :
    runVx s k t e fmt = .done (t.writeLanes e.f.vd.toNat fmt (t.counted fmt.lanes) (t.selected e.f fmt)) := by
  simp only [runVx, hk]
  exact if_pos hl

theorem runVx_compare {op : CmpOp} (hk : e.kind = .compare op) (harith : arithFormat fmt = true) :
    ∃ fl, runVx s k t e fmt = .done ((t.setM (maskNo e.f.vd) (t.comparedMask op e.f fmt)).raiseVx fl) := by
  obtain ⟨fl, heq⟩ := t.compareLanes_eq op e.f fmt
  refine ⟨fl, ?_⟩
  simp only [runVx, hk, if_pos harith, heq]

end

/-! ## The obligation -/

/-- Settles O18: each instruction writes lanes of its destination, its mask register, or vl and one general register. -/
theorem vectorMovesAndMasks : Obligations.VectorMovesAndMasks := by
  unfold Obligations.VectorMovesAndMasks
  intro k f fmt s
  simp only [exec_vxSplat, execVxSplat, exec_vxMov, execVxMov, exec_vxAcc, execVxAcc, exec_vxSetvl, execVxSetvl,
    exec_vxMaskLogic, execVxMaskLogic, exec_vxMnot, execVxMnot, exec_vxMfromg, execVxMfromg, exec_vxMfirst, execVxMfirst,
    exec_vxCompare, execVxCompare, exec_vxSel, execVxSel]
  have hzero : f.fmt = 0 → Format.ofCode f.fmt = some .fp32 := fun h => by rw [h]; rfl
  refine ⟨fun h ⟨hfmt, hl⟩ => ?splat, fun h ⟨hfmt, hl⟩ => ?mov, fun h h0 hvs1 => ?acc,
    fun h h0 hmask hmark hclean hvd => ?setvl, fun ⟨h0, hmask, hvd, hvs1, hvs2⟩ => ?masks, fun h0 hmask hvd h => ?mfromg,
    fun ⟨hfmt, hl⟩ hmask hvd h => ?mfirst, fun op h ⟨hfmt, hl⟩ harith hshape hvd => ?compare,
    fun h ⟨hfmt, hl⟩ hshape hmask => ?sel⟩
  case splat =>
    have hr := State.runsVx_of_legal (s := s) (k := k) .splat nofun nofun (by simp [vxIllegal, hfmt]) hfmt rfl (.inl rfl)
    exact vxIssue_writesActive hr hl _ (if_pos hl) h
  case mov =>
    have hr := State.runsVx_of_legal (s := s) (k := k) .mov nofun nofun (by simp [vxIllegal, hfmt]) hfmt rfl (.inl rfl)
    exact vxIssue_writesActive hr hl _ (if_pos hl) h
  case acc =>
    have hr := State.runsVx_of_legal (s := s) (k := k) .acc nofun nofun (by simp [vxIllegal, hzero h0, hvs1]) (hzero h0) rfl
      (.inl rfl)
    exact vxIssue_writesActive hr rfl _ (runVx_acc rfl hvs1) h
  case setvl =>
    exact vxIssue_setvl (vxIssueCause_setvl h0 hmask hmark hclean) (hzero h0) hvd h
  case masks =>
    have hfmt := hzero h0
    have hlogic : ∀ op, s.runsVx k (.maskLogic op) f .fp32 := fun op =>
      State.runsVx_of_legal _ nofun nofun (by simp [vxIllegal, h0, hmask, hvd, hvs1, hvs2]) hfmt rfl (.inl rfl)
    have hnot : s.runsVx k .mnot f .fp32 :=
      State.runsVx_of_legal _ nofun nofun (by simp [vxIllegal, h0, hmask, hvd, hvs1]) hfmt rfl (.inl rfl)
    exact ⟨vxIssue_writesMask (hlogic .mand) hvd rfl, vxIssue_writesMask (hlogic .mor) hvd rfl,
      vxIssue_writesMask (hlogic .mxor) hvd rfl, vxIssue_writesMask (hlogic .mandn) hvd rfl, vxIssue_writesMask hnot hvd rfl⟩
  case mfromg =>
    have hr := State.runsVx_of_legal (s := s) (k := k) .mfromg nofun nofun (by simp [vxIllegal, h0, hmask, hvd]) (hzero h0) rfl
      (.inl rfl)
    exact vxIssue_writesMask hr hvd rfl h
  case mfirst =>
    have hr := State.runsVx_of_legal (s := s) (k := k) .mfirst nofun nofun (by simp [vxIllegal, hfmt, hmask, hvd]) hfmt rfl
      (.inl rfl)
    exact vxIssue_writesMask hr hvd (if_pos hl) h
  case compare =>
    have hadm : vxAdmitted (s.fetched k).shape (.compare op) = true := by rw [hshape]; rfl
    have hr := State.runsVx_of_legal (.compare op) nofun nofun (by simp [vxIllegal, hfmt, hvd]) hfmt hadm (.inl rfl)
    obtain ⟨fl, hrun⟩ := runVx_compare (s := s) (k := k) (t := (s.fetched k).enqueueVx (.compare op) f)
      (e := vxEntry (.compare op) f (s.fetched k)) rfl harith
    obtain ⟨t', hexec, hm, honly⟩ := vxIssue_writesMask_raising hr hvd hrun h
    refine ⟨t', hexec, honly, fun j hj => ?_⟩
    obtain ⟨hbit, hbad⟩ := (s.fetched k).comparedMask_bits op f fmt hj
    rw [maskNo_of_lt hvd] at hbit hbad
    rw [hm]
    exact ⟨hbit, hbad⟩
  case sel =>
    have hmask : f.mask ≠ 0#3 := hmask
    have hr := State.runsVx_of_legal (s := s) (k := k) .sel nofun nofun (by simp [vxIllegal, hfmt, hmask]) hfmt
      (by rw [hshape]; rfl) (.inl rfl)
    obtain ⟨t', hexec, honly, hlanes⟩ := vxIssue_writes hr hl ((s.fetched k).counted fmt.lanes) _ (runVx_sel rfl hl) h
    refine ⟨t', hexec, honly, fun j hj => (hlanes j hj).trans ?_⟩
    have hcounted : (s.fetched k).counted fmt.lanes j = decide (j < (s.fetched k).vl) := by simp [Tile.counted, hj]
    rw [hcounted]
    exact if_congr Iff.rfl (Prod.ext (Tile.selected_mod _ f fmt j) rfl) rfl

end Sys2Proof.Machine
end


section
/-! The SHAPE group (06, R208 to R211): permutes, shuffles, packs, and the sparse compressors and expansion. -/

namespace Sys2Proof.Machine

/-! ## Shuffles (R209) -/

theorem vxIssue_shuf {k : TileIx} {i : Instr} {f : VFields} {fmt : Format} {s : State} {p : Nat} (hp : f.vs2.toNat = p)
    (hle : p ≤ 4) (hfmt : Format.ofCode f.fmt = some fmt) (hl : fmt.hasLanes = true) (hshape : (s.fetched k).shape = true)
    (h : s.atVector k i []) : ∃ t', vxIssue k i true .shuf f s = .next (s.retires k t')
      ∧ (s.fetched k).lanesBecome t' f fmt
        (fun j => ((s.fetched k).vreg f.vs1.toNat).lane fmt.width (shufLane p fmt.lanes j))
      ∧ (s.fetched k).vectorOnly t' f.vd := by
  subst hp
  have hr := State.runsVx_of_legal (s := s) (k := k) .shuf nofun nofun (by simp [vxIllegal, hfmt, hle]) hfmt
    (by rw [hshape]; rfl) (.inl rfl)
  exact vxIssue_writesActive hr hl _ (if_pos hl) h

/-! ## The sparse compressors (R210) -/

theorem length_largestN (fmt : Format) (g : List Nat) (n : Nat) : ∀ is, (largestN fmt g n is).length ≤ n := by
  induction n with
  | zero => exact fun _ => Nat.le_refl 0
  | succ n ih =>
    intro is
    rw [largestN]
    split
    · exact Nat.zero_le _
    · exact Nat.succ_le_succ (ih _)

/-- The places below 4 that a list names are no more than the list is long. -/
theorem length_filter_contains_le (is : List Nat) : ((List.range 4).filter is.contains).length ≤ is.length := by
  have hsub : ((List.range 4).filter is.contains).Subperm is :=
    (List.nodup_range.filter _).subperm (fun i hi => by simpa using (List.mem_filter.mp hi).2)
  exact hsub.length_le

/-- A group of four keeps no more lanes than the compressor's count. -/
theorem length_keepGroup (fmt : Format) (count : Nat) (g : List Nat) : (keepGroup fmt count g).1.length ≤ count := by
  unfold keepGroup
  dsimp only
  split
  case isTrue hfew =>
    generalize (List.range 4).filter (fun i => nonZero fmt (g.getD i 0)) = nz at hfew ⊢
    generalize hfill : ((List.range 4).filter (fun i => !nz.contains i)).take (count - nz.length) = fill
    have hlen : fill.length ≤ count - nz.length := by rw [← hfill]; exact List.length_take_le _ _
    have hall := length_filter_contains_le (nz ++ fill)
    rw [List.length_append] at hall
    refine Nat.le_trans (Nat.le_of_eq ?_) (Nat.le_trans hall (by omega))
    exact congrArg List.length (List.filter_congr (fun i _ => by simp))
  case isFalse => exact (length_filter_contains_le _).trans (length_largestN _ _ _ _)

/-- The lanes kept of a group, each with its index, its bits and the group's poison, and whether one was pruned. -/
def Tile.packGroup (t : Tile) (f : VFields) (fmt : Format) (count g : Nat) : List (Nat × Nat × Bool) × Bool :=
  let lane := fun k => if k < t.vl then (t.vreg f.vs1.toNat).lane fmt.width k else (0, false)
  let ls := (List.range 4).map (fun i => (lane (4 * g + i)).1)
  let bad := (List.range 4).any (fun i => (lane (4 * g + i)).2)
  let kp := keepGroup fmt count ls
  (kp.1.map (fun i => (i, if nonZero fmt (ls.getD i 0) then ls.getD i 0 else 0, bad)), kp.2)

/-- The lanes kept of all groups, in order. -/
def Tile.packKept (t : Tile) (f : VFields) (fmt : Format) (count : Nat) : List (Nat × Nat × Bool) :=
  (((List.range (fmt.lanes / 4)).map (t.packGroup f fmt count)).map Prod.fst).flatten

theorem Tile.length_packGroup (t : Tile) (f : VFields) (fmt : Format) (count g : Nat) :
    (t.packGroup f fmt count g).1.length ≤ count := by
  rw [Tile.packGroup, List.length_map]
  exact length_keepGroup fmt count _

theorem Tile.length_packKept (t : Tile) (f : VFields) (fmt : Format) (count : Nat) :
    (t.packKept f fmt count).length ≤ fmt.lanes * count / 4 := by
  have hgroups : (t.packKept f fmt count).length ≤ fmt.lanes / 4 * count := by
    rw [Tile.packKept, List.length_flatten, List.map_map, List.map_map]
    refine (List.sum_le_card_nsmul _ count ?_).trans (by simp)
    intro n hn
    obtain ⟨g, -, rfl⟩ := List.mem_map.mp hn
    exact t.length_packGroup f fmt count g
  refine hgroups.trans ((Nat.le_div_iff_mul_le (by decide)).mpr ?_)
  rw [Nat.mul_right_comm]
  exact Nat.mul_le_mul_right _ (Nat.div_mul_le_self _ _)

theorem lane_of_zero (w : Nat) {l : LaneOut} (h : l = { bits := 0 }) : (l.bits % 2 ^ w, l.bad) = (0, false) := by
  rw [h, Nat.zero_mod]

/-- A lane of the compressed register: a kept lane, or zero. -/
def packedLane (kept : List (Nat × Nat × Bool)) (j : Nat) : LaneOut :=
  match kept[j]? with
  | some x => { bits := x.2.1, bad := x.2.2 }
  | none => { bits := 0 }

theorem packedLane_of_le {kept : List (Nat × Nat × Bool)} {j : Nat} (h : kept.length ≤ j) :
    packedLane kept j = { bits := 0 } := by
  rw [packedLane, List.getElem?_eq_none h]

/-- A tile whose compressor has written its vector register and its mask register, and counted pruned groups. -/
def Tile.compressed (t : Tile) (f : VFields) (fmt : Format) (out : Nat → LaneOut) (m : MReg) (c : Nat) : Tile :=
  ((t.writeLanes f.vd.toNat fmt (fun _ => true) out).setM f.mask.toNat m).count 6 c

section
variable (t : Tile) (f : VFields) (fmt : Format) (out : Nat → LaneOut) (m : MReg) (c : Nat)

theorem Tile.vreg_compressed (i : Nat) :
    (t.compressed f fmt out m c).vreg i = (t.writeLanes f.vd.toNat fmt (fun _ => true) out).vreg i := by
  rw [Tile.vreg, Tile.compressed, Tile.count_vregs]
  rfl

theorem Tile.vreg_compressed_other {i : Nat} (hi : i < 32) (h : i ≠ f.vd.toNat) :
    (t.compressed f fmt out m c).vreg i = t.vreg i := by
  have hvd : f.vd.toNat < 32 := f.vd.isLt
  rw [Tile.vreg_compressed]
  exact t.vreg_writeLanes_other f.vd.toNat i fmt _ _ (by omega)

theorem Tile.lane_compressed (hl : fmt.hasLanes = true) {j : Nat} (hj : j < fmt.lanes) :
    ((t.compressed f fmt out m c).vreg f.vd.toNat).lane fmt.width j = ((out j).bits % 2 ^ fmt.width, (out j).bad) := by
  rw [Tile.vreg_compressed, t.lane_writeLanes f.vd.toNat fmt _ _ hl j hj, if_pos rfl]

theorem Tile.mreg_compressed_other {i : Nat} (h : i ≠ f.mask.toNat) : (t.compressed f fmt out m c).mreg i = t.mreg i := by
  rw [Tile.mreg, Tile.compressed, Tile.count_mregs]
  exact Tile.mreg_setM_other _ _ _ h

theorem Tile.word_compressed (i : Nat) : (t.compressed f fmt out m c).word i = t.word i :=
  Tile.word_congr (Tile.count_mem _ 6 c) i

theorem Tile.reg_compressed (r : BitVec 5) : (t.compressed f fmt out m c).reg r = t.reg r := by
  rw [Tile.reg, Tile.compressed, Tile.count_regs]
  rfl

end

theorem runPack24_eq (t : Tile) (e : VxEntry) {fmt : Format} (one : Bool) (h : shapeFormat fmt = true) :
    ∃ m c, runPack24 t e fmt one
      = .done (t.compressed e.f fmt (packedLane (t.packKept e.f fmt (if one then 1 else 2))) m c) := by
  unfold runPack24
  rw [h, if_neg (by simp)]
  exact ⟨_, _, rfl⟩

/-- A compressor that has run: what it leaves of the registers, and zero beyond the kept lanes. -/
theorem vxIssue_pack2of4 {k : TileIx} {i : Instr} {f : VFields} {fmt : Format} {s : State} {one : Bool}
    (hr : s.runsVx k (.pack2of4 one) f fmt) (hl : fmt.hasLanes = true) (hsparse : shapeFormat fmt = true)
    (h : s.atVector k i []) :
    let t := s.fetched k
    ∃ t', vxIssue k i true (.pack2of4 one) f s = .next (s.retires k t')
      ∧ (∀ i, i < 32 → i ≠ f.vd.toNat → t'.vreg i = t.vreg i) ∧ (∀ i, i ≠ f.mask.toNat → t'.mreg i = t.mreg i)
      ∧ t.sameMem t' ∧ (∀ r, t'.reg r = t.reg r)
      ∧ ∀ j, fmt.lanes * (if one then 1 else 2) / 4 ≤ j → j < fmt.lanes →
        (t'.vreg f.vd.toNat).lane fmt.width j = (0, false) := by
  intro t
  obtain ⟨m, c, hrun⟩ := runPack24_eq (t.enqueueVx (.pack2of4 one) f) (vxEntry (.pack2of4 one) f t) one hsparse
  refine ⟨_, vxIssue_completes hr hrun h, fun i hi hne => ?_, fun i hne => ?_, fun i => ?_, fun r => ?_, fun j hlo hj => ?_⟩
  · rw [Tile.vreg_vxCompleted]
    exact Tile.vreg_compressed_other _ f fmt _ m c hi hne
  · rw [Tile.mreg_vxCompleted]
    exact Tile.mreg_compressed_other _ f fmt _ m c hne
  · rw [Tile.word_vxCompleted]
    exact Tile.word_compressed _ f fmt _ m c i
  · rw [Tile.reg_vxCompleted]
    exact Tile.reg_compressed _ f fmt _ m c r
  · rw [Tile.vreg_vxCompleted]
    refine (Tile.lane_compressed _ f fmt _ m c hl hj).trans ?_
    exact lane_of_zero fmt.width (packedLane_of_le (Nat.le_trans (Tile.length_packKept _ f fmt _) hlo))

/-! ## Expansion (R211) -/

/-- The place of a compressed lane. -/
def expandPlace (m : MReg) (count j : Nat) : Nat := 4 * (j / count) + field m.bits (2 * j) 2

/-- A lane of the expansion: the highest compressed lane whose place it is, or zero. -/
def Tile.expandedLane (t : Tile) (f : VFields) (fmt : Format) (count j : Nat) : LaneOut :=
  match (List.range (fmt.lanes * count / 4)).reverse.find? (fun i => expandPlace (t.mreg f.mask.toNat) count i == j) with
  | some i =>
    let l := (t.vreg f.vs1.toNat).lane fmt.width i
    { bits := l.1, bad := l.2 || (t.mreg f.mask.toNat).bad (2 * i) || (t.mreg f.mask.toNat).bad (2 * i + 1) }
  | none => { bits := 0 }

theorem Tile.expandedLane_of_no_place {t : Tile} {f : VFields} {fmt : Format} {count j : Nat}
    (h : ∀ i, i < fmt.lanes * count / 4 → expandPlace (t.mreg f.mask.toNat) count i ≠ j) :
    t.expandedLane f fmt count j = { bits := 0 } := by
  have hnone : (List.range (fmt.lanes * count / 4)).reverse.find?
      (fun i => expandPlace (t.mreg f.mask.toNat) count i == j) = none := by
    simpa using h
  rw [Tile.expandedLane, hnone]

theorem runExpand_eq (t : Tile) (e : VxEntry) {fmt : Format} (one : Bool) (h : shapeFormat fmt = true) :
    runExpand t e fmt one = .done (t.writeLanes e.f.vd.toNat fmt (fun _ => true)
      (t.expandedLane e.f fmt (if one then 1 else 2))) := by
  unfold runExpand
  rw [h, if_neg (by simp)]
  rfl

/-- Settles O21: each shape writes the active lanes from the lanes that it names, the compressors and the expansion all lanes. -/
theorem vectorShapes : Obligations.VectorShapes := by
  unfold Obligations.VectorShapes
  intro k f fmt s hfmt hl hshape
  simp only [exec_vxPerm, execVxPerm, exec_vxShuf, execVxShuf, exec_vxPack, execVxPack, exec_vxUnpack, execVxUnpack,
    exec_vxPack2of4, execVxPack2of4, exec_vxExpand, execVxExpand]
  have hruns : ∀ kind, kind ≠ .setvl → kind ≠ .tally → vxIllegal kind f = false → vxAdmitted true kind = true →
      vxSummary kind = false → s.runsVx k kind f fmt := fun kind hset htally hlegal hadm hsum =>
    State.runsVx_of_legal kind hset htally hlegal hfmt (hshape ▸ hadm) (.inl hsum)
  have hnone : (Format.ofCode f.fmt).isNone = false := by rw [hfmt]; rfl
  refine ⟨fun h => ?perm, fun h2 h => ?reverse, fun h2 h => ?pairs, fun h2 h => ?fours, fun h2 h => ?eights, fun h2 h => ?halves,
    fun h => ?pack, fun h => ?unpack, fun one h hsparse => ?pack2of4, fun one h hsparse => ?expand⟩
  case perm => exact vxIssue_writesActive (hruns .perm nofun nofun hnone rfl rfl) hl _ (if_pos hl) h
  case reverse => exact vxIssue_shuf (p := 0) (by rw [h2]; rfl) (by decide) hfmt hl hshape h
  case pairs => exact vxIssue_shuf (p := 1) (by rw [h2]; rfl) (by decide) hfmt hl hshape h
  case fours => exact vxIssue_shuf (p := 2) (by rw [h2]; rfl) (by decide) hfmt hl hshape h
  case eights => exact vxIssue_shuf (p := 3) (by rw [h2]; rfl) (by decide) hfmt hl hshape h
  case halves => exact vxIssue_shuf (p := 4) (by rw [h2]; rfl) (by decide) hfmt hl hshape h
  case pack => exact vxIssue_writesActive (hruns .pack nofun nofun hnone rfl rfl) hl _ (if_pos hl) h
  case unpack => exact vxIssue_writesActive (hruns .unpack nofun nofun hnone rfl rfl) hl _ (if_pos hl) h
  case pack2of4 => exact vxIssue_pack2of4 (hruns (.pack2of4 one) nofun nofun hnone rfl rfl) hl hsparse h
  case expand =>
    obtain ⟨t', hexec, honly, hlanes⟩ := vxIssue_writes (hruns (.expand one) nofun nofun hnone rfl rfl) hl (fun _ => true) _
      (runExpand_eq _ _ one hsparse) h
    refine ⟨t', hexec, honly, fun j hj hnot => (hlanes j hj).trans ?_⟩
    exact (if_pos rfl).trans (lane_of_zero fmt.width (Tile.expandedLane_of_no_place hnot))

end Sys2Proof.Machine
end


section
/-! Summaries of the vector engine (06, R212), sums and linkage comparators (06, R204; 13, R405 to R408). -/

namespace Sys2Proof.Machine

/-! ## Summaries in SERVICE mode (R212) -/

/-- A tile with other vector flags. -/
def Tile.withFlags (t : Tile) (fl : Flags) : Tile := { t with vxFlags := fl }

section
variable {k : TileIx} {i : Instr} {kind : VxKind} {f : VFields} {fmt : Format} {s : State}

/-- A summary that has run has given its general register the result, and changed nothing else but flags. -/
theorem vxIssue_summary {v : Nat} {bad : Bool} (fl : Flags) (hr : s.runsVx k kind f fmt) (hg : vxWritesG kind = true)
    (hvd : f.vd ≠ 0)
    (hrun : runVx s k ((s.fetched k).enqueueVx kind f) (vxEntry kind f (s.fetched k)) fmt
      = .done ((((s.fetched k).enqueueVx kind f).withFlags fl).giveG (s.fetched k).seq f.vd v bad))
    (h : s.atVector k i (vxReads kind f)) :
    ∃ t', vxIssue k i true kind f s = .next (s.retires k t')
      ∧ t'.reg f.vd = ⟨if bad then 0 else BitVec.ofNat 64 v, true, bad⟩
      ∧ (∀ r, r ≠ f.vd → t'.reg r = (s.fetched k).reg r)
      ∧ t'.vregs = (s.fetched k).vregs ∧ t'.mregs = (s.fetched k).mregs ∧ (s.fetched k).sameMem t' ∧ t'.vxQueue = [] := by
  have howed : (((s.fetched k).enqueueVx kind f).withFlags fl).gPending.contains
      { reg := f.vd, seq := (s.fetched k).seq } = true := (s.fetched k).enqueueVx_owes hg hvd
  obtain ⟨hreg, hothers⟩ := Tile.regBecomes_giveG v bad howed hvd
  obtain ⟨hv, hm, -, hmem⟩ := Tile.giveG_keeps v bad howed
  exact ⟨_, vxIssue_completes hr hrun h, (Tile.reg_vxCompleted _ _).trans hreg,
    fun r hne => (Tile.reg_vxCompleted _ _).trans (hothers r hne), (Tile.vxCompleted_vregs _).trans hv,
    (Tile.vxCompleted_mregs _).trans hm, fun i => (Tile.word_vxCompleted _ i).trans (Tile.word_congr hmem i),
    Tile.vxCompleted_vxQueue _⟩

/-- A counted lane of an instruction of `n` lanes is one below vl. -/
theorem filter_counted (t : Tile) (n : Nat) :
    (List.range n).filter (t.counted n) = (List.range n).filter (fun l => decide (l < t.vl)) :=
  List.filter_congr (fun l hl => by simp [Tile.counted, List.mem_range.mp hl])

/-! ## Summaries in PROGRAM mode (R212) -/

theorem checkedVx_of_program {t : Tile} {e : VxEntry} (hsum : vxSummary e.kind = true) (hprog : t.service = false) :
    checkedVx s k t e = .fault 0x0A 0 := by
  simp only [checkedVx, hsum, hprog, Bool.not_false, Bool.and_self, ite_true]

theorem vxIssue_summary_of_program (hset : kind ≠ .setvl) (hlegal : vxIllegal kind f = false) (hsum : vxSummary kind = true)
    (hprog : (s.fetched k).service = false) (h : s.atVector k i (vxReads kind f)) :
    ∃ t', vxIssue k i true kind f s = .next (s.retires k t') ∧ t'.parked = true
      ∧ ((s.fetched k).fcValid = false → t'.fcUnit = 5 ∧ t'.fcCause = 0x0A) := by
  refine ⟨_, vxIssue_faults (vxIssueCause_of_legal hset hlegal) (checkedVx_of_program hsum hprog) h,
    s.vxFaulted_parked k _ _ _ _, fun hclear => ?_⟩
  obtain ⟨hunit, hcause, -⟩ :=
    s.vxFaulted_record k ((s.fetched k).enqueueVx kind f) (vxEntry kind f (s.fetched k)) 0x0A 0 hclear
  exact ⟨hunit, hcause⟩

/-! ## The tree sum (R204) -/

theorem vxIssue_rsum (hr : s.runsVx k .rsum f fmt) (ha : arithFormat fmt = true) (h : s.atVector k i []) :
    let t := s.fetched k
    let sum := t.laneSum (t.vreg f.vs1.toNat) fmt f.mask
    ∃ t', vxIssue k i true .rsum f s = .next (s.retires k t') ∧ t.vectorOnly t' f.vd
      ∧ (t'.vreg f.vd.toNat).lane fmt.width 0 = (sum.bits % 2 ^ fmt.width, sum.bad)
      ∧ ∀ j, 0 < j → j < fmt.lanes → (t'.vreg f.vd.toNat).lane fmt.width j = (t.vreg f.vd.toNat).lane fmt.width j := by
  have hl := hasLanes_of_arithFormat ha
  have hpos : 0 < fmt.lanes := by
    revert hl
    cases fmt <;> decide
  obtain ⟨t', hexec, honly, hlanes⟩ := vxIssue_writes hr hl (· == 0)
    (fun _ => (s.fetched k).laneSum ((s.fetched k).vreg f.vs1.toNat) fmt f.mask) (if_pos ha) h
  refine ⟨t', hexec, honly, (hlanes 0 hpos).trans (if_pos rfl), fun j hj hlt => (hlanes j hlt).trans (if_neg ?_)⟩
  simpa using Nat.ne_of_gt hj

/-! ## Linkage comparators (13, R405 to R408) -/

/-- A lane of a comparator: the two strings of its half compared. -/
def Tile.comparedLane (t : Tile) (f : VFields) (two : Bool) (g : List Nat → List Nat → Nat × Flags) (j : Nat) : LaneOut :=
  let a := (t.vreg f.vs1.toNat).string j
  let b := if two then (t.vreg f.vs2.toNat).string j else ([], false)
  { bits := (g a.1 b.1).1, bad := a.2 || b.2 || t.maskBad f.mask j, flags := (g a.1 b.1).2 }

theorem vxIssue_compares (hr : s.runsVx k kind f fmt) (hl : fmt.hasLanes = true) (two : Bool)
    (g : List Nat → List Nat → Nat × Flags)
    (hrun : runVx s k ((s.fetched k).enqueueVx kind f) (vxEntry kind f (s.fetched k)) fmt
      = .done (((s.fetched k).enqueueVx kind f).comparePairs f fmt two g)) (h : s.atVector k i (vxReads kind f)) :
    ∃ t', vxIssue k i true kind f s = .next (s.retires k t') ∧ (s.fetched k).vectorOnly t' f.vd
      ∧ ∀ j, j < fmt.lanes → (t'.vreg f.vd.toNat).lane fmt.width j
        = if decide (j < 2) && (s.fetched k).active f.mask fmt.lanes j then
            (((s.fetched k).comparedLane f two g j).bits % 2 ^ fmt.width, ((s.fetched k).comparedLane f two g j).bad)
          else ((s.fetched k).vreg f.vd.toNat).lane fmt.width j :=
  vxIssue_writes hr hl _ ((s.fetched k).comparedLane f two g) hrun h

end

end Sys2Proof.Machine
end

section
/-! Tallies and noise of the vector engine (13, R390, R396, R402). -/

namespace Sys2Proof.Machine

/-! ## vx.tally (13, R390) -/

section
variable {k : Nat} {t : Tile} {e : VxEntry} {fmt : Format} {s : State}

/-- Lanes that are not active send nothing. -/
theorem State.tallyLanes_of_inactive (ls : List Nat) (h : ∀ l ∈ ls, t.active e.f.mask fmt.lanes l = false) :
    s.tallyLanes k e fmt ls t = .done t := by
  induction ls with
  | nil => rfl
  | cons l ls ih =>
    obtain ⟨hl, hls⟩ := List.forall_mem_cons.mp h
    rw [State.tallyLanes, hl]
    exact ih hls

/-- An active lane in the window of its tally adds one outbound entry, while one is free. -/
theorem State.tallyLanes_of_active {l : Nat} {ls : List Nat} {dest : BitVec 64} {ws : List PWord}
    (hl : t.active e.f.mask fmt.lanes l = true)
    (hmsg : s.tallyMessage k t (signedOf fmt.width ((t.vreg e.f.vs1.toNat).lane fmt.width l).1)
      (signedOf fmt.width ((t.vreg e.f.vs2.toNat).lane fmt.width l).1) = some (dest, ws)) (hroom : t.outbound.length < 8) :
    s.tallyLanes k e fmt (l :: ls) t = s.tallyLanes k e fmt ls (t.addOutbound dest true ws false true) := by
  rw [State.tallyLanes, hl]
  simp only [Bool.not_true, Bool.false_eq_true, ite_false, hmsg, if_neg (Nat.not_le.mpr hroom)]

/-- A tally whose first lane alone is active sends one message. -/
theorem State.tallyLanes_of_first_active {dest : BitVec 64} {ws : List PWord} (hpos : 0 < fmt.lanes)
    (hfirst : t.active e.f.mask fmt.lanes 0 = true)
    (hrest : ∀ l, 0 < l → l < fmt.lanes → t.active e.f.mask fmt.lanes l = false)
    (hmsg : s.tallyMessage k t (signedOf fmt.width ((t.vreg e.f.vs1.toNat).lane fmt.width 0).1)
      (signedOf fmt.width ((t.vreg e.f.vs2.toNat).lane fmt.width 0).1) = some (dest, ws)) (hroom : t.outbound.length < 8) :
    s.tallyLanes k e fmt (List.range fmt.lanes) t = .done (t.addOutbound dest true ws false true) := by
  have hrange : List.range fmt.lanes = 0 :: (List.range (fmt.lanes - 1)).map Nat.succ := by
    rw [← List.range_succ_eq_map, Nat.sub_add_cancel hpos]
  rw [hrange, State.tallyLanes_of_active hfirst hmsg hroom]
  refine State.tallyLanes_of_inactive _ (fun l hl => ?_)
  obtain ⟨j, hj, rfl⟩ := List.mem_map.mp hl
  have hj := List.mem_range.mp hj
  exact hrest (j + 1) (Nat.succ_pos j) (by omega)

theorem runTally_eq (hlane : e.lane = 0) (hfmt : fmt = .int32 ∨ fmt = .int64) (hclean : t.pairPoison e.f fmt = false) :
    runTally s k t e fmt = s.tallyLanes k e fmt (List.range fmt.lanes) t := by
  have hformat : (fmt != .int32 && fmt != .int64) = false := by
    obtain rfl | rfl := hfmt <;> rfl
  have hrange : rangeFrom 0 (fmt.lanes - 0) = List.range fmt.lanes := by simp [rangeFrom]
  simp only [runTally, hlane, hclean, hformat, Bool.and_false, lowestCause, Bool.false_eq_true, ite_false, hrange]

end

section
variable {k : TileIx} {i : Instr} {f : VFields} {fmt : Format} {s : State}

/-- A vx.tally whose engine is free runs its lanes at its issue. -/
theorem vxIssue_tally {u : Tile} (hvd : f.vd = 0) (hfmt : Format.ofCode f.fmt = some fmt) (hint : fmt = .int32 ∨ fmt = .int64)
    (hshape : (s.fetched k).shape = false) (hclean : (s.fetched k).pairPoison f fmt = false)
    (hrun : s.tallyLanes k (vxEntry .tally f (s.fetched k)) fmt (List.range fmt.lanes) ((s.fetched k).enqueueVx .tally f) = .done u)
    (h : s.atVector k i []) : vxIssue k i true .tally f s = .next (s.retires k u.vxCompleted) := by
  have hcause : vxIssueCause .tally f (s.fetched k) = none :=
    vxIssueCause_of_legal nofun (by simp [vxIllegal, hfmt, hvd])
  have hchecked : checkedVx s k ((s.fetched k).enqueueVx .tally f) (vxEntry .tally f (s.fetched k)) = .done u := by
    rw [checkedVx_of_admitted rfl hfmt (by rw [Tile.enqueueVx_shape, hshape]; rfl)]
    exact (runTally_eq rfl hint hclean).trans hrun
  refine vxIssue_starts h hcause (State.startVx_of_done (rest := []) ?_ h.2.2 rfl hchecked)
  rw [Tile.enqueueVx, h.2.1]
  rfl

end

/-! ## Noise (13, R402) -/

/-- Reports of some lanes add only to the reports that wait. -/
theorem Tile.asRead_foldl_raise (t : Tile) (c : Nat → Bool) (r : Nat → Report) (ls : List Nat) :
    t.asRead (ls.foldl (fun t l => if c l then t.raise (r l) else t) t)
      ∧ (ls.foldl (fun t l => if c l then t.raise (r l) else t) t).mem = t.mem := by
  induction ls generalizing t with
  | nil => exact ⟨rfl, rfl⟩
  | cons l ls ih =>
    rw [List.foldl_cons]
    split
    · exact ⟨Tile.asRead_trans rfl (ih _).1, (ih _).2⟩
    · exact ih t

/-- The lane of an nz instruction. -/
def Tile.noisyLane (t : Tile) (f : VFields) (ctx : TallyCtx) (j : Nat) : LaneOut :=
  noiseLane ctx ((t.vreg f.vs1.toNat).lane 64 j).1 ((t.vreg f.vs2.toNat).lane 64 j).1

theorem runNoise_eq {s : State} {k : Nat} {t : Tile} {e : VxEntry} {ctx : TallyCtx} (htally : t.tally = some ctx)
    (hclean : t.pairPoison e.f .int64 = false) : ∃ u, runNoise s k t e .int64 ctx.sampler = .done u
      ∧ (t.writeActive e.f .int64 (t.noisyLane e.f ctx)).asRead u
      ∧ u.mem = (t.writeActive e.f .int64 (t.noisyLane e.f ctx)).mem := by
  refine ⟨_, ?_, Tile.asRead_foldl_raise _ (fun l => t.active e.f.mask 8 l && (t.noisyLane e.f ctx l).bad)
    (fun l => s.tileReport k 0x0005 0x0604 clsNote (BitVec.ofNat 64 (((t.vreg e.f.vs1.toNat).lane 64 l).1 % 2 ^ 48)) 0)
    (List.range 8)⟩
  simp only [runNoise, htally, hclean, lowestCause, beq_self_eq_true, bne_self_eq_false, Bool.not_true, Bool.and_false,
    Bool.false_eq_true, ite_false]
  rfl

theorem vxIssue_noise {k : TileIx} {i : Instr} {kind : VxKind} {f : VFields} {s : State} {ctx : TallyCtx}
    (hr : s.runsVx k kind f .int64) (hreads : vxReads kind f = []) (htally : (s.fetched k).tally = some ctx)
    (hclean : (s.fetched k).pairPoison f .int64 = false)
    (hrun : ∀ t : Tile, runVx s k t (vxEntry kind f (s.fetched k)) .int64
      = runNoise s k t (vxEntry kind f (s.fetched k)) .int64 ctx.sampler)
    (h : s.atVector k i []) : ∃ t', vxIssue k i true kind f s = .next (s.retires k t')
      ∧ (s.fetched k).lanesBecome t' f .int64 (fun j =>
        (((s.fetched k).noisyLane f ctx j).bits, ((s.fetched k).noisyLane f ctx j).bad)) ∧ (s.fetched k).vectorOnly t' f.vd := by
  obtain ⟨u, hnoise, hread, hmem⟩ := runNoise_eq (s := s) (k := k) (t := (s.fetched k).enqueueVx kind f)
    (e := vxEntry kind f (s.fetched k)) htally hclean
  have hread := Tile.asRead_vxCompleted hread
  refine ⟨_, vxIssue_completes hr ((hrun _).trans hnoise) (hreads ▸ h), fun j hj => ?_, ?_⟩
  · rw [Tile.vreg_asRead hread]
    exact Tile.lanesBecome_writeActive _ kind f .int64 _ rfl j hj
  · refine Tile.vectorOnly_asRead (Tile.vectorOnly_writeActive _ kind f .int64 _) hread (fun i => ?_)
    rw [Tile.word_vxCompleted, Tile.word_vxCompleted]
    exact Tile.word_congr hmem i

/-! ## The obligation -/

/-- Settles O23: a summary gives its register a value or faults by the mode; sums, comparators and noise write their lanes, and a
tally sends what its active lanes name. -/
theorem vectorSummariesAndLinkage : Obligations.VectorSummariesAndLinkage := by
  unfold Obligations.VectorSummariesAndLinkage
  intro k f fmt s hfmt hshape
  simp only [exec_vxAny, execVxAny, exec_vxAll, execVxAll, exec_vxRedg, execVxRedg, exec_vxLane, execVxLane, exec_vxMtog,
    execVxMtog, exec_vxRsum, execVxRsum, exec_vxBandedit, execVxBandedit, exec_vxJw, execVxJw, exec_vxQsig, execVxQsig,
    exec_vxTally, execVxTally, exec_nzGeom, execNzGeom, exec_nzDgauss, execNzDgauss]
  have hnone : (Format.ofCode f.fmt).isNone = false := by rw [hfmt]; rfl
  have hruns : ∀ kind, kind ≠ .setvl → kind ≠ .tally → vxIllegal kind f = false → vxAdmitted false kind = true →
      vxSummary kind = false ∨ (s.fetched k).service = true → s.runsVx k kind f fmt :=
    fun kind hset htally hlegal hadm hmode => State.runsVx_of_legal kind hset htally hlegal hfmt (hshape ▸ hadm) hmode
  refine ⟨fun ⟨hserve, hvd⟩ hl hvs2 => ⟨fun h => ?any, fun h => ?all⟩, fun ⟨hserve, hvd⟩ ha h => ?redg,
    fun ⟨hserve, hvd⟩ hl h => ?lane, fun ⟨hserve, hvd⟩ h => ?mtog, fun hprog hvs2 c hc h => ?program, fun h ha => ?rsum,
    ⟨fun hf h => ?bandedit, fun hf h => ?jw, fun hf hq h => ?qsig⟩,
    fun h hvd hint hclean => ⟨fun hnoLane => ?silent, fun dest ws hzero hrest hempty hmsg => ?sends⟩,
    fun ctx hf htally hclean => ⟨fun hsampler h => ?geom, fun hsampler h => ?dgauss⟩⟩
  case any =>
    have hr := hruns .any nofun nofun (by simp [vxIllegal, hfmt, hvs2]) rfl (.inr hserve)
    exact vxIssue_summary (s.fetched k).vxFlags hr rfl hvd (if_pos hl) h
  case all =>
    have hr := hruns .all nofun nofun (by simp [vxIllegal, hfmt, hvs2]) rfl (.inr hserve)
    rw [← filter_counted]
    exact vxIssue_summary (s.fetched k).vxFlags hr rfl hvd (if_pos hl) h
  case redg =>
    have hr := hruns .redg nofun nofun hnone rfl (.inr hserve)
    exact vxIssue_summary ((s.fetched k).vxFlags.or _) hr rfl hvd (if_pos ha) h
  case lane =>
    have hr := hruns .lane nofun nofun hnone rfl (.inr hserve)
    exact vxIssue_summary (s.fetched k).vxFlags hr rfl hvd (if_pos hl) h
  case mtog =>
    have hr := hruns .mtog nofun nofun hnone rfl (.inr hserve)
    exact vxIssue_summary (s.fetched k).vxFlags hr rfl hvd rfl h
  case program =>
    simp only [List.mem_cons, List.not_mem_nil, or_false] at hc
    obtain rfl | rfl | rfl | rfl := hc
    · exact vxIssue_summary_of_program (kind := .any) nofun (by simp [vxIllegal, hfmt, hvs2]) rfl hprog h
    · exact vxIssue_summary_of_program (kind := .all) nofun (by simp [vxIllegal, hfmt, hvs2]) rfl hprog h
    · exact vxIssue_summary_of_program (kind := .redg) nofun hnone rfl hprog h
    · exact vxIssue_summary_of_program (kind := .mtog) nofun hnone rfl hprog h
  case rsum => exact vxIssue_rsum (hruns .rsum nofun nofun hnone rfl (.inl rfl)) ha h
  case bandedit =>
    subst hf
    exact vxIssue_compares (hruns .bandedit nofun nofun hnone rfl (.inl rfl)) rfl true
      (fun a b => (bandEdit a b, Flags.none)) rfl h
  case jw =>
    subst hf
    exact vxIssue_compares (hruns .jw nofun nofun hnone rfl (.inl rfl)) rfl true jaroWinkler rfl h
  case qsig =>
    subst hf
    have hlegal : vxIllegal .qsig f = false := by
      obtain hq | hq := hq <;> simp [vxIllegal, hfmt, hq]
    obtain ⟨t', hexec, honly, hlanes⟩ := vxIssue_compares (hruns .qsig nofun nofun hlegal rfl (.inl rfl)) rfl false
      (fun a _ => (qSignature f.vs2.toNat a, Flags.none)) rfl h
    refine ⟨t', hexec, honly, fun j hj => (hlanes j hj).trans ?_⟩
    simp only [Tile.comparedLane, Bool.false_eq_true, ite_false, Bool.or_false]
  case silent =>
    have hrun := State.tallyLanes_of_inactive (s := s) (k := k) (t := (s.fetched k).enqueueVx .tally f)
      (e := vxEntry .tally f (s.fetched k)) (fmt := fmt) (List.range fmt.lanes) (fun l hl => hnoLane l (List.mem_range.mp hl))
    exact ⟨_, vxIssue_tally hvd hfmt hint hshape hclean hrun h, Tile.vxCompleted_outbound _, Tile.vxCompleted_vregs _,
      Tile.vxCompleted_vxQueue _⟩
  case sends =>
    have hpos : 0 < fmt.lanes := by
      obtain rfl | rfl := hint <;> decide
    have hroom : ((s.fetched k).enqueueVx .tally f).outbound.length < 8 := by
      rw [Tile.enqueueVx_outbound, hempty]
      decide
    have hrun := State.tallyLanes_of_first_active (s := s) (k := k) (t := (s.fetched k).enqueueVx .tally f)
      (e := vxEntry .tally f (s.fetched k)) hpos hzero hrest hmsg hroom
    refine ⟨_, OutEntry.mk (s.fetched k).nextRef dest true ws .waiting false true,
      vxIssue_tally hvd hfmt hint hshape hclean hrun h, ?_, rfl, rfl, rfl, Tile.vxCompleted_vxQueue _⟩
    rw [Tile.vxCompleted_outbound, Tile.addOutbound, Tile.enqueueVx_outbound, hempty]
    rfl
  case geom =>
    subst hf
    have hr := hruns .geom nofun nofun hnone rfl (.inl rfl)
    exact vxIssue_noise hr rfl htally hclean (fun t => by rw [hsampler]; rfl) h
  case dgauss =>
    subst hf
    have hr := hruns .dgauss nofun nofun hnone rfl (.inl rfl)
    exact vxIssue_noise hr rfl htally hclean (fun t => by rw [hsampler]; rfl) h

end Sys2Proof.Machine
end


section
/-! Vector loads (06, R199, R213): the active lanes take the bytes at their offsets, and the first check that fails is the
engine's fault. -/

namespace Sys2Proof.Machine

/-! ## The lanes that an access makes (R199) -/

section
variable {t : Tile} {e : VxEntry} {fmt : Format} {j : Nat}

theorem Tile.active_of_mem_accessLanes (h : j ∈ t.accessLanes e fmt) :
    t.active e.f.mask fmt.lanes j = true ∧ j < fmt.lanes := by
  obtain ⟨hrange, hactive⟩ := List.mem_filter.mp h
  have hrange := List.mem_range.mp hrange
  refine ⟨hactive, ?_⟩
  split at hrange <;> omega

/-- An offset register reaches 16 lanes (log entry 41). -/
theorem Tile.contains_accessLanes (hreach : e.kind = .ldx → fmt.lanes ≤ 16) (hstx : e.kind ≠ .stx) (hj : j < fmt.lanes) :
    (t.accessLanes e fmt).contains j = t.active e.f.mask fmt.lanes j := by
  unfold Tile.accessLanes
  rw [Bool.eq_iff_iff, List.contains_iff_mem, List.mem_filter, List.mem_range]
  refine and_iff_right ?_
  split
  case h_1 hk => exact lt_min ((hreach hk).trans_lt' hj) hj
  case h_2 hk => exact absurd hk hstx
  case h_3 => exact hj

theorem Tile.aligned_of_accessCause (hk : e.kind = .ld ∨ e.kind = .st) (h : t.accessCause e fmt = none) :
    e.g1.val.toNat % 64 = 0 := by
  by_contra hne
  have hne : (e.g1.val.toNat % 64 != 0) = true := by simpa using hne
  obtain hk | hk := hk <;> simp [Tile.accessCause, hk, hne] at h

theorem Tile.accessCause_of_unaligned (hk : e.kind = .ld) (h : e.g1.val.toNat % 64 ≠ 0) :
    t.accessCause e fmt = some (0x03, e.g1.val) := by
  simp [Tile.accessCause, hk, h]

theorem withLanesAt_of_hasLanes (r : VxRun) (hl : fmt.hasLanes = true) : withLanesAt e fmt r = r := by
  simp only [withLanesAt, withLanes, hl, Bool.not_true, Bool.false_and, Bool.false_eq_true, ite_false, ite_true]

end

/-! ## Instructions that read local memory into one vector register -/

section
variable {k : TileIx} {i : Instr} {kind : VxKind} {f : VFields} {fmt dst : Format} {s : State}

theorem vxIssue_reads (hr : s.runsVx k kind f fmt) (which : Nat → Bool) (out : Nat → LaneOut) (ws : List Nat)
    (hrun : runVx s k ((s.fetched k).enqueueVx kind f) (vxEntry kind f (s.fetched k)) fmt
      = .done (s.touchAll k ((s.fetched k).vxWrote kind f dst which out) ws)) (h : s.atVector k i (vxReads kind f)) :
    ∃ t', vxIssue k i true kind f s = .next (s.retires k t') ∧ (s.fetched k).vectorOnly t' f.vd
      ∧ (dst.hasLanes = true → ∀ j, j < dst.lanes → (t'.vreg f.vd.toNat).lane dst.width j
        = if which j then ((out j).bits % 2 ^ dst.width, (out j).bad)
          else ((s.fetched k).vreg f.vd.toNat).lane dst.width j) := by
  have hread := Tile.asRead_vxCompleted (s.touchAll_asRead k ws ((s.fetched k).vxWrote kind f dst which out))
  refine ⟨_, vxIssue_completes hr hrun h, ?_, fun hl j hj => ?_⟩
  · refine Tile.vectorOnly_asRead (Tile.vectorOnly_vxWrote _ kind f dst which out) hread (fun i => ?_)
    rw [Tile.word_vxCompleted, Tile.word_vxCompleted, State.word_touchAll]
  · rw [Tile.vreg_asRead hread]
    exact Tile.lane_vxWrote _ kind f dst which out hl hj

/-- A lane of a load: the bytes at its offset, poisoned as their words or its mask bit are. -/
def Tile.loadedLane (t : Tile) (e : VxEntry) (fmt : Format) (j : Nat) : LaneOut :=
  let b := t.bytesAt (t.laneOffset e fmt j).toNat (fmt.width / 8)
  { bits := b.1, bad := b.2 || t.maskBad e.f.mask j }

theorem runLoad_eq {k : Nat} {t : Tile} {e : VxEntry} (h : t.accessCause e fmt = none) : runLoad s k t e fmt
    = .done (s.touchAll k (t.writeLanes e.f.vd.toNat fmt (t.accessLanes e fmt).contains (t.loadedLane e fmt))
        ((t.accessLanes e fmt).map (fun j => (t.laneOffset e fmt j).toNat / 8))) := by
  rw [runLoad, h]
  rfl

theorem runLoad_of_cause {k : Nat} {t : Tile} {e : VxEntry} {c : Nat} {a : BitVec 64} (h : t.accessCause e fmt = some (c, a)) :
    runLoad s k t e fmt = .fault c a := by
  rw [runLoad, h]

theorem vxIssue_loads (hr : s.runsVx k kind f fmt) (hl : fmt.hasLanes = true)
    (hload : ∀ t, runVx s k t (vxEntry kind f (s.fetched k)) fmt
      = withLanesAt (vxEntry kind f (s.fetched k)) fmt (runLoad s k t (vxEntry kind f (s.fetched k)) fmt))
    (hreach : kind = .ldx → fmt.lanes ≤ 16) (hstx : kind ≠ .stx)
    (hc : (s.fetched k).accessCause (vxEntry kind f (s.fetched k)) fmt = none) (h : s.atVector k i (vxReads kind f)) :
    ∃ t', vxIssue k i true kind f s = .next (s.retires k t')
      ∧ (s.fetched k).lanesBecome t' f fmt (fun j =>
        (s.fetched k).bytesAt ((s.fetched k).laneOffset (vxEntry kind f (s.fetched k)) fmt j).toNat (fmt.width / 8))
      ∧ (s.fetched k).vectorOnly t' f.vd := by
  obtain ⟨t', hexec, honly, hlanes⟩ := vxIssue_reads hr _ _ _
    ((hload _).trans ((withLanesAt_of_hasLanes _ hl).trans (runLoad_eq hc))) h
  refine ⟨t', hexec, fun j hj => (hlanes hl j hj).trans ?_, honly⟩
  exact if_congr (Bool.eq_iff_iff.mp (Tile.contains_accessLanes (e := vxEntry kind f (s.fetched k)) hreach hstx hj)) rfl rfl

theorem vxIssue_ld_unaligned (hr : s.runsVx k .ld f fmt) (hl : fmt.hasLanes = true)
    (hbase : ((s.fetched k).reg f.vs1).val.toNat % 64 ≠ 0) (h : s.atVector k i [f.vs1]) :
    ∃ t', vxIssue k i true .ld f s = .next (s.retires k t') ∧ t'.parked = true
      ∧ ((s.fetched k).fcValid = false →
        t'.fcUnit = 5 ∧ t'.fcCause = 0x03 ∧ t'.fcAddr = ((s.fetched k).reg f.vs1).val) := by
  have hcause : ((s.fetched k).enqueueVx .ld f).accessCause (vxEntry .ld f (s.fetched k)) fmt
      = some (0x03, ((s.fetched k).reg f.vs1).val) := Tile.accessCause_of_unaligned rfl hbase
  have hrun : runVx s k ((s.fetched k).enqueueVx .ld f) (vxEntry .ld f (s.fetched k)) fmt
      = .fault 0x03 ((s.fetched k).reg f.vs1).val :=
    (withLanesAt_of_hasLanes (e := vxEntry .ld f (s.fetched k)) _ hl).trans (runLoad_of_cause hcause)
  refine ⟨_, vxIssue_faults hr.legal ((checkedVx_of_runsVx hr).trans hrun) h, s.vxFaulted_parked k _ _ _ _, fun hclear => ?_⟩
  obtain ⟨hunit, hcode, -, haddr⟩ := s.vxFaulted_record k ((s.fetched k).enqueueVx .ld f) (vxEntry .ld f (s.fetched k)) 0x03
    ((s.fetched k).reg f.vs1).val hclear
  exact ⟨hunit, hcode, haddr⟩

end

end Sys2Proof.Machine
end

section
/-! Bytes that the vector engine writes (03, R114, R115; 06, R199 to R201). -/

namespace Sys2Proof.Machine

/-! ## Writes that leave some words, and every register, alone -/

/-- These words read as before, and so do the general, mask and vector registers. -/
def Tile.storesOutside (a b : Tile) (out : Nat → Prop) : Prop :=
  (∀ i, out i → b.word i = a.word i) ∧ (∀ r, b.reg r = a.reg r) ∧ b.mregs = a.mregs ∧ b.vregs = a.vregs

section
variable {out : Nat → Prop} {t u v : Tile}

theorem Tile.storesOutside_refl (t : Tile) : t.storesOutside t out := ⟨fun _ _ => rfl, fun _ => rfl, rfl, rfl⟩

theorem Tile.storesOutside_trans (h : t.storesOutside u out) (g : u.storesOutside v out) : t.storesOutside v out := by
  obtain ⟨hw, hr, hm, hv⟩ := h
  obtain ⟨gw, gr, gm, gv⟩ := g
  exact ⟨fun i hi => (gw i hi).trans (hw i hi), fun r => (gr r).trans (hr r), gm.trans hm, gv.trans hv⟩

theorem Tile.storesOutside_foldl {α : Type} {step : Tile → α → Tile} (l : List α) :
    ∀ t : Tile, (∀ t : Tile, ∀ x ∈ l, t.storesOutside (step t x) out) → t.storesOutside (l.foldl step t) out := by
  induction l with
  | nil => exact fun t _ => t.storesOutside_refl
  | cons x l ih =>
    intro t h
    exact Tile.storesOutside_trans (h t x List.mem_cons_self) (ih _ (fun t y hy => h t y (List.mem_cons_of_mem x hy)))

theorem Tile.storesOutside_putBytes (t : Tile) {i mask : Nat} (w : PWord) (h : mask % 256 = 0 ∨ ¬out i) :
    t.storesOutside (t.putBytes i mask w) out := by
  by_cases hm : mask % 256 = 0
  · rw [Tile.putBytes, if_pos hm]
    exact t.storesOutside_refl
  · have hi : ¬out i := h.resolve_left hm
    obtain ⟨v, heq, -⟩ := Tile.putBytes_eq (t := t) (i := i) (w := w) hm
    refine ⟨fun j hj => t.word_putBytes_other i j mask w (fun e => hi (e ▸ hj)), fun r => ?_, ?_, ?_⟩
    all_goals rw [heq]; simp

theorem Tile.storesOutside_raiseVx (t : Tile) (fl : Flags) : t.storesOutside (t.raiseVx fl) out := t.storesOutside_refl

theorem State.storesOutside_vxDiscard (s : State) (k : Nat) (t : Tile) (a : BitVec 64) :
    t.storesOutside (s.vxDiscard k t a) out := t.storesOutside_refl

/-- A word that some bytes touch holds one of them. -/
theorem byte_of_mem_wordsTouched {off n i : Nat} (h : i ∈ wordsTouched off n) : ∃ m, m < n ∧ (off + m) / 8 = i := by
  unfold wordsTouched at h
  split at h
  case isTrue => cases h
  case isFalse hn =>
    obtain ⟨j, hj, rfl⟩ := List.mem_map.mp h
    have hj := List.mem_range.mp hj
    by_cases h0 : j = 0
    · exact ⟨0, by omega, by omega⟩
    · exact ⟨8 * (off / 8 + j) - off, by omega, by omega⟩

theorem Tile.storesOutside_putByteList (t : Tile) {off : Nat} {bs : List (Nat × Bool)}
    (h : ∀ m, m < bs.length → ¬out ((off + m) / 8)) : t.storesOutside (t.putByteList off bs) out := by
  unfold Tile.putByteList
  refine Tile.storesOutside_foldl _ _ (fun t i hi => t.storesOutside_putBytes _ (.inr ?_))
  obtain ⟨m, hm, rfl⟩ := byte_of_mem_wordsTouched hi
  exact h m hm

/-- A write of some bytes that is discarded where it enters the protected area (R115). -/
def State.vxStore (s : State) (k : Nat) (t : Tile) (p : Bool) (a : BitVec 64) (bs : List (Nat × Bool)) : Tile :=
  if p then s.vxDiscard k t a else t.putByteList a.toNat bs

theorem State.storesOutside_vxStore (s : State) (k : Nat) (t : Tile) (p : Bool) {a : BitVec 64} {bs : List (Nat × Bool)}
    (h : ∀ m, m < bs.length → ¬out ((a.toNat + m) / 8)) : t.storesOutside (s.vxStore k t p a bs) out := by
  unfold State.vxStore
  split
  · exact s.storesOutside_vxDiscard k t a
  · exact t.storesOutside_putByteList h

/-- A list of bytes of which some are absent leaves a word alone that holds none of those present. -/
theorem Tile.storesOutside_putSome (t : Tile) {off : Nat} {bs : List (Option (Nat × Bool))}
    (h : ∀ m b, bs[m]? = some (some b) → ¬out ((off + m) / 8)) : t.storesOutside (t.putSome off bs) out := by
  unfold Tile.putSome
  refine Tile.storesOutside_foldl _ _ (fun t i hi => t.storesOutside_putBytes _ (or_iff_not_imp_right.mpr (fun hi => ?_)))
  have hi : out i := not_not.mp hi
  have hpart : ∀ x ∈ (List.range 8).map (fun j =>
      if off ≤ 8 * i + j then (bs[8 * i + j - off]?).join else none), x = none := by
    intro x hx
    obtain ⟨j, hj, rfl⟩ := List.mem_map.mp hx
    have hj := List.mem_range.mp hj
    split
    case isFalse => rfl
    case isTrue hle =>
      refine Option.eq_none_iff_forall_ne_some.mpr (fun b hb => h _ b (Option.join_eq_some_iff.mp hb) ?_)
      rwa [show (off + (8 * i + j - off)) / 8 = i by omega]
  refine congrArg (· % 256) (List.foldlRecOn (motive := (· = 0)) _ _ rfl (fun m hm x hx => ?_))
  rw [hpart x.2 (List.of_mem_zip hx).2, hm]
  rfl

end

/-! ## Contiguous, strided and indexed stores (R199) -/

/-- An element of blocks of equal length laid end to end lies at its place in its block. -/
theorem getElem?_flatten_blocks {α : Type} (g : Nat → List α) {b : Nat} (hg : ∀ k, (g k).length = b) (n : Nat) :
    ∀ m x, ((List.range n).map g).flatten[m]? = some x → ∃ k i, k < n ∧ i < b ∧ m = k * b + i ∧ (g k)[i]? = some x := by
  induction n with
  | zero => intro m x h; simp at h
  | succ n ih =>
    intro m x h
    have hlen : ((List.range n).map g).flatten.length = n * b := by
      simp [List.length_flatten, Function.comp_def, hg]
    rw [List.range_succ, List.map_append, List.flatten_append, List.getElem?_append, hlen] at h
    split at h
    case isTrue hlt =>
      obtain ⟨k, i, hk, hi, hm, hx⟩ := ih m x h
      exact ⟨k, i, by omega, hi, hm, hx⟩
    case isFalse hge =>
      have hx : (g n)[m - n * b]? = some x := by simpa using h
      have hlt := (List.getElem?_eq_some_iff.mp hx).1
      rw [hg] at hlt
      exact ⟨n, m - n * b, Nat.lt_succ_self n, hlt, by omega, hx⟩

/-- The words that hold no byte of an active lane of an access. -/
def Tile.outsideLanes (t : Tile) (e : VxEntry) (fmt : Format) (i : Nat) : Prop :=
  ∀ j, t.active e.f.mask fmt.lanes j = true → ∀ n, n < fmt.width / 8 → ((t.laneOffset e fmt j).toNat + n) / 8 ≠ i

section
variable {s : State} {k : Nat} {t : Tile} {e : VxEntry} {fmt : Format}

theorem length_byteValues (n v : Nat) (bad : Bool) : (byteValues n v bad).length = n := by simp [byteValues]

/-- The bytes of a lane as a store writes them. -/
def Tile.storedBytes (t : Tile) (e : VxEntry) (fmt : Format) (j : Nat) : List (Nat × Bool) :=
  let l := (t.vreg e.f.vd.toNat).lane fmt.width j
  byteValues (fmt.width / 8) l.1 (l.2 || t.maskBad e.f.mask j)

/-- The offset of a lane of a contiguous access with an aligned base does not wrap. -/
theorem Tile.laneOffset_contiguous (hk : e.kind = .st) (hl : fmt.hasLanes = true) (hbase : e.g1.val.toNat % 64 = 0) {j : Nat}
    (hj : j < fmt.lanes) : (t.laneOffset e fmt j).toNat = e.g1.val.toNat + j * (fmt.width / 8) := by
  have hsmall : j * (fmt.width / 8) < 64 := by
    obtain ⟨⟨c, hc⟩, hpos, hbits⟩ := fmt.lanes_bits hl
    rw [hc, Nat.mul_assoc] at hbits
    rw [hc, Nat.mul_div_cancel_left c (by decide)]
    have hmul := Nat.mul_lt_mul_of_pos_left hj (show 0 < c by omega)
    rw [Nat.mul_comm j c]
    omega
  have hlt := e.g1.val.isLt
  simp only [Tile.laneOffset, hk, BitVec.toNat_add, BitVec.toNat_ofNat]
  omega

theorem runStore_contiguous (hk : e.kind = .st) (hl : fmt.hasLanes = true) (h : t.accessCause e fmt = none) :
    ∃ u, withLanesAt e fmt (runStore s k t e fmt) = .done u ∧ t.storesOutside u (t.outsideLanes e fmt) := by
  have hbase := Tile.aligned_of_accessCause (.inr hk) h
  rw [withLanesAt_of_hasLanes _ hl]
  unfold runStore
  rw [h]
  simp only [hk]
  split
  · exact ⟨_, rfl, t.storesOutside_refl⟩
  · split
    · exact ⟨_, rfl, s.storesOutside_vxDiscard k t _⟩
    · refine ⟨_, rfl, t.storesOutside_putSome (fun m b hm hout => ?_)⟩
      obtain ⟨j, i, hj, hi, rfl, hb⟩ := getElem?_flatten_blocks _ (b := fmt.width / 8) (fun j => by
        split
        · simp [length_byteValues]
        · simp) _ _ _ hm
      split at hb
      case isTrue hact =>
        refine hout j (Tile.active_of_mem_accessLanes (List.contains_iff_mem.mp hact)).1 i hi ?_
        rw [Tile.laneOffset_contiguous hk hl hbase hj, Nat.add_assoc]
      case isFalse => exact absurd (List.eq_of_mem_replicate (List.mem_of_getElem? hb)) nofun

/-- A strided or indexed store writes each lane apart. -/
theorem runStore_apart (hk : e.kind = .sts ∨ e.kind = .stx) (hl : fmt.hasLanes = true) (h : t.accessCause e fmt = none) :
    ∃ u, withLanesAt e fmt (runStore s k t e fmt) = .done u ∧ t.storesOutside u (t.outsideLanes e fmt) := by
  have hrun : withLanesAt e fmt (runStore s k t e fmt) = .done ((t.accessLanes e fmt).foldl (fun u j =>
      s.vxStore k u (t.protects (t.laneOffset e fmt j).toNat (fmt.width / 8)) (t.laneOffset e fmt j)
        (t.storedBytes e fmt j)) t) := by
    rw [withLanesAt_of_hasLanes _ hl, runStore, h]
    obtain hk | hk := hk <;> simp only [hk] <;> rfl
  refine ⟨_, hrun, Tile.storesOutside_foldl _ t (fun u j hj => s.storesOutside_vxStore k u _ (fun m hm hout => ?_))⟩
  rw [Tile.storedBytes, length_byteValues] at hm
  exact hout j (Tile.active_of_mem_accessLanes hj).1 m hm rfl

end

section
variable {k : TileIx} {i : Instr} {kind : VxKind} {f : VFields} {fmt : Format} {s : State} {out : Nat → Prop}

/-- An instruction that has run and written bytes, and no register. -/
theorem vxIssue_stores (hr : s.runsVx k kind f fmt)
    (hrun : ∃ u, runVx s k ((s.fetched k).enqueueVx kind f) (vxEntry kind f (s.fetched k)) fmt = .done u
      ∧ ((s.fetched k).enqueueVx kind f).storesOutside u out) (h : s.atVector k i (vxReads kind f)) :
    (∃ t', vxIssue k i true kind f s = .next (s.retires k t') ∧ (∀ i, out i → t'.word i = (s.fetched k).word i)
        ∧ (∀ r, t'.reg r = (s.fetched k).reg r) ∧ t'.mregs = (s.fetched k).mregs ∧ t'.vxQueue = [])
      ∧ ∃ t', vxIssue k i true kind f s = .next (s.retires k t') ∧ t'.vregs = (s.fetched k).vregs := by
  obtain ⟨u, hrun, hw, hreg, hm, hv⟩ := hrun
  have hexec := vxIssue_completes hr hrun h
  exact ⟨⟨_, hexec, fun i hi => (Tile.word_vxCompleted _ i).trans (hw i hi), fun r => (Tile.reg_vxCompleted _ r).trans (hreg r),
    (Tile.vxCompleted_mregs _).trans hm, Tile.vxCompleted_vxQueue _⟩, _, hexec, (Tile.vxCompleted_vregs _).trans hv⟩

end

end Sys2Proof.Machine
end

section
/-! Conversions of the vector engine that read or write packed arrays (06, R200 to R202). -/

namespace Sys2Proof.Machine

/-! ## vx.cvt (R200) -/

/-- A lane of vx.cvt: converted, or free where an integer leaves the range of an integer (log entry 40). -/
def Tile.convertedLane (t : Tile) (e : VxEntry) (src dst : Format) (mode : Nat → RMode) (j : Nat) : LaneOut :=
  let l := (t.vreg e.f.vs1.toNat).lane src.width j
  let r := convertElem src dst (mode j) (decide (4 ≤ e.f.mask.toNat)) l.1
  { bits := if src.isInt && dst.isInt && r.2.overflow then (Config.intConvert src.width dst.width l.1).toNat else r.1
    bad := l.2, flags := r.2 }

section
variable {t : Tile} {e : VxEntry} {src dst : Format} {mode : Nat → RMode} {j : Nat}

theorem runCvt_eq (mode : Nat → RMode) (hsrc : Format.ofCode (e.f.vs2.setWidth 4) = some src) (hd : dst.hasLanes = true)
    (hs : src.hasLanes = true) : runCvt t e dst mode = .done (t.writeLanes e.f.vd.toNat dst
      (fun j => decide (j < min t.vl (min dst.lanes src.lanes))) (t.convertedLane e src dst mode)) := by
  simp only [runCvt, hsrc, hd, hs, Bool.not_true, Bool.or_self, Bool.false_eq_true, ite_false]
  rfl

theorem Tile.convertedLane_exact {w : Nat} (hmode : mode j = .rne) (hmask : e.f.mask.toNat < 4)
    (hfloat : src.isInt = false ∨ dst.isInt = false) :
    ((t.convertedLane e src dst mode j).bits % 2 ^ w, (t.convertedLane e src dst mode j).bad)
      = ((convertElem src dst .rne false ((t.vreg e.f.vs1.toNat).lane src.width j).1).1 % 2 ^ w,
        ((t.vreg e.f.vs1.toNat).lane src.width j).2) := by
  have hint : (src.isInt && dst.isInt) = false := by
    obtain h | h := hfloat <;> simp [h]
  simp only [Tile.convertedLane, hmode, hint, decide_eq_false (Nat.not_le.mpr hmask), Bool.false_and, Bool.false_eq_true, ite_false]

end

/-! ## vx.ldw and vx.stn (R200) -/

theorem Format.width_le_of_packed {fmt : Format} (h : packedFormat fmt = true) : fmt.width ≤ 32 := by
  revert h
  cases fmt <;> decide

section
variable {s : State} {k : Nat} {t : Tile} {e : VxEntry} {fmt : Format}

/-- The bytes of at most 16 packed elements of at most 32 bits. -/
theorem packedBytes_le (n : Nat) (h : packedFormat fmt = true) : (min n 16 * fmt.width + 7) / 8 ≤ 64 := by
  have hmul := Nat.mul_le_mul (Nat.min_le_right n 16) (Format.width_le_of_packed h)
  omega

/-- The checks of vx.ldw and vx.stn pass for an aligned base 64 bytes before the end of local memory. -/
theorem packedCause_of_good {a : BitVec 64} {p : Bool} {n : Nat} (hal : a.toNat % 8 = 0) (hend : a.toNat + 64 ≤ 0x30000)
    (hn : n ≤ 64) (hp : p = false) (hfmt : packedFormat fmt = true) :
    lowestCause [(a.toNat % 8 != 0, 0x03), (decide (0 < n) && decide (memEnd < a.toNat + n), 0x04),
      (decide (0 < n) && p, 0x0C), (!packedFormat fmt, 0x41)] = none := by
  have hin : ¬memEnd < a.toNat + n := by unfold memEnd; omega
  simp [lowestCause, hal, hin, hp, hfmt]

theorem runLdw_eq (hal : e.g1.val.toNat % 8 = 0) (hend : e.g1.val.toNat + 64 ≤ 0x30000) (hp : e.g1.poison = false)
    (hfmt : packedFormat fmt = true) : ∃ dst which out ws,
      runLdw s k t e fmt = .done (s.touchAll k (t.writeLanes e.f.vd.toNat dst which out) ws) := by
  have hcause := packedCause_of_good (n := (min t.vl 16 * fmt.width + 7) / 8) hal hend (packedBytes_le _ hfmt) hp hfmt
  unfold runLdw
  dsimp only
  rw [hcause]
  exact ⟨_, _, _, _, rfl⟩

theorem length_modifyAt {α : Type} (g : α → α) : ∀ (l : List α) (i : Nat), (modifyAt l i g).length = l.length
  | [], _ => by simp [modifyAt]
  | _ :: _, 0 => by simp [modifyAt]
  | x :: xs, i + 1 => by simp [modifyAt, length_modifyAt g xs i]

theorem length_packBytes (w : Nat) (es : List (Nat × Bool)) : (packBytes w es).length = (es.length * w + 7) / 8 := by
  simp [packBytes]

theorem runStn_stores (mode : Nat → RMode) (hal : e.g1.val.toNat % 8 = 0) (hend : e.g1.val.toNat + 64 ≤ 0x30000)
    (hp : e.g1.poison = false) (hfmt : packedFormat fmt = true) : ∃ u, runStn s k t e fmt mode = .done u
      ∧ t.storesOutside u (fun i => i < e.g1.val.toNat / 8 ∨ e.g1.val.toNat / 8 + 8 ≤ i) := by
  have hbytes := packedBytes_le (fmt := fmt) t.vl hfmt
  have hcause := packedCause_of_good (n := (min t.vl 16 * fmt.width + 7) / 8) hal hend hbytes hp hfmt
  unfold runStn
  dsimp only
  rw [hcause]
  dsimp only
  split
  · exact ⟨_, rfl, t.storesOutside_raiseVx _⟩
  · split
    · exact ⟨_, rfl, Tile.storesOutside_trans (t.storesOutside_raiseVx _) (s.storesOutside_vxDiscard k _ _)⟩
    · refine ⟨_, rfl, Tile.storesOutside_trans (t.storesOutside_raiseVx _) (Tile.storesOutside_putByteList _ (fun m hm => ?_))⟩
      simp only [length_modifyAt, length_packBytes, List.length_map, List.length_range] at hm
      omega

end

/-! ## vx.quant and vx.dequant (R201, R202) -/

theorem length_quantBlock (fmt : Format) (rule : ScaleRule) (modes : List RMode) (vs : List Val) :
    (quantBlock fmt rule modes vs).2.1.length ≤ vs.length := by
  unfold quantBlock
  split
  · simp
  · split
    · simp
    · dsimp only
      split
      · simp
      · simp

theorem Format.width_le_of_mx {fmt : Format} (h : fmt.isMx = true) : fmt.width ≤ 8 := by
  revert h
  cases fmt <;> decide

section
variable {s : State} {k : Nat} {t : Tile} {e : VxEntry} {fmt : Format}

theorem runDequant_eq (hmx : fmt.isMx = true) (hp : (e.g1.poison || e.g2.poison) = false) (hal : e.g1.val.toNat % 8 = 0)
    (hend : e.g1.val.toNat + 32 ≤ 0x30000) (hscale : e.g2.val.toNat < 0x30000) : ∃ which out ws,
      runDequant s k t e fmt true = .done (s.touchAll k (t.writeLanes e.f.vd.toNat .fp32 which out) ws) := by
  have hw := Format.width_le_of_mx hmx
  have hin : ¬memEnd < e.g1.val.toNat + 16 * fmt.width / 8 := by unfold memEnd; omega
  have hin2 : ¬memEnd ≤ e.g2.val.toNat := by unfold memEnd; omega
  unfold runDequant
  dsimp only
  split
  case h_1 hc => simp [lowestCause, hal, hin, hin2, hp, hmx] at hc
  case h_2 => exact ⟨_, _, _, rfl⟩

/-- The one block of 16 FP32 lanes that vx.quant quantises: its scale, its elements with their poison, its flags, its poison. -/
def Tile.quantized16 (t : Tile) (e : VxEntry) (fmt : Format) (mode : Nat → RMode) (b : Nat) :
    Nat × List (Nat × Bool) × Flags × Bool :=
  let lane := fun j => (t.vreg (e.f.vs1.toNat + j / Format.fp32.lanes)).lane Format.fp32.width (j % Format.fp32.lanes)
  let js := rangeFrom (b * 16) 16
  let q := quantBlock fmt .ocp (js.map mode)
    (js.map (fun j => if j < t.vl then decodeFloat .fp32 (lane j).1 else .fin false 0 0))
  let bad := js.any (fun j => decide (j < t.vl) && (lane j).2)
  (q.1, q.2.1.map (fun x => (x, bad)), q.2.2, bad)

theorem Tile.length_quantized16 (t : Tile) (e : VxEntry) (fmt : Format) (mode : Nat → RMode) (b : Nat) :
    (t.quantized16 e fmt mode b).2.1.length ≤ 16 := by
  simp only [Tile.quantized16, List.length_map]
  refine (length_quantBlock _ _ _ _).trans ?_
  simp [rangeFrom]

/-- vx.quant of one block of 16 writes its elements and its scale byte. -/
theorem runQuant_eq (mode : Nat → RMode) (hmx : fmt.isMx = true) (hp : (e.g1.poison || e.g2.poison) = false)
    (hal : e.g1.val.toNat % 8 = 0) (hend : e.g1.val.toNat + 16 ≤ 0x30000) (hscale : e.g2.val.toNat < 0x30000) :
    ∃ fl p q, runQuant s k t e fmt false true false mode = .done (s.vxStore k (s.vxStore k (t.raiseVx fl) p e.g1.val
        (packBytes fmt.width ([t.quantized16 e fmt mode 0].map (fun b => b.2.1)).flatten)) q e.g2.val
      ([t.quantized16 e fmt mode 0].map (fun b => (b.1, b.2.2.2)))) := by
  have hw := Format.width_le_of_mx hmx
  have hin : ¬memEnd < e.g1.val.toNat + 16 * fmt.width / 8 := by unfold memEnd; omega
  have hin2 : ¬memEnd < e.g2.val.toNat + 16 / 16 := by unfold memEnd; omega
  unfold runQuant
  dsimp only
  split
  case h_1 hc => simp [lowestCause, hal, hin, hin2, hp, hmx] at hc
  case h_2 => exact ⟨_, _, _, rfl⟩

theorem runQuant_stores (mode : Nat → RMode) (hmx : fmt.isMx = true) (hp : (e.g1.poison || e.g2.poison) = false)
    (hal : e.g1.val.toNat % 8 = 0) (hend : e.g1.val.toNat + 16 ≤ 0x30000) (hscale : e.g2.val.toNat < 0x30000) :
    ∃ u, runQuant s k t e fmt false true false mode = .done u ∧ t.storesOutside u (fun i => i ≠ e.g2.val.toNat / 8
      ∧ (i < e.g1.val.toNat / 8 ∨ e.g1.val.toNat / 8 + 2 ≤ i)) := by
  obtain ⟨fl, p, q, hrun⟩ := runQuant_eq (s := s) (k := k) (t := t) mode hmx hp hal hend hscale
  refine ⟨_, hrun, Tile.storesOutside_trans (t.storesOutside_raiseVx fl) (Tile.storesOutside_trans
    (s.storesOutside_vxStore k _ p (fun m hm => ?elements)) (s.storesOutside_vxStore k _ q (fun m hm => ?scale)))⟩
  case elements =>
    have hmul := Nat.mul_le_mul (t.length_quantized16 e fmt mode 0) (Format.width_le_of_mx hmx)
    simp only [length_packBytes, List.map_cons, List.map_nil, List.flatten_cons, List.flatten_nil, List.append_nil] at hm
    omega
  case scale =>
    simp only [List.length_map, List.length_singleton] at hm
    omega

end

/-! ## The obligation -/

/-- A vector instruction that has run and written one vector register keeps the words, the general and the mask registers. -/
theorem Tile.keeps_of_vectorOnly {t t' : Tile} {vd : BitVec 5} (h : t.vectorOnly t' vd) :
    (∀ i, True → t'.word i = t.word i) ∧ (∀ r, t'.reg r = t.reg r) ∧ t'.mregs = t.mregs ∧ t'.vxQueue = [] := by
  obtain ⟨-, hm, -, hw, hr, -, hq, -⟩ := h
  exact ⟨fun i _ => hw i, hr, hm, hq⟩

/-- Settles O22: loads and conversions write one vector register, stores the words that hold their bytes. -/
theorem vectorMemory : Obligations.VectorMemory := by
  unfold Obligations.VectorMemory
  intro k f fmt s hfmt
  simp only [exec_vxLd, execVxLd, exec_vxLds, execVxLds, exec_vxLdx, execVxLdx, exec_vxSt, execVxSt, exec_vxSts, execVxSts,
    exec_vxStx, execVxStx, exec_vxLdw, execVxLdw, exec_vxStn, execVxStn, exec_vxCvt, execVxCvt, exec_vxDequant, execVxDequant,
    exec_vxQuant, execVxQuant]
  have hnone : (Format.ofCode f.fmt).isNone = false := by rw [hfmt]; rfl
  have hruns : ∀ kind, kind ≠ .setvl → kind ≠ .tally → vxIllegal kind f = false →
      (∀ shape, vxAdmitted shape kind = true) → vxSummary kind = false → s.runsVx k kind f fmt :=
    fun kind hset htally hlegal hadm hsum => State.runsVx_of_legal kind hset htally hlegal hfmt (hadm _) (.inl hsum)
  refine ⟨fun h hl hp hc => ?ld, fun h hl hp hbase => ?unaligned, fun h hl hc => ?lds, fun h hl hw hc => ?ldx,
    fun h hl hp hc => ?st, fun h hl hc => ?sts, fun h hl hc => ?stx, fun h hmask hp hpacked hal hend => ?ldw,
    fun h hmask hp hpacked hal hend => ?stn, fun src h hvs2 hsrc hmask hl hls => ?cvt, fun h hmx hp hal hend hscale => ?dequant,
    fun h hmx hmask hp hal hend hscale => ?quant⟩
  case ld => exact vxIssue_loads (hruns .ld nofun nofun hnone (fun _ => rfl) rfl) hl (fun _ => rfl) nofun nofun hc h
  case unaligned => exact vxIssue_ld_unaligned (hruns .ld nofun nofun hnone (fun _ => rfl) rfl) hl hbase h
  case lds => exact vxIssue_loads (hruns .lds nofun nofun hnone (fun _ => rfl) rfl) hl (fun _ => rfl) nofun nofun hc h
  case ldx =>
    have hreach : fmt.lanes ≤ 16 := Nat.div_le_of_le_mul (by omega)
    exact vxIssue_loads (hruns .ldx nofun nofun hnone (fun _ => rfl) rfl) hl (fun _ => rfl) (fun _ => hreach) nofun hc h
  case st =>
    exact vxIssue_stores (hruns .st nofun nofun hnone (fun _ => rfl) rfl)
      (runStore_contiguous (t := (s.fetched k).enqueueVx .st f) (e := vxEntry .st f (s.fetched k)) rfl hl hc) h
  case sts =>
    exact (vxIssue_stores (hruns .sts nofun nofun hnone (fun _ => rfl) rfl)
      (runStore_apart (t := (s.fetched k).enqueueVx .sts f) (e := vxEntry .sts f (s.fetched k)) (.inl rfl) hl hc) h).1
  case stx =>
    exact (vxIssue_stores (hruns .stx nofun nofun hnone (fun _ => rfl) rfl)
      (runStore_apart (t := (s.fetched k).enqueueVx .stx f) (e := vxEntry .stx f (s.fetched k)) (.inr rfl) hl hc) h).1
  case ldw =>
    have hr := hruns .ldw nofun nofun (by simp [vxIllegal, hfmt, hmask]) (fun _ => rfl) rfl
    obtain ⟨dst, which, out, ws, hrun⟩ := runLdw_eq (s := s) (k := k) (t := (s.fetched k).enqueueVx .ldw f)
      (e := vxEntry .ldw f (s.fetched k)) hal hend hp hpacked
    obtain ⟨t', hexec, honly, -⟩ := vxIssue_reads hr which out ws hrun h
    exact ⟨t', hexec, Tile.keeps_of_vectorOnly honly⟩
  case stn =>
    have hr := hruns .stn nofun nofun (by simp [vxIllegal, hfmt, roundCode, hmask, badRounding]) (fun _ => rfl) rfl
    exact (vxIssue_stores hr (runStn_stores _ hal hend hp hpacked) h).1
  case cvt =>
    have hr := hruns .cvt nofun nofun (by simp [vxIllegal, hfmt, hvs2, hsrc, roundCode, hmask, badRounding]) (fun _ => rfl) rfl
    obtain ⟨t', hexec, honly, hlanes⟩ := vxIssue_writes hr hl _ _ (runCvt_eq _ hsrc hl hls) h
    refine ⟨⟨t', hexec, Tile.keeps_of_vectorOnly honly⟩, t', hexec, fun j hj hexact => (hlanes j (by omega)).trans ?_⟩
    exact (if_pos (decide_eq_true hj)).trans (Tile.convertedLane_exact
      (by simp [VxEntry.roundMode, roundCode, vxEntry, hmask]) (by simp [vxEntry, hmask]) hexact)
  case dequant =>
    have hr := hruns (.dequant true) nofun nofun hnone (fun _ => rfl) rfl
    obtain ⟨which, out, ws, hrun⟩ := runDequant_eq (s := s) (k := k) (t := (s.fetched k).enqueueVx (.dequant true) f)
      (e := vxEntry (.dequant true) f (s.fetched k)) hmx hp hal hend hscale
    obtain ⟨t', hexec, honly, -⟩ := vxIssue_reads hr which out ws hrun h
    exact ⟨t', hexec, Tile.keeps_of_vectorOnly honly⟩
  case quant =>
    have hr := hruns (.quant false true false) nofun nofun (by simp [vxIllegal, hfmt, roundCode, hmask]) (fun _ => rfl) rfl
    exact (vxIssue_stores hr (runQuant_stores _ hmx hp hal hend hscale) h).1

end Sys2Proof.Machine
end

section
/-! Sync objects (07, R239 to R246): a signal at a tile, and the s instructions at the objects of the tile and at distant ones. -/

namespace Sys2Proof.Machine

/-! ## An object of a tile replaced (R239) -/

/-- The tile with a sync object replaced. -/
def Tile.setSync (t : Tile) (i : Nat) (o : SyncObj) : Tile := { t with syncs := putD {} t.syncs i o }

@[simp] theorem Tile.sync_setSync_same (t : Tile) (i : Nat) (o : SyncObj) : (t.setSync i o).sync i = o :=
  getD_putD_same _ _ _ _

theorem Tile.sync_setSync_other (t : Tile) (i j : Nat) (o : SyncObj) (h : j ≠ i) : (t.setSync i o).sync j = t.sync j :=
  getD_putD_other _ _ _ _ _ h

theorem reached_iff (value target : BitVec 32) : reached value target = true ↔ (value - target).toNat < 2 ^ 31 :=
  decide_eq_true_iff

theorem reached_eq_false_iff (value target : BitVec 32) : reached value target = false ↔ ¬(value - target).toNat < 2 ^ 31 :=
  decide_eq_false_iff_not

/-! ## A signal at a tile (R240 to R242, R246) -/

/-- Whether a signal of an amount ends the waiting for an object. -/
def SyncObj.hit (o : SyncObj) (amount : BitVec 32) : Bool := o.waiting && reached (o.value + amount) o.target

theorem SyncObj.hit_iff (o : SyncObj) (amount : BitVec 32) :
    o.hit amount = true ↔ o.waiting = true ∧ (o.value + amount - o.target).toNat < 2 ^ 31 := by
  rw [SyncObj.hit, Bool.and_eq_true, reached_iff]

/-- An object after a signal: the amount added, the signaller recorded, nobody waiting once the target is reached. -/
def SyncObj.signalled (o : SyncObj) (amount : BitVec 32) (x y : Nat) (count : BitVec 64) : SyncObj :=
  { o with value := o.value + amount, lastX := BitVec.ofNat 10 x, lastY := BitVec.ofNat 10 y, lastCount := count,
           waiting := o.waiting && !o.hit amount }

section
variable (t : Tile) (i : Nat) (amount : BitVec 32) (x y : Nat) (count : BitVec 64)

/-- A signal replaces its object, and ends the wait of a core that a hit reaches. -/
theorem Tile.applySignal_eq : t.applySignal i amount x y count
    = (if (t.sync i).hit amount = true ∧ t.wait = .sync i then t.endWait else t).setSync i
      ((t.sync i).signalled amount x y count) := by
  unfold Tile.applySignal SyncObj.signalled
  cases hhit : (t.sync i).hit amount with
  | false =>
    rw [SyncObj.hit] at hhit
    simp [hhit, Tile.setSync]
  | true =>
    rw [SyncObj.hit] at hhit
    by_cases hw : t.wait = .sync i <;> simp [hhit, hw, Tile.setSync, Tile.endWait]

@[simp] theorem Tile.sync_applySignal : (t.applySignal i amount x y count).sync i = (t.sync i).signalled amount x y count := by
  rw [Tile.applySignal_eq, Tile.sync_setSync_same]

theorem Tile.sync_applySignal_other (j : Nat) (h : j ≠ i) : (t.applySignal i amount x y count).sync j = t.sync j := by
  rw [Tile.applySignal_eq, Tile.sync_setSync_other _ _ _ _ h]
  split <;> rfl

/-- A signal that reaches the target of the waiting core: its wait ends. -/
theorem Tile.applySignal_of_wakes (h : (t.sync i).hit amount = true ∧ t.wait = .sync i) :
    t.applySignal i amount x y count = t.endWait.setSync i ((t.sync i).signalled amount x y count) := by
  rw [Tile.applySignal_eq, if_pos h]

/-- Any other signal changes its object only. -/
theorem Tile.applySignal_of_not_wakes (h : ¬((t.sync i).hit amount = true ∧ t.wait = .sync i)) :
    t.applySignal i amount x y count = t.setSync i ((t.sync i).signalled amount x y count) := by
  rw [Tile.applySignal_eq, if_neg h]

@[simp] theorem Tile.applySignal_regs : (t.applySignal i amount x y count).regs = t.regs := by
  rw [Tile.applySignal_eq]
  split <;> rfl

@[simp] theorem Tile.applySignal_mem : (t.applySignal i amount x y count).mem = t.mem := by
  rw [Tile.applySignal_eq]
  split <;> rfl

@[simp] theorem Tile.applySignal_inject : (t.applySignal i amount x y count).inject = t.inject := by
  rw [Tile.applySignal_eq]
  split <;> rfl

end

/-- Settles O27: the object by its fields, the core by whether the signal wakes it. -/
theorem signalsWakeWaiters : Obligations.SignalsWakeWaiters := by
  unfold Obligations.SignalsWakeWaiters
  intro t i amount x y count
  dsimp only
  simp only [← SyncObj.hit_iff, t.sync_applySignal]
  refine ⟨rfl, rfl, rfl, rfl, rfl, fun j hj => t.sync_applySignal_other i amount x y count j hj,
    t.applySignal_regs i amount x y count, t.applySignal_mem i amount x y count, fun hwakes => ?_, fun hquiet => ?_,
    fun hhit => ?_, fun hmiss => ?_⟩
  · rw [t.applySignal_of_wakes i amount x y count hwakes]
    exact ⟨rfl, rfl, rfl⟩
  · rw [t.applySignal_of_not_wakes i amount x y count hquiet]
    exact ⟨rfl, rfl, rfl⟩
  · simp [SyncObj.signalled, hhit]
  · simp [SyncObj.signalled, hmiss]

end Sys2Proof.Machine
end

section
/-! The s instructions (07, R223 to R225, R239 to R242): at an object of the tile, and at a distant one. -/

namespace Sys2Proof.Machine

/-! ## Operands and their checks (R223 to R225) -/

/-- An operand that no check of its mark or its poison refuses. -/
def Tile.plain (t : Tile) (g : GReg) : Prop := (t.service = true ∨ g.mark = false) ∧ g.poison = false

section
variable {t : Tile} {a b : GReg}

theorem Tile.markFault_of_plain (h : t.plain a) : t.markFault [a] = false :=
  Tile.markFault_of_unmarked (h.1.imp_right fun hm => by rw [any_one, hm])

theorem anyPoison_of_plain (h : t.plain a) : anyPoison [a] = false := by rw [anyPoison, any_one, h.2]

theorem Tile.markFault_of_plain_two (ha : t.plain a) (hb : t.plain b) : t.markFault [a, b] = false := by
  obtain ⟨hma, -⟩ := ha
  obtain ⟨hmb, -⟩ := hb
  refine Tile.markFault_of_unmarked (hma.elim .inl fun hma => hmb.imp_right fun hmb => ?_)
  rw [any_two, hma, hmb, Bool.or_false]

theorem anyPoison_of_plain_two (ha : t.plain a) (hb : t.plain b) : anyPoison [a, b] = false := by
  rw [anyPoison, any_two, ha.2, hb.2, Bool.or_false]

theorem Tile.markFault_nil (t : Tile) : t.markFault [] = false := by simp [Tile.markFault]

end

/-- An s instruction at an object of the tile: level 0, and the fields it does not use zero. -/
def ownObject (f : QFields) : Prop := f.flags = 0 ∧ f.rs1 = 0 ∧ f.qs.toNat < 16

/-- An s instruction above level 0 whose object word passes its checks. -/
def State.farObject (s : State) (k : Nat) (t : Tile) (f : QFields) : Prop :=
  (1 ≤ f.flags.toNat ∧ f.flags.toNat ≤ 3) ∧ f.qs = 0 ∧ t.plain (t.reg f.rs1)
    ∧ s.badObjectWord k f.flags.toNat (t.reg f.rs1).val = false

section
variable {s : State} {k : Nat} {t : Tile} {f : QFields} {w : GReg} {counts : List GReg} {noLevel1 : Bool}

theorem qLevel_of_le (h : f.flags.toNat ≤ 3) : qLevel f = f.flags.toNat := Nat.mod_eq_of_lt (by omega)

theorem qLevel_of_own (h : ownObject f) : qLevel f = 0 := by
  rw [qLevel, h.1]
  rfl

theorem qSyncBad_of_own (h : ownObject f) : qSyncBad f = false := by
  obtain ⟨hflags, hrs1, -⟩ := h
  simp [qSyncBad, qLevel, hflags, hrs1]

theorem qSyncBad_of_far (h : s.farObject k t f) : qSyncBad f = false := by
  obtain ⟨⟨hlo, hhi⟩, hqs, -, -⟩ := h
  rw [qSyncBad, qLevel_of_le hhi, if_neg (by omega), hqs, decide_eq_false (by omega)]
  rfl

variable (hmark : t.markFault counts = false) (hpoison : anyPoison counts = false)
include hmark hpoison

theorem State.syncCause_of_own (h : ownObject f) : s.syncCause k t f w noLevel1 counts = none := by
  obtain ⟨-, -, hn⟩ := id h
  simp [State.syncCause, qLevel_of_own h, hmark, hpoison, show ¬15 < f.qs.toNat by omega]

theorem State.syncCause_of_far (h : s.farObject k t f) (hlevel : noLevel1 = true → f.flags.toNat ≠ 1) :
    s.syncCause k t f (t.reg f.rs1) noLevel1 counts = none := by
  obtain ⟨⟨hlo, hhi⟩, -, hw, hbad⟩ := h
  have hl : (noLevel1 && f.flags.toNat == 1) = false := by
    cases noLevel1 with
    | false => rfl
    | true => simpa using hlevel rfl
  have hfar : (f.flags.toNat != 0) = true := bne_iff_ne.mpr (by omega)
  simp [State.syncCause, qLevel_of_le hhi, hfar, hmark, hpoison, hl, hbad, Tile.markFault_of_plain hw, hw.2]

end

/-! ## Packets of a signal and of a request (Table 9.2, R621; log entry 28) -/

section
variable (s : State) (k level : Nat) (w : BitVec 64) (amount : BitVec 32)

theorem State.signalPacket_op : (s.signalPacket k level w amount).op = .signal := by
  unfold State.signalPacket
  dsimp only
  split <;> rfl

theorem State.signalPacket_operand : (s.signalPacket k level w amount).operand
    = BitVec.ofNat 64 (amount.toNat + field w 0 (if level = 2 then 6 else 4) * 2 ^ 32 + level * 2 ^ 38) := by
  unfold State.signalPacket
  dsimp only
  split <;> rfl

theorem field_object_lt : field w 0 (if level = 2 then 6 else 4) < 2 ^ 6 := by
  split
  · exact field_lt w 0 6
  · exact (field_lt w 0 4).trans (by decide)

/-- A signal's packet carries its amount in bits 31:0. -/
theorem State.signalPacket_amount :
    field (s.signalPacket k level w amount).operand 0 32 = amount.toNat := by
  have hobj := field_object_lt level w
  have ha := amount.isLt
  rw [s.signalPacket_operand, field, BitVec.toNat_ofNat]
  omega

/-- A signal's packet carries its level in bits 39:38. -/
theorem State.signalPacket_level (hl : level ≤ 3) : field (s.signalPacket k level w amount).operand 38 2 = level := by
  have hobj := field_object_lt level w
  have ha := amount.isLt
  rw [s.signalPacket_operand, field, BitVec.toNat_ofNat]
  omega

end

/-! ## The tile's own objects (R239 to R242) -/

section
variable {k : TileIx} {f : QFields} {s : State}

/-- What s.trywait and s.read return of an object. -/
def SyncObj.answer (o : SyncObj) (isRead : Bool) : BitVec 64 :=
  if isRead then o.value.setWidth 64 else if reached o.value o.target then 1 else 0

theorem exec_sWait_reached (h : s.atInsn k (.sWait k f) [f.rs1]) (hown : ownObject f) (hrd : f.rd = 0)
    (hhit : reached ((s.fetched k).sync f.qs.toNat).value ((s.fetched k).sync f.qs.toNat).target = true) :
    exec (.sWait k f) s = .next (s.retires k (s.fetched k)) := by
  rw [exec_sWait, execSWait]
  refine issue_retire h _ ?_
  rw [if_neg (by simp [hrd, qSyncBad_of_own hown]), State.syncCause_of_own (Tile.markFault_nil _) rfl hown]
  dsimp only
  rw [if_pos (qLevel_of_own hown), if_pos hhit]

theorem exec_sWait_waits (h : s.atInsn k (.sWait k f) [f.rs1]) (hown : ownObject f) (hrd : f.rd = 0)
    (hmiss : reached ((s.fetched k).sync f.qs.toNat).value ((s.fetched k).sync f.qs.toNat).target = false) :
    exec (.sWait k f) s = .next (s.setTile k { (s.fetched k).setSync f.qs.toNat
      { (s.fetched k).sync f.qs.toNat with waiting := true } with wait := .sync f.qs.toNat }).bump := by
  rw [exec_sWait, execSWait]
  refine issue_hold h _ ?_
  rw [if_neg (by simp [hrd, qSyncBad_of_own hown]), State.syncCause_of_own (Tile.markFault_nil _) rfl hown]
  dsimp only
  rw [if_pos (qLevel_of_own hown), if_neg (Bool.eq_false_iff.mp hmiss)]
  rfl

theorem syncQuery_own {i : Instr} {isRead : Bool} (h : s.atInsn k i [f.rs1]) (hown : ownObject f) : syncQuery k i f isRead s
    = .next (s.retires k ((s.fetched k).setReg f.rd { val := ((s.fetched k).sync f.qs.toNat).answer isRead })) := by
  unfold syncQuery
  refine issue_retire h _ ?_
  rw [if_neg (by simp [qSyncBad_of_own hown]), State.syncCause_of_own (Tile.markFault_nil _) rfl hown]
  dsimp only
  rw [if_pos (qLevel_of_own hown)]
  rfl

theorem exec_sSignal_own (h : s.atInsn k (.sSignal k f) [f.rd, f.rs1]) (hown : ownObject f)
    (ha : (s.fetched k).plain ((s.fetched k).reg f.rd)) : exec (.sSignal k f) s
    = .next (s.retires k (s.ownSignal k (s.fetched k) f.qs.toNat (((s.fetched k).reg f.rd).val.setWidth 32))) := by
  rw [exec_sSignal, execSSignal]
  refine issue_retire h _ ?_
  rw [if_neg (by simp [qSyncBad_of_own hown]), State.syncCause_of_own (Tile.markFault_of_plain ha) (anyPoison_of_plain ha) hown]
  dsimp only
  rw [if_pos (qLevel_of_own hown)]

theorem exec_sSet_own (h : s.atInsn k (.sSet k f) [f.rd, f.rs1]) (hflags : f.flags = 0) (hn : f.qs.toNat < 16)
    (hv : (s.fetched k).plain ((s.fetched k).reg f.rd)) (hg : (s.fetched k).plain ((s.fetched k).reg f.rs1)) :
    exec (.sSet k f) s = .next (s.retires k ((s.fetched k).setSync f.qs.toNat { (s.fetched k).sync f.qs.toNat with
      value := ((s.fetched k).reg f.rd).val.setWidth 32, target := ((s.fetched k).reg f.rs1).val.setWidth 32 })) := by
  rw [exec_sSet, execSSet]
  refine issue_retire h _ ?_
  rw [if_neg (not_not_intro hflags), Tile.markFault_of_plain_two hv hg, anyPoison_of_plain_two hv hg,
    decide_eq_false (show ¬15 < f.qs.toNat by omega)]
  rfl

/-! ## Distant objects (R224, R239, R242; log entry 28) -/

/-- A signal to a distant object that is no tile's outside the paddock leaves as one packet. -/
theorem exec_sSignal_far (h : s.atInsn k (.sSignal k f) [f.rd, f.rs1]) (hfar : s.farObject k (s.fetched k) f)
    (ha : (s.fetched k).plain ((s.fetched k).reg f.rd))
    (hinside : f.flags.toNat = 1 →
      onGrid (field ((s.fetched k).reg f.rs1).val 30 10) (field ((s.fetched k).reg f.rs1).val 40 10) = true
      ∧ s.present (tileAt (field ((s.fetched k).reg f.rs1).val 30 10) (field ((s.fetched k).reg f.rs1).val 40 10)) = true
      ∧ s.ownerOf (tileAt (field ((s.fetched k).reg f.rs1).val 30 10) (field ((s.fetched k).reg f.rs1).val 40 10)) = s.ownerOf k) :
    exec (.sSignal k f) s = .next (s.retires k ((s.fetched k).send
      (s.signalPacket k f.flags.toNat ((s.fetched k).reg f.rs1).val (((s.fetched k).reg f.rd).val.setWidth 32)))) := by
  obtain ⟨⟨hlo, hhi⟩, -⟩ := id hfar
  rw [exec_sSignal, execSSignal]
  refine issue_retire h _ ?_
  rw [if_neg (by simp [qSyncBad_of_far hfar]),
    State.syncCause_of_far (Tile.markFault_of_plain ha) (anyPoison_of_plain ha) (noLevel1 := false) hfar nofun]
  dsimp only
  rw [qLevel_of_le hhi, if_neg (by omega)]
  refine if_neg ?_
  rintro ⟨h1, hstray⟩
  obtain ⟨hgrid, hpresent, howner⟩ := hinside h1
  rw [hgrid, hpresent, howner] at hstray
  simp at hstray

theorem exec_sWait_far (h : s.atInsn k (.sWait k f) [f.rs1]) (hfar : s.farObject k (s.fetched k) f) (h1 : f.flags.toNat ≠ 1)
    (hrd : f.rd = 0) : exec (.sWait k f) s = .next (s.setTile k
      { (s.fetched k).send (s.askPacket k f.flags.toNat ((s.fetched k).reg f.rs1).val 1) with
        wait := .remoteSync f.flags.toNat ((s.fetched k).reg f.rs1).val }).bump := by
  obtain ⟨⟨hlo, hhi⟩, -⟩ := id hfar
  rw [exec_sWait, execSWait]
  refine issue_hold h _ ?_
  rw [if_neg (by simp [hrd, qSyncBad_of_far hfar]), State.syncCause_of_far (Tile.markFault_nil _) rfl hfar (fun _ => h1)]
  dsimp only
  rw [qLevel_of_le hhi, if_neg (by omega)]

theorem syncQuery_far {i : Instr} {isRead : Bool} (h : s.atInsn k i [f.rs1]) (hfar : s.farObject k (s.fetched k) f)
    (h1 : f.flags.toNat ≠ 1) : syncQuery k i f isRead s = .next (s.setTile k
      { (s.fetched k).send (s.askPacket k f.flags.toNat ((s.fetched k).reg f.rs1).val (if isRead then 3 else 2)) with
        wait := .reply f.rd isRead ((s.fetched k).reg f.rs1).val }).bump := by
  obtain ⟨⟨hlo, hhi⟩, -⟩ := id hfar
  unfold syncQuery
  refine issue_hold h _ ?_
  rw [if_neg (by simp [qSyncBad_of_far hfar]), State.syncCause_of_far (Tile.markFault_nil _) rfl hfar (fun _ => h1)]
  dsimp only
  rw [qLevel_of_le hhi, if_neg (by omega)]

end

/-! ## The obligation -/

/-- Settles O26: each s instruction at an object of the tile, then at a distant one. -/
theorem syncObjects : Obligations.SyncObjects := by
  unfold Obligations.SyncObjects
  intro k f s
  dsimp only
  have hfar : (f.flags.toNat = 2 ∨ f.flags.toNat = 3) ∧ f.qs = 0 ∧ (s.fetched k).plain ((s.fetched k).reg f.rs1)
      ∧ s.badObjectWord k f.flags.toNat ((s.fetched k).reg f.rs1).val = false →
      s.farObject k (s.fetched k) f ∧ f.flags.toNat ≠ 1 := fun h => ⟨⟨by omega, h.2⟩, by omega⟩
  refine ⟨fun h hown hrd => ⟨fun hhit => ?_, fun hmiss => ?_⟩, fun hown => ⟨fun h => ?_, fun h => ?_⟩,
    fun h hown ha _ => ?_, fun h hflags hn hv hg => ?_, fun h hw ha => ?_, fun hrd h hd => ?_, fun h hd => ?_, fun h hd => ?_⟩
  case refine_1 => exact exec_sWait_reached h hown hrd ((reached_iff _ _).mpr hhit)
  case refine_2 =>
    exact ⟨_, exec_sWait_waits h hown hrd ((reached_eq_false_iff _ _).mpr hmiss), rfl, rfl, Tile.sync_setSync_same _ _ _,
      fun i hi => Tile.sync_setSync_other _ _ _ _ hi⟩
  case refine_3 =>
    rw [exec_sTrywait, execSTrywait, syncQuery_own h hown]
    simp only [SyncObj.answer, Bool.false_eq_true, ite_false, reached_iff]
  case refine_4 =>
    rw [exec_sRead, execSRead, syncQuery_own h hown]
    rfl
  case refine_5 =>
    refine ⟨_, exec_sSignal_own h hown ha, ?_⟩
    rw [State.ownSignal, Tile.sync_applySignal]
    exact ⟨rfl, rfl, rfl, rfl, rfl, fun i hi => Tile.sync_applySignal_other _ _ _ _ _ _ i hi,
      Tile.applySignal_inject _ _ _ _ _ _, fun r => by simp [Tile.reg]⟩
  case refine_6 =>
    exact ⟨_, exec_sSet_own h hflags hn hv hg, Tile.sync_setSync_same _ _ _, fun i hi => Tile.sync_setSync_other _ _ _ _ hi,
      fun _ => rfl⟩
  case refine_7 =>
    suffices hx : s.farObject k (s.fetched k) f ∧ (f.flags.toNat = 1 → _) by
      obtain ⟨hobj, hinside⟩ := hx
      exact ⟨_, exec_sSignal_far h hobj ha hinside, State.signalPacket_op _ _ _ _ _,
        State.signalPacket_amount _ _ _ _ _, State.signalPacket_level _ _ _ _ _ hobj.1.2⟩
    rcases hw with hd | ⟨h1, hqs, hplain, hbad, hinside⟩
    · exact ⟨(hfar hd).1, fun h1 => absurd h1 (hfar hd).2⟩
    · exact ⟨⟨by omega, hqs, hplain, by rw [h1]; exact hbad⟩, fun _ => hinside⟩
  case refine_8 => exact exec_sWait_far h (hfar hd).1 (hfar hd).2 hrd
  case refine_9 => exact syncQuery_far h (hfar hd).1 (hfar hd).2
  case refine_10 => exact syncQuery_far h (hfar hd).1 (hfar hd).2

end Sys2Proof.Machine
end

section
/-! Sending (07, R223 to R232): q.send and q.trysend at their issue, and the entry that leaves the outbound buffer. -/

namespace Sys2Proof.Machine

/-! ## The image of a message (R223, R225) -/

/-- The bytes of the image that a q.send or q.trysend names. -/
def imageBytes (f : QFields) : Nat := if f.flags = 1 then 32 else 16

theorem qFlag_zero {f : QFields} (h : f.flags.toNat < 2) : qFlag f 0 = (f.flags == 1) := by
  have hone : f.flags = 1 ↔ f.flags.toNat = 1 := BitVec.toNat_inj.symm
  rw [qFlag, Bool.eq_iff_iff, beq_iff_eq, beq_iff_eq, hone]
  omega

theorem imageBytes_eq (f : QFields) : (if (f.flags == 1) = true then 32 else 16) = imageBytes f := by
  simp only [beq_iff_eq, imageBytes]

/-- What q.send and q.trysend ask of their operands, and of the accesses queued before them, to take their image. -/
def Tile.sendable (t : Tile) (f : QFields) : Prop :=
  (t.reg f.rs1).val.toNat % imageBytes f = 0 ∧ (t.reg f.rs1).val.toNat + imageBytes f ≤ 0x30000
    ∧ (t.service = true ∨ (t.reg f.qs).mark = false) ∧ ((t.reg f.rs1).poison || (t.reg f.qs).poison) = false
    ∧ t.mustWait t.seq (t.reg f.rs1).val.toNat (imageBytes f) = false

theorem Tile.sendCause_of_sendable {t : Tile} {f : QFields} (h : t.sendable f) :
    t.sendCause (t.reg f.rs1) (t.reg f.qs) (f.flags == 1) = none := by
  obtain ⟨halign, hend, hmark, hpoison, -⟩ := h
  have hmark : t.markFault [t.reg f.qs] = false := Tile.markFault_of_unmarked (hmark.imp_right fun hm => by rw [any_one, hm])
  have hend : ¬memEnd < (t.reg f.rs1).val.toNat + imageBytes f := Nat.not_lt.mpr hend
  rw [Tile.sendCause, imageBytes_eq, halign, decide_eq_false hend, hmark, anyPoison, any_two, hpoison]
  rfl

theorem Tile.not_mustWait_of_sendable {t : Tile} {f : QFields} (h : t.sendable f) :
    ¬t.mustWait t.seq (t.reg f.rs1).val.toNat (imageBytes f) = true := by
  obtain ⟨-, -, -, -, hfree⟩ := h
  exact Bool.eq_false_iff.mp hfree

theorem Tile.sendCause_of_misaligned {t : Tile} {f : QFields} {dest : GReg}
    (h : (t.reg f.rs1).val.toNat % imageBytes f ≠ 0) : t.sendCause (t.reg f.rs1) dest (f.flags == 1) = some 0x03 := by
  rw [Tile.sendCause, imageBytes_eq, bne_iff_ne.mpr h]
  rfl

/-- The words of the image. -/
def Tile.imageWords (t : Tile) (f : QFields) : List PWord := t.words ((t.reg f.rs1).val.toNat / 8) (imageBytes f / 8)

/-- The tile once the image has been read. -/
def State.imageRead (s : State) (k : Nat) (t : Tile) (f : QFields) : Tile :=
  s.touchAll k t (rangeFrom ((t.reg f.rs1).val.toNat / 8) (imageBytes f / 8))

theorem State.readImage_eq (s : State) (k : Nat) (t : Tile) (f : QFields) :
    s.readImage k t (t.reg f.rs1).val.toNat (f.flags == 1) = (t.imageWords f, s.imageRead k t f) := by
  have hwords : (if (f.flags == 1) = true then 4 else 2) = imageBytes f / 8 := by
    simp only [beq_iff_eq, imageBytes]
    split <;> rfl
  rw [State.readImage, hwords]
  rfl

/-! ## An entry made (R226, R231) -/

/-- The entry that an image makes in the outbound buffer. -/
def Tile.imageEntry (t : Tile) (f : QFields) (trySend : Bool) : OutEntry :=
  OutEntry.mk t.nextRef (t.reg f.qs).val (f.flags == 1) (t.imageWords f) .waiting trySend false

/-- The tile with its image read and entered in the outbound buffer. -/
def State.imageEntered (s : State) (k : Nat) (t : Tile) (f : QFields) (trySend : Bool) : Tile :=
  (s.imageRead k t f).addOutbound (t.reg f.qs).val (f.flags == 1) (t.imageWords f) trySend false

/-- An image entered: one more entry, and registers, words and queues as before. -/
theorem State.imageEntered_enters (s : State) (k : Nat) (t : Tile) (f : QFields) (trySend : Bool) :
    (s.imageEntered k t f trySend).outbound = t.outbound ++ [t.imageEntry f trySend]
      ∧ (s.imageEntered k t f trySend).nextRef = t.nextRef + 1 ∧ (s.imageEntered k t f trySend).pc = t.pc
      ∧ t.sameMem (s.imageEntered k t f trySend) ∧ (∀ r, (s.imageEntered k t f trySend).reg r = t.reg r)
      ∧ (s.imageEntered k t f trySend).queues = t.queues := by
  unfold State.imageEntered Tile.imageEntry
  have hmem : t.sameMem (s.imageRead k t f) := s.word_touchAll k _ t
  have hread : t.asRead (s.imageRead k t f) := s.touchAll_asRead k _ t
  generalize s.imageRead k t f = u at hmem hread ⊢
  refine ⟨?_, ?_, ?_, hmem, fun r => ?_, ?_⟩ <;> rw [hread] <;> rfl

/-! ## q.send and q.trysend at their issue (R226, R231, R248) -/

section
variable {k : TileIx} {f : QFields} {s : State} (hf : f.flags.toNat < 2)
include hf

theorem exec_qSend_enters (h : s.atInsn k (.qSend k f) [f.rs1, f.qs]) (hsend : (s.fetched k).sendable f) (hrd : f.rd = 0)
    (hroom : (s.fetched k).outbound.length < 8) :
    exec (.qSend k f) s = .next (s.retires k (s.imageEntered k (s.fetched k) f false)) := by
  rw [exec_qSend, execQSend]
  refine issue_retire h _ ?_
  rw [qFlag_zero hf, if_neg (not_or.mpr ⟨not_not_intro hrd, by omega⟩), Tile.sendCause_of_sendable hsend]
  dsimp only
  rw [imageBytes_eq, if_neg (Tile.not_mustWait_of_sendable hsend), if_neg (Nat.not_le.mpr hroom), State.readImage_eq]
  rfl

theorem exec_qSend_full (h : s.atInsn k (.qSend k f) [f.rs1, f.qs]) (hsend : (s.fetched k).sendable f) (hrd : f.rd = 0)
    (hfull : 8 ≤ (s.fetched k).outbound.length) : exec (.qSend k f) s = .next (s.setTile k { s.fetched k with
      wait := .sendFull ((s.fetched k).reg f.qs).val (f.flags == 1) ((s.fetched k).reg f.rs1).val }).bump := by
  rw [exec_qSend, execQSend]
  refine issue_hold h _ ?_
  rw [qFlag_zero hf, if_neg (not_or.mpr ⟨not_not_intro hrd, by omega⟩), Tile.sendCause_of_sendable hsend]
  dsimp only
  rw [imageBytes_eq, if_neg (Tile.not_mustWait_of_sendable hsend), if_pos hfull]

theorem exec_qTrysend_enters (h : s.atInsn k (.qTrysend k f) [f.rs1, f.qs]) (hsend : (s.fetched k).sendable f)
    (hroom : (s.fetched k).outbound.length < 8) : exec (.qTrysend k f) s = .next (s.setTile k
      { s.imageEntered k (s.fetched k) f true with wait := .trySend f.rd (s.fetched k).nextRef }).bump := by
  have hnext : (s.imageRead k (s.fetched k) f).nextRef = (s.fetched k).nextRef := by
    rw [show (s.fetched k).asRead (s.imageRead k (s.fetched k) f) from s.touchAll_asRead k _ _]
  rw [exec_qTrysend, execQTrysend]
  refine issue_hold h _ ?_
  rw [qFlag_zero hf, if_neg (by omega), Tile.sendCause_of_sendable hsend]
  dsimp only
  rw [imageBytes_eq, if_neg (Tile.not_mustWait_of_sendable hsend), if_neg (Nat.not_le.mpr hroom), State.readImage_eq, ← hnext]
  rfl

theorem exec_qTrysend_full (h : s.atInsn k (.qTrysend k f) [f.rs1, f.qs]) (hsend : (s.fetched k).sendable f)
    (hfull : 8 ≤ (s.fetched k).outbound.length) :
    exec (.qTrysend k f) s = .next (s.retires k ((s.fetched k).setReg f.rd { val := 2 })) := by
  rw [exec_qTrysend, execQTrysend]
  refine issue_retire h _ ?_
  rw [qFlag_zero hf, if_neg (by omega), Tile.sendCause_of_sendable hsend]
  dsimp only
  rw [imageBytes_eq, if_neg (Tile.not_mustWait_of_sendable hsend), if_pos hfull]

/-- A misaligned image is MISALIGNED of the queue engine, unit 3, for either instruction. -/
theorem exec_send_misaligned (hrd : f.rd = 0) (hmis : ((s.fetched k).reg f.rs1).val.toNat % imageBytes f ≠ 0) {c : Instr}
    (hc : c ∈ [Instr.qSend k f, .qTrysend k f]) (h : s.atInsn k c [f.rs1, f.qs]) :
    exec c s = .next (s.faults k 3 0x03 ((s.fetched k).reg f.rs1).val) := by
  simp only [List.mem_cons, List.not_mem_nil, or_false] at hc
  rcases hc with rfl | rfl
  · rw [exec_qSend, execQSend]
    refine issue_fault h 3 0x03 _ ?_
    rw [qFlag_zero hf, if_neg (not_or.mpr ⟨not_not_intro hrd, by omega⟩), Tile.sendCause_of_misaligned hmis]
    rfl
  · rw [exec_qTrysend, execQTrysend]
    refine issue_fault h 3 0x03 _ ?_
    rw [qFlag_zero hf, if_neg (by omega), Tile.sendCause_of_misaligned hmis]
    rfl

end

/-! ## An entry leaves the buffer (R227, R230, R232) -/

/-- The entries of an outbound buffer with those of a number in another state. -/
def restate (l : List OutEntry) (ref : Nat) (st : OutState) : List OutEntry :=
  l.map (fun x => if x.ref = ref then { x with state := st } else x)

theorem restate_head (e : OutEntry) (rest : List OutEntry) (st : OutState) (h : ∀ x ∈ rest, x.ref ≠ e.ref) :
    restate (e :: rest) e.ref st = { e with state := st } :: rest := by
  have hrest : rest.map (fun x => if x.ref = e.ref then { x with state := st } else x) = rest.map id :=
    List.map_congr_left fun x hx => if_neg (h x hx)
  rw [restate, List.map_cons, if_pos rfl, hrest, List.map_id]

section
variable {k : TileIx} {s : State} {e : OutEntry} (herr : s.destError k e.dest = false) (hsel : selectorOf e.dest = 0)
  (haway : tileAt (field e.dest 30 10) (field e.dest 40 10) ≠ k) (hch : s.channelOf (s.ownerOf k) e.dest = none)

/-- The tile with its entry sent into the mesh. -/
def State.entrySent (s : State) (k : Nat) (t : Tile) (e : OutEntry) : Tile :=
  { t with outbound := restate t.outbound e.ref .sent, inject := t.inject ++ [s.msgPacket k e] }

theorem State.peerHalted_of_tile (s : State) {w : BitVec 64} (hsel : selectorOf w = 0) : s.peerHalted w = false := by
  rw [State.peerHalted, hsel]
  rfl

theorem State.msgPacket_of_tile (s : State) (k : Nat) {e : OutEntry} (hsel : selectorOf e.dest = 0) :
    (s.msgPacket k e).op = .msg ∧ (s.msgPacket k e).data = flitPoison e.words
      ∧ (s.msgPacket k e).queue = field e.dest 0 5 ∧ (s.msgPacket k e).tag.ref = e.ref := by
  unfold State.msgPacket
  rw [if_pos hsel]
  exact ⟨rfl, rfl, rfl, rfl⟩

theorem State.hasCredit_of_noChannel (hch : s.channelOf (s.ownerOf k) e.dest = none) : s.hasCredit k e = true := by
  rw [State.hasCredit, hch]

include herr hsel haway in
theorem State.sendEntry_mesh (t : Tile) : s.sendEntry k t e = s.entrySent k t e := by
  unfold State.sendEntry
  rw [if_neg (Bool.eq_false_iff.mp herr), if_neg (Bool.eq_false_iff.mp (s.peerHalted_of_tile hsel)),
    if_neg (fun h => haway h.2)]
  rfl

include herr hsel haway hch

theorem State.sendAndCredit_mesh : s.sendAndCredit k e = s.setTile k (s.entrySent k (s.tile k) e) := by
  rw [State.sendAndCredit, hch, State.sendEntry_mesh herr hsel haway]

variable {rest : List OutEntry} (hruns : s.runs k) (hstop : (s.tile k).stopped = false) (hout : (s.tile k).outbound = e :: rest)
include hruns hstop hout

theorem exec_outboundSend_head (hst : e.state = .waiting) :
    exec (.outboundSend k 0) s = .next (s.setTile k (s.entrySent k (s.tile k) e)).bump := by
  obtain ⟨hpresent, hclocked⟩ := hruns
  have hready : (e.state = .waiting && !behindSame (e :: rest) e && s.hasCredit k e) = true := by
    simp [hst, behindSame, State.hasCredit_of_noChannel hch]
  rw [exec_outboundSend, execOutboundSend, if_neg (by simp [hpresent, hclocked, hstop]), hout, List.getElem?_cons_zero]
  dsimp only
  rw [if_pos hready, State.sendAndCredit_mesh herr hsel haway hch]

theorem exec_msgResendTimeout_head (hst : e.state = .refused false) :
    exec (.msgResendTimeout k 0) s = .next (s.setTile k (s.entrySent k (s.tile k) e)).bump := by
  obtain ⟨hpresent, hclocked⟩ := hruns
  rw [exec_msgResendTimeout, execMsgResendTimeout, if_neg (by simp [hpresent, hclocked, hstop]), hout, List.getElem?_cons_zero]
  dsimp only
  rw [if_pos hst, State.sendAndCredit_mesh herr hsel haway hch]

end

/-- What the departure of the head entry leaves: the entry sent, one packet with its words in the injection port. -/
theorem State.left_entrySent (s : State) (k : Nat) {e : OutEntry} {rest : List OutEntry} (hsel : selectorOf e.dest = 0)
    (hout : (s.tile k).outbound = e :: rest) (hrest : ∀ x ∈ rest, x.ref ≠ e.ref) :
    let u := (s.setTile k (s.entrySent k (s.tile k) e)).bump
    s.otherTiles u k ∧ (u.tile k).outbound = { e with state := .sent } :: rest
      ∧ ∃ p, (u.tile k).inject = (s.tile k).inject ++ [p] ∧ p.op = .msg ∧ p.data = flitPoison e.words
        ∧ p.queue = field e.dest 0 5 ∧ p.tag.ref = e.ref := by
  obtain ⟨-, hothers, htile⟩ := s.frame_setTile k (s.entrySent k (s.tile k) e)
  dsimp only
  rw [htile, State.entrySent, hout, restate_head e rest .sent hrest]
  rw [State.entrySent, hout, restate_head e rest .sent hrest] at hothers
  exact ⟨hothers, rfl, _, rfl, s.msgPacket_of_tile k hsel⟩

/-- Settles O24: the two instructions by room in the buffer, then the two ways in which the head entry leaves it. -/
theorem queueSending : Obligations.QueueSending := by
  unfold Obligations.QueueSending
  refine ⟨fun k f s hf => ?issue, fun k s e rest hruns hstop hout herr hsel haway hrest hch => ?leave⟩
  case issue =>
    dsimp only
    refine ⟨fun h hclean hrd hroom => ?_, fun h hclean hrd hfull => exec_qSend_full hf h hclean hrd hfull,
      fun h hclean hroom => ?_, fun h hclean hfull => exec_qTrysend_full hf h hclean hfull,
      fun hrd hmis c hc h => exec_send_misaligned hf hrd hmis hc h⟩
    · obtain ⟨hentry, hnext, -, hsame⟩ := s.imageEntered_enters k (s.fetched k) f false
      exact ⟨_, exec_qSend_enters hf h hclean hrd hroom, hentry, hnext, hsame⟩
    · obtain ⟨hentry, -, hpc, hsame⟩ := s.imageEntered_enters k (s.fetched k) f true
      exact ⟨_, exec_qTrysend_enters hf h hclean hroom, hentry, rfl, hpc, hsame⟩
  case leave =>
    have hleft := s.left_entrySent k hsel hout hrest
    exact ⟨fun hst => ⟨_, exec_outboundSend_head herr hsel haway hch hruns hstop hout hst, hleft⟩,
      fun hst => ⟨_, exec_msgResendTimeout_head herr hsel haway hch hruns hstop hout hst, hleft⟩⟩

end Sys2Proof.Machine
end

section
/-! Receiving (07, R218, R219, R223, R234 to R236): the queue instructions, the release of a head message, and q.select. -/

namespace Sys2Proof.Machine

/-! ## A queue of a tile replaced -/

@[simp] theorem Tile.queue_setQueue_same (t : Tile) (q : Nat) (x : Queue) : (t.setQueue q x).queue q = x :=
  getD_putD_same _ _ _ _

theorem Tile.queue_setQueue_other (t : Tile) (q j : Nat) (x : Queue) (h : j ≠ q) : (t.setQueue q x).queue j = t.queue j :=
  getD_putD_other _ _ _ _ _ h

theorem Tile.queue_congr {a b : Tile} (h : a.queues = b.queues) (q : Nat) : a.queue q = b.queue q := by
  unfold Tile.queue
  rw [h]

/-! ## The checks of an instruction that names a queue (R219, R276) -/

/-- A queue that is enabled, and shared or of the pose in force. -/
def Tile.mayUse (t : Tile) (q : Nat) : Prop :=
  qEnabled (t.queue q).entry = true ∧ (qShared (t.queue q).entry = true ∨ t.inForce = some (qTag (t.queue q).entry))

theorem Tile.queueCause_of_mayUse {t : Tile} {q : Nat} {steerOk : Bool} (h : t.mayUse q)
    (hsteer : steerOk = true ∨ t.steered q = false) : t.queueCause q steerOk = none := by
  obtain ⟨henabled, hmine⟩ := h
  have hother : (!qShared (t.queue q).entry && t.inForce != some (qTag (t.queue q).entry)) = false := by
    rcases hmine with h | h <;> simp [h]
  have hrule : (!steerOk && t.steered q) = false := by rcases hsteer with h | h <;> simp [h]
  rw [Tile.queueCause, henabled, hrule, Bool.true_and, hother]
  rfl

theorem Tile.queueCause_of_disabled {t : Tile} {q : Nat} {steerOk : Bool} (h : qEnabled (t.queue q).entry = false) :
    t.queueCause q steerOk = some 0x61 := by
  rw [Tile.queueCause, h]
  rfl

section
variable {k : TileIx} {i : Instr} {q : Nat} {bad steerOk : Bool} {s : State} {body : Tile → Issued} (h : s.atInsn k i [])
  (hbad : bad = false)
include h hbad

/-- With its checks passed, an instruction that names a queue does what its body answers. -/
theorem queueIssue_body (hc : (s.fetched k).queueCause q steerOk = none) :
    queueIssue k i q bad steerOk s body = .next ((body (s.fetched k)).outcome s k) := by
  rw [queueIssue, issue_atInsn h, if_neg (Bool.eq_false_iff.mp hbad), hc]

theorem queueIssue_disabled (hoff : qEnabled ((s.fetched k).queue q).entry = false) :
    queueIssue k i q bad steerOk s body = .next (s.faults k 3 0x61 0) := by
  rw [queueIssue, issue_atInsn h, if_neg (Bool.eq_false_iff.mp hbad), Tile.queueCause_of_disabled hoff]
  rfl

end

/-! ## The head message released (R218, R230, R234) -/

theorem Queue.dropHead_retry (x : Queue) : x.dropHead.retry = x.retry := by
  unfold Queue.dropHead
  split
  · rfl
  · dsimp only
    split <;> exact (apply_ite Queue.retry _ _ _).trans (ite_self _)

theorem Queue.dropHead_of_one {x : Queue} {i : QItem} (h : x.items = [i]) : x.dropHead
    = if x.occ - i.slots = 0 then { x with items := [], occ := 0, head := 0, tail := 0 }
      else { x with items := [], occ := x.occ - i.slots, head := x.tail } := by
  rw [Queue.dropHead, h]

theorem Queue.dropHead_items_of_one {x : Queue} {i : QItem} (h : x.items = [i]) : x.dropHead.items = [] := by
  rw [Queue.dropHead_of_one h]
  split <;> rfl

/-- An empty queue starts again at slot 0. -/
theorem Queue.dropHead_restarts {x : Queue} {i : QItem} (h : x.items = [i]) (hocc : x.occ ≤ i.slots) :
    x.dropHead.occ = 0 ∧ x.dropHead.head = 0 ∧ x.dropHead.tail = 0 := by
  rw [Queue.dropHead_of_one h, if_pos (by omega)]
  exact ⟨rfl, rfl, rfl⟩

/-- With nobody on the retry list, a release frees the head and sends nothing. -/
theorem State.release_quiet {s : State} {k : Nat} {t : Tile} {q : Nat} (h : (t.queue q).retry = []) :
    s.release k t q = t.setQueue q (t.queue q).dropHead := by
  rw [State.release, State.sendNotice, Tile.queue_setQueue_same, Queue.dropHead_retry, h]

/-! ## What q.recv and q.peek return (R225, R234) -/

/-- A poisoned word reads zero (R119). -/
theorem Tile.val_of_poison {t : Tile} {i : Nat} (h : (t.word i).poison = true) : (t.word i).val = 0 := by
  unfold Tile.word MWord.read at *
  split at h
  · rename_i hp; rw [if_pos hp]
  · cases h

/-- A written register reads back its value where a poisoned value is zero already. -/
theorem Tile.reg_setReg_unmarked (t : Tile) {r : BitVec 5} (hr : r ≠ 0) {v : BitVec 64} {p : Bool} (h : p = true → v = 0) :
    (t.setReg r { val := v, poison := p }).reg r = ⟨v, false, p⟩ := by
  rw [t.reg_setReg_same r _ hr]
  cases p with
  | false => rfl
  | true => simp [h rfl]

/-- The tile with the address and the length of a queue's message in two registers. -/
def State.returned (s : State) (k : Nat) (t : Tile) (x : Queue) (i : QItem) (rd rd2 : BitVec 5) : Tile :=
  ((s.touchAll k t [ringWord x i.slot 0, ringWord x i.slot 1]).setReg rd
      { val := (t.word (ringWord x i.slot 0)).val, poison := (t.word (ringWord x i.slot 0)).poison }).setReg rd2
    { val := BitVec.ofNat 64 (field (t.word (ringWord x i.slot 1)).val 0 32), poison := (t.word (ringWord x i.slot 1)).poison }

theorem State.receive_of_head {s : State} {k : Nat} {t : Tile} {q : Nat} {i : QItem} {rd rd2 : BitVec 5} {rel : Bool}
    (h : (t.queue q).headItem = some i) : s.receive k t q rd rd2 rel
      = if rel then s.release k (s.returned k t (t.queue q) i rd rd2) q else s.returned k t (t.queue q) i rd rd2 := by
  rw [State.receive, h]
  rfl

section
variable (s : State) (k : Nat) (t : Tile) (x : Queue) (i : QItem) (rd rd2 : BitVec 5)

theorem State.returned_queues : (s.returned k t x i rd rd2).queues = t.queues := by
  rw [State.returned, Tile.setReg_queues, Tile.setReg_queues, s.touchAll_asRead k _ t]

theorem State.word_returned (j : Nat) : (s.returned k t x i rd rd2).word j = t.word j := by
  rw [State.returned, Tile.word_setReg, Tile.word_setReg, State.word_touchAll]

/-- The address in the first register, the length in the second, and every other register as before. -/
theorem State.reg_returned :
    (rd ≠ 0 → rd ≠ rd2 → (s.returned k t x i rd rd2).reg rd
      = ⟨(t.word (ringWord x i.slot 0)).val, false, (t.word (ringWord x i.slot 0)).poison⟩)
    ∧ (rd2 ≠ 0 → (s.returned k t x i rd rd2).reg rd2 = ⟨BitVec.ofNat 64 (field (t.word (ringWord x i.slot 1)).val 0 32), false,
      (t.word (ringWord x i.slot 1)).poison⟩)
    ∧ ∀ r, r ≠ rd → r ≠ rd2 → (s.returned k t x i rd rd2).reg r = t.reg r := by
  unfold State.returned
  refine ⟨fun hrd hne => ?_, fun hrd2 => ?_, fun r hr hr2 => ?_⟩
  · rw [Tile.reg_setReg_other _ _ _ _ hne, Tile.reg_setReg_unmarked _ hrd Tile.val_of_poison]
  · refine Tile.reg_setReg_unmarked _ hrd2 fun hp => ?_
    rw [Tile.val_of_poison hp]
    rfl
  · obtain ⟨-, -, hregs⟩ := s.keeps_touchAll (kept := fun _ => True) k t [ringWord x i.slot 0, ringWord x i.slot 1]
    rw [Tile.reg_setReg_other _ _ _ _ hr2, Tile.reg_setReg_other _ _ _ _ hr, hregs r trivial]

end

/-! ## The instructions at a queue (R219, R225, R234, R235) -/

section
variable {k : TileIx} {f : QFields} {s : State}

section
variable {i : QItem} (hflags : f.flags = 0) (hmay : (s.fetched k).mayUse f.qs.toNat)
  (hsteer : (s.fetched k).steered f.qs.toNat = false) (hitems : ((s.fetched k).queue f.qs.toNat).items = [i])
include hflags hmay hsteer hitems

theorem exec_qPeek_head (h : s.atInsn k (.qPeek k f) []) : exec (.qPeek k f) s
    = .next (s.retires k (s.returned k (s.fetched k) ((s.fetched k).queue f.qs.toNat) i f.rd f.rs1)) := by
  have hhead : ((s.fetched k).queue f.qs.toNat).headItem = some i := by rw [Queue.headItem, hitems]; rfl
  rw [exec_qPeek, execQPeek, queueIssue_body h (by rw [hflags]; rfl) (Tile.queueCause_of_mayUse hmay (.inr hsteer))]
  rw [hhead, if_neg (by simp), State.receive_of_head hhead]
  rfl

variable (hretry : ((s.fetched k).queue f.qs.toNat).retry = [])
include hretry

theorem exec_qRecv_head (h : s.atInsn k (.qRecv k f) []) : exec (.qRecv k f) s
    = .next (s.retires k ((s.returned k (s.fetched k) ((s.fetched k).queue f.qs.toNat) i f.rd f.rs1).setQueue f.qs.toNat
        ((s.fetched k).queue f.qs.toNat).dropHead)) := by
  have hhead : ((s.fetched k).queue f.qs.toNat).headItem = some i := by rw [Queue.headItem, hitems]; rfl
  have hq := Tile.queue_congr (s.returned_queues k (s.fetched k) ((s.fetched k).queue f.qs.toNat) i f.rd f.rs1) f.qs.toNat
  rw [exec_qRecv, execQRecv, queueIssue_body h (by rw [hflags]; rfl) (Tile.queueCause_of_mayUse hmay (.inr hsteer))]
  rw [hhead, if_neg (by simp), State.receive_of_head hhead, if_pos rfl, State.release_quiet (by rw [hq, hretry]), hq]
  rfl

theorem exec_qPop_head (hrd : f.rd = 0) (hrs1 : f.rs1 = 0) (h : s.atInsn k (.qPop k f) []) : exec (.qPop k f) s
    = .next (s.retires k ((s.fetched k).setQueue f.qs.toNat ((s.fetched k).queue f.qs.toNat).dropHead)) := by
  have hhead : ((s.fetched k).queue f.qs.toNat).headItem = some i := by rw [Queue.headItem, hitems]; rfl
  rw [exec_qPop, execQPop, queueIssue_body h (by rw [hflags, hrd, hrs1]; rfl) (Tile.queueCause_of_mayUse hmay (.inr hsteer))]
  rw [hhead, if_neg (by simp), State.release_quiet hretry]
  rfl

end

section
variable (hflags : f.flags = 0) (hmay : (s.fetched k).mayUse f.qs.toNat)
  (hsteer : (s.fetched k).steered f.qs.toNat = false) (hempty : ((s.fetched k).queue f.qs.toNat).items = [])
include hflags hmay hsteer hempty

/-- On an empty queue q.recv waits. -/
theorem exec_qRecv_empty (h : s.atInsn k (.qRecv k f) []) :
    exec (.qRecv k f) s = .next (s.setTile k { s.fetched k with wait := .recv f.qs.toNat f.rd f.rs1 true }).bump := by
  rw [exec_qRecv, execQRecv, queueIssue_body h (by rw [hflags]; rfl) (Tile.queueCause_of_mayUse hmay (.inr hsteer)),
    Queue.headItem, hempty]
  rfl

/-- On an empty queue q.peek waits. -/
theorem exec_qPeek_empty (h : s.atInsn k (.qPeek k f) []) :
    exec (.qPeek k f) s = .next (s.setTile k { s.fetched k with wait := .recv f.qs.toNat f.rd f.rs1 false }).bump := by
  rw [exec_qPeek, execQPeek, queueIssue_body h (by rw [hflags]; rfl) (Tile.queueCause_of_mayUse hmay (.inr hsteer)),
    Queue.headItem, hempty]
  rfl

/-- On an empty queue q.pop is QUEUE_EMPTY. -/
theorem exec_qPop_empty (hrd : f.rd = 0) (hrs1 : f.rs1 = 0) (h : s.atInsn k (.qPop k f) []) :
    exec (.qPop k f) s = .next (s.faults k 3 0x62 0) := by
  rw [exec_qPop, execQPop, queueIssue_body h (by rw [hflags, hrd, hrs1]; rfl) (Tile.queueCause_of_mayUse hmay (.inr hsteer)),
    Queue.headItem, hempty]
  rfl

end

/-- q.word: zero beyond a short message, the word that the flags name otherwise, marked either way. -/
theorem exec_qWord_head {i : QItem} {rest : List QItem} (hmay : (s.fetched k).mayUse f.qs.toNat)
    (hsteer : (s.fetched k).steered f.qs.toNat = false) (hrs1 : f.rs1 = 0) (hflags : f.flags.toNat < 4)
    (hitems : ((s.fetched k).queue f.qs.toNat).items = i :: rest) (h : s.atInsn k (.qWord k f) []) :
    exec (.qWord k f) s = .next (s.retires k (if 2 * i.slots ≤ f.flags.toNat then
        (s.fetched k).setReg f.rd { val := 0, mark := true }
      else (s.touch k (s.fetched k) (ringWord ((s.fetched k).queue f.qs.toNat) i.slot f.flags.toNat)).setReg f.rd
        { val := ((s.fetched k).word (ringWord ((s.fetched k).queue f.qs.toNat) i.slot f.flags.toNat)).val, mark := true,
          poison := ((s.fetched k).word (ringWord ((s.fetched k).queue f.qs.toNat) i.slot f.flags.toNat)).poison })) := by
  have hhead : ((s.fetched k).queue f.qs.toNat).headItem = some i := by rw [Queue.headItem, hitems]; rfl
  have hbad : (f.rs1 != 0 || decide (4 ≤ f.flags.toNat)) = false := by rw [hrs1, decide_eq_false (by omega)]; rfl
  rw [exec_qWord, execQWord, queueIssue_body h hbad (Tile.queueCause_of_mayUse hmay (.inr hsteer)), hhead]
  dsimp only
  split <;> rfl

theorem exec_qCount_mayUse (hmay : (s.fetched k).mayUse f.qs.toNat) (hrs1 : f.rs1 = 0) (hflags : f.flags = 0)
    (h : s.atInsn k (.qCount k f) []) : exec (.qCount k f) s = .next (s.retires k ((s.fetched k).setReg f.rd
      { val := BitVec.ofNat 64 ((s.fetched k).queue f.qs.toNat).messages })) := by
  rw [exec_qCount, execQCount, queueIssue_body h (by rw [hrs1, hflags]; rfl) (Tile.queueCause_of_mayUse hmay (.inl rfl))]
  rfl

/-- Every instruction that names a queue is QUEUE_DISABLED at one that is not enabled. -/
theorem exec_queue_disabled (hoff : qEnabled ((s.fetched k).queue f.qs.toNat).entry = false) (hflags : f.flags = 0)
    (hrs1 : f.rs1 = 0) (hrd : f.rd = 0) {c : Instr}
    (hc : c ∈ [Instr.qRecv k f, .qPeek k f, .qPop k f, .qWord k f, .qCount k f]) (h : s.atInsn k c []) :
    exec c s = .next (s.faults k 3 0x61 0) := by
  simp only [List.mem_cons, List.not_mem_nil, or_false] at hc
  rcases hc with rfl | rfl | rfl | rfl | rfl
  · rw [exec_qRecv, execQRecv]
    exact queueIssue_disabled h (by rw [hflags]; rfl) hoff
  · rw [exec_qPeek, execQPeek]
    exact queueIssue_disabled h (by rw [hflags]; rfl) hoff
  · rw [exec_qPop, execQPop]
    exact queueIssue_disabled h (by rw [hrd, hrs1, hflags]; rfl) hoff
  · rw [exec_qWord, execQWord]
    exact queueIssue_disabled h (by rw [hrs1, hflags]; rfl) hoff
  · rw [exec_qCount, execQCount]
    exact queueIssue_disabled h (by rw [hrs1, hflags]; rfl) hoff

end

/-! ## q.select with one queue selected (R236) -/

theorem filter_bitOf_two_pow {n : Nat} (hn : n < 32) : (List.range 32).filter (bitOf (BitVec.ofNat 64 (2 ^ n))) = [n] := by
  have hbit : ∀ i ∈ List.range 32, bitOf (BitVec.ofNat 64 (2 ^ n)) i = (i == n) := by
    intro i hi
    have hi : i < 64 := (List.mem_range.mp hi).trans (by decide)
    rw [bitOf_eq_getLsbD, BitVec.getLsbD_ofNat, Nat.testBit_two_pow, Bool.eq_iff_iff]
    simp [hi, eq_comm (a := n)]
  rw [List.filter_congr hbit, List.filter_beq, List.count_eq_one_of_mem List.nodup_range (List.mem_range.mpr hn)]
  rfl

theorem toNat_two_pow {n : Nat} (hn : n < 32) : (BitVec.ofNat 64 (2 ^ n)).toNat = 2 ^ n := by
  rw [BitVec.toNat_ofNat]
  exact Nat.mod_eq_of_lt (Nat.pow_lt_pow_right (by decide) (hn.trans (by decide)))

section
variable {t : Tile} {m : GReg} {n : Nat} (hn : n < 32)

theorem Tile.choose_of_one (t : Tile) (n : Nat) : t.choose [n] = some n := by
  unfold Tile.choose
  split
  · by_cases hlast : t.selectLast.toNat < n <;> simp [hlast]
  · rfl

include hn

theorem Tile.readyQueues_of_one : t.readyQueues (BitVec.ofNat 64 (2 ^ n))
    = if (t.queue n).items = [] then [] else [n] := by
  have hsplit : t.readyQueues (BitVec.ofNat 64 (2 ^ n))
      = ((List.range 32).filter (bitOf (BitVec.ofNat 64 (2 ^ n)))).filter (fun q => (t.queue q).headItem.isSome) := by
    rw [List.filter_filter]
    exact List.filter_congr fun q _ => Bool.and_comm _ _
  rw [hsplit, filter_bitOf_two_pow hn]
  cases hitems : (t.queue n).items <;> simp [Queue.headItem, hitems]

theorem Tile.selectCause_of_one (hm : t.service = true ∨ m.mark = false) (hp : m.poison = false)
    (hval : m.val = BitVec.ofNat 64 (2 ^ n)) (hmay : t.mayUse n) (hsteer : t.steered n = false) : t.selectCause m = none := by
  have hmark : t.markFault [m] = false := Tile.markFault_of_unmarked (hm.imp_right fun h => by rw [any_one, h])
  have hlt : 2 ^ n < 2 ^ 32 := Nat.pow_lt_pow_right (by decide) hn
  have hpos : 0 < 2 ^ n := Nat.two_pow_pos n
  have hrange : ((2 ^ n == 0) || decide (2 ^ 32 ≤ 2 ^ n)) = false := by
    rw [beq_false_of_ne (by omega), decide_eq_false (by omega)]
    rfl
  rw [Tile.selectCause, hval, filter_bitOf_two_pow hn, toNat_two_pow hn, hmark, hp, hrange]
  simp only [List.any_cons, List.any_nil, Tile.queueCause_of_mayUse hmay (.inr hsteer)]
  rfl

end

section
variable {k : TileIx} {f : QFields} {s : State} {n : Nat} (hn : n < 32) (h : s.atInsn k (.qSelect k f) [f.rs1]) (hqs : f.qs = 0)
  (hflags : f.flags = 0) (hcause : (s.fetched k).selectCause ((s.fetched k).reg f.rs1) = none)
  (hval : ((s.fetched k).reg f.rs1).val = BitVec.ofNat 64 (2 ^ n))
include hn h hqs hflags hcause hval

theorem exec_qSelect_ready (hitems : ((s.fetched k).queue n).items ≠ []) : exec (.qSelect k f) s = .next (s.retires k
    { (s.fetched k).setReg f.rd { val := BitVec.ofNat 64 n } with selectLast := BitVec.ofNat 5 n }) := by
  rw [exec_qSelect, execQSelect]
  refine issue_retire h _ ?_
  rw [if_neg (by simp [hqs, hflags]), hcause]
  dsimp only
  rw [hval, Tile.selectNow, Tile.readyQueues_of_one hn, if_neg hitems, Tile.choose_of_one]
  rfl

theorem exec_qSelect_waits (hitems : ((s.fetched k).queue n).items = []) : exec (.qSelect k f) s
    = .next (s.setTile k { s.fetched k with wait := .select (BitVec.ofNat 64 (2 ^ n)) f.rd }).bump := by
  have hnone : (s.fetched k).choose [] = none := by
    unfold Tile.choose
    split <;> rfl
  rw [exec_qSelect, execQSelect]
  refine issue_hold h _ ?_
  rw [if_neg (by simp [hqs, hflags]), hcause]
  dsimp only
  rw [hval, Tile.selectNow, Tile.readyQueues_of_one hn, if_pos hitems, hnone]
  rfl

end

/-! ## The obligation -/

/-- Settles O25: each receiving instruction at a queue with a message, at an empty queue, and at a disabled one. -/
theorem queueReceiving : Obligations.QueueReceiving := by
  unfold Obligations.QueueReceiving
  intro k f s
  dsimp only
  refine ⟨fun i hflags hitems hretry => ⟨?recv, ?peek, ?pop⟩, fun hflags hempty => ⟨?recvWaits, ?peekWaits, ?popEmpty⟩, ?word,
    fun h hmay hrs1 hflags => exec_qCount_mayUse hmay hrs1 hflags h,
    fun hoff hflags hrs1 hrd c hc h => exec_queue_disabled hoff hflags hrs1 hrd hc h, ?select⟩
  case recv =>
    rintro ⟨h, hmay, hsteer⟩
    refine ⟨_, exec_qRecv_head hflags hmay hsteer hitems hretry h, ?_⟩
    obtain ⟨hrd, hrs1, hregs⟩ := s.reg_returned k (s.fetched k) ((s.fetched k).queue f.qs.toNat) i f.rd f.rs1
    rw [Tile.queue_setQueue_same]
    exact ⟨⟨hrd, hrs1, hregs, fun j => s.word_returned k _ _ i f.rd f.rs1 j⟩, Queue.dropHead_items_of_one hitems,
      Queue.dropHead_restarts hitems⟩
  case peek =>
    rintro ⟨h, hmay, hsteer⟩
    obtain ⟨hrd, hrs1, hregs⟩ := s.reg_returned k (s.fetched k) ((s.fetched k).queue f.qs.toNat) i f.rd f.rs1
    exact ⟨_, exec_qPeek_head hflags hmay hsteer hitems h,
      ⟨hrd, hrs1, hregs, fun j => s.word_returned k _ _ i f.rd f.rs1 j⟩, Tile.queue_congr (s.returned_queues k _ _ i f.rd f.rs1) _⟩
  case pop =>
    rintro ⟨h, hmay, hsteer⟩ hrd hrs1
    refine ⟨_, exec_qPop_head hflags hmay hsteer hitems hretry hrd hrs1 h, ?_⟩
    rw [Tile.queue_setQueue_same]
    exact ⟨Queue.dropHead_items_of_one hitems, fun _ => rfl, fun _ => rfl⟩
  case recvWaits => exact fun ⟨h, hmay, hsteer⟩ => exec_qRecv_empty hflags hmay hsteer hempty h
  case peekWaits => exact fun ⟨h, hmay, hsteer⟩ => exec_qPeek_empty hflags hmay hsteer hempty h
  case popEmpty => exact fun ⟨h, hmay, hsteer⟩ hrd hrs1 => exec_qPop_empty hflags hmay hsteer hempty hrd hrs1 h
  case word =>
    rintro i rest ⟨h, hmay, hsteer⟩ hrs1 hflags hitems
    rw [exec_qWord_head hmay hsteer hrs1 hflags hitems h]
    exact ⟨fun hbeyond => by rw [if_pos hbeyond], fun hin => by rw [if_neg (Nat.not_le.mpr hin)]⟩
  case select =>
    intro n hn h hqs hflags hval hm hp henabled hmine hsteer
    have hcause := Tile.selectCause_of_one hn hm hp hval ⟨henabled, hmine⟩ hsteer
    exact ⟨exec_qSelect_ready hn h hqs hflags hcause hval, exec_qSelect_waits hn h hqs hflags hcause hval⟩

end Sys2Proof.Machine
end

section
/-! The arrival of a message (07, R220, R228): what a message of one slot leaves in its ring, and a state in which the statement
about arrivals asks for other ring_flags. -/

namespace Sys2Proof.Machine

/-! ## A message of one slot at its queue (R220, R228) -/

/-- A queue with a message of one slot behind its others. -/
def Queue.takeShort (x : Queue) (slot : Nat) : Queue :=
  { x with items := x.items ++ [⟨slot, 1, false, none⟩], occ := x.occ + 1, tail := (slot + 1) % qSize x.entry,
           head := if x.items.isEmpty then slot else x.head }

/-- A tile with the two words of a message in a slot of its ring: the ring_flags of a short message are zero (Table 7.2). -/
def Tile.shortEntered (t : Tile) (q slot : Nat) (a b : PWord) : Tile :=
  ((t.putWords (ringWord (t.queue q) slot 0) [a, withRingFlags b 0]).setQueue q ((t.queue q).takeShort slot)).countIdx (4 * q + 2) 1

theorem withRingFlags_stored (w : PWord) (flags : Nat) : (withRingFlags w flags).stored = if w.poison then { poison := true }
    else { val := BitVec.ofNat 64 (field w.val 0 48 + flags * 2 ^ 48) } := by
  unfold withRingFlags PWord.stored
  cases hp : w.poison <;> simp [hp]

/-- The second word of a short message as its ring holds it: bits 63:48, and so ring_flags, are zero. -/
theorem Tile.word_shortEntered_second (t : Tile) (q slot : Nat) (a b : PWord) :
    (t.shortEntered q slot a b).word (ringWord (t.queue q) slot 0 + 1) = if b.poison then { poison := true }
      else { val := BitVec.ofNat 64 (field b.val 0 48) } := by
  have hwrote : t.wrote (t.shortEntered q slot a b) (ringWord (t.queue q) slot 0) [a, withRingFlags b 0] :=
    Tile.wrote_congr (Tile.count_mem _ _ _) (t.wrote_putWords _ _)
  rw [hwrote.1 1 (withRingFlags b 0) rfl, withRingFlags_stored, Nat.zero_mul, Nat.add_zero]

theorem State.wakeQueue_of_none {s : State} {k : Nat} {t : Tile} {q : Nat} (h : t.wait = .none) : s.wakeQueue k t q = t := by
  rw [State.wakeQueue, h]

section
variable {s : State} {k : Nat} {t : Tile} {q slot : Nat} {a b : PWord} (henabled : qEnabled (t.queue q).entry = true)
  (hopen : (t.queue q).closed = false) (hplace : (t.queue q).place 1 = some (slot, false)) (htally : s.tallyQueue k t ≠ some q)
  (hprot : t.protects (8 * ringWord (t.queue q) slot 0) 16 = false) (hwait : t.wait = .none)
include henabled hopen hplace htally hprot hwait

/-- A short message that finds room before the end of its ring is accepted, where no tally queue takes it. -/
theorem State.arrive_short (sender ref : Nat) (never : Bool) :
    s.arrive k t q [a, b] sender ref never = (t.shortEntered q slot a b, .accepted) := by
  have hring : s.ringWrite k t (ringWord (t.queue q) slot 0) [a, withRingFlags b 0]
      = t.putWords (ringWord (t.queue q) slot 0) [a, withRingFlags b 0] := if_neg (Bool.eq_false_iff.mp hprot)
  have hput := Tile.putWords_keeps Tile.tally Tile.putWord_tally [a, withRingFlags b 0] t (ringWord (t.queue q) slot 0)
  have hnot : (s.tallyQueue k (t.putWords (ringWord (t.queue q) slot 0) [a, withRingFlags b 0]) == some q) = false := by
    rw [State.tallyQueue, hput]
    exact beq_false_of_ne htally
  have hstill : (t.shortEntered q slot a b).wait = .none :=
    (Tile.count_wait _ _ _).trans ((Tile.putWords_keeps Tile.wait Tile.putWord_wait _ t _).trans hwait)
  unfold State.arrive
  dsimp only
  rw [henabled, if_neg (by decide), if_neg (Bool.eq_false_iff.mp hopen), show [a, b].length / 2 = 1 by simp, hplace]
  simp only [Bool.false_eq_true, ite_false, List.append_nil, Nat.add_zero, OfNat.one_ne_ofNat, hring, hnot]
  exact congrArg (·, MsgResult.accepted) (State.wakeQueue_of_none hstill)

end

/-- The arrival of a short message that is accepted: its words, its queue, and the answer to its sender. -/
theorem exec_msg_short {n : Nat} {k : TileIx} {i : Nat} {p : Packet} {s : State} {slot : Nat} {a b : PWord}
    (h : s.arrived n .msg p k i) (hsrc : p.srcX ≠ 0x3FF) (hdata : p.data = [a, b])
    (henabled : qEnabled ((s.tile k).queue p.queue).entry = true) (hopen : ((s.tile k).queue p.queue).closed = false)
    (hplace : ((s.tile k).queue p.queue).place 1 = some (slot, false)) (htally : s.tallyQueue k (s.tile k) ≠ some p.queue)
    (hprot : (s.tile k).protects (8 * ringWord ((s.tile k).queue p.queue) slot 0) 16 = false) (hwait : (s.tile k).wait = .none) :
    exec (.msg n) s = .next (s.served n k
      ((s.takePacket n).answerMessage k p 0 false ((s.tile k).shortEntered p.queue slot a b))) := by
  have hexec : exec (.msg n) s = .next ((s.takePacket n).tileMessage k p).bump := by
    rw [exec_msg, execMsg]
    exact arrival_of_arrived h (congrArg some (if_neg hsrc))
  rw [hexec, State.tileMessage, State.tile_takePacket, hdata,
    State.arrive_short henabled hopen hplace (s := s.takePacket n) htally hprot hwait]
  rfl

/-! ## The counterexample -/

/-- A tile whose queue 31 is enabled, shared and empty: two slots from offset 0x1000 on, with a credit of both. -/
def emptyRingTile : Tile := { queues := [(31, { entry := 0x8002001000020100 })] }

/-- A message of one slot from tile 1 to queue 31 of tile 0, both words zero, ejected at tile 0. -/
def zeroMessage : Packet :=
  { op := .msg, operand := 0, srcX := 1, srcY := 0, destX := 0, destY := 0, frame := false, queue := 31, paddock := 1, length := 1,
    poison := false, epoch := false, data := [{}, {}], tag := {}, pos := .ejected 0 4, replays := 0 }

/-- That tile in an active region, with that message alone on the mesh. -/
def zeroMessageState : State :=
  { State.reset with regions := [(0, { state := .active, owner := 1 })], tiles := [(0, emptyRingTile)], net := [zeroMessage] }

theorem zeroMessage_arrived : zeroMessageState.arrived 0 .msg zeroMessage (0 : TileIx) 4 := by decide

/-- Refutes O33: a message of one slot is no long one, so its ring_flags are 0 (Table 7.2), where the statement asks for 1 in the
second word of the ring. -/
theorem not_messageArrival : ¬ Obligations.MessageArrival := by
  unfold Obligations.MessageArrival
  intro hall
  obtain ⟨hmsg, -⟩ := hall 0 0 4 zeroMessage zeroMessageState
  obtain ⟨hshort, -⟩ := hmsg zeroMessage_arrived (by decide) rfl
  have hplace : ((zeroMessageState.tile (0 : TileIx)).queue 31).place 1 = some (0, false) := by decide
  obtain ⟨t', hexec, -, -, hword, -⟩ := hshort {} {} 0 rfl (by decide) rfl hplace (by decide) (by decide)
  have hreal := exec_msg_short zeroMessage_arrived (by decide) rfl (by decide) rfl hplace (by decide) (by decide) rfl
  have hstate := Host.Outcome.next.inj (hexec.symm.trans hreal)
  have htile := congrArg (fun u : State => u.tile (0 : TileIx)) hstate
  simp only [State.tile_bump, State.tile_setTile] at htile
  rw [htile] at hword
  exact absurd (hword.symm.trans (Tile.word_shortEntered_second _ 31 0 {} {})) (by decide)

end Sys2Proof.Machine
end

section
/-! Poses (08, R253 to R263; Tables 8.3, 8.4): the pose instructions, the switch sequence, mode writes and tile resets. -/

namespace Sys2Proof.Machine

/-! ## Pose instructions (Table 8.3) -/

section
variable {k : TileIx} {f : QFields} {s : State} (hrs1 : f.rs1 = 0) (hflags : f.flags = 0)
include hrs1 hflags

/-- pose.switch to a slot that is not empty ends the activation with that slot pending, unless a pace switch is (R259, R261). -/
theorem exec_poseSwitchInsn_loaded (hrd : f.rd = 0) (hslot : f.qs.toNat < 16) (hloaded : (s.fetched k).slot f.qs.toNat ≠ .empty)
    (h : s.atInsn k (.poseSwitchInsn k f) []) : ∃ p,
      exec (.poseSwitchInsn k f) s = .next (s.retires k { s.fetched k with ended := true, pendingSwitch := some p })
        ∧ (∀ old, (s.fetched k).pendingSwitch = some old → old.fromPace = true → p = old)
        ∧ ((∀ old, (s.fetched k).pendingSwitch = some old → old.fromPace = false) →
          p = { slot := f.qs.toNat, fromPace := false }) := by
  rw [exec_poseSwitchInsn, execPoseSwitchInsn, issue_atInsn h]
  dsimp only
  rw [if_neg (by simp [hrd, hrs1, hflags]), if_neg (Nat.not_le.mpr hslot), if_neg hloaded]
  cases hp : (s.fetched k).pendingSwitch with
  | none => exact ⟨_, rfl, fun _ hold => (by cases hold), fun _ => rfl⟩
  | some p =>
    dsimp only
    cases hpace : p.fromPace with
    | false => exact ⟨_, rfl, fun old hold hnot => (by cases hold; simp [hpace] at hnot), fun _ => rfl⟩
    | true => exact ⟨_, rfl, fun old hold _ => Option.some.inj hold, fun hown => (by simp [hown p rfl] at hpace)⟩

/-- pose.switch to an empty slot, or beyond the last one, is a fault of the queue engine's unit (Table 8.3). -/
theorem exec_poseSwitchInsn_fault (hrd : f.rd = 0) (h : s.atInsn k (.poseSwitchInsn k f) [])
    (hslot : 16 ≤ f.qs.toNat ∨ (s.fetched k).slot f.qs.toNat = .empty) :
    exec (.poseSwitchInsn k f) s = .next (s.faults k 3 (if 16 ≤ f.qs.toNat then 0x71 else 0x70) 0) := by
  rw [exec_poseSwitchInsn, execPoseSwitchInsn]
  refine issue_fault h _ _ _ ?_
  dsimp only
  rw [if_neg (by simp [hrd, hrs1, hflags])]
  by_cases hbeyond : 16 ≤ f.qs.toNat
  · rw [if_pos hbeyond, if_pos hbeyond]
  · rw [if_neg hbeyond, if_neg hbeyond, if_pos (hslot.resolve_left hbeyond)]

theorem exec_poseYield_at (hrd : f.rd = 0) (hqs : f.qs = 0) (h : s.atInsn k (.poseYield k f) []) :
    exec (.poseYield k f) s = .next (s.retires k { s.fetched k with ended := true }) := by
  rw [exec_poseYield, execPoseYield]
  exact issue_retire h _ (if_neg (by simp [hrd, hrs1, hqs, hflags]))

theorem exec_poseId_at {p : Nat} (hqs : f.qs = 0) (hp : (s.fetched k).inForce = some p) (h : s.atInsn k (.poseId k f) []) :
    exec (.poseId k f) s = .next (s.retires k ((s.fetched k).setReg f.rd { val := BitVec.ofNat 64 p })) := by
  rw [exec_poseId, execPoseId]
  refine issue_retire h _ ?_
  rw [if_neg (by simp [hrs1, hqs, hflags]), hp]

end

/-- Settles O28: pose.switch by its slot, pose.yield and pose.id by what they retire with. -/
theorem poseInstructions : Obligations.PoseInstructions := by
  unfold Obligations.PoseInstructions
  intro k f s hrs1 hflags
  refine ⟨fun h hrd hslot hloaded => ?_, fun h hrd hslot hempty => ?_, fun h hrd hslot => ?_,
    fun h hrd hqs => exec_poseYield_at hrs1 hflags hrd hqs h, fun p h hqs hp => exec_poseId_at hrs1 hflags hqs hp h⟩
  · obtain ⟨p, hexec, hpace, hown⟩ := exec_poseSwitchInsn_loaded hrs1 hflags hrd hslot hloaded h
    exact ⟨_, hexec, rfl, rfl, fun old hold hp => congrArg some (hpace old hold hp), fun hnot => congrArg some (hown hnot),
      fun _ => rfl, rfl⟩
  · rw [exec_poseSwitchInsn_fault hrs1 hflags hrd h (.inr hempty), if_neg (Nat.not_le.mpr hslot)]
  · rw [exec_poseSwitchInsn_fault hrs1 hflags hrd h (.inl hslot), if_pos hslot]

/-! ## The switch sequence (R260 to R263, Table 8.4) -/

@[simp] theorem Tile.slot_setSlot_same (t : Tile) (i : Nat) (x : SlotState) : (t.setSlot i x).slot i = x :=
  getD_putD_same _ _ _ _

theorem Tile.slot_setSlot_other (t : Tile) (i j : Nat) (x : SlotState) (h : j ≠ i) : (t.setSlot i x).slot j = t.slot j :=
  getD_putD_other _ _ _ _ _ h

theorem Tile.slot_congr {a b : Tile} (h : a.slots = b.slots) (i : Nat) : a.slot i = b.slot i := by
  unfold Tile.slot
  rw [h]

/-- The tile whose pose in force, if it has one, is only resident. -/
def Tile.retirePose (t : Tile) : Tile :=
  match t.inForce with
  | some p => t.setSlot p .resident
  | none => t

theorem Tile.switchTo_slots (t : Tile) (slot : Nat) :
    (t.switchTo slot).slots = (t.retirePose.setSlot slot .inForce).slots := Tile.count_slots _ _ _

/-- What the states of the slots do not alter, the two changes of slots in a switch leave alone. -/
theorem Tile.retirePose_keeps {β : Type} (proj : Tile → β) (hproj : ∀ (t : Tile) m, proj { t with slots := m } = proj t)
    (t : Tile) (slot : Nat) : proj (t.retirePose.setSlot slot .inForce) = proj t := by
  rw [Tile.setSlot, hproj, Tile.retirePose]
  split
  · exact hproj _ _
  · rfl

/-- What the switch sequence does not touch (Table 8.4). -/
theorem Tile.switchTo_keeps (t : Tile) (slot : Nat) :
    (t.switchTo slot).regs = t.regs ∧ (t.switchTo slot).mem = t.mem ∧ (t.switchTo slot).queues = t.queues
      ∧ (t.switchTo slot).vregs = t.vregs ∧ (t.switchTo slot).banks = t.banks ∧ (t.switchTo slot).service = t.service
      ∧ (t.switchTo slot).protTop = t.protTop :=
  ⟨(Tile.count_regs _ _ _).trans (Tile.retirePose_keeps Tile.regs (fun _ _ => rfl) t slot),
    (Tile.count_mem _ _ _).trans (Tile.retirePose_keeps Tile.mem (fun _ _ => rfl) t slot),
    (Tile.count_queues _ _ _).trans (Tile.retirePose_keeps Tile.queues (fun _ _ => rfl) t slot),
    (Tile.count_vregs _ _ _).trans (Tile.retirePose_keeps Tile.vregs (fun _ _ => rfl) t slot),
    (Tile.count_banks _ _ _).trans (Tile.retirePose_keeps Tile.banks (fun _ _ => rfl) t slot),
    (Tile.count_service _ _ _).trans (Tile.retirePose_keeps Tile.service (fun _ _ => rfl) t slot),
    (Tile.count_protTop _ _ _).trans (Tile.retirePose_keeps Tile.protTop (fun _ _ => rfl) t slot)⟩

/-- What a switch into a slot leaves of a tile `t` (Table 8.4): the slot in force and the old one resident, the core running, the
operand buffers empty and the issue index zero; registers, local memory, queues, vector registers and accumulators stay. -/
abbrev Tile.tookSlot (t t' : Tile) (slot : Nat) : Prop :=
  t'.inForce = some slot ∧ t'.slot slot = .inForce
    ∧ (∀ p, t.inForce = some p → p ≠ slot → t'.slot p = .resident)
    ∧ t'.ended = false ∧ t'.parked = false ∧ t'.pendingSwitch = none ∧ t'.aBufs = [] ∧ t'.bBufs = [] ∧ t'.opIndex = 0
    ∧ t'.regs = t.regs ∧ t'.mem = t.mem ∧ t'.queues = t.queues ∧ t'.vregs = t.vregs ∧ t'.banks = t.banks

theorem Tile.tookSlot_switchTo (t : Tile) (slot : Nat) : t.tookSlot (t.switchTo slot) slot := by
  have hslot := Tile.slot_congr (t.switchTo_slots slot)
  obtain ⟨hregs, hmem, hqueues, hvregs, hbanks, -⟩ := t.switchTo_keeps slot
  refine ⟨rfl, ?_, fun p hp hne => ?_, rfl, rfl, rfl, rfl, rfl, rfl, hregs, hmem, hqueues, hvregs, hbanks⟩
  · rw [hslot, Tile.slot_setSlot_same]
  · rw [hslot, Tile.slot_setSlot_other _ _ _ _ hne, Tile.retirePose, hp]
    exact Tile.slot_setSlot_same t p _

theorem Tile.loading_of_idle {t : Tile} (h : t.loadRun = none) (slot : Nat) : t.loading slot = false := by
  rw [Tile.loading, h]

theorem Tile.unitsDone_of_empty {t : Tile} (hmx : t.mxQueue = []) (hvx : t.vxQueue = []) : t.unitsDone = true := by
  rw [Tile.unitsDone, hmx, hvx]
  rfl

section
variable {k : TileIx} {s : State} (hruns : s.runs k) (hmx : (s.tile k).mxQueue = []) (hvx : (s.tile k).vxQueue = [])
  (hload : (s.tile k).loadRun = none)
include hruns hmx hvx hload

/-- A pending switch that is due runs (R260). -/
theorem exec_poseSwitchRun_due {p : PendingSwitch} (hp : (s.tile k).pendingSwitch = some p) (hended : (s.tile k).ended = true)
    (hparked : (s.tile k).parked = false) (hslot : (s.tile k).slot p.slot ≠ .empty) :
    exec (.poseSwitchRun k) s = .next (s.engineStep k ((s.tile k).switchTo p.slot)) := by
  rw [exec_poseSwitchRun, execPoseSwitchRun]
  refine engine_some hruns _ ?_
  rw [hp]
  exact if_pos (by simp [hended, hparked, Tile.unitsDone_of_empty hmx hvx, Tile.loading_of_idle hload, hslot])

/-- A pose start of a parked idle tile switches it after mode and protected top are written (R263). -/
theorem exec_poseStart_idle {slot : BitVec 4} {service : Bool} {top : BitVec 6} (hparked : (s.tile k).parked = true)
    (hslot : (s.tile k).slot slot.toNat ≠ .empty) : exec (.poseStart k slot service top) s = .next (s.engineStep k
      { ((s.tile k).setMode service top).switchTo slot.toNat with stopped := false, stuckAt := none }) := by
  rw [exec_poseStart, execPoseStart]
  exact engine_some hruns _
    (if_pos (by simp [hparked, Tile.unitsDone_of_empty hmx hvx, Tile.loading_of_idle hload, hslot]))

end

theorem Tile.setMode_of_le {t : Tile} {service : Bool} {top : BitVec 6} (h : top.toNat ≤ 48) :
    t.setMode service top = { t with service := service, protTop := top } := by
  rw [Tile.setMode, if_pos h]

/-! ## Mode writes and tile reset (03, R104, R109, R118) -/

section
variable {k : TileIx} {s : State} (hpresent : s.present k = true)
include hpresent

/-- The region controller writes the mode of a parked tile; any other write is recorded. -/
theorem exec_tileModeWrite_present (byController service : Bool) (top : BitVec 6) :
    exec (.tileModeWrite k byController service top) s = .next (s.setTile k
      (if byController && (s.tile k).parked then (s.tile k).setMode service top
        else (s.tile k).raise (s.tileNote k 0x0600 (BitVec.ofNat 64 0x2)))).bump := by
  rw [exec_tileModeWrite, execTileModeWrite, hpresent]
  rfl

theorem exec_tileReset_present : exec (.tileReset k) s = .next (s.engineStep k (s.tile k).afterReset) := by
  rw [exec_tileReset, execTileReset, if_pos hpresent]
  rfl

end

end Sys2Proof.Machine
end

section
/-! Pose loads (08, R265 to R270): a load accepted or refused at its start, and refused or installed at its end. -/

namespace Sys2Proof.Machine

/-! ## What the queues of a load leave of the pose store -/

/-- The pose store of a tile: the states of its slots, the words of its descriptors, and the load under way. -/
def Tile.poses (t : Tile) : Map SlotState × Map MWord × Option PoseLoadRun := (t.slots, t.poseMem, t.loadRun)

@[simp] theorem Tile.poses_setQueue (t : Tile) (q : Nat) (x : Queue) : (t.setQueue q x).poses = t.poses := rfl
@[simp] theorem Tile.poses_raise (t : Tile) (r : Report) : (t.raise r).poses = t.poses := rfl
@[simp] theorem Tile.poses_send (t : Tile) (p : Packet) : (t.send p).poses = t.poses := rfl
@[simp] theorem Tile.poses_retryEntry (t : Tile) (ref : Nat) : (t.retryEntry ref).poses = t.poses := rfl
@[simp] theorem Tile.poses_count (t : Tile) (i n : Nat) : (t.count i n).poses = t.poses := by simp [Tile.poses]

@[simp] theorem State.poses_sendNotice (s : State) (k : Nat) (t : Tile) (q : Nat) : (s.sendNotice k t q).poses = t.poses := by
  unfold State.sendNotice
  split
  · rfl
  · dsimp only
    split <;> simp

@[simp] theorem State.poses_noticeAll (s : State) (k : Nat) (t : Tile) (q : Nat) : (s.noticeAll k t q).poses = t.poses :=
  foldl_keeps Tile.poses _ (fun t _ => s.poses_sendNotice k t q) _ t

theorem State.poses_foldl_noticeAll (s : State) (k : Nat) (qs : List Nat) (t : Tile) :
    (qs.foldl (fun t q => s.noticeAll k t q) t).poses = t.poses :=
  foldl_keeps Tile.poses _ (fun t q => s.poses_noticeAll k t q) qs t

@[simp] theorem Tile.poses_closePartition (t : Tile) (qs : List Nat) (b : Bool) : (t.closePartition qs b).poses = t.poses :=
  foldl_keeps Tile.poses _ (fun _ _ => by rfl) qs t

@[simp] theorem Tile.poses_refuseLoad (t : Tile) : t.refuseLoad.poses = t.poses := t.poses_count 18 1

@[simp] theorem Tile.poses_dropSwitch (t : Tile) (slot : Nat) : (t.dropSwitch slot).poses = t.poses := by
  unfold Tile.dropSwitch
  split
  · split
    · exact Tile.poses_count t 17 1
    · rfl
  · rfl

@[simp] theorem State.poses_postDiscard (s : State) (k slot n : Nat) (t : Tile) : (s.postDiscard k slot n t).poses = t.poses := by
  unfold State.postDiscard
  split <;> rfl

@[simp] theorem Tile.poses_emptyQueues (t : Tile) (qs : List Nat) : (t.emptyQueues qs).1.poses = t.poses :=
  foldl_keeps (fun r : Tile × Nat => r.1.poses) _ (fun _ _ => by rfl) qs (t, 0)

@[simp] theorem Tile.poses_installQueues (t : Tile) (slot : Nat) (d : List (BitVec 64)) :
    (t.installQueues slot d).poses = t.poses := by
  refine foldl_keeps Tile.poses _ (fun t q => ?_) (List.range 32) t
  dsimp only
  split
  · split <;> rfl
  · split <;> rfl

theorem Tile.poses_iff {a b : Tile} :
    a.poses = b.poses ↔ a.slots = b.slots ∧ a.poseMem = b.poseMem ∧ a.loadRun = b.loadRun := by
  simp [Tile.poses]

/-! ## Refused loads remembered by the region (R269) -/

@[simp] theorem State.tile_noteRefusedLoad (s : State) (k barrier j : Nat) : (s.noteRefusedLoad k barrier).tile j = s.tile j := rfl

theorem State.mem_noteRefusedLoad (s : State) (k barrier : Nat) :
    barrier ∈ ((s.noteRefusedLoad k barrier).region (regionOfTile k)).refusedLoads := by
  rw [State.noteRefusedLoad, State.region_onRegion]
  split
  · rename_i h; simpa using h
  · simp

/-! ## The start of a load (R265 to R268) -/

@[simp] theorem State.touchAll_loadQueue (s : State) (k : Nat) (t : Tile) (is : List Nat) :
    (s.touchAll k t is).loadQueue = t.loadQueue := by
  rw [s.touchAll_asRead k is t]

/-- The tile with the loads that are still queued when the first has been taken off. -/
def Tile.nextLoads (t : Tile) (rest : List PoseLoadReq) : Tile := { t with loadQueue := rest }

/-- The tile with a load under way. -/
def Tile.beginLoad (t : Tile) (r : PoseLoadRun) : Tile := { t with loadRun := some r }

@[simp] theorem Tile.nextLoads_loadQueue (t : Tile) (rest : List PoseLoadReq) : (t.nextLoads rest).loadQueue = rest := rfl
@[simp] theorem Tile.word_nextLoads (t : Tile) (rest : List PoseLoadReq) (i : Nat) : (t.nextLoads rest).word i = t.word i := rfl
@[simp] theorem Tile.beginLoad_loadQueue (t : Tile) (r : PoseLoadRun) : (t.beginLoad r).loadQueue = t.loadQueue := rfl
@[simp] theorem Tile.word_beginLoad (t : Tile) (r : PoseLoadRun) (i : Nat) : (t.beginLoad r).word i = t.word i := rfl

section
variable {k : TileIx} {s : State} {q : PoseLoadReq} {rest : List PoseLoadReq} (hruns : s.runs k)
  (hidle : (s.tile k).loadRun = none) (hqueue : (s.tile k).loadQueue = q :: rest) (hlocal : q.near = false)
include hruns hidle hqueue hlocal

/-- A load into the slot in force is refused. -/
theorem exec_poseLoadStart_refused (hslot : (s.tile k).slot q.slot = .inForce) : exec (.poseLoadStart k) s
    = .next ((s.setTile k ((s.tile k).nextLoads rest).refuseLoad).noteRefusedLoad k q.barrier).bump := by
  obtain ⟨hpresent, hclocked⟩ := hruns
  rw [exec_poseLoadStart, execPoseLoadStart]
  dsimp only
  rw [if_neg (by simp [hpresent, hclocked, hidle]), hqueue]
  dsimp only
  rw [if_neg (by simp [hlocal]), if_pos (.inl hslot)]
  rfl

/-- A load from local memory into a slot that is not in force and has no queues is accepted, with the words at its source. -/
theorem exec_poseLoadStart_accepted (hslot : (s.tile k).slot q.slot ≠ .inForce) (hpart : (s.tile k).partition q.slot = [])
    (hforce : q.force = false) : ∃ u, exec (.poseLoadStart k) s = .next u ∧ u.tile k
      = ((s.setTile k ((s.tile k).nextLoads rest)).touchAll k ((s.tile k).nextLoads rest) (rangeFrom (q.source / 8) 64)).beginLoad
          { req := q, words := (s.tile k).words (q.source / 8) 64, discarded := 0 } := by
  obtain ⟨hpresent, hclocked⟩ := hruns
  rw [exec_poseLoadStart, execPoseLoadStart]
  dsimp only
  rw [if_neg (by simp [hpresent, hclocked, hidle]), hqueue]
  dsimp only
  rw [if_neg (by simp [hlocal]), if_neg (by simp [hslot, hpart]), hforce, hpart, if_neg (by decide)]
  refine ⟨_, rfl, ?_⟩
  rw [State.loadSource, hlocal, if_neg (by decide), State.tile_bump, State.tile_onTile, State.tile_setTile,
    State.tile_setTile]
  rfl

end

/-! ## The end of a load (R257, R268 to R270) -/

/-- The tile after a load that its checks refuse. -/
def State.loadRefused (s : State) (k : Nat) (t : Tile) (r : PoseLoadRun) : Tile :=
  s.postDiscard k r.req.slot r.discarded ((t.partition r.req.slot).foldl (fun t q => s.noticeAll k t q)
    ((({ t with loadRun := none } : Tile).closePartition (t.partition r.req.slot) false).refuseLoad.dropSwitch r.req.slot))

theorem State.poses_loadRefused (s : State) (k : Nat) (t : Tile) (r : PoseLoadRun) :
    (s.loadRefused k t r).poses = ({ t with loadRun := none } : Tile).poses := by
  rw [State.loadRefused, State.poses_postDiscard, State.poses_foldl_noticeAll, Tile.poses_dropSwitch, Tile.poses_refuseLoad,
    Tile.poses_closePartition]

/-- The words of a descriptor written to a slot of the pose store. -/
def Tile.storeDesc (t : Tile) (slot : Nat) (d : List (BitVec 64)) (n : Nat) : Tile :=
  (List.range n).foldl (fun t i => { t with poseMem := putD {} t.poseMem (64 * slot + i) (MWord.ofP { val := descAt d i }) }) t

theorem Tile.storeDesc_succ (t : Tile) (slot : Nat) (d : List (BitVec 64)) (n : Nat) : t.storeDesc slot d (n + 1)
    = { t.storeDesc slot d n with
        poseMem := putD {} (t.storeDesc slot d n).poseMem (64 * slot + n) (MWord.ofP { val := descAt d n }) } := by
  rw [Tile.storeDesc, List.range_succ, List.foldl_append]
  rfl

theorem Tile.descWord_storeDesc (t : Tile) (slot : Nat) (d : List (BitVec 64)) {n i : Nat} (h : i < n) :
    (t.storeDesc slot d n).descWord slot i = descAt d i := by
  induction n with
  | zero => exact absurd h (Nat.not_lt_zero i)
  | succ n ih =>
    rw [Tile.storeDesc_succ, Tile.descWord]
    dsimp only
    by_cases hi : i = n
    · rw [hi, getD_putD_same, MWord.read_ofP]
      rfl
    · rw [getD_putD_other _ _ _ _ _ (by omega)]
      exact ih (by omega)

theorem Tile.storeDesc_loadRun (t : Tile) (slot : Nat) (d : List (BitVec 64)) (n : Nat) :
    (t.storeDesc slot d n).loadRun = t.loadRun := foldl_keeps Tile.loadRun _ (fun _ _ => by rfl) (List.range n) t

theorem Tile.descWord_congr {a b : Tile} (h : a.poseMem = b.poseMem) (slot w : Nat) : a.descWord slot w = b.descWord slot w := by
  unfold Tile.descWord
  rw [h]

/-- The tile with the queues of an accepted load emptied and its queue map entries installed. -/
def State.loadQueues (s : State) (k : Nat) (t : Tile) (r : PoseLoadRun) (d : List (BitVec 64)) : Tile :=
  let e := ({ t with loadRun := none } : Tile).emptyQueues (t.disables d)
  s.postDiscard k r.req.slot (r.discarded + e.2) ((e.1.count 19 e.2).installQueues r.req.slot d)

theorem State.loadQueues_loadRun (s : State) (k : Nat) (t : Tile) (r : PoseLoadRun) (d : List (BitVec 64)) :
    (s.loadQueues k t r d).loadRun = none := by
  have h : (s.loadQueues k t r d).poses = ({ t with loadRun := none } : Tile).poses := by
    rw [State.loadQueues, State.poses_postDiscard, Tile.poses_installQueues, Tile.poses_count, Tile.poses_emptyQueues]
  obtain ⟨-, -, hidle⟩ := Tile.poses_iff.mp h
  exact hidle

/-- The tile after a load that its checks pass, with its signal to the completion barrier. -/
def State.loadInstalled (s : State) (k : Nat) (t : Tile) (r : PoseLoadRun) (d : List (BitVec 64)) : Tile :=
  (((t.partition r.req.slot) ++ t.disables d).foldl (fun t q => s.noticeAll k t q)
    (((s.loadQueues k t r d).storeDesc r.req.slot d 64).setSlot r.req.slot .resident)).send
    (s.signalPacket k 2 (BitVec.ofNat 64 (regionOfTile k * 2 ^ 8 + r.req.barrier)) 1)

theorem State.poses_loadInstalled (s : State) (k : Nat) (t : Tile) (r : PoseLoadRun) (d : List (BitVec 64)) :
    (s.loadInstalled k t r d).poses = (((s.loadQueues k t r d).storeDesc r.req.slot d 64).setSlot r.req.slot .resident).poses := by
  rw [State.loadInstalled, Tile.poses_send, State.poses_foldl_noticeAll]

section
variable {k : TileIx} {s : State} {r : PoseLoadRun} (hruns : s.runs k) (hrun : (s.tile k).loadRun = some r)
  (hclean : r.words.any PWord.poison = false)
include hruns hrun hclean

/-- A finished load whose descriptor is not valid is refused (R257, R269). -/
theorem exec_poseLoadDone_refused (hvalid : descValid (s.tile k).protTop.toNat r.req.slot (r.words.map PWord.val) = false) :
    exec (.poseLoadDone k) s
      = .next ((s.setTile k (s.loadRefused k (s.tile k) r)).noteRefusedLoad k r.req.barrier).bump := by
  obtain ⟨hpresent, hclocked⟩ := hruns
  rw [exec_poseLoadDone, execPoseLoadDone]
  dsimp only
  rw [if_neg (by simp [hpresent, hclocked]), hrun]
  dsimp only
  rw [if_pos (by simp [hvalid]), if_neg (by simp [hclean])]
  rfl

/-- A forced load whose descriptor is valid and whose rings meet no other's is installed (R268, R270). -/
theorem exec_poseLoadDone_installed (hvalid : descValid (s.tile k).protTop.toNat r.req.slot (r.words.map PWord.val) = true)
    (hrings : (s.tile k).ringCheck r.req.slot (r.words.map PWord.val) = true) (hforce : r.req.force = true) :
    exec (.poseLoadDone k) s
      = .next (s.setTile k (s.loadInstalled k (s.tile k) r (r.words.map PWord.val))).bump := by
  obtain ⟨hpresent, hclocked⟩ := hruns
  rw [exec_poseLoadDone, execPoseLoadDone]
  dsimp only
  rw [if_neg (by simp [hpresent, hclocked]), hrun]
  dsimp only
  rw [if_neg (by simp [hclean, hvalid, hrings, hforce])]
  rfl

end

/-! ## The obligation -/

/-- Settles O29: a switch and a start by the switch sequence, a load by its acceptance and its checks, a mode write by who makes
it, a tile reset by the reset values. -/
theorem poseEngine : Obligations.PoseEngine := by
  unfold Obligations.PoseEngine
  intro k s
  dsimp only
  refine ⟨?switch, ?start,
    fun q rest hruns hidle hqueue hlocal => ⟨fun hslot => ?loadRefused, fun hslot hpart hforce => ?loadAccepted⟩,
    fun r hruns hrun hclean => ⟨fun hvalid => ?checksFail, fun hvalid hrings hforce => ?checksPass⟩, ?mode, ?noMode, ?reset⟩
  case switch =>
    intro p hruns hp hended hparked hmx hvx hload hslot
    refine ⟨_, exec_poseSwitchRun_due hruns hmx hvx hload hp hended hparked hslot, (s.tile k).tookSlot_switchTo p.slot, ?_⟩
    obtain ⟨-, -, -, -, -, hservice, -⟩ := (s.tile k).switchTo_keeps p.slot
    exact hservice
  case start =>
    intro slot service top hruns hparked hmx hvx hload hslot htop
    obtain ⟨-, -, -, -, -, hservice, hprot⟩ := ((s.tile k).setMode service top).switchTo_keeps slot.toNat
    rw [Tile.setMode_of_le htop] at hservice hprot
    refine ⟨_, exec_poseStart_idle hruns hmx hvx hload hparked hslot, ?_⟩
    rw [Tile.setMode_of_le htop]
    exact ⟨Tile.tookSlot_switchTo _ slot.toNat, hservice, hprot, rfl⟩
  case loadRefused =>
    refine ⟨_, exec_poseLoadStart_refused hruns hidle hqueue hlocal hslot, ?_⟩
    rw [State.tile_bump, State.tile_noteRefusedLoad, State.tile_setTile, State.region_bump]
    exact ⟨Tile.count_loadQueue _ _ _, (Tile.count_loadRun _ _ _).trans hidle, Tile.count_slots _ _ _,
      s.mem_noteRefusedLoad k _⟩
  case loadAccepted =>
    obtain ⟨u, hexec, htile⟩ := exec_poseLoadStart_accepted hruns hidle hqueue hlocal hslot hpart hforce
    refine ⟨u, hexec, ?_⟩
    rw [htile]
    refine ⟨?_, rfl, fun i => ?_⟩
    · rw [Tile.beginLoad_loadQueue, State.touchAll_loadQueue, Tile.nextLoads_loadQueue]
    · rw [Tile.word_beginLoad, State.word_touchAll, Tile.word_nextLoads]
  case checksFail =>
    refine ⟨_, exec_poseLoadDone_refused hruns hrun hclean hvalid, ?_⟩
    rw [State.tile_bump, State.tile_noteRefusedLoad, State.tile_setTile, State.region_bump]
    obtain ⟨hslots, hwords, hidle⟩ := Tile.poses_iff.mp (s.poses_loadRefused k (s.tile k) r)
    exact ⟨hidle, hwords, hslots, State.mem_noteRefusedLoad _ k _⟩
  case checksPass =>
    refine ⟨_, exec_poseLoadDone_installed hruns hrun hclean hvalid hrings hforce, ?_⟩
    obtain ⟨hslots, hwords, hidle⟩ := Tile.poses_iff.mp (s.poses_loadInstalled k (s.tile k) r (r.words.map PWord.val))
    rw [State.tile_bump, State.tile_setTile]
    refine ⟨?_, fun j hj => State.tile_setTile_other _ _ _ _ hj, ?_, fun i hi => ?_⟩
    · rw [hidle]
      exact (Tile.storeDesc_loadRun _ _ _ _).trans (s.loadQueues_loadRun k _ r _)
    · rw [Tile.slot_congr hslots, Tile.slot_setSlot_same]
    · rw [Tile.descWord_congr hwords]
      exact Tile.descWord_storeDesc _ _ _ hi
  case mode =>
    intro service top hpresent hparked htop
    rw [exec_tileModeWrite_present hpresent, if_pos (by rw [hparked]; rfl), Tile.setMode_of_le htop]
  case noMode =>
    intro byController service top hpresent hnot
    rw [exec_tileModeWrite_present hpresent, if_neg (by rcases hnot with h | h <;> simp [h])]
    exact ⟨_, rfl, rfl⟩
  case reset =>
    exact fun hpresent => ⟨_, exec_tileReset_present hpresent, rfl, rfl, rfl, rfl, fun r => ite_self _,
      fun _ => rfl, fun _ => rfl, rfl, rfl, rfl, rfl, rfl, rfl⟩

end Sys2Proof.Machine
end

section
/-! Steering (08, R273, R274), the tally engine (13, R391), and waits beyond their limits (07, R238). -/

namespace Sys2Proof.Machine

/-! ## What reads leave of the pose in force and of the words -/

theorem Tile.queue_asRead {a b : Tile} (h : a.asRead b) (q : Nat) : b.queue q = a.queue q := by
  rw [h]
  rfl

theorem Tile.destination_asRead {a b : Tile} (h : a.asRead b) (i : Nat) : b.destination i = a.destination i := by
  rw [h]
  rfl

theorem Tile.protects_asRead {a b : Tile} (h : a.asRead b) (off n : Nat) : b.protects off n = a.protects off n := by
  rw [h]
  rfl

theorem State.words_touch (s : State) (k : Nat) (t : Tile) (i j n : Nat) : (s.touch k t i).words j n = t.words j n := by
  simp [Tile.words]

theorem State.release_quiet_of_queues {s : State} {k : Nat} {a t : Tile} {q : Nat} (h : a.queues = t.queues)
    (hretry : (t.queue q).retry = []) : s.release k a q = a.setQueue q (t.queue q).dropHead := by
  have hqueue := Tile.queue_congr h q
  rw [State.release_quiet (by rw [hqueue, hretry]), hqueue]

theorem Tile.word_setQueue (t : Tile) (q : Nat) (x : Queue) (i : Nat) : (t.setQueue q x).word i = t.word i := rfl

/-! ## A rule that forwards (R274) -/

/-- The pair of queue heads released, control first, where nobody waits on either retry list. -/
theorem State.steerEnd_quiet {s : State} {k : Nat} {t : Tile} {r : BitVec 64} (hne : field r 0 5 ≠ field r 5 5)
    (hctrl : (t.queue (field r 0 5)).retry = []) (hdata : (t.queue (field r 5 5)).retry = []) : s.steerEnd k t r
      = (t.setQueue (field r 0 5) (t.queue (field r 0 5)).dropHead).setQueue (field r 5 5) (t.queue (field r 5 5)).dropHead := by
  have hkeep := t.queue_setQueue_other (field r 0 5) (field r 5 5) (t.queue (field r 0 5)).dropHead hne.symm
  rw [State.steerEnd, State.release_quiet hctrl, State.release_quiet (by rw [hkeep, hdata]), hkeep]

/-- The tile after a pair's two reads: the control message's tag word, and the data message `d`. -/
def State.steerRead (s : State) (k : Nat) (t : Tile) (r : BitVec 64) (c d : QItem) : Tile :=
  s.touchAll k (s.touch k t (ringWord (t.queue (field r 0 5)) c.slot 1))
    (rangeFrom (ringWord (t.queue (field r 5 5)) d.slot 0) (2 * d.slots))

theorem State.steerRead_asRead (s : State) (k : Nat) (t : Tile) (r : BitVec 64) (c d : QItem) : t.asRead (s.steerRead k t r c d) :=
  Tile.asRead_trans (s.touch_asRead k t _) (s.touchAll_asRead k _ _)

/-- The tile after a rule has forwarded a data message to a destination: the message stands in an outbound entry. -/
def State.steered (s : State) (k : Nat) (t : Tile) (r : BitVec 64) (c d : QItem) (tag : Nat) : Tile :=
  s.steerEnd k ((s.steerRead k t r c d).addOutbound (t.destination (field r 48 4 + tag % 16)) (d.slots == 2)
    (t.words (ringWord (t.queue (field r 5 5)) d.slot 0) (2 * d.slots)) false false) r

section
variable {k : TileIx} {s : State} {t : Tile} {rule : BitVec 64} {rules : List (BitVec 64)} {c d : QItem}
  (hctrl : (t.queue (field rule 0 5)).items = [c]) (hdata : (t.queue (field rule 5 5)).items = [d])
include hctrl hdata

theorem Tile.firstReady (hrules : t.steerRules = rule :: rules) (henabled : bitOf rule 63 = true) :
    ((List.range 8).zip t.steerRules).find? (fun x => t.steerReady x.2) = some (0, rule) := by
  have hready : t.steerReady rule = true := by simp [Tile.steerReady, henabled, Queue.headItem, hctrl, hdata]
  rw [hrules, List.range_succ_eq_map]
  exact List.find?_cons_of_pos hready

/-- A pair whose tag is unpoisoned and in range forwards its data message. -/
theorem State.steerPair_forwards (i : Nat) (hclean : (t.word (ringWord (t.queue (field rule 0 5)) c.slot 1)).poison = false)
    (hkeep : field (t.word (ringWord (t.queue (field rule 0 5)) c.slot 1)).val 32 16 < 2 ^ 15)
    (hrange : field (t.word (ringWord (t.queue (field rule 0 5)) c.slot 1)).val 32 16 % 16 ≤ field rule 40 4)
    (hroom : t.outbound = []) : s.steerPair k t i rule = some (s.steered k t rule c d
      (field (t.word (ringWord (t.queue (field rule 0 5)) c.slot 1)).val 32 16)) := by
  have hc : (t.queue (field rule 0 5)).headItem = some c := by rw [Queue.headItem, hctrl]; rfl
  have hd : (t.queue (field rule 5 5)).headItem = some d := by rw [Queue.headItem, hdata]; rfl
  rw [State.steerPair, hc, hd]
  dsimp only
  rw [if_neg (by simp [hclean]), if_neg (Nat.not_le.mpr hkeep), if_neg (by omega), State.touch_outbound, hroom,
    if_neg (by simp), s.words_touch, Tile.destination_asRead (Tile.asRead_trans (s.touch_asRead k t _) (s.touchAll_asRead k _ _))]
  rfl

end

/-- What forwarding leaves: the entry in the outbound buffer, both queues empty, local memory as it was. -/
theorem State.steered_leaves {s : State} {k : Nat} {t : Tile} {r : BitVec 64} {c d : QItem} {tag : Nat}
    (hne : field r 0 5 ≠ field r 5 5)
    (hctrl : (t.queue (field r 0 5)).items = [c]) (hdata : (t.queue (field r 5 5)).items = [d])
    (hcretry : (t.queue (field r 0 5)).retry = []) (hdretry : (t.queue (field r 5 5)).retry = []) (hroom : t.outbound = []) :
    ∃ o, (s.steered k t r c d tag).outbound = [o] ∧ o.dest = t.destination (field r 48 4 + tag % 16)
      ∧ o.words = t.words (ringWord (t.queue (field r 5 5)) d.slot 0) (2 * d.slots)
      ∧ ((s.steered k t r c d tag).queue (field r 0 5)).items = [] ∧ ((s.steered k t r c d tag).queue (field r 5 5)).items = []
      ∧ t.sameMem (s.steered k t r c d tag) := by
  have hread := s.steerRead_asRead k t r c d
  have hqueue : ∀ q dest long ws, ((s.steerRead k t r c d).addOutbound dest long ws false false).queue q = t.queue q :=
    fun q _ _ _ => Tile.queue_asRead hread q
  rw [State.steered, State.steerEnd_quiet hne (by rw [hqueue, hcretry]) (by rw [hqueue, hdretry]), hqueue, hqueue]
  have hout : (s.steerRead k t r c d).outbound = [] := by rw [hread]; exact hroom
  refine ⟨_, congrArg (· ++ [_]) hout, ?_, ?_, ?_, ?_, fun i => ?_⟩
  · rfl
  · rfl
  · rw [Tile.queue_setQueue_other _ _ _ _ hne, Tile.queue_setQueue_same, Queue.dropHead_items_of_one hctrl]
  · rw [Tile.queue_setQueue_same, Queue.dropHead_items_of_one hdata]
  · exact (s.word_touchAll k _ _ i).trans (s.word_touch k t _ i)

/-! ## The tally engine (13, R391) -/

/-- An exact sum is written where the word is not protected and nothing is poisoned. -/
theorem State.tallyAdd_exact {s : State} {k : Nat} {t : Tile} {w : Nat} {inc : PWord} (hprot : t.protects (8 * w) 8 = false)
    (hinc : inc.poison = false) (hold : (t.word w).poison = false)
    (hlo : -(2 ^ 63 : Int) ≤ signedOf 64 (t.word w).val.toNat + signedOf 64 inc.val.toNat)
    (hhi : signedOf 64 (t.word w).val.toNat + signedOf 64 inc.val.toNat < (2 ^ 63 : Int)) : s.tallyAdd k t w inc false
      = (s.touch k t w).putWord w { val := BitVec.ofInt 64 (signedOf 64 (t.word w).val.toNat + signedOf 64 inc.val.toNat) } := by
  rw [State.tallyAdd]
  rw [Tile.protects_asRead (s.touch_asRead k t w), hprot, if_neg (by decide), if_neg (by simp [hinc, hold]),
    if_neg (by omega)]

/-- The cell that a tally message names, in its tile's part of the window (R391). -/
def State.tallyCell (s : State) (k : Nat) (ctx : TallyCtx) (decl : TallyDecl) (c : PWord) : Int :=
  signedOf 64 c.val.toNat - (ctx.base : Int) - (((s.paddock (s.ownerOf k)).groupRank decl.group k * decl.cpo : Nat) : Int)

theorem poison_getD_of_any {ws : List PWord} (h : ws.any PWord.poison = false) (j : Nat) : (ws.getD j {}).poison = false := by
  rw [List.getD_eq_getElem?_getD]
  cases hw : ws[j]? with
  | none => rfl
  | some w => exact Bool.eq_false_iff.mpr (List.any_eq_false.mp h w (List.mem_of_getElem? hw))

/-- The words of a message of two slots. -/
abbrev Tile.messageWords (t : Tile) (q : Nat) (item : QItem) : List PWord := t.words (ringWord (t.queue q) item.slot 0) 4

/-- The tile after its tally engine has read a message and added its increment to a word of the table. -/
def State.tallied (s : State) (k : Nat) (t : Tile) (q : Nat) (item : QItem) (w : Nat) : Tile :=
  (s.tallyAdd k (s.touchAll k t (rangeFrom (ringWord (t.queue q) item.slot 0) 4)) w
    ((t.messageWords q item).getD 2 {}) false).count 21 1

section
variable {k : TileIx} {s : State} {q : Nat} {ctx : TallyCtx} {item : QItem} {decl : TallyDecl}

/-- A clean tally message whose cell lies in its tile's range is added and released. -/
theorem exec_tallyApply_in_range (hruns : s.runs k) (hstopped : (s.tile k).stopped = false)
    (hq : s.tallyQueue k (s.tile k) = some q) (hctx : (s.tile k).tally = some ctx) (hitems : ((s.tile k).queue q).items = [item])
    (howed : item.owed = none) (hdecl : (s.paddock (s.ownerOf k)).tallyDecl ctx.decl = some decl)
    (hclean : ((s.tile k).messageWords q item).any PWord.poison = false)
    (hlo : 0 ≤ s.tallyCell k ctx decl (((s.tile k).messageWords q item).getD 0 {}))
    (hhi : s.tallyCell k ctx decl (((s.tile k).messageWords q item).getD 0 {}) < (decl.cpo : Int)) :
    exec (.tallyApply k) s = .next (s.engineStep k (s.release k (s.tallied k (s.tile k) q item
      (decl.table / 8 + (s.tallyCell k ctx decl (((s.tile k).messageWords q item).getD 0 {})).toNat)) q)) := by
  have hhead : ((s.tile k).queue q).headItem = some item := by rw [Queue.headItem, hitems]; rfl
  have hbad : [0, 1, 3].any (fun j => (((s.tile k).messageWords q item).getD j {}).poison) = false := by
    simp only [List.any_cons, List.any_nil, poison_getD_of_any hclean, Bool.or_false]
  unfold State.tallyCell Tile.messageWords at *
  rw [exec_tallyApply, execTallyApply]
  refine engine_some hruns _ ?_
  rw [hq, hctx]
  dsimp only
  rw [hstopped, if_neg (by decide), hhead]
  dsimp only
  rw [hdecl, Option.getD_some, hbad, if_neg (by omega), howed]
  rfl

end

section
variable {s : State} {k : Nat} {t : Tile} {q : Nat} {item : QItem} {w : Nat} {inc : PWord}
  (hinc : (t.messageWords q item).getD 2 {} = inc) (hclean : inc.poison = false) (hprot : t.protects (8 * w) 8 = false)
  (hold : (t.word w).poison = false)
  (hlo : -(2 ^ 63 : Int) ≤ signedOf 64 (t.word w).val.toNat + signedOf 64 inc.val.toNat)
  (hhi : signedOf 64 (t.word w).val.toNat + signedOf 64 inc.val.toNat < (2 ^ 63 : Int))
include hinc hclean hprot hold hlo hhi

/-- An exact sum in its word, every other word and every queue as before. -/
theorem State.tallied_leaves : (s.tallied k t q item w).word w
      = ⟨BitVec.ofInt 64 (signedOf 64 (t.word w).val.toNat + signedOf 64 inc.val.toNat), false⟩
    ∧ (∀ i, i ≠ w → (s.tallied k t q item w).word i = t.word i) ∧ (s.tallied k t q item w).queues = t.queues := by
  subst hinc
  have hread := s.touchAll_asRead k (rangeFrom (ringWord (t.queue q) item.slot 0) 4) t
  have hword := s.word_touchAll k (rangeFrom (ringWord (t.queue q) item.slot 0) 4) t
  rw [State.tallied, State.tallyAdd_exact (by rw [Tile.protects_asRead hread, hprot]) hclean (by rw [hword, hold])
    (by rw [hword]; exact hlo) (by rw [hword]; exact hhi)]
  refine ⟨?_, fun i hi => ?_, ?_⟩
  · rw [Tile.word_congr (Tile.count_mem _ _ _), Tile.word_putWord_same, hword]
    rfl
  · rw [Tile.word_congr (Tile.count_mem _ _ _), Tile.word_putWord_other _ _ _ _ hi, State.word_touch, hword]
  · rw [Tile.count_queues, Tile.putWord_queues, State.touch_queues, hread]

end

/-! ## Waits beyond their limits (R238) -/

section
variable {k : TileIx} {s : State} (hruns : s.runs k)
include hruns

/-- A wait at an object beyond its limit: the object is stuck. -/
theorem exec_syncStuck_wait {i : Nat} (hlimit : (s.tile k).waitBeats ≠ 0) (hwait : (s.tile k).wait = .sync i) :
    exec (.syncStuck k none) s = .next (s.engineStep k
      { s.tileFault k (s.tile k) 3 0x10 (s.tile k).pc (BitVec.ofNat 64 i) with
        stopped := true, stuckAt := some (0, BitVec.ofNat 64 i) }) := by
  rw [exec_syncStuck, execSyncStuck]
  refine engine_some hruns _ ?_
  dsimp only
  rw [if_neg hlimit, hwait]

/-- An outbound entry beyond its limit. -/
theorem exec_syncStuck_entry {e : OutEntry} {rest : List OutEntry} (hlimit : (s.tile k).sendBeats ≠ 0)
    (hout : (s.tile k).outbound = e :: rest) : exec (.syncStuck k (some 0)) s = .next (s.engineStep k
      { s.tileFault k (s.tile k) 3 0x10 (s.tile k).pc e.dest with stopped := true }) := by
  rw [exec_syncStuck, execSyncStuck]
  refine engine_some hruns _ ?_
  dsimp only
  rw [hout, List.getElem?_cons_zero]
  exact if_neg hlimit

end

/-! ## The obligation -/

/-- Settles O30: a ready pair by what it forwards, a tally message by the word of its cell, a stuck wait by its fault. -/
theorem steeringTallyAndStuck : Obligations.SteeringTallyAndStuck := by
  unfold Obligations.SteeringTallyAndStuck
  intro k s hruns
  dsimp only
  refine ⟨?steer, ?tally, fun i hlimit hwait => exec_syncStuck_wait hruns hlimit hwait,
    fun e rest hlimit hout => exec_syncStuck_entry hruns hlimit hout⟩
  case steer =>
    intro rule rules c d hparked hstopped hrules henabled hne hctrl hdata hcretry hdretry hclean hkeep hrange hroom
    obtain ⟨o, hleaves⟩ := State.steered_leaves (s := s) (k := k)
      (tag := field ((s.tile k).word (ringWord ((s.tile k).queue (field rule 0 5)) c.slot 1)).val 32 16)
      hne hctrl hdata hcretry hdretry hroom
    refine ⟨_, o, ?_, hleaves⟩
    rw [exec_steerFire, execSteerFire]
    refine engine_some hruns _ ?_
    rw [if_neg (by simp [hparked, hstopped]), Tile.firstReady hctrl hdata hrules henabled]
    exact State.steerPair_forwards hctrl hdata 0 hclean hkeep hrange hroom
  case tally =>
    intro q ctx item decl hstopped hq hctx hitems hretry howed hdecl hclean hlo hhi hprot hold hsumlo hsumhi
    have hexec := exec_tallyApply_in_range hruns hstopped hq hctx hitems howed hdecl hclean hlo hhi
    obtain ⟨hword, hother, hqueues⟩ := State.tallied_leaves (s := s) (k := k) rfl (poison_getD_of_any hclean 2)
      hprot hold hsumlo hsumhi
    unfold State.tallyCell Tile.messageWords at hexec
    rw [State.release_quiet_of_queues hqueues hretry] at hexec
    refine ⟨_, hexec, (Tile.word_setQueue _ _ _ _).trans hword,
      fun i hi => (Tile.word_setQueue _ _ _ _).trans (hother i hi), ?_⟩
    rw [Tile.queue_setQueue_same, Queue.dropHead_items_of_one hitems]

end Sys2Proof.Machine
end

section
/-! Entries of a pace table that reach tiles and ledgers (08, R251, R261, R265; 15, R457, R461). -/

namespace Sys2Proof.Machine

/-! ## Tiles changed one after another -/

/-- A run of changes over tiles without repetition, each of one tile by what that tile holds. -/
theorem State.tile_foldl_of_nodup {f : State → Nat → State} {g : Nat → Tile → Tile}
    (hsame : ∀ s k, (f s k).tile k = g k (s.tile k)) (hother : ∀ (s : State) k, s.otherTiles (f s k) k) {l : List Nat}
    (hl : l.Nodup) (s : State) (j : Nat) : (l.foldl f s).tile j = if j ∈ l then g j (s.tile j) else s.tile j := by
  induction l generalizing s with
  | nil => rfl
  | cons k l ih =>
    obtain ⟨hk, hl⟩ := List.nodup_cons.mp hl
    rw [List.foldl_cons, ih hl]
    by_cases hj : j = k
    · subst hj
      rw [if_neg hk, if_pos List.mem_cons_self, hsame]
    · rw [hother s k j hj]
      simp [hj]

/-! ## POSE_SWITCH (R251, R261) -/

section
variable {t : Tile} {slot : Nat} {ahead : Bool}

theorem Tile.requestSwitch_taken (hparked : t.parked = false) (hslot : t.slot slot ≠ .empty) :
    (t.requestSwitch slot ahead).pendingSwitch = some { slot := slot, fromPace := true, ahead := ahead } := by
  rw [Tile.requestSwitch, if_neg (by simp [hparked, hslot])]
  dsimp only
  split
  · exact Tile.count_pendingSwitch _ 16 1
  · rfl

/-- A switch of a parked tile, or into an empty slot, is dropped and counted. -/
theorem Tile.requestSwitch_dropped (h : t.parked = true ∨ t.slot slot = .empty) : t.requestSwitch slot ahead = t.count 17 1 := by
  rw [Tile.requestSwitch, if_pos (by rcases h with h | h <;> simp [h])]

theorem Tile.sameButRouter_count (i n : Nat) : t.sameButRouter (t.count i n) := by simp [Tile.sameButRouter]

theorem Tile.sameButRouter_requestSwitch : t.sameButRouter (t.requestSwitch slot ahead) := by
  unfold Tile.requestSwitch
  split
  · exact Tile.sameButRouter_count 17 1
  · dsimp only
    split
    · exact Tile.sameButRouter_count (t := { t with pendingSwitch := _ }) 16 1
    · and_intros <;> rfl

end

section
variable {r : RegionIx} {e : PaceEntry} {rest : List PaceEntry} {s : State}

theorem exec_poseSwitch_of_due (h : s.atEntry r e rest 0x03) : exec (.poseSwitch r) s
    = .next ((s.membersIn (s.region r).owner e.target r).foldl (fun s k =>
        s.onTile k (fun t => t.requestSwitch (field e.arg 0 4) (decide (e.offset < 0)))) (s.offDue r rest)).bump :=
  issueEntry_of_action h (by decide) h.is _

/-! ## POSE_LOAD (R251, R265) -/

/-- The load that an entry asks of a tile of its group: slot, FORCE, source and the barrier of the group's part in the region. -/
def State.loadAsked (s : State) (p r : Nat) (e : PaceEntry) (k : Nat) : PoseLoadReq :=
  { slot := field e.arg 48 4
    force := bitOf e.arg 52
    near := field e.arg 53 3 == 1
    source := field e.arg 0 48
    rank := firstIndex (· == k) (match (s.paddock p).image with
      | some i => i.groupTiles (s.paddock p).placement e.target
      | none => [])
    barrier := (s.paddock p).partBarrier e.target r
    ahead := decide (e.offset < 0) }

theorem exec_poseLoad_of_due (h : s.atEntry r e rest 0x04) : exec (.poseLoad r) s
    = .next ((s.membersIn (s.region r).owner e.target r).foldl (fun u k =>
        u.requestLoad k (s.loadAsked (s.region r).owner r e k)) (s.offDue r rest)).bump :=
  issueEntry_of_action h (by decide) h.is _

end

/-- The tile that a load reaches: the load is queued where there is room, and refused otherwise. -/
def Tile.takeLoad (t : Tile) (q : PoseLoadReq) : Tile :=
  if t.loadQueue.length < (if t.loadRun.isSome then 4 else 5) then { t with loadQueue := t.loadQueue ++ [q] } else t.refuseLoad

theorem Tile.takeLoad_of_room {t : Tile} {q : PoseLoadReq} (h : t.loadQueue.length < 4) :
    t.takeLoad q = { t with loadQueue := t.loadQueue ++ [q] } := by
  rw [Tile.takeLoad, if_pos (by split <;> omega)]

theorem State.requestLoad_eq (s : State) (k : Nat) (q : PoseLoadReq) :
    s.requestLoad k q = s.onTile k (fun t => t.takeLoad q)
      ∨ s.requestLoad k q = (s.onTile k (fun t => t.takeLoad q)).noteRefusedLoad k q.barrier := by
  by_cases h : (s.tile k).loadQueue.length < (if (s.tile k).loadRun.isSome then 4 else 5)
  · refine .inl ((if_pos h).trans ?_)
    rw [State.onTile, State.onTile, Tile.takeLoad, if_pos h]
  · refine .inr ((if_neg h).trans ?_)
    rw [State.onTile, State.onTile, Tile.takeLoad, if_neg h]

theorem State.tile_requestLoad (s : State) (k : Nat) (q : PoseLoadReq) : (s.requestLoad k q).tile k = (s.tile k).takeLoad q := by
  rcases s.requestLoad_eq k q with h | h <;> rw [h]
  · exact s.tile_onTile k _
  · rw [State.tile_noteRefusedLoad]
    exact s.tile_onTile k _

theorem State.otherTiles_requestLoad (s : State) (k : Nat) (q : PoseLoadReq) : s.otherTiles (s.requestLoad k q) k := by
  rcases s.requestLoad_eq k q with h | h <;> rw [h]
  · exact s.otherTiles_onTile k _
  · intro j hj
    rw [State.tile_noteRefusedLoad]
    exact s.otherTiles_onTile k _ j hj

/-! ## LEDGER_TICK (R457, R461) -/

/-- The balance of a sub-ledger after a debit, no further than the floor (R457). -/
def Region.cutTo (g : Region) (uj : Nat) (b : Int) : Int := max g.floorUj (b - uj)

theorem Region.throttle_of_ite (g : Region) (c : Prop) [Decidable c] (l : List Nat) :
    ∃ causes, (if c then { g with throttle := l } else g) = { g with throttle := causes } := by
  split
  · exact ⟨l, rfl⟩
  · exact ⟨g.throttle, rfl⟩

/-- A debit takes from the balance of its class, and may throttle the region. -/
theorem Region.debit_cases (g : Region) (cls uj : Nat) : ∃ causes, g.debit cls uj = { g with
    latencyUj := if cls = 0 then g.cutTo uj g.latencyUj else g.latencyUj
    normalUj := if cls = 1 then g.cutTo uj g.normalUj else g.normalUj
    backgroundUj := if 2 ≤ cls then g.cutTo uj g.backgroundUj else g.backgroundUj
    throttle := causes } :=
  match cls with
  | 0 => Region.throttle_of_ite { g with latencyUj := g.cutTo uj g.latencyUj } _ _
  | 1 => Region.throttle_of_ite { g with normalUj := g.cutTo uj g.normalUj } _ _
  | n + 2 => by
    rw [if_neg (by omega), if_neg (by omega), if_pos (by omega)]
    exact Region.throttle_of_ite { g with backgroundUj := g.cutTo uj g.backgroundUj } _ _

theorem Region.learn_eq (g : Region) (pose rho : Nat) : g.learn pose rho = { g with factors := (g.learn pose rho).factors } := by
  unfold Region.learn
  split <;> rfl

/-- The region after the measured energy of a unit is taken from its class and added to its counter. -/
def Region.ticked (g : Region) (u : SchedUnit) (uj rho : Nat) : Region :=
  { (g.debit u.cls uj).learn u.pose rho with unitEnergy := modD 0 g.unitEnergy u.id (fun w => countUp w uj) }

theorem exec_ledgerTick_of_unit {r : RegionIx} {e : PaceEntry} {rest : List PaceEntry} {s : State} (h : s.atEntry r e rest 0x0A)
    {i : Image} (himage : (s.paddock (s.region r).owner).image = some i) {x : SchedUnit}
    (hx : (i.units (s.paddock (s.region r).owner).placement r).find? (fun x => x.id == e.target) = some x) (uj : Nat) :
    ∃ rho, exec (.ledgerTick r uj) s
      = .next (((s.offDue r rest).onRegion r (fun g => g.ticked x uj rho)).cntRegion r x.cls uj).bump := by
  have hexec := issueEntry_of_action h (by decide) (mine := (·.is 0x0A)) h.is
  rw [exec_ledgerTick, execLedgerTick, hexec]
  dsimp only
  rw [State.paddock_offDue, himage]
  dsimp only
  rw [hx]
  exact ⟨_, rfl⟩

theorem Region.cutTo_eq (g : Region) (uj : Nat) (b : Int) : g.cutTo uj b = max (-10 * (g.capW : Int) * 100) (b - uj) := by
  rw [Region.cutTo, Region.floorUj]
  congr 1
  push_cast
  ring

/-- Settles O37: a switch and a load at each tile by what that tile holds, a tick by the debit of its unit's class. -/
theorem posesAndLedgersOfThePlan : Obligations.PosesAndLedgersOfThePlan := by
  unfold Obligations.PosesAndLedgersOfThePlan
  intro r e rest s
  dsimp only
  refine ⟨fun h hmembers => ?switch, fun h hmembers => ?load, fun i x uj h himage hx => ?tick⟩
  case switch =>
    have htile := State.tile_foldl_of_nodup
      (f := fun s k => s.onTile k (fun t => t.requestSwitch (field e.arg 0 4) (decide (e.offset < 0))))
      (g := fun _ t => t.requestSwitch (field e.arg 0 4) (decide (e.offset < 0)))
      (fun s k => s.tile_onTile k _) (fun s k => s.otherTiles_onTile k _) hmembers (s.offDue r rest)
    refine ⟨_, exec_poseSwitch_of_due h, ?_, fun k hk => ?_, fun k hk => ?_⟩
    · refine (foldl_keeps (fun u : State => u.region r) _ (fun _ _ => by rfl) _ _).trans ?_
      rw [State.region_offDue, if_pos rfl]
    · rw [State.tile_bump, htile, if_neg hk, State.tile_offDue]
    · rw [State.tile_bump, htile, if_pos hk, State.tile_offDue]
      exact ⟨Tile.sameButRouter_requestSwitch, Tile.requestSwitch_taken, Tile.requestSwitch_dropped⟩
  case load =>
    have htile := State.tile_foldl_of_nodup (g := fun k t => t.takeLoad (s.loadAsked (s.region r).owner r e k))
      (fun u k => u.tile_requestLoad k _) (fun u k => u.otherTiles_requestLoad k _) hmembers (s.offDue r rest)
    refine ⟨_, exec_poseLoad_of_due h, fun k hk => ?_,
      fun k hk hroom => ⟨s.loadAsked (s.region r).owner r e k, ?_, rfl, rfl, ?_, rfl, rfl⟩⟩
    · rw [State.tile_bump, htile, if_neg hk, State.tile_offDue]
    · rw [State.tile_bump, htile, if_pos hk, State.tile_offDue, Tile.takeLoad_of_room hroom]
    · exact beq_iff_eq
  case tick =>
    obtain ⟨rho, hexec⟩ := exec_ledgerTick_of_unit h himage hx uj
    obtain ⟨causes, hdebit⟩ := Region.debit_cases { s.region r with due := rest } x.cls uj
    refine ⟨_, hexec, ?_⟩
    rw [State.region_bump, State.bump_tiles, State.region_congr (State.cntRegion_regions _ _ _ _), State.cntRegion_tiles,
      State.region_onRegion, State.region_offDue, if_pos rfl, Region.ticked, Region.learn_eq, hdebit]
    refine ⟨?_, ?_, ?_, getD_putD_same _ _ _ _, rfl, rfl, rfl⟩ <;> simp only [Region.cutTo_eq]

end Sys2Proof.Machine
end

section
/-! Where a packet leaves the mesh while the tables flip (09, R289, R297): the router ejects a packet of the epoch before the flip
at the tile on which the physical tile of its destination stands under the new version of the maps. -/

namespace Sys2Proof.Machine

/-! ## A packet at its destination (R289, R297) -/

section
variable {n k i j : Nat} {e : Bool} {p : Packet} {s u : State}

theorem exec_packetRoute_of_inRouter (h : s.inRouter n p k i e) (hu : (s.takePacket n).routeAt k i e p = some u) :
    exec (.packetRoute (.inFlight n)) s = .next u.bump := by
  obtain ⟨hnet, -, -, hpos, hfirst, hrouted⟩ := h
  simp only [exec_packetRoute, execPacketRoute, hnet, hpos, hfirst, hrouted, hu, Bool.and_self, ite_true]

/-- A packet of its destination's paddock is ejected at the tile that its epoch's version of the maps names. -/
theorem State.routeAt_of_landing (hop : p.op ≠ .reserved) (hlen : p.lengthOk = true) (hadm : s.admitted k i e p = true)
    (hout : s.output k i p = none) (hframe : p.frame = false) (howner : p.paddock = s.ownerOf k)
    (hland : s.landing p k = some j) : s.routeAt k i e p = some (s.launch { p with pos := .ejected j i }) := by
  simp only [State.routeAt, hop, hlen, hadm, hout, hframe, ← howner, hland, Bool.not_true, Bool.false_eq_true, or_self,
    ite_false, ite_true]

end

/-! ## The counterexample -/

/-- The columns of the first row segment once its tile 39, dead on column 40, has made the tiles east of it move to the spare
column 71. -/
def shiftedCols : List (Option Nat) := (giveUp (shippedCols, [0, 71]) 39 40).1

/-- A get of four flits bound for tile 40, of the epoch before the flip, which has come to the router of that tile from the west. -/
def getForMovedTile : Packet :=
  { op := .get, operand := 0, srcX := 30, srcY := 0, destX := 40, destY := 0, frame := false, queue := 0, paddock := 1, length := 4,
    poison := false, epoch := false, data := [], tag := {}, pos := .router 40 3 false, replays := 0 }

/-- A flip under way that carries the repair of tile 39, with that packet on the mesh. -/
def shiftUnderWay : State :=
  { State.reset with regions := [(0, { state := .active, owner := 1, epoch := true })], holes := [39], repairs := [⟨39, 40, true⟩],
                     flip := true, segIdle := [(0, shiftedCols)], net := [getForMovedTile] }

theorem getForMovedTile_inRouter : shiftUnderWay.inRouter 0 getForMovedTile 40 3 false := by decide +kernel

theorem getForMovedTile_landing : (shiftUnderWay.takePacket 0).landing getForMovedTile 40 = some 39 := by decide +kernel

/-- Refutes O31: where the flip under way has moved the physical tile of the destination, a packet of the epoch before it is ejected
at the logical tile that now stands on it (R297), and not, as the statement says, at the tile of its destination. -/
theorem not_packetRouting : ¬ Obligations.PacketRouting := by
  unfold Obligations.PacketRouting
  rintro ⟨-, hroutes, -⟩
  have hadm : shiftUnderWay.admitted 40 3 false getForMovedTile = true := by decide +kernel
  have hout : shiftUnderWay.output 40 3 getForMovedTile = none := by decide +kernel
  obtain ⟨-, hadmitted⟩ := hroutes 0 40 3 false getForMovedTile shiftUnderWay getForMovedTile_inRouter (.inr rfl)
  obtain ⟨-, hejects, -⟩ := hadmitted hadm
  have hstated := hejects hout rfl (by decide)
  have hreal := exec_packetRoute_of_inRouter getForMovedTile_inRouter
    (State.routeAt_of_landing (s := shiftUnderWay.takePacket 0) (by decide) (by decide) hadm hout rfl (by decide)
      getForMovedTile_landing)
  have hnet := congrArg State.net (Host.Outcome.next.inj (hstated.symm.trans hreal))
  exact absurd hnet (by decide)

end Sys2Proof.Machine
end

section
/-! Flits, links and ports (09, R284, R285, R307): a flit with a CRC error is replayed or takes its packet off the mesh, a port that
dies is dead on both sides of its link, and the reins that cross it break. -/

namespace Sys2Proof.Machine

/-! ## Strides abandoned where reins break (09, R285; 02, R84) -/

/-- `t` differs from `s` in paddocks and in what waits in regions only: owners and epochs are the same. -/
def State.abandons (s t : State) : Prop :=
  (∃ paddocks regions, t = { s with paddocks := paddocks, regions := regions })
    ∧ ∀ r, (t.region r).owner = (s.region r).owner ∧ (t.region r).epoch = (s.region r).epoch

theorem State.abandons.refl (s : State) : s.abandons s := ⟨⟨_, _, rfl⟩, fun _ => ⟨rfl, rfl⟩⟩

theorem State.abandons.trans {s t u : State} (h : s.abandons t) (h' : t.abandons u) : s.abandons u := by
  obtain ⟨⟨_, _, rfl⟩, hst⟩ := h
  obtain ⟨⟨_, _, rfl⟩, htu⟩ := h'
  exact ⟨⟨_, _, rfl⟩, fun r => ⟨(htu r).1.trans (hst r).1, (htu r).2.trans (hst r).2⟩⟩

theorem State.abandons_foldl {α : Type} (f : State → α → State) (h : ∀ (s : State) a, s.abandons (f s a)) (l : List α)
    (s : State) : s.abandons (l.foldl f s) := by
  induction l generalizing s with
  | nil => exact .refl s
  | cons a l ih => exact (h s a).trans (ih _)

theorem State.abandons_onRegion (s : State) (r : Nat) (f : Region → Region)
    (h : ∀ g, (f g).owner = g.owner ∧ (f g).epoch = g.epoch) : s.abandons (s.onRegion r f) := by
  refine ⟨⟨_, _, rfl⟩, fun j => ?_⟩
  by_cases hj : j = r
  · subst hj
    rw [State.region_onRegion]
    exact h _
  · rw [State.region_onRegion_other _ _ _ _ hj]
    exact ⟨rfl, rfl⟩

theorem State.abandons_onPaddock (s : State) (p : Nat) (f : Paddock → Paddock) : s.abandons (s.onPaddock p f) :=
  ⟨⟨_, _, rfl⟩, fun _ => ⟨rfl, rfl⟩⟩

theorem State.abandons_onRegionsOf (s : State) (p : Nat) (f : Region → Region)
    (h : ∀ g, (f g).owner = g.owner ∧ (f g).epoch = g.epoch) : s.abandons (s.onRegionsOf p f) :=
  State.abandons_foldl (fun s r => s.onRegion r f) (fun s r => s.abandons_onRegion r f h) _ s

theorem State.abandons_abandonStride (s : State) (p : Nat) : s.abandons (s.abandonStride p) := by
  unfold State.abandonStride
  split
  · exact .refl s
  · exact (s.abandons_onPaddock p _).trans (State.abandons_onRegionsOf _ p _ fun _ => ⟨rfl, rfl⟩)

/-- Reins of a paddock are broken, and its open stride is abandoned. -/
theorem State.abandons_broken (s : State) (hit : List Rein) (p : Nat) :
    s.abandons ((hit.foldl (fun s r => s.setRein p r.id .broken) s).abandonStride p) :=
  (State.abandons_foldl (fun s (r : Rein) => s.setRein p r.id .broken) (fun s _ => s.abandons_onPaddock p _) hit s).trans
    (State.abandons_abandonStride _ p)

theorem State.abandons_breakReins (s : State) (k d k' : Nat) : s.abandons (s.breakReins k d k') := by
  refine State.abandons_foldl _ (fun s p => ?_) _ s
  dsimp only
  split
  · exact .refl s
  · exact s.abandons_broken _ p

section
variable {s t : State} (h : s.abandons t)
include h

theorem State.abandons.tiles_eq : t.tiles = s.tiles := by obtain ⟨⟨_, _, rfl⟩, -⟩ := h; rfl
theorem State.abandons.net_eq : t.net = s.net := by obtain ⟨⟨_, _, rfl⟩, -⟩ := h; rfl
theorem State.abandons.stirrups_eq : t.stirrups = s.stirrups := by obtain ⟨⟨_, _, rfl⟩, -⟩ := h; rfl

end

/-! ## The packets on the mesh replaced -/

/-- The state with other packets on the mesh. -/
def State.withNet (s : State) (net : List Packet) : State := { s with net := net }

@[simp] theorem State.withNet_net (s : State) (net : List Packet) : (s.withNet net).net = net := rfl
@[simp] theorem State.tile_withNet (s : State) (net : List Packet) (k : Nat) : (s.withNet net).tile k = s.tile k := rfl

/-! ## A discarded packet and its answer (R285) -/

/-- The answer of a discarding router is read off the epoch of its region and the stirrup map. -/
theorem State.discardAnswer_congr {s t : State} {k : Nat} {p : Packet}
    (hepoch : (t.region (regionOfTile k)).epoch = (s.region (regionOfTile k)).epoch) (hst : t.stirrups = s.stirrups) :
    t.discardAnswer k p = s.discardAnswer k p := by
  simp only [State.discardAnswer, State.packetToFrame, State.packetOf, State.stirrupFor, hepoch, hst]

theorem State.discardPacket_eq (s : State) (k : Nat) (p : Packet) (code : Nat) : s.discardPacket k p code
    = (s.onTile k (fun t => t.raise (s.discardNote k p code))).withNet (s.net ++ (s.discardAnswer k p).toList) := by
  have hanswer : (s.onTile k (fun t => t.raise (s.discardNote k p code))).discardAnswer k p = s.discardAnswer k p :=
    State.discardAnswer_congr rfl rfl
  unfold State.discardPacket
  dsimp only
  rw [hanswer]
  cases s.discardAnswer k p with
  | none => simp only [Option.toList_none, List.append_nil]; rfl
  | some a => rfl

theorem State.net_discardPacket (s : State) (k : Nat) (p : Packet) (code : Nat) :
    (s.discardPacket k p code).net = s.net ++ (s.discardAnswer k p).toList := by
  rw [State.discardPacket_eq, State.withNet_net]

theorem State.tile_discardPacket (s : State) (k : Nat) (p : Packet) (code : Nat) :
    (s.discardPacket k p code).tile k = (s.tile k).raise (s.discardNote k p code) := by
  rw [State.discardPacket_eq, State.tile_withNet, State.tile_onTile]

theorem State.otherTiles_discardPacket (s : State) (k : Nat) (p : Packet) (code : Nat) :
    s.otherTiles (s.discardPacket k p code) k := by
  intro j hj
  rw [State.discardPacket_eq, State.tile_withNet, State.otherTiles_onTile _ _ _ _ hj]

/-! ## A port that dies (R284, R285) -/

theorem neighbour_ne {k d k' : Nat} (h : neighbour k d = some k') : k' ≠ k := by
  unfold neighbour at h
  dsimp only at h
  split at h <;> split at h <;> cases h <;> simp only [tileAt, tileX, tileY] at * <;> omega

theorem opposite_lt (d : Nat) : opposite d < 4 := Nat.mod_lt _ (by decide)

/-- A tile one of whose ports has died, with its report. -/
def Tile.portDied (t : Tile) (d : Nat) (r : Report) : Tile := { t.raise r with deadPorts := t.deadPorts ||| (1#4 <<< d) }

theorem Tile.deadPort_portDied (t : Tile) {d : Nat} (r : Report) (h : d < 4) : (t.portDied d r).deadPort d = true := by
  simp [Tile.deadPort, Tile.portDied, h]

theorem Tile.sameButRouter_raise (t : Tile) (r : Report) : t.sameButRouter (t.raise r) := by and_intros <;> rfl

theorem Tile.sameButRouter_portDied (t : Tile) (d : Nat) (r : Report) : t.sameButRouter (t.portDied d r) := by
  and_intros <;> rfl

/-- What the router of a tile reports of a port that has died. -/
def State.portReport (s : State) (k d : Nat) : Report := s.tileReport k (portSource d) 0x050A clsInfra (BitVec.ofNat 64 d) 0

section
variable {s : State} {k d k' : Nat} (hn : neighbour k d = some k') (hlive : (s.tile k).deadPort d = false)
include hn hlive

/-- The other side of a link reports its port as the first side has reported its own. -/
theorem State.killPort_of_live : ((s.onTile k (fun t => t.portDied d (s.portReport k d))).onTile k'
      (fun t => t.portDied (opposite d) (s.portReport k' (opposite d)))).abandons (s.killPort k d) := by
  have hservice : ((s.markDead k d).tile k').service = (s.tile k').service :=
    congrArg Tile.service (State.tile_setTile_other _ _ _ _ (neighbour_ne hn))
  have hreport : (s.markDead k d).portReport k' (opposite d) = s.portReport k' (opposite d) := by
    unfold State.portReport State.tileReport
    rw [hservice]
    rfl
  simp only [State.killPort, hn, hlive, Bool.false_eq_true, ite_false]
  rw [← hreport]
  exact State.abandons_breakReins _ k d k'

theorem State.tile_killPort_near : (s.killPort k d).tile k = (s.tile k).portDied d (s.portReport k d) := by
  rw [State.tile_congr (State.killPort_of_live hn hlive).tiles_eq, State.otherTiles_onTile _ _ _ _ (neighbour_ne hn).symm,
    State.tile_onTile]

theorem State.tile_killPort_far :
    (s.killPort k d).tile k' = (s.tile k').portDied (opposite d) (s.portReport k' (opposite d)) := by
  rw [State.tile_congr (State.killPort_of_live hn hlive).tiles_eq, State.tile_onTile,
    State.otherTiles_onTile _ _ _ _ (neighbour_ne hn)]

theorem State.tile_killPort_other {j : Nat} (hk : j ≠ k) (hk' : j ≠ k') : (s.killPort k d).tile j = s.tile j := by
  rw [State.tile_congr (State.killPort_of_live hn hlive).tiles_eq, State.otherTiles_onTile _ _ _ _ hk',
    State.otherTiles_onTile _ _ _ _ hk]

theorem State.sameButRouter_killPort (j : Nat) : (s.tile j).sameButRouter ((s.killPort k d).tile j) := by
  by_cases hk : j = k
  · rw [hk, State.tile_killPort_near hn hlive]
    exact Tile.sameButRouter_portDied _ _ _
  · by_cases hk' : j = k'
    · rw [hk', State.tile_killPort_far hn hlive]
      exact Tile.sameButRouter_portDied _ _ _
    · rw [State.tile_killPort_other hn hlive hk hk']
      and_intros <;> rfl

end

/-! ## Flits of a packet that has come over a link (R284) -/

theorem modifyAt_congr {α : Type} {l : List α} {n : Nat} {a : α} {f g : α → α} (h : l[n]? = some a) (hfg : f a = g a) :
    modifyAt l n f = modifyAt l n g := by
  induction l generalizing n with
  | nil => rfl
  | cons x l ih =>
    cases n with
    | zero =>
      obtain rfl : x = a := by simpa using h
      simp only [modifyAt, hfg]
    | succ n => simp only [modifyAt, ih (by simpa using h)]

/-- What the receiving router of a flit with a CRC error reports. -/
def State.crcReport (s : State) (k i : Nat) : Report :=
  s.tileReport k (portSource i) 0x0100 clsCE (BitVec.ofNat 64 i) (BitVec.ofNat 16 (s.fresh.toNat % 256))

theorem State.crcEvent_eq (s : State) (k i : Nat) : s.crcEvent k i = s.onTile k (fun t => t.raise (s.crcReport k i)) := rfl

/-- A flit is sent again: the receiving router has reported its error, the sending one counts the replay. -/
def State.flitAgain (s : State) (k i up : Nat) : State :=
  (s.crcEvent k i).onTile up (fun t => t.countIdx (0x160 + 16 * opposite i + 5) 1)

section
variable {s : State} {k i up : Nat}

theorem State.tile_flitAgain (hup : neighbour k i = some up) : (s.flitAgain k i up).tile k = (s.tile k).raise (s.crcReport k i) := by
  rw [State.flitAgain, State.otherTiles_onTile _ _ _ _ (neighbour_ne hup).symm, State.crcEvent_eq, State.tile_onTile]

theorem State.tile_flitAgain_up (hup : neighbour k i = some up) :
    (s.flitAgain k i up).tile up = (s.tile up).countIdx (0x160 + 16 * opposite i + 5) 1 := by
  rw [State.flitAgain, State.tile_onTile, State.crcEvent_eq, State.otherTiles_onTile _ _ _ _ (neighbour_ne hup)]

theorem State.tile_flitAgain_other {j : Nat} (hk : j ≠ k) (hj : j ≠ up) : (s.flitAgain k i up).tile j = s.tile j := by
  rw [State.flitAgain, State.otherTiles_onTile _ _ _ _ hj, State.crcEvent_eq, State.otherTiles_onTile _ _ _ _ hk]

end

section
variable {n k i up : Nat} {e : Bool} {p : Packet} {s : State} (hnet : s.net[n]? = some p) (hpos : p.pos = .router k i e)
  (hi : i < 4) (hup : neighbour k i = some up) (hrouted : s.routed (regionOfTile k) = true)
include hnet hpos hi hup hrouted

theorem exec_flitReceive_good :
    exec (.flitReceive n false) s = .next { s with net := modifyAt s.net n (fun p => { p with replays := 0 }) }.bump := by
  simp [execFlitReceive, hnet, packetFlit, hpos, hi, hup, hrouted]

/-- A flit with an error of a packet replayed fewer than four times is replayed. -/
theorem exec_flitReceive_replayed (h : p.replays < 4) : exec (.flitReceive n true) s
    = .next ((s.flitAgain k i up).withNet (modifyAt s.net n (fun p => { p with replays := p.replays + 1 }))).bump := by
  have hsame : modifyAt s.net n (fun p => { p with pos := .router k i e, replays := p.replays + 1 })
      = modifyAt s.net n (fun p => { p with replays := p.replays + 1 }) := modifyAt_congr hnet (by rw [← hpos])
  rw [← hsame]
  simp [execFlitReceive, hnet, packetFlit, hpos, hi, hup, hrouted, h]
  rfl

/-- A flit with an error of a packet replayed four times takes the packet off the mesh, and its port dies. -/
theorem exec_flitReceive_dead (h : 4 ≤ p.replays) : exec (.flitReceive n true) s
    = .next ((((s.crcEvent k i).takePacket n).killPort k i).discardPacket up p 0x060C).bump := by
  simp [execFlitReceive, hnet, packetFlit, hpos, hi, hup, hrouted, Nat.not_lt.mpr h]

end

/-! ## The obligation -/

/-- A packet that a fourth replay has not saved is off the mesh but for its answer, and the port dead at both routers. -/
theorem State.packetLost {s : State} {n k i up : Nat} {p : Packet} (hi : i < 4) (hup : neighbour k i = some up)
    (hlive : (s.tile k).deadPort i = false) {u : State}
    (hu : u = ((((s.crcEvent k i).takePacket n).killPort k i).discardPacket up p 0x060C).bump) :
    u.net = s.net.eraseIdx n ++ (s.discardAnswer up p).toList ∧ (u.tile k).deadPort i = true
      ∧ (u.tile up).deadPort (opposite i) = true := by
  obtain ⟨v, hv⟩ : ∃ v, v = (s.crcEvent k i).takePacket n := ⟨_, rfl⟩
  have hnet : v.net = s.net.eraseIdx n := by rw [hv]; rfl
  have hanswer : v.discardAnswer up p = s.discardAnswer up p := State.discardAnswer_congr (by rw [hv]; rfl) (by rw [hv]; rfl)
  have hlive' : (v.tile k).deadPort i = false := by
    rw [hv, State.tile_takePacket, State.crcEvent_eq, State.tile_onTile]
    exact hlive
  have hdies := State.killPort_of_live hup hlive'
  rw [hu, ← hv, State.bump_net, State.tile_bump, State.tile_bump]
  refine ⟨?_, ?_, ?_⟩
  · rw [State.net_discardPacket, hdies.net_eq, State.discardAnswer_congr (hdies.2 _).2 hdies.stirrups_eq]
    exact congrArg₂ (fun l a => l ++ Option.toList a) hnet ((State.discardAnswer_congr rfl rfl).trans hanswer)
  · rw [State.otherTiles_discardPacket _ _ _ _ _ (neighbour_ne hup).symm, State.tile_killPort_near hup hlive']
    exact Tile.deadPort_portDied _ _ hi
  · rw [State.tile_discardPacket, State.tile_killPort_far hup hlive']
    exact Tile.deadPort_portDied _ _ (opposite_lt i)

theorem exec_linkHeartbeatTimeout_of_live {k : TileIx} {d : Dir} {k' : Nat} {s : State} (hpresent : s.present k = true)
    (hrouted : s.routed (regionOfTile k) = true) (hn : neighbour k d.ctorIdx = some k')
    (hlive : (s.tile k).deadPort d.ctorIdx = false) :
    exec (.linkHeartbeatTimeout k d) s = .next (s.killPort k d.ctorIdx).bump := by
  simp [execLinkHeartbeatTimeout, hpresent, hrouted, hn, hlive]

/-- Settles O32: a flit by whether it is good and how often its packet was replayed, a port by both its sides. -/
theorem linksAndPorts : Obligations.LinksAndPorts := by
  unfold Obligations.LinksAndPorts
  refine ⟨fun n k i up e p s hnet hpos hi hup hrouted => ⟨exec_flitReceive_good hnet hpos hi hup hrouted, fun hfew => ?replayed,
    fun hfour hlive => ?lost⟩, fun k d k' s hpresent hrouted hn hlive => ?died, fun k m ms s hruns hm => ?expired⟩
  case replayed =>
    refine ⟨_, s.crcReport k i, exec_flitReceive_replayed hnet hpos hi hup hrouted hfew, ?_⟩
    simp only [State.bump_net, State.withNet_net, State.tile_bump, State.tile_withNet, State.tile_flitAgain hup,
      State.tile_flitAgain_up hup, true_and]
    exact ⟨fun j hk hj => State.tile_flitAgain_other hk hj, Tile.sameButRouter_count _ _, rfl, rfl, rfl, rfl,
      Tile.sameButRouter_raise _ _, rfl⟩
  case lost => exact ⟨_, exec_flitReceive_dead hnet hpos hi hup hrouted hfour, State.packetLost hi hup hlive rfl⟩
  case died =>
    refine ⟨_, s.portReport k d.ctorIdx, s.portReport k' (opposite d.ctorIdx),
      exec_linkHeartbeatTimeout_of_live hpresent hrouted hn hlive, ?_⟩
    simp only [State.tile_bump, State.tile_killPort_near hn hlive, State.tile_killPort_far hn hlive]
    exact ⟨rfl, rfl, rfl, rfl, rfl, rfl, rfl, rfl, State.sameButRouter_killPort hn hlive,
      (State.killPort_of_live hn hlive).net_eq⟩
  case expired =>
    rw [exec_coalesceEntryExpire, execCoalesceEntryExpire]
    exact engine_some hruns _ (by simp [hm])

end Sys2Proof.Machine
end

section
/-! Bursts at their source and at their taps (09, R304, R305; 08, R256): a command of the core queues a burst, the source engine
puts the head of a port's queue on its rein, and each tap writes a flit. -/

namespace Sys2Proof.Machine

/-! ## Writes of the router's command registers -/

section
variable {k : TileIx} {s : State} {v : BitVec 64} (h : s.runs k)
include h

theorem exec_rtSrcWrite_of_done {t : Tile} (hw : s.writeRtSrc k (s.tile k) v = .done t) :
    exec (.rtSrcWrite k v) s = .next (s.engineStep k t) := by
  rw [exec_rtSrcWrite, execRtSrcWrite, rtWrite]
  exact engine_some h t (by rw [hw])

theorem exec_rtSrcWrite_of_fault {c : Nat} {a : BitVec 64} (hw : s.writeRtSrc k (s.tile k) v = .fault c a) :
    exec (.rtSrcWrite k v) s = .next (s.engineStep k (s.tileFault k (s.tile k) 6 c (s.tile k).pc a)) := by
  rw [exec_rtSrcWrite, execRtSrcWrite, rtWrite]
  exact engine_some h _ (by rw [hw])

theorem exec_rtGsendWrite_of_done {t : Tile} (hw : s.writeRtGsend k (s.tile k) v = .done t) :
    exec (.rtGsendWrite k v) s = .next (s.engineStep k t) := by
  rw [exec_rtGsendWrite, execRtGsendWrite, rtWrite]
  exact engine_some h t (by rw [hw])

end

/-! ## RT_SRC (R304; log entries 34, 35) -/

section
variable {s : State} {k : Nat} {t : Tile} {v : BitVec 64}

theorem State.writeRtSrc_of_misaligned (h : field v 0 18 % 16 ≠ 0) :
    s.writeRtSrc k t v = .fault 0x03 (BitVec.ofNat 64 (field v 0 18)) := by
  simp [State.writeRtSrc, lowestCause, h]

variable (hsrc : field v 0 18 % 16 = 0) (hdest : field v 42 18 % 16 = 0)
include hsrc hdest

theorem State.writeRtSrc_of_no_rein (h : s.sourceRein k (field v 62 2) false = none) :
    s.writeRtSrc k t v = .fault 0x82 (BitVec.ofNat 64 (field v 0 18)) := by
  simp [State.writeRtSrc, lowestCause, hsrc, hdest, h]

/-- The burst that a command without a signal asks for joins its port's queue. -/
theorem State.writeRtSrc_of_room (hport : t.sources (field v 62 2) = true) (hrein : (s.sourceRein k (field v 62 2) false).isSome = true)
    (hlen : srcFlits v ≤ 4096) (hrange : field v 0 18 + 16 * srcFlits v ≤ 0x30000)
    (hroom : (getD [] t.srcBursts (field v 62 2)).length < 4) (hsig : bitOf v 24 = false) :
    s.writeRtSrc k t v = .done { t with srcBursts := putD [] t.srcBursts (field v 62 2) (getD [] t.srcBursts (field v 62 2) ++
      [{ src := field v 0 18, dest := field v 42 18, flits := srcFlits v, signal := none }]) } := by
  have hnone : (s.sourceRein k (field v 62 2) false).isNone = false := by rw [← Option.not_isSome, hrein]; rfl
  simp [State.writeRtSrc, lowestCause, hsrc, hdest, hport, hnone, memEnd, Nat.not_lt.mpr hlen, Nat.not_lt.mpr hrange,
    Nat.not_le.mpr hroom, hsig]

end

/-! ## The source engine (R304, R306; log entry 137) -/

theorem State.onTile_keeps {β : Type} (proj : Tile → β) {f : Tile → Tile} (h : ∀ t, proj (f t) = proj t) (s : State) (k j : Nat) :
    proj ((s.onTile k f).tile j) = proj (s.tile j) := by
  by_cases hj : j = k
  · rw [hj, State.tile_onTile, h]
  · rw [State.otherTiles_onTile _ _ _ _ hj]

/-- The circuit flits of a burst change counters only. -/
theorem State.countCircuit_keeps {β : Type} (proj : Tile → β) (h : ∀ t i n, proj (t.count i n) = proj t) (s : State)
    (hs : List Hop) (n j : Nat) : proj ((s.countCircuit hs n).tile j) = proj (s.tile j) :=
  foldl_keeps (fun s : State => proj (s.tile j)) _ (fun s _ => (State.onTile_keeps proj (fun t => h t _ _) _ _ _).trans
    (State.onTile_keeps proj (fun t => h t _ _) s _ _)) hs s

@[simp] theorem State.countCircuit_bursts (s : State) (hs : List Hop) (n : Nat) : (s.countCircuit hs n).bursts = s.bursts :=
  foldl_keeps State.bursts _ (fun _ _ => by rfl) hs s

theorem State.putBurst_bursts (s : State) {r : Rein} (b : ReinBurst) (h : r.taps ≠ []) :
    (s.putBurst r b).bursts = s.bursts ++ [b] := by
  simp [State.putBurst, h]

theorem State.putBurst_keeps {β : Type} (proj : Tile → β) (h : ∀ t i n, proj (t.count i n) = proj t) (s : State) (r : Rein)
    (b : ReinBurst) (j : Nat) : proj ((s.putBurst r b).tile j) = proj (s.tile j) := by
  unfold State.putBurst
  dsimp only
  split <;> exact State.countCircuit_keeps proj h s _ _ j

theorem State.settleRein_tiles (s : State) (p id : Nat) : (s.settleRein p id).tiles = s.tiles := by
  unfold State.settleRein
  split
  · rfl
  · split <;> rfl

theorem State.settleRein_bursts (s : State) (p id : Nat) : (s.settleRein p id).bursts = s.bursts := by
  unfold State.settleRein
  split
  · rfl
  · split <;> rfl

/-- Whether the last flit has left is read off the bursts on the reins. -/
theorem State.sourcePassed_congr {s t : State} (h : t.bursts = s.bursts) (p : Nat) (r : Rein) :
    t.sourcePassed p r = s.sourcePassed p r := by
  unfold State.sourcePassed State.hopsFilled
  rw [h]

/-- The queue of a tile's port replaced. -/
def Tile.withQueue (t : Tile) (port : Nat) (q : List SrcBurst) : Tile := { t with srcBursts := putD [] t.srcBursts port q }

theorem Tile.queue_withQueue (t : Tile) (port : Nat) (q : List SrcBurst) : getD [] (t.withQueue port q).srcBursts port = q :=
  getD_putD_same _ _ _ _

/-- A burst in sending, without a signal, leaves its queue where its last flit has left. -/
theorem State.settleSource_of_sent {s : State} {p : Nat} {r : Rein} {b : SrcBurst} {rest : List SrcBurst}
    (hq : getD [] (s.tile (tileAt r.x r.y)).srcBursts r.dir = b :: rest) (hframe : r.frameSource = false) (hsent : b.sent = true)
    (hsig : b.signal = none) : s.settleSource p r
      = if s.sourcePassed p r then s.onTile (tileAt r.x r.y) (fun t => t.withQueue r.dir rest) else s := by
  simp only [State.settleSource, hq, hframe, hsent, hsig, Bool.not_true, Bool.or_self, Bool.false_or]
  cases s.sourcePassed p r <;> rfl

/-- With no burst of a tile queued for a rein there is none to settle. -/
theorem State.settleSource_of_idle {s : State} {p : Nat} {r : Rein}
    (h : r.frameSource = true ∨ getD [] (s.tile (tileAt r.x r.y)).srcBursts r.dir = []) : s.settleSource p r = s := by
  unfold State.settleSource
  rcases h with h | h
  · dsimp only
    split
    · rw [if_pos (by simp [h])]
    · rfl
  · simp only [h]

/-- What `sourceRein` answers starts at the tile through the port. -/
theorem State.sourceRein_start {s : State} {k port : Nat} {closing : Bool} {r : Rein} (h : s.sourceRein k port closing = some r) :
    r.frameSource = false ∧ tileAt r.x r.y = k ∧ r.dir = port := by
  have := List.find?_some h
  simp only [Bool.and_eq_true, Bool.not_eq_true', beq_iff_eq] at this
  obtain ⟨⟨⟨hframe, hat⟩, hdir⟩, -⟩ := this
  exact ⟨hframe, hat, hdir⟩

/-- What the source engine puts on a rein for a queued burst. -/
def State.burstOf (s : State) (k : Nat) (r : Rein) (b : SrcBurst) : ReinBurst :=
  { paddock := s.ownerOf k, rein := r.id, dest := b.dest, words := flitPoison ((s.tile k).words (b.src / 8) (2 * b.flits)) }

/-- The source tile once the words of a burst are read and its flits are being sent. -/
def State.burstRead (s : State) (k port : Nat) (b : SrcBurst) (rest : List SrcBurst) : Tile :=
  (s.touchAll k (s.tile k) (rangeFrom (b.src / 8) (2 * b.flits))).withQueue port ({ b with sent := true } :: rest)

section
variable {k : TileIx} {d : Dir} {b : SrcBurst} {rest : List SrcBurst} {r : Rein} {s : State} (hruns : s.runs k)
  (hq : getD [] (s.tile k).srcBursts d.ctorIdx = b :: rest) (hsent : b.sent = false)
  (hport : (s.tile k).sources d.ctorIdx = true) (hrein : s.sourceRein k d.ctorIdx true = some r)

include hruns hq hsent hport hrein in
theorem exec_reinBurstSend_of_head : exec (.reinBurstSend k d) s
    = .next (((((s.setTile k (s.burstRead k d.ctorIdx b rest)).putBurst r (s.burstOf k r b)).settleSource (s.ownerOf k) r).settleRein
        (s.ownerOf k) r.id).bump) := by
  obtain ⟨hpresent, hclocked⟩ := hruns
  simp only [exec_reinBurstSend, execReinBurstSend, hpresent, hclocked, hport, hq, hrein, hsent, Bool.and_self, Bool.not_true,
    Bool.or_self, Bool.false_eq_true, ite_false]
  rfl

include hrein in
/-- A burst sent is on its rein; its tile keeps its memory, and its queue the burst until its last flit has left. -/
theorem State.settleSource_of_sending {v : State} (hv : getD [] (v.tile k).srcBursts d.ctorIdx = { b with sent := true } :: rest)
    (hsig : b.signal = none) : (v.settleSource (s.ownerOf k) r).bursts = v.bursts
      ∧ (∀ i, ((v.settleSource (s.ownerOf k) r).tile k).word i = (v.tile k).word i)
      ∧ getD [] ((v.settleSource (s.ownerOf k) r).tile k).srcBursts d.ctorIdx
        = if v.sourcePassed (s.ownerOf k) r then rest else { b with sent := true } :: rest := by
  obtain ⟨hframe, hat, hdir⟩ := State.sourceRein_start hrein
  rw [State.settleSource_of_sent (p := s.ownerOf k) (b := { b with sent := true }) (by rw [hat, hdir]; exact hv) hframe rfl hsig]
  cases v.sourcePassed (s.ownerOf k) r with
  | false => exact ⟨rfl, fun _ => rfl, hv⟩
  | true =>
    rw [if_pos rfl, hat, hdir, State.tile_onTile]
    exact ⟨rfl, fun _ => rfl, Tile.queue_withQueue _ _ _⟩

end

/-! ## A tap (R305) -/

/-- The state with other bursts on the reins. -/
def State.withBursts (s : State) (bs : List ReinBurst) : State := { s with bursts := bs }

section
variable {s : State} {k port : Nat} {b : ReinBurst} {t : Tile} {w w' : PWord} {ws : List PWord}

/-- A flit that is not the last of its burst is written at an enabled tap, where its range lies in the channel and in local memory
and is not protected. -/
theorem State.tapWrite_of_enabled (henabled : bitOf (getD 0 t.taps (t.tapChannel port)) 63 = true)
    (hin : b.dest + 16 * b.flit + 16 ≤ 128 * field (getD 0 t.taps (t.tapChannel port)) 32 11)
    (hmem : 128 * field (getD 0 t.taps (t.tapChannel port)) 0 11 + (b.dest + 16 * b.flit) + 16 ≤ 0x30000)
    (hprot : t.protects (128 * field (getD 0 t.taps (t.tapChannel port)) 0 11 + (b.dest + 16 * b.flit)) 16 = false)
    (hwords : b.words.drop (2 * b.flit) = w :: w' :: ws) (hlast : 2 * (b.flit + 1) < b.words.length) :
    s.tapWrite k port b t
      = t.putWords ((128 * field (getD 0 t.taps (t.tapChannel port)) 0 11 + (b.dest + 16 * b.flit)) / 8) [w, w'] := by
  unfold State.tapWrite
  generalize getD 0 t.taps (t.tapChannel port) = tap at *
  have hsize : field tap 32 11 ≠ 0 := by omega
  simp [henabled, hsize, Nat.not_lt.mpr hin, memEnd, Nat.not_lt.mpr hmem, hprot, hwords, Nat.not_le.mpr hlast]

end

/-- A burst once its flit is written at a tap: the flit goes on to the next tap, or behind the last one the next flit goes. -/
def ReinBurst.passed (b : ReinBurst) (taps : Nat) : ReinBurst :=
  if taps ≤ b.tap + 1 then { b with tap := 0, flit := b.flit + 1, replays := 0 } else { b with tap := b.tap + 1, replays := 0 }

theorem ReinBurst.length_of_drop {b : ReinBurst} {w w' : PWord} {ws : List PWord}
    (hwords : b.words.drop (2 * b.flit) = w :: w' :: ws) (hmore : ws ≠ []) : 2 * (b.flit + 1) < b.words.length := by
  have hlen := congrArg List.length hwords
  have := List.length_pos_iff.mpr hmore
  simp only [List.length_drop, List.length_cons] at hlen
  omega

/-- REIN_TAP_WRITE of a flit that is not its burst's last, at a tap that its rein reaches. -/
theorem exec_reinTapWrite_of_reached {k : TileIx} {b : ReinBurst} {bs : List ReinBurst} {r : Rein} {port : Nat} {s : State} {t' : Tile}
    (hb : s.bursts = b :: bs) (hrein : s.rein b.paddock b.rein = some r) (htap : r.taps[b.tap]? = some (k.val, port))
    (hreached : (s.liveHops r.hops).any (fun h => h.dest == k.val) = true) (hclocked : s.clocked (regionOfTile k) = true)
    (hsinks : (s.tile k).sinks port = true) (hlast : 2 * (b.flit + 1) < b.words.length)
    (ht : s.tapWrite k port b (s.tile k) = t') (hkeeps : t'.srcBursts = (s.tile k).srcBursts)
    (hidle : r.frameSource = true ∨ getD [] (s.tile (tileAt r.x r.y)).srcBursts r.dir = []) :
    exec (.reinTapWrite 0) s = .next ((s.setTile k t').withBursts (b.passed r.taps.length :: bs)).bump := by
  have hqueue : getD [] ((s.setTile k t').tile (tileAt r.x r.y)).srcBursts r.dir
      = getD [] (s.tile (tileAt r.x r.y)).srcBursts r.dir :=
    congrArg (fun q => getD [] q r.dir) (by
      by_cases hk : tileAt r.x r.y = k
      · rw [hk, State.tile_setTile, hkeeps]
      · rw [State.tile_setTile_other _ _ _ _ hk])
  have hsettle : ((s.setTile k t').withBursts (b.passed r.taps.length :: bs)).settleSource b.paddock r
      = (s.setTile k t').withBursts (b.passed r.taps.length :: bs) :=
    State.settleSource_of_idle (hidle.imp id (fun h => hqueue.trans h))
  have hon : (s.setTile k t').withBursts (modifyAt (s.setTile k t').bursts 0 (fun _ =>
      { (if r.taps.length ≤ b.tap + 1 then { b with tap := 0, flit := b.flit + 1 } else { b with tap := b.tap + 1 }) with replays := 0 }))
      = (s.setTile k t').withBursts (b.passed r.taps.length :: bs) := by
    rw [State.setTile_bursts, hb, ReinBurst.passed]
    split <;> rfl
  have hmore : ¬ b.words.length ≤ 2 * (b.flit + 1) := Nat.not_le.mpr hlast
  simp only [exec_reinTapWrite, execReinTapWrite, hb, List.getElem?_cons_zero, hrein, htap, List.take_zero, List.any_nil, hreached,
    hclocked, hsinks, ht, hmore, ge_iff_le, Bool.not_true, Bool.or_self, Bool.false_eq_true, ite_false, decide_false,
    Bool.and_false]
  exact congrArg (fun u : State => Host.Outcome.next u.bump) ((congrArg (fun u : State => u.settleSource b.paddock r) hon).trans hsettle)

end Sys2Proof.Machine
end

section
/-! Gather trees (09, R308 to R311): a leaf sends its contribution to its node, a node keeps what comes until the round is full, and
a root writes the sum. -/

namespace Sys2Proof.Machine

/-! ## RT_GSEND (R310) -/

/-- The contribution that a leaf sends to its node: the words at its source, under the tree, the node's slot and its input. -/
def State.contribution (s : State) (k : Nat) (t : Tile) (src tree : Nat) (l : LeafEntry) : Packet :=
  { s.packetOf k .gather (BitVec.ofNat 64 (tree + l.node.toNat / 2 ^ 20 % 8 * 2 ^ 10 + l.input * 2 ^ 13))
      (l.node.toNat % 1024, l.node.toNat / 1024 % 1024) with
    length := l.flits, data := flitPoison (t.words (src / 8) (2 * l.flits)) }

theorem State.writeRtGsend_of_leaf {s : State} {k : Nat} {t : Tile} {v : BitVec 64} {l : LeafEntry}
    (hl : t.leaf (field v 18 10) = some l) (hsrc : field v 0 18 % 16 = 0) (hrange : field v 0 18 + 16 * l.flits ≤ 0x30000)
    (hsig : bitOf v 36 = false) : s.writeRtGsend k t v = .done ((s.touchAll k t (rangeFrom (field v 0 18 / 8) (2 * l.flits))).send
      (s.contribution k t (field v 0 18) (field v 18 10) l)) := by
  simp [State.writeRtGsend, lowestCause, hl, hsrc, memEnd, Nat.not_lt.mpr hrange, hsig, State.contribution]

/-- The tree of a contribution is in the low bits of its operand. -/
theorem State.contribution_tree (s : State) (k : Nat) (t : Tile) (src : Nat) {tree : Nat} (l : LeafEntry) (h : tree < 2 ^ 10) :
    field (s.contribution k t src tree l).operand 0 10 = tree := by
  simp only [State.contribution, State.packetOf, field, BitVec.toNat_ofNat]
  omega

/-! ## A contribution at its node (R311) -/

theorem Tile.protects_congr {a b : Tile} (hservice : a.service = b.service) (htop : a.protTop = b.protTop) (off n : Nat) :
    a.protects off n = b.protects off n := by
  unfold Tile.protects Tile.protEnd
  rw [hservice, htop]

/-- The tile with a node slot replaced. -/
def Tile.withNode (t : Tile) (slot : Nat) (nd : NodeSlot) : Tile := { t with nodes := putD none t.nodes slot (some nd) }

@[simp] theorem Tile.node_withNode (t : Tile) (slot : Nat) (nd : NodeSlot) : getD none (t.withNode slot nd).nodes slot = some nd :=
  getD_putD_same none t.nodes slot (some nd)

/-- The node slot with a contribution buffered. -/
def NodeSlot.buffer (nd : NodeSlot) (i : Nat) (ws : List PWord) : NodeSlot := { nd with bufs := insertAt nd.bufs i ws }

/-- Whether every input of a node has its contribution. -/
def NodeSlot.full (nd : NodeSlot) : Bool := (List.range nd.inputs).all (fun i => (look nd.bufs i).isSome)

/-- A contribution of the node's tree, paddock and length, whose buffer is free, is buffered, and ends the round that it fills. -/
theorem exec_gather_of_free {n : Nat} {k : TileIx} {i : Nat} {p : Packet} {nd : NodeSlot} {s : State} (h : s.arrived n .gather p k i)
    (hnode : getD none (s.tile k).nodes (field p.operand 10 3) = some nd) (htree : nd.tree = field p.operand 0 10)
    (hpaddock : p.paddock = nd.paddock) (hfree : look nd.bufs (field p.operand 13 2) = none) (hlen : p.length = nd.flits) :
    exec (.gather n) s = .next (s.served n k
      (if (nd.buffer (field p.operand 13 2) p.data).full then
        s.gatherCombine k (field p.operand 10 3) (nd.buffer (field p.operand 13 2) p.data)
          ((s.tile k).withNode (field p.operand 10 3) (nd.buffer (field p.operand 13 2) p.data))
      else (s.tile k).withNode (field p.operand 10 3) (nd.buffer (field p.operand 13 2) p.data))) := by
  obtain ⟨hnet, hop, hpos, hfirst, hrouted⟩ := h
  have hstands : (decide (p.op ≠ .gather) || !s.firstInChannel n p || !s.routed (regionOfTile k)) = false := by
    simp [hop, hfirst, hrouted]
  have hown : ¬ nd.tree ≠ field p.operand 0 10 := not_not.mpr htree
  have hours : ¬ p.paddock ≠ nd.paddock := not_not.mpr hpaddock
  have hwhole : (p.length != nd.flits) = false := bne_eq_false_iff_eq.mpr hlen
  simp only [exec_gather, execGather, hnet, hpos, hstands, hnode, hown, hours, hfree, hwhole, Option.isSome_none, Bool.or_false,
    Bool.false_eq_true, ite_false]
  rfl

section
variable (s : State) (k : Nat) (t : Tile)

theorem State.ownSignal_mem (i : Nat) (amount : BitVec 32) : (s.ownSignal k t i amount).mem = t.mem :=
  Tile.applySignal_mem _ _ _ _ _ _

theorem State.ownSignal_nodes (i : Nat) (amount : BitVec 32) : (s.ownSignal k t i amount).nodes = t.nodes := by
  rw [State.ownSignal, Tile.applySignal_eq]
  split <;> rfl

/-- A round that ends at a root empties the node's buffers and writes the sum where its range is not protected. -/
theorem State.gatherCombine_root (slot : Nat) (nd : NodeSlot) (hroot : nd.parentInput = 0xFF)
    (hprot : t.protects (nd.parent.toNat % 2 ^ 18) (8 * nd.combine.1.length) = false) :
    getD none (s.gatherCombine k slot nd t).nodes slot = some { nd with bufs := [], bad := false }
      ∧ t.wrote (s.gatherCombine k slot nd t) (nd.parent.toNat % 2 ^ 18 / 8) nd.combine.1 := by
  obtain ⟨u, hu, hnodes, hmem, hprot'⟩ : ∃ u : Tile,
      s.gatherCombine k slot nd t = s.ownSignal k (if u.protects (nd.parent.toNat % 2 ^ 18) (8 * nd.combine.1.length) then
          u.raise (s.tileReport k 0x0006 0x0600 clsNote (BitVec.ofNat 64 (nd.parent.toNat % 2 ^ 18)) 0)
        else u.putWords (nd.parent.toNat % 2 ^ 18 / 8) nd.combine.1) nd.rootSync 1
      ∧ u.nodes = (t.withNode slot { nd with bufs := [], bad := false }).nodes ∧ u.mem = t.mem
      ∧ ∀ off n, u.protects off n = t.protects off n := by
    have hoff : field (nd.parent.setWidth 64) 0 18 = nd.parent.toNat % 2 ^ 18 := by
      simp only [field, BitVec.toNat_setWidth]
      omega
    unfold State.gatherCombine
    simp only [hroot, hoff, ite_true]
    refine ⟨_, rfl, ?_⟩
    split <;> exact ⟨Tile.count_nodes _ _ _, Tile.count_mem _ _ _, 
      Tile.protects_congr (Tile.count_service _ _ _) (Tile.count_protTop _ _ _)⟩
  rw [hu, hprot', hprot, if_neg Bool.false_ne_true, State.ownSignal_nodes, Tile.putWords_keeps Tile.nodes Tile.putWord_nodes, hnodes]
  refine ⟨Tile.node_withNode t slot _, Tile.wrote_congr (State.ownSignal_mem s k _ _ _) ?_⟩
  obtain ⟨hwrote, hrest⟩ := u.wrote_putWords (nd.parent.toNat % 2 ^ 18 / 8) nd.combine.1
  exact ⟨hwrote, fun j hj => (hrest j hj).trans (Tile.word_congr hmem j)⟩

end

/-! ## The obligation -/

/-- A burst sent: it is on its rein, its tile keeps its memory, and its queue the burst until its last flit has left. -/
theorem reinBurstSend_sends {k : TileIx} {d : Dir} {b : SrcBurst} {rest : List SrcBurst} {r : Rein} {s : State} (hruns : s.runs k)
    (hq : getD [] (s.tile k).srcBursts d.ctorIdx = b :: rest) (hsent : b.sent = false) (hport : (s.tile k).sources d.ctorIdx = true)
    (hrein : s.sourceRein k d.ctorIdx true = some r) (hsig : b.signal = none) (htaps : r.taps ≠ []) :
    ∃ u, exec (.reinBurstSend k d) s = .next u ∧ u.bursts = s.bursts ++ [s.burstOf k r b] ∧ (s.tile k).sameMem (u.tile k)
      ∧ getD [] (u.tile k).srcBursts d.ctorIdx
        = if (s.withBursts (s.bursts ++ [s.burstOf k r b])).sourcePassed (s.ownerOf k) r then rest
          else { b with sent := true } :: rest := by
  obtain ⟨v, hv⟩ : ∃ v, v = (s.setTile k (s.burstRead k d.ctorIdx b rest)).putBurst r (s.burstOf k r b) := ⟨_, rfl⟩
  have hbursts : v.bursts = s.bursts ++ [s.burstOf k r b] := by rw [hv, State.putBurst_bursts _ _ htaps]; rfl
  have hmem : (v.tile k).mem = (s.burstRead k d.ctorIdx b rest).mem := by
    rw [hv, State.putBurst_keeps Tile.mem Tile.count_mem, State.tile_setTile]
  have hqueues : (v.tile k).srcBursts = (s.burstRead k d.ctorIdx b rest).srcBursts := by
    rw [hv, State.putBurst_keeps Tile.srcBursts Tile.count_srcBursts, State.tile_setTile]
  have hread : ∀ i, (v.tile k).word i = (s.tile k).word i := fun i =>
    (Tile.word_congr hmem i).trans (s.word_touchAll k _ (s.tile k) i)
  have hqueue : getD [] (v.tile k).srcBursts d.ctorIdx = { b with sent := true } :: rest := by
    rw [hqueues]
    exact Tile.queue_withQueue _ _ _
  obtain ⟨hon, hword, hleft⟩ := State.settleSource_of_sending hrein hqueue hsig
  refine ⟨_, exec_reinBurstSend_of_head hruns hq hsent hport hrein, ?_⟩
  rw [State.tile_bump, State.bump_bursts, State.settleRein_bursts, State.tile_congr (State.settleRein_tiles _ _ _), ← hv, hon, hleft]
  exact ⟨hbursts, fun i => (hword i).trans (hread i), by rw [State.sourcePassed_congr (s := s.withBursts _) hbursts]⟩

/-- Settles O35: each command and each engine by what it leaves of its tile, its rein or its node. -/
theorem reinsAndGathers : Obligations.ReinsAndGathers := by
  unfold Obligations.ReinsAndGathers
  intro k s
  dsimp only
  refine ⟨fun v hruns => ⟨fun hsrc => ?misaligned, fun hsrc hdest hrein => ?noRein, fun hsrc hdest hgood hroom hsig => ?queued⟩,
    fun v l hruns hl hsrc hrange hsig => ?contributes, fun d b rest r hruns hq hsent hport hrein hsig htaps => ?sent,
    fun b bs r port w w' ws hb hrein htap hreached hclocked hsinks hidle henabled hin hmem hprot halign hwords hmore => ?tapped,
    fun n i p nd h hnode htree hpaddock hfree hlen => ?gathered⟩
  case misaligned => exact exec_rtSrcWrite_of_fault hruns (State.writeRtSrc_of_misaligned hsrc)
  case noRein => exact exec_rtSrcWrite_of_fault hruns (State.writeRtSrc_of_no_rein hsrc hdest hrein)
  case queued =>
    obtain ⟨hport, hrein, hlen, hrange⟩ := hgood
    exact exec_rtSrcWrite_of_done hruns (State.writeRtSrc_of_room hsrc hdest hport hrein hlen hrange hroom hsig)
  case contributes =>
    have hread := s.touchAll_asRead k (rangeFrom (field v 0 18 / 8) (2 * l.flits)) (s.tile k)
    refine ⟨_, s.contribution k (s.tile k) (field v 0 18) (field v 18 10) l,
      exec_rtGsendWrite_of_done hruns (State.writeRtGsend_of_leaf hl hsrc hrange hsig), ?_, rfl,
      State.contribution_tree s k _ _ l (field_lt v 18 10), rfl, rfl, rfl, rfl, fun j => s.word_touchAll k _ _ j, ?_⟩
    · rw [Tile.send, hread]
    · rw [Tile.send, hread]
  case sent => exact reinBurstSend_sends hruns hq hsent hport hrein hsig htaps
  case tapped =>
    have hlast := ReinBurst.length_of_drop hwords hmore
    obtain ⟨hwrote, hrest⟩ := (s.tile k).wrote_putWords
      ((128 * field (getD 0 (s.tile k).taps ((s.tile k).tapChannel port)) 0 11 + (b.dest + 16 * b.flit)) / 8) [w, w']
    exact ⟨_, exec_reinTapWrite_of_reached hb hrein htap hreached hclocked hsinks hlast
        (State.tapWrite_of_enabled henabled hin hmem hprot hwords hlast)
        (Tile.putWords_keeps Tile.srcBursts Tile.putWord_srcBursts _ _ _) hidle,
      hwrote 0 w rfl, hwrote 1 w' rfl, fun j hne hne' => hrest j (by simp only [List.length_cons, List.length_nil]; omega),
      Tile.putWords_regs _ _ _⟩
  case gathered =>
    have hexec := exec_gather_of_free h hnode htree hpaddock.symm hfree hlen
    refine ⟨fun hfull => ?_, fun hfull hbad hroot hprot => ?_⟩
    · have hpart : (nd.buffer (field p.operand 13 2) p.data).full = false := hfull
      rw [hexec, hpart]
      rfl
    · have hround : (nd.buffer (field p.operand 13 2) p.data).full = true := hfull
      obtain ⟨hempty, hwrote, hrest⟩ := s.gatherCombine_root k
        ((s.tile k).withNode (field p.operand 10 3) (nd.buffer (field p.operand 13 2) p.data)) (field p.operand 10 3)
        (nd.buffer (field p.operand 13 2) p.data) hroot hprot
      exact ⟨_, by rw [hexec, if_pos hround], hempty, hwrote, hrest⟩

end Sys2Proof.Machine
end

section
/-! Table flips and the repairs they carry (09, R297, R298; 17, R511 to R514, R517, Table 17.2). -/

namespace Sys2Proof.Machine

/-! ## Storages changed entry by entry -/

theorem look_of_lt {α : Type} [DecidableEq α] {d : α} {m : Map α} {lo k : Nat} (h : sortedFrom d lo m = true)
    (hk : k < lo) :
    look m k = none := by
  induction m generalizing lo with
  | nil => rfl
  | cons x m ih =>
    obtain ⟨j, v⟩ := x
    simp only [sortedFrom, Bool.and_eq_true, decide_eq_true_eq] at h
    obtain ⟨⟨hlo, -⟩, hm⟩ := h
    rw [look, if_neg (by omega), ih hm (by omega)]

/-- A change of every entry of a canonical storage, those that become the default dropped, is the change of what each key holds. -/
theorem getD_map_filter {α : Type} [DecidableEq α] {d : α} {f : α → α} (hd : f d = d) {m : Map α} {lo : Nat}
    (h : sortedFrom d lo m = true) (k : Nat) :
    getD d ((m.map (fun kv => (kv.1, f kv.2))).filter (fun kv => decide (kv.2 ≠ d))) k = f (getD d m k) := by
  induction m generalizing lo with
  | nil => exact hd.symm
  | cons x m ih =>
    obtain ⟨j, v⟩ := x
    simp only [sortedFrom, Bool.and_eq_true, decide_eq_true_eq] at h
    obtain ⟨-, hm⟩ := h
    have hrest := ih hm
    rw [List.map_cons, List.filter_cons]
    by_cases hj : j = k
    · subst hj
      by_cases hv : f v = d
      · rw [if_neg (by simpa using hv), hrest, getD, look_of_lt hm (Nat.lt_succ_self j), getD, look, if_pos rfl]
        exact hd.trans hv.symm
      · rw [if_pos (by simpa using hv), getD, look, if_pos rfl, getD, look, if_pos rfl]
        rfl
    · have hskip : ∀ (l : Map α) (w : α), getD d ((j, w) :: l) k = getD d l k := fun l w => by
        rw [getD, look, if_neg hj, getD]
      split
      · rw [hskip, hskip, hrest]
      · rw [hskip, hrest]

/-- Words put under successive keys from `lo` on. -/
theorem getD_foldl_putD_range' (ws : List (BitVec 64)) : ∀ (m : Map (BitVec 64)) (lo n j : Nat), ws.length ≤ n →
    getD 0 (((List.range' lo n).zip ws).foldl (fun m e => putD 0 m e.1 e.2) m) j
      = if lo ≤ j ∧ j < lo + ws.length then ws.getD (j - lo) 0 else getD 0 m j := by
  induction ws with
  | nil => intro m lo n j _; simp
  | cons w ws ih =>
    intro m lo n j hn
    obtain ⟨n, rfl⟩ : ∃ n', n = n' + 1 := ⟨n - 1, by simp at hn; omega⟩
    rw [List.range'_succ, List.zip_cons_cons, List.foldl_cons, ih _ _ _ _ (by simpa using hn)]
    by_cases hj : j = lo
    · subst hj
      rw [if_neg (by omega), if_pos (by simp), getD_putD_same, Nat.sub_self]
      rfl
    · rw [getD_putD_other _ _ _ _ _ hj]
      by_cases hin : lo + 1 ≤ j ∧ j < lo + 1 + ws.length
      · rw [if_pos hin, if_pos (by simp only [List.length_cons]; omega), show j - lo = (j - (lo + 1)) + 1 by omega]
        rfl
      · rw [if_neg hin, if_neg (by simp only [List.length_cons]; omega)]

/-! ## Changes of tiles, regions and paddocks -/

/-- `t` differs from `s` in tiles, regions, paddocks, counters and the step's free choice only. -/
def State.recordsOnly (s t : State) : Prop :=
  t = { s with tiles := t.tiles, regions := t.regions, paddocks := t.paddocks, cntWin := t.cntWin, free := t.free }

theorem State.recordsOnly.trans {s t u : State} (h : s.recordsOnly t) (h' : t.recordsOnly u) : s.recordsOnly u := by
  unfold State.recordsOnly at *
  rw [h', h]

/-- What reads no tile, region or paddock is kept. -/
theorem State.recordsOnly.keeps {β : Type} {s t : State} (h : s.recordsOnly t) (proj : State → β)
    (hproj : ∀ tiles regions paddocks cntWin free,
      proj { s with tiles := tiles, regions := regions, paddocks := paddocks, cntWin := cntWin, free := free } = proj s := by
        intros; rfl) :
    proj t = proj s := by
  unfold State.recordsOnly at h
  rw [h, hproj]

theorem State.recordsOnly_bump (s : State) : s.recordsOnly s.bump := rfl

theorem State.recordsOnly_foldl {α : Type} (f : State → α → State) (h : ∀ (s : State) a, s.recordsOnly (f s a)) (l : List α)
    (s : State) : s.recordsOnly (l.foldl f s) := by
  induction l generalizing s with
  | nil => rfl
  | cons a l ih => exact (h s a).trans (ih _)

/-! ## The idle detour tables (R298; log entry 82) -/

/-- A detour table of these words. -/
def detourTable (ws : List (BitVec 64)) : Map (BitVec 64) := ((List.range 32).zip ws).foldl (fun m e => putD 0 m e.1 e.2) []

theorem getD_detourTable {ws : List (BitVec 64)} (h : ws.length ≤ 32) (j : Nat) : getD 0 (detourTable ws) j = ws.getD j 0 := by
  rw [detourTable, List.range_eq_range', getD_foldl_putD_range' _ _ _ _ _ h]
  split
  · rfl
  · rw [List.getD_eq_default _ _ (by omega)]
    rfl

/-- A tile whose idle detour table is the one in force. -/
def Tile.keepDetours (toB : Bool) (t : Tile) : Tile := t.writeDetours toB (if toB then t.detourA else t.detourB)

/-- Every router's idle table takes the content in force. -/
def State.keepDetours (s : State) (toB : Bool) : State :=
  { s with tiles := (s.tiles.map (fun kv => (kv.1, kv.2.keepDetours toB))).filter (fun kv => decide (kv.2 ≠ Tile.reset)) }

theorem State.tile_keepDetours {s : State} (h : canonical Tile.reset s.tiles = true) (toB : Bool) (k : Nat) :
    (s.keepDetours toB).tile k = (s.tile k).keepDetours toB :=
  getD_map_filter (f := Tile.keepDetours toB) (by cases toB <;> rfl) h k

/-- The idle tables of a change written: those of routers it does not touch take the content in force. -/
def State.writeTables (s : State) (detours : List (Nat × List (BitVec 64))) : State :=
  detours.foldl (fun u x => u.onTile x.1 (fun t => t.writeDetours (!s.epoch) (detourTable x.2))) (s.keepDetours (!s.epoch))

theorem State.recordsOnly_writeTables (s : State) (detours : List (Nat × List (BitVec 64))) : s.recordsOnly (s.writeTables detours) :=
  State.recordsOnly.trans (t := s.keepDetours (!s.epoch)) rfl (State.recordsOnly_foldl _ (fun _ _ => by rfl) _ _)

@[simp] theorem State.writeTables_regions (s : State) (detours : List (Nat × List (BitVec 64))) :
    (s.writeTables detours).regions = s.regions :=
  foldl_keeps State.regions _ (fun _ _ => by rfl) detours (s.keepDetours (!s.epoch))

/-! ## Regions that change epoch with a flip (R298; Table 17.2, step 6; log entry 82) -/

/-- Whether a region changes its epoch at the request of a flip: it is out of service, or its paddock is stopped for a repair. -/
def Region.turns (g : Region) (stopped : Nat → Bool) : Bool :=
  !(match g.state with | .isolated | .lost | .off => false | _ => true) || (g.owner != 0 && stopped g.owner)

/-- A region given the new epoch where it changes at the request. -/
def State.turnEpoch (stopped : Nat → Bool) (s : State) (r : Nat) : State :=
  if (s.region r).turns stopped then s.setRegion r { s.region r with epoch := !s.epoch } else s

theorem State.recordsOnly_turnEpoch (stopped : Nat → Bool) (s : State) (r : Nat) : s.recordsOnly (s.turnEpoch stopped r) := by
  unfold State.turnEpoch
  split <;> rfl

theorem State.recordsOnly_foldl_turnEpoch (stopped : Nat → Bool) (l : List Nat) (s : State) :
    s.recordsOnly (l.foldl (State.turnEpoch stopped) s) := State.recordsOnly_foldl _ (State.recordsOnly_turnEpoch stopped) l s

theorem State.foldl_turnEpoch_tiles (stopped : Nat → Bool) (l : List Nat) (s : State) :
    (l.foldl (State.turnEpoch stopped) s).tiles = s.tiles :=
  foldl_keeps State.tiles _ (fun s r => by unfold State.turnEpoch; split <;> rfl) l s

theorem State.region_foldl_turnEpoch (stopped : Nat → Bool) {l : List Nat} (hl : l.Nodup) (s : State) {j : Nat} (hj : j ∈ l) :
    (l.foldl (State.turnEpoch stopped) s).region j
      = if (s.region j).turns stopped then { s.region j with epoch := !s.epoch } else s.region j := by
  have hsame : ∀ (u : State) (r : Nat), (u.turnEpoch stopped r).epoch = u.epoch := fun u r =>
    (u.recordsOnly_turnEpoch stopped r).keeps State.epoch
  have hother : ∀ (u : State) (r : Nat), j ≠ r → (u.turnEpoch stopped r).region j = u.region j := fun u r hr => by
    unfold State.turnEpoch
    split
    · exact State.region_setRegion_other _ _ _ _ hr
    · rfl
  have hout : ∀ (l : List Nat) (u : State), j ∉ l → (l.foldl (State.turnEpoch stopped) u).region j = u.region j := by
    intro l
    induction l with
    | nil => exact fun _ _ => rfl
    | cons r l ih =>
      intro u hr
      rw [List.mem_cons, not_or] at hr
      rw [List.foldl_cons, ih _ hr.2, hother u r hr.1]
  induction l generalizing s with
  | nil => exact absurd hj List.not_mem_nil
  | cons r l ih =>
    obtain ⟨hr, hl⟩ := List.nodup_cons.mp hl
    rw [List.foldl_cons]
    by_cases hjr : j = r
    · subst hjr
      rw [hout l _ hr, State.turnEpoch]
      split
      · rw [State.region_setRegion]
      · rfl
    · rw [ih hl _ ((List.mem_cons.mp hj).resolve_left hjr), hother s r hjr, hsame]

/-! ## A flip begins (R298) -/

/-- A flip under way, before its repairs: the idle tables hold the change, the idle columns those in force. -/
def State.flipRequested (s : State) (detours : List (Nat × List (BitVec 64))) : State :=
  { s.writeTables detours with repairs := s.markFlipping, flip := true, segIdle := s.segMap }

/-- Whether a paddock is stopped for one of these repairs. -/
def State.stoppedFor (s : State) (reps : List Repair) (p : Nat) : Bool := reps.any (fun x => s.ownerOf x.tile == p)

theorem State.beginFlip_eq (s : State) (detours : List (Nat × List (BitVec 64))) : s.beginFlip detours
    = (List.range 28).foldl
        (State.turnEpoch (((s.flipRequested detours).beginRepairs (s.markFlipping.filter Repair.flipping)).stoppedFor
          (s.markFlipping.filter Repair.flipping)))
        ((s.flipRequested detours).beginRepairs (s.markFlipping.filter Repair.flipping)) := by
  have htables := s.recordsOnly_writeTables detours
  have hmark : (s.writeTables detours).markFlipping = s.markFlipping := htables.keeps State.markFlipping
  have hseg : (s.writeTables detours).segMap = s.segMap := htables.keeps State.segMap
  rw [State.flipRequested, ← hmark, ← hseg]
  rfl

theorem exec_tableFlipRequest_of_no_flip {s : State} (h : s.flip = false) (ds : List (TileIx × List (BitVec 64))) :
    exec (.tableFlipRequest ds) s = .next (s.beginFlip (ds.map (fun x => (x.1.val, x.2)))).bump := by
  simp only [exec_tableFlipRequest, execTableFlipRequest, h, Bool.false_eq_true, ite_false]

/-! ### Without a repair -/

theorem State.beginFlip_of_no_repair {s : State} (h : s.repairs = []) (detours : List (Nat × List (BitVec 64))) :
    s.beginFlip detours = (List.range 28).foldl (State.turnEpoch (fun _ => false)) (s.flipRequested detours) := by
  rw [State.beginFlip_eq, show s.markFlipping = [] by rw [State.markFlipping, h]; rfl]
  rfl

theorem Region.turns_of_none_stopped (g : Region) :
    g.turns (fun _ => false) = true ↔ g.state = .isolated ∨ g.state = .lost ∨ g.state = .off := by
  unfold Region.turns
  cases g.state <;> simp

/-- What a request makes of the state, but for tiles and regions, where no repair waits. -/
theorem State.recordsOnly_beginFlip_of_no_repair {s : State} (h : s.repairs = []) (detours : List (Nat × List (BitVec 64))) :
    ({ s with flip := true, segIdle := s.segMap } : State).recordsOnly (s.beginFlip detours).bump := by
  have hmark : s.markFlipping = s.repairs := by rw [State.markFlipping, h]; rfl
  have hrequest : ({ s with flip := true, segIdle := s.segMap } : State).recordsOnly (s.flipRequested detours) := by
    unfold State.recordsOnly State.flipRequested
    rw [hmark, s.recordsOnly_writeTables detours]
  rw [State.beginFlip_of_no_repair h]
  exact (hrequest.trans (State.recordsOnly_foldl_turnEpoch _ _ _)).trans (State.recordsOnly_bump _)

/-- A flip request of one router's table, with no repair that waits. -/
theorem tableFlipRequest_of_no_repair {k : TileIx} {ws : List (BitVec 64)} {s : State} (hflip : s.flip = false) (hrep : s.repairs = [])
    (hlen : ws.length ≤ 32) (hcan : canonical Tile.reset s.tiles = true) :
    ∃ u, exec (.tableFlipRequest [(k, ws)]) s = .next u ∧ u.flip = true ∧ u.epoch = s.epoch ∧ u.segMap = s.segMap
      ∧ u.segIdle = s.segMap
      ∧ (∀ j, j < 32 → getD 0 (if s.epoch then (u.tile k).detourA else (u.tile k).detourB) j = ws.getD j 0)
      ∧ (s.epoch = true → (u.tile k).detourB = (s.tile k).detourB) ∧ (s.epoch = false → (u.tile k).detourA = (s.tile k).detourA)
      ∧ (∀ r, r < 28 → u.region r = if (s.region r).state = .isolated ∨ (s.region r).state = .lost ∨ (s.region r).state = .off then
          { s.region r with epoch := !s.epoch } else s.region r) := by
  have hbegun := State.recordsOnly_beginFlip_of_no_repair hrep [(k.val, ws)]
  have htile : (s.beginFlip [(k.val, ws)]).bump.tile k
      = ((s.tile k).keepDetours (!s.epoch)).writeDetours (!s.epoch) (detourTable ws) := by
    have htiles : (s.beginFlip [(k.val, ws)]).tiles = (s.writeTables [(k.val, ws)]).tiles := by
      rw [State.beginFlip_of_no_repair hrep, State.foldl_turnEpoch_tiles]
      rfl
    rw [State.tile_bump, State.tile_congr htiles, ← State.tile_keepDetours hcan]
    exact State.tile_onTile _ k (fun t => t.writeDetours (!s.epoch) (detourTable ws))
  have hregion : ∀ r, (s.flipRequested [(k.val, ws)]).region r = s.region r := State.region_congr (s.writeTables_regions _)
  have hepoch : (s.flipRequested [(k.val, ws)]).epoch = s.epoch := (s.recordsOnly_writeTables _).keeps State.epoch
  have hexec : exec (.tableFlipRequest [(k, ws)]) s = .next (s.beginFlip [(k.val, ws)]).bump :=
    exec_tableFlipRequest_of_no_flip hflip _
  refine ⟨_, hexec, hbegun.keeps State.flip, hbegun.keeps State.epoch, hbegun.keeps State.segMap,
    hbegun.keeps State.segIdle, fun j _ => ?_, fun h => ?_, fun h => ?_, fun r hr => ?_⟩
  · rw [htile, ← getD_detourTable hlen]
    cases s.epoch <;> rfl
  · rw [htile, h]
    rfl
  · rw [htile, h]
    rfl
  · rw [State.region_bump, State.beginFlip_of_no_repair hrep,
      State.region_foldl_turnEpoch _ List.nodup_range _ (List.mem_range.mpr hr), hregion, hepoch]
    simp only [Region.turns_of_none_stopped]

/-- A request while a flip is in progress waits for it. -/
theorem tableFlipRequest_of_flip {ds : List (TileIx × List (BitVec 64))} {s : State} (h : s.flip = true) :
    exec (.tableFlipRequest ds) s
      = .next { s with flipQueue := s.flipQueue ++ [ds.map (fun (x : TileIx × List (BitVec 64)) => (x.1.val, x.2))] }.bump := by
  simp only [exec_tableFlipRequest, execTableFlipRequest, h, ite_true]

/-! ### With a repair (17, R511, R513) -/

/-- The first tile of a tile's row segment. -/
def firstOfSegment (k : Nat) : Nat := tileAt (tileX k / 70 * 70) (tileY k)

theorem tileX_firstOfSegment (k : Nat) : tileX (firstOfSegment k) / 70 = tileX k / 70 := by
  simp only [firstOfSegment, tileAt, tileX, tileY]
  omega

theorem tileY_firstOfSegment (k : Nat) : tileY (firstOfSegment k) = tileY k := by
  simp only [firstOfSegment, tileAt, tileX, tileY]
  omega

theorem segmentTiles_first (k : Nat) : (segmentTiles k).getD 0 0 = firstOfSegment k :=
  (getD_map_range (tileAt (tileX k / 70 * 70) (tileY k) + ·) 0 (by decide : 0 < 70)).trans (Nat.add_zero _)

theorem State.segOf_firstOfSegment (s : State) (k : Nat) : s.segOf (firstOfSegment k) = s.segOf k := by
  simp only [State.segOf, State.physRow, tileX_firstOfSegment, tileY_firstOfSegment]

theorem State.colsOf_firstOfSegment (s : State) (k : Nat) : s.colsOf (firstOfSegment k) = s.colsOf k := by
  rw [State.colsOf, State.segOf_firstOfSegment, State.colsOf]

theorem State.physRow_firstOfSegment (s : State) (k : Nat) : s.physRow (firstOfSegment k) = s.physRow k := by
  rw [State.physRow, tileX_firstOfSegment, tileY_firstOfSegment, State.physRow]

theorem State.spareCols_firstOfSegment (s : State) (k : Nat) : s.spareCols (firstOfSegment k) = s.spareCols k := by
  have hrow : (s.physOf (firstOfSegment k)).2 = (s.physOf k).2 := by
    simp only [State.physOf, tileY_firstOfSegment, State.physRow_firstOfSegment]
  unfold State.spareCols
  rw [State.colsOf_firstOfSegment, hrow, State.physRow_firstOfSegment, tileX_firstOfSegment, tileY_firstOfSegment]

theorem sameSegment_firstOfSegment (k : Nat) : sameSegment k (firstOfSegment k) = true := by
  simp [sameSegment, tileX_firstOfSegment, tileY_firstOfSegment]

theorem State.recordsOnly_shiftTiles (s : State) (k : Nat) (dead : List Nat) (cols new : List (Option Nat)) :
    s.recordsOnly (s.shiftTiles k dead cols new) := by
  refine State.recordsOnly_foldl _ (fun u i => ?_) _ s
  dsimp only
  split
  · rfl
  · split
    · rfl
    · split <;> rfl

/-- The repairs of a flip in one row segment: its tiles are shifted, and its idle columns written. -/
def State.repairSegment (s : State) (reps : List Repair) (k : Nat) : State :=
  let u := (s.shiftTiles k ((reps.filter (fun x => sameSegment x.tile k)).map Repair.tile) (s.colsOf k) (s.newCols reps k)).keepPaths
    (s.ownerOf k) k (s.colsOf k) (s.newCols reps k)
  { u with segIdle := putD shippedCols u.segIdle (u.segOf k) (s.newCols reps k) }

theorem State.recordsOnly_repairSegment (s : State) (reps : List Repair) (k : Nat) :
    ({ s with segIdle := putD shippedCols s.segIdle (s.segOf k) (s.newCols reps k) } : State).recordsOnly (s.repairSegment reps k) := by
  unfold State.recordsOnly State.repairSegment State.keepPaths
  rw [s.recordsOnly_shiftTiles k _ _ _]
  rfl

theorem State.beginRepairs_eq (s : State) (reps : List Repair) : s.beginRepairs reps
    = (((reps.map (fun x => segmentTiles x.tile)).eraseDups).map (fun ks => ks.getD 0 0)).foldl (fun u k => u.repairSegment reps k) s :=
  rfl

/-- The idle columns with those of a repair's segment written: the dead column's spare takes its place. -/
def State.repairedCols (s : State) (x : Repair) : Map (List (Option Nat)) :=
  putD shippedCols s.segIdle (s.segOf x.tile) (giveUp (s.colsOf x.tile, s.spareCols x.tile) (tileX x.tile % 70) x.col).1

/-- The repairs of a flip that carries one: its segment's idle columns are written, and what else changes are tiles and paddocks. -/
theorem State.beginRepairs_one (s : State) (x : Repair) :
    ({ s with segIdle := s.repairedCols x } : State).recordsOnly (s.beginRepairs [x]) := by
  have hnew : s.newCols [x] (firstOfSegment x.tile)
      = (giveUp (s.colsOf x.tile, s.spareCols x.tile) (tileX x.tile % 70) x.col).1 := by
    simp [State.newCols, sameSegment_firstOfSegment, State.colsOf_firstOfSegment, State.spareCols_firstOfSegment]
  have hfirst : (([x].map (fun x => segmentTiles x.tile)).eraseDups).map (fun ks => ks.getD 0 0) = [firstOfSegment x.tile] := by
    simp only [segmentTiles_first, List.eraseDups_cons, List.filter_nil, List.eraseDups_nil, List.map_nil,
      List.map_cons]
  have hone : s.beginRepairs [x] = s.repairSegment [x] (firstOfSegment x.tile) := by
    rw [State.beginRepairs_eq, hfirst]
    rfl
  rw [hone, State.repairedCols, ← hnew, ← State.segOf_firstOfSegment]
  exact s.recordsOnly_repairSegment [x] _

theorem State.markFlipping_one {s : State} {k c : Nat} {b : Bool} (h : s.repairs = [⟨k, c, b⟩]) :
    s.markFlipping = [⟨k, c, true⟩] := by
  simp [State.markFlipping, h]

/-- A flip request with one repair that waits. -/
theorem tableFlipRequest_of_repair {k : TileIx} {c : Nat} {s : State} (hflip : s.flip = false) (hrep : s.repairs = [⟨k, c, false⟩]) :
    ∃ u, exec (.tableFlipRequest []) s = .next u ∧ u.flip = true ∧ u.repairs = [⟨k, c, true⟩] ∧ u.segMap = s.segMap
      ∧ u.holes = s.holes
      ∧ getD shippedCols u.segIdle (s.segOf k) = (giveUp (s.colsOf k, s.spareCols k) (tileX k % 70) c).1 := by
  have htables := s.recordsOnly_writeTables []
  have hbegun : ({ s.flipRequested [] with segIdle := (s.flipRequested []).repairedCols ⟨k, c, true⟩ } : State).recordsOnly
      (s.beginFlip []).bump := by
    rw [State.beginFlip_eq, State.markFlipping_one hrep]
    exact (((s.flipRequested []).beginRepairs_one ⟨k, c, true⟩).trans (State.recordsOnly_foldl_turnEpoch _ _ _)).trans
      (State.recordsOnly_bump _)
  have hseg : ∀ j, (s.flipRequested []).segOf j = s.segOf j := fun j => htables.keeps (State.segOf · j)
  have hcols : (s.flipRequested []).colsOf k = s.colsOf k := by
    rw [State.colsOf, hseg, State.colsOf, hflip]
    exact congrArg (getD shippedCols · _) (htables.keeps State.segMap)
  have hspare : (s.flipRequested []).spareCols k = s.spareCols k := by
    unfold State.spareCols
    rw [hcols, State.flipRequested, htables]
    rfl
  have hexec : exec (.tableFlipRequest []) s = .next (s.beginFlip []).bump := exec_tableFlipRequest_of_no_flip hflip _
  refine ⟨_, hexec, hbegun.keeps State.flip, (hbegun.keeps State.repairs).trans (State.markFlipping_one hrep),
    (hbegun.keeps State.segMap).trans (htables.keeps State.segMap), (hbegun.keeps State.holes).trans (htables.keeps State.holes), ?_⟩
  have hidle : (s.beginFlip []).bump.segIdle = (s.flipRequested []).repairedCols ⟨k, c, true⟩ :=
    hbegun.keeps State.segIdle
  rw [hidle, ← hcols, ← hspare, ← hseg]
  exact getD_putD_same _ _ _ _

end Sys2Proof.Machine
end

section
/-! A flip completes (09, R296, R298; 17, R511 to R514, Table 17.2, step 7). -/

namespace Sys2Proof.Machine

/-- The state once the tables and the columns of a flip are in force, and before its repairs are ended. -/
def State.swapped (s : State) : State :=
  { s with flip := false, epoch := !s.epoch, repairs := s.repairs.filter (fun x => !x.flipping), segMap := s.segIdle, segIdle := s.segMap }

/-- The column that a repair's end finds for its tile: its entry of the columns that come into force. -/
theorem State.swapped_column (s : State) (k : Nat) : (s.swapped.colsOf k).getD (tileX k % 70) none
    = (getD shippedCols s.segIdle (s.segOf k)).getD (tileX k % 70) none := rfl

/-! ## Holes merged and contacts moved -/

theorem State.recordsOnly_mergeHoles (s : State) : ({ s with merged := s.mergedNow } : State).recordsOnly s.mergeHoles := by
  refine State.recordsOnly_foldl _ (fun u k => ?_) _ _
  dsimp only
  split <;> rfl

theorem State.mergeHoles_regions (s : State) : s.mergeHoles.regions = s.regions := by
  refine foldl_keeps State.regions _ (fun u k => ?_) _ ({ s with merged := s.mergedNow } : State)
  dsimp only
  split <;> rfl

theorem State.recordsOnly_moveContacts (s : State) : s.recordsOnly s.moveContacts := by
  refine State.recordsOnly_foldl _ (fun u r => ?_) _ _
  split <;> rfl

theorem State.owner_moveContacts (s : State) (j : Nat) : (s.moveContacts.region j).owner = (s.region j).owner := by
  refine foldl_keeps (fun u : State => (u.region j).owner) _ (fun u r => ?_) _ _
  split
  · rfl
  · by_cases hj : j = r
    · rw [hj, State.region_onRegion]
    · rw [State.region_onRegion_other _ _ _ _ hj]

theorem State.ownerOf_moveContacts_mergeHoles (s : State) (k : Nat) : s.mergeHoles.moveContacts.ownerOf k = s.ownerOf k := by
  rw [State.ownerOf, State.owner_moveContacts, State.region_congr s.mergeHoles_regions, State.ownerOf]

/-! ## The repairs of a flip end -/

theorem State.recordsOnly_reviveNeighbours (s : State) (k : Nat) : s.recordsOnly (s.reviveNeighbours k) := by
  refine State.recordsOnly_foldl _ (fun u d => ?_) _ _
  split <;> rfl

theorem State.reviveNeighbours_regions (s : State) (k : Nat) : (s.reviveNeighbours k).regions = s.regions := by
  refine foldl_keeps State.regions _ (fun u d => ?_) _ _
  split <;> rfl

theorem State.recordsOnly_cntRegion (s : State) (r i n : Nat) : s.recordsOnly (s.cntRegion r i n) := by
  unfold State.recordsOnly State.cntRegion
  rw [s.countWin_frame]

/-- The end of a repair changes the holes, the two counts of repairs, and tiles, regions, paddocks and counters. -/
def State.repairEnds (s t : State) : Prop :=
  ({ s with holes := t.holes, repairsDone := t.repairsDone, holesNew := t.holesNew } : State).recordsOnly t

/-- A repair of no paddock's tile that found a column: the tile is no hole any more. -/
theorem State.endRepair_of_column {s : State} {k : Nat} (howner : s.ownerOf k = 0)
    (hcol : ((s.colsOf k).getD (tileX k % 70) none).isSome = true) :
    s.repairEnds (s.endRepair k) ∧ (s.endRepair k).regions = s.regions ∧ (s.endRepair k).holes = s.holes.filter (· != k)
      ∧ (s.endRepair k).repairsDone = s.repairsDone + 1 := by
  have hend : s.endRepair k
      = (({ s with holes := s.holes.filter (· != k), repairsDone := s.repairsDone + 1 } : State).reviveNeighbours k).cntRegion
          (regionOfTile k) 10 1 := by
    unfold State.endRepair
    simp only [howner, hcol, ite_true]
    split <;> rfl
  rw [hend]
  have h := (State.recordsOnly_reviveNeighbours
    ({ s with holes := s.holes.filter (· != k), repairsDone := s.repairsDone + 1 } : State) k).trans
    (State.recordsOnly_cntRegion _ (regionOfTile k) 10 1)
  refine ⟨?_, ?_, h.keeps State.holes, h.keeps State.repairsDone⟩
  · unfold State.repairEnds State.recordsOnly
    unfold State.recordsOnly at h
    rw [h]
  · rw [State.cntRegion_regions, State.reviveNeighbours_regions]

/-- A repair of no paddock's tile that found none: the hole stays. -/
theorem State.endRepair_of_no_column {s : State} {k : Nat} (howner : s.ownerOf k = 0)
    (hcol : (s.colsOf k).getD (tileX k % 70) none = none) :
    s.repairEnds (s.endRepair k) ∧ (s.endRepair k).regions = s.regions ∧ (s.endRepair k).holes = s.holes
      ∧ (s.endRepair k).repairsDone = s.repairsDone := by
  have hend : s.endRepair k
      = ({ s with holesNew := if s.holesNew = 255 then 255 else s.holesNew + 1 } : State).cntRegion (regionOfTile k) 12 1 := by
    unfold State.endRepair
    simp only [howner, hcol, Option.isSome_none, Bool.false_eq_true, ite_false, ite_true]
  rw [hend]
  have h := State.recordsOnly_cntRegion
    ({ s with holesNew := if s.holesNew = 255 then 255 else s.holesNew + 1 } : State) (regionOfTile k) 12 1
  refine ⟨?_, ?_, h.keeps State.holes, h.keeps State.repairsDone⟩
  · unfold State.repairEnds State.recordsOnly
    unfold State.recordsOnly at h
    rw [h]
  · rw [State.cntRegion_regions]

/-- A flip that leaves no repair, and whose repairs are in no paddock's region, merges holes and moves contacts after them. -/
theorem State.endFlip_of_unowned {s w : State}
    (hw : ((s.repairs.filter Repair.flipping).map Repair.tile).foldl State.endRepair s.swapped = w) (hleft : w.repairs = [])
    (howner : ∀ x ∈ s.repairs.filter Repair.flipping, w.ownerOf x.tile = 0) : s.endFlip = w.mergeHoles.moveContacts := by
  have hnone : (((s.repairs.filter Repair.flipping).map (fun x => w.mergeHoles.moveContacts.ownerOf x.tile)).eraseDups).filter (· != 0)
      = [] := by
    rw [List.filter_eq_nil_iff]
    intro p hp
    obtain ⟨x, hx, rfl⟩ := List.mem_map.mp (List.mem_eraseDups.mp hp)
    rw [State.ownerOf_moveContacts_mergeHoles, howner x hx]
    decide
  unfold State.endFlip
  unfold State.swapped at hw
  simp only [hw, hleft, List.foldl_nil, hnone]

/-! ## The step -/

/-- What stands after a flip's completion, given the state `w` in which its repairs have ended. -/
def State.flipEnded (w : State) : State := w.mergeHoles.moveContacts.installStirrups.bump

theorem State.recordsOnly_flipEnded (w : State) :
    ({ w with merged := w.mergedNow, stirrups := w.flipEnded.stirrups } : State).recordsOnly w.flipEnded := by
  have h := w.recordsOnly_mergeHoles.trans w.mergeHoles.recordsOnly_moveContacts
  unfold State.recordsOnly at h
  unfold State.recordsOnly State.flipEnded State.installStirrups State.bump
  rw [h]

theorem exec_tableFlipComplete_of_done {s : State} (hflip : s.flip = true) (hregions : ∀ r, r < 28 → (s.region r).epoch = !s.epoch)
    (hold : s.oldFlits = false) (hqueue : s.endFlip.flipQueue = []) :
    exec .tableFlipComplete s = .next s.endFlip.installStirrups.bump := by
  have hqueue : s.endFlip.installStirrups.flipQueue = [] := hqueue
  have hnew : (List.range 28).any (fun r => (s.region r).epoch == s.epoch) = false := by
    rw [List.any_eq_false]
    intro r hr
    rw [hregions r (List.mem_range.mp hr)]
    cases s.epoch <;> decide
  simp only [exec_tableFlipComplete, execTableFlipComplete, hflip, hnew, hold, hqueue, Bool.not_true, Bool.or_self,
    Bool.false_eq_true, ite_false]

/-- A flip's completion whose repairs end in a state `w`, with none left and none in a paddock's region. -/
theorem tableFlipComplete_of_ended {s w : State} (hflip : s.flip = true) (hregions : ∀ r, r < 28 → (s.region r).epoch = !s.epoch)
    (hold : s.oldFlits = false) (hqueue : w.flipQueue = []) (hend : s.endFlip = w.mergeHoles.moveContacts) :
    ∃ u, exec .tableFlipComplete s = .next u ∧ u.flip = w.flip ∧ u.epoch = w.epoch ∧ u.segMap = w.segMap ∧ u.segIdle = w.segIdle
      ∧ u.holes = w.holes ∧ u.merged = w.mergedNow ∧ u.repairs = w.repairs ∧ u.repairsDone = w.repairsDone := by
  have hqueue : s.endFlip.flipQueue = [] := by
    rw [hend, ← hqueue]
    exact (w.recordsOnly_mergeHoles.trans w.mergeHoles.recordsOnly_moveContacts).keeps State.flipQueue
  have hu := w.recordsOnly_flipEnded
  rw [exec_tableFlipComplete_of_done hflip hregions hold hqueue, hend]
  exact ⟨w.flipEnded, rfl, hu.keeps State.flip, hu.keeps State.epoch, hu.keeps State.segMap, hu.keeps State.segIdle,
    hu.keeps State.holes, hu.keeps State.merged, hu.keeps State.repairs, hu.keeps State.repairsDone⟩

/-- A flip's completion with no repair. -/
theorem tableFlipComplete_of_no_repair {s : State} (hflip : s.flip = true) (hregions : ∀ r, r < 28 → (s.region r).epoch = !s.epoch)
    (hold : s.oldFlits = false) (hqueue : s.flipQueue = []) (hrep : s.repairs = []) :
    ∃ u, exec .tableFlipComplete s = .next u ∧ u.flip = false ∧ u.epoch = !s.epoch ∧ u.segMap = s.segIdle
      ∧ u.segIdle = s.segMap ∧ u.holes = s.holes ∧ u.merged = s.mergedNow ∧ u.repairs = [] := by
  have hleft : s.swapped.repairs = [] := by
    rw [State.swapped, hrep]
    rfl
  have hmerged : s.swapped.mergedNow = s.mergedNow := by
    unfold State.mergedNow
    rw [hleft, hrep]
    rfl
  have hend : s.endFlip = s.swapped.mergeHoles.moveContacts := by
    refine State.endFlip_of_unowned ?_ hleft ?_
    · rw [hrep]
      rfl
    · rw [hrep]
      exact fun _ hx => absurd hx List.not_mem_nil
  obtain ⟨u, hexec, hf, he, hmap, hidle, hholes, hmerge, hreps, -⟩ :=
    tableFlipComplete_of_ended (w := s.swapped) hflip hregions hold hqueue hend
  exact ⟨u, hexec, hf, he, hmap, hidle, hholes, hmerge.trans hmerged, hreps.trans hleft⟩

/-- A flip's completion with one repair, of a tile of no paddock. -/
theorem tableFlipComplete_of_repair {k c : Nat} {s : State} (hflip : s.flip = true)
    (hregions : ∀ r, r < 28 → (s.region r).epoch = !s.epoch) (hold : s.oldFlits = false) (hqueue : s.flipQueue = [])
    (hrep : s.repairs = [⟨k, c, true⟩]) (howner : s.ownerOf k = 0) :
    let new := (getD shippedCols s.segIdle (s.segOf k)).getD (tileX k % 70) none
    ∃ u, exec .tableFlipComplete s = .next u ∧ u.flip = false ∧ u.epoch = !s.epoch ∧ u.segMap = s.segIdle ∧ u.repairs = []
      ∧ (new.isSome = true → u.holes = s.holes.filter (· != k) ∧ u.repairsDone = s.repairsDone + 1)
      ∧ (new = none → u.holes = s.holes ∧ u.repairsDone = s.repairsDone) := by
  intro new
  have howner' : s.swapped.ownerOf k = 0 := howner
  obtain ⟨hends, hreg, hcount⟩ : s.swapped.repairEnds (s.swapped.endRepair k) ∧ (s.swapped.endRepair k).regions = s.swapped.regions
      ∧ (new.isSome = true → (s.swapped.endRepair k).holes = s.swapped.holes.filter (· != k)
          ∧ (s.swapped.endRepair k).repairsDone = s.swapped.repairsDone + 1)
      ∧ (new = none → (s.swapped.endRepair k).holes = s.swapped.holes
          ∧ (s.swapped.endRepair k).repairsDone = s.swapped.repairsDone) := by
    cases hnew : new with
    | none =>
      obtain ⟨hends, hreg, hcount⟩ := State.endRepair_of_no_column howner' (s.swapped_column k ▸ hnew)
      exact ⟨hends, hreg, fun h => absurd h (by decide), fun _ => hcount⟩
    | some col =>
      obtain ⟨hends, hreg, hcount⟩ := State.endRepair_of_column howner' (Option.isSome_of_eq_some ((s.swapped_column k).trans hnew))
      exact ⟨hends, hreg, fun _ => hcount, fun h => nomatch h⟩
  have hleft : (s.swapped.endRepair k).repairs = [] := by
    rw [hends.keeps State.repairs, State.swapped, hrep]
    rfl
  have hreps : s.repairs.filter Repair.flipping = [⟨k, c, true⟩] := by
    rw [hrep]
    rfl
  have hend : s.endFlip = (s.swapped.endRepair k).mergeHoles.moveContacts := by
    refine State.endFlip_of_unowned ?_ hleft ?_
    · rw [hreps]
      rfl
    · rw [hreps]
      intro x hx
      rw [List.mem_singleton.mp hx, State.ownerOf, State.region_congr hreg]
      exact howner
  obtain ⟨u, hexec, hf, he, hmap, -, hholes, -, hrepairs, hdone⟩ := tableFlipComplete_of_ended hflip hregions hold
    ((hends.keeps State.flipQueue).trans hqueue) hend
  rw [← hholes, ← hdone] at hcount
  exact ⟨u, hexec, hf.trans (hends.keeps State.flip), he.trans (hends.keeps State.epoch),
    hmap.trans (hends.keeps State.segMap), hrepairs.trans hleft, hcount⟩

end Sys2Proof.Machine
end

section
/-! Regions re-placed (17, R515 to R519) and jobs ended where the fallback is not possible. -/

namespace Sys2Proof.Machine

/-! ## What a load of tiles keeps -/

theorem State.records_countRead (s : State) (p : Nat) (far : Bool) (off n : Nat) : (s.countRead p far off n).records = s.records := by
  refine records_foldl _ (fun u x => ?_) _ s
  split
  · rfl
  · exact u.records_cntUnit _ _ _ _

theorem State.records_loadRange (s : State) (p : Nat) (i : Image) (k : Nat) (m : MemRange) : (s.loadRange p i k m).records = s.records := by
  unfold State.loadRange
  split
  · rfl
  · rw [State.records_onTile, State.records_countRead, State.records_touchShare]

theorem State.records_prepareTile (s : State) (p : Nat) (i : Image) (pl k : Nat) : (s.prepareTile p i pl k).records = s.records := by
  unfold State.prepareTile
  rw [records_foldl _ (fun u m => u.records_loadRange p i k m), State.records_onTile]

theorem State.paddock_install (s : State) (p : Nat) (i : Image) (pl : Nat) :
    (s.install p i pl).paddock p = i.installPaddock pl (s.freeWafer p) (s.paddock p) := by
  have hregions : ∀ (l : List Nat) (u : State), (l.foldl (fun s r => s.onRegion r (i.installRegion pl r)) u).paddocks = u.paddocks :=
    fun l u => foldl_keeps State.paddocks _ (fun _ _ => by rfl) l u
  have hprepare : ∀ (l : List Nat) (u : State), (l.foldl (fun s k => s.prepareTile p i pl k) u).paddocks = u.paddocks :=
    fun l u => foldl_keeps State.paddocks _ (fun u k => congrArg Prod.fst (u.records_prepareTile p i pl k)) l u
  have hstart : ∀ (l : List Nat) (u : State), (l.foldl (fun s k => s.onTile k (i.startTile pl k)) u).paddocks = u.paddocks :=
    fun l u => foldl_keeps State.paddocks _ (fun _ _ => by rfl) l u
  refine (State.paddock_congr ?_ p).trans (s.paddock_onPaddock p _)
  unfold State.install
  dsimp only
  split
  · rw [hprepare, hregions]
  · rw [hstart, hprepare, hregions]

@[simp] theorem State.onTilesOf_paddocks (s : State) (p : Nat) (f : Nat → Tile → Tile) : (s.onTilesOf p f).paddocks = s.paddocks :=
  foldl_keeps State.paddocks _ (fun _ _ => by rfl) _ s

theorem State.paddock_quiesce (s : State) (p q : Nat) : (s.quiesce p).paddock q = s.paddock q :=
  State.paddock_congr (s.onTilesOf_paddocks p _) q

theorem State.paddock_abandonStride (s : State) (p : Nat) : (s.abandonStride p).paddock p
    = { s.paddock p with current := (s.paddock p).current.map (fun o => { o with stopped := true }) } := by
  unfold State.abandonStride
  split
  · next h => rw [h, Option.map_none, ← h]
  · next o h => rw [State.paddock_onRegionsOf, State.paddock_onPaddock, h, Option.map_some]

/-! ## A fallback brought into force (17, R515, R518) -/

theorem State.paddock_rePlace (s : State) (p r : Nat) (i : Image) :
    let d := (s.rePlace p r i).paddock p
    d.excluded = some r ∧ d.replaceDue = none ∧ d.image = some i ∧ d.reins = i.reins (r + 1)
      ∧ d.replacements = (if (s.paddock p).replacements = 255 then 255 else (s.paddock p).replacements + 1) ∧ d.remount.slots = [] := by
  have hregions : ∀ (l : List Nat) (u : State), (l.foldl (fun s' q => s'.onRegion q (fun g => { g with
      barriers := keepObjects g.barriers (s.region q).barriers
      marked := keepObjects g.marked (s.region q).marked })) u).paddocks = u.paddocks :=
    fun l u => foldl_keeps State.paddocks _ (fun _ _ => by rfl) l u
  unfold State.rePlace
  dsimp only
  rw [State.paddock_congr (State.cntRegion_paddocks _ _ _ _), State.paddock_onPaddock, State.paddock_congr (hregions _ _),
    State.paddock_install, State.paddock_quiesce, State.paddock_abandonStride]
  and_intros <;> rfl

/-- A job that runs ends with the status that it is given. -/
theorem State.ended_killJob {s : State} {p : Nat} (hp : p ≠ 0) (hlive : (s.paddock p).live = true)
    (hended : (s.paddock p).ended = none) (status : Nat) : ((s.killJob p status).paddock p).ended = some status := by
  unfold State.killJob
  rw [if_neg (by simp [hp, hlive, hended])]
  refine Eq.trans (congrArg Paddock.ended (State.paddock_congr (congrArg Prod.fst (State.records_cntFrame _ _ _)) p)) ?_
  rw [State.paddock_onPaddock]

variable {p : PaddockId} {r : Nat} {i : Image} {s : State}

/-- Whether a paddock's fallback for an excluded region is possible. -/
def State.fallbackPossible (s : State) (p : Nat) (r : Nat) (i : Image) : Bool :=
  bitOf (s.repairCtrl p) 0 && i.placements.contains (r + 1) && ((s.paddock p).excluded == none || (s.paddock p).excluded == some r)

section
variable (hdue : (s.paddock p).replaceDue = some r) (hhalt : s.halted = false) (himage : (s.paddock p).image = some i)
  (halone : s.shared p = false)
include hdue hhalt himage halone

theorem exec_rePlacement_of_shared_false : exec (.rePlacement p) s
    = if s.fallbackPossible p r i then .next (s.rePlace p r i).bump
      else .next ((s.killJob p 0x0102).onPaddock p (fun d => { d with replaceDue := none })).bump := by
  have hfail : s.failJob p 0x0102 = s.killJob p 0x0102 := by
    unfold State.failJob
    simp only [halone, Bool.false_and, Bool.false_eq_true, ite_false]
  have hcond : (!bitOf (s.repairCtrl p) 0 || !i.placements.contains (r + 1)
      || ((s.paddock p).excluded != none && (s.paddock p).excluded != some r)) = !s.fallbackPossible p r i := by
    rw [State.fallbackPossible, Bool.not_and, Bool.not_and, Bool.not_or]
    rfl
  simp only [exec_rePlacement, execRePlacement, hdue, hhalt, himage, halone, hfail, hcond, Bool.and_false, Bool.false_and,
    Bool.false_or, Bool.false_eq_true, ite_false]
  cases s.fallbackPossible p r i <;> rfl

theorem rePlacement_of_impossible (hnot : s.fallbackPossible p r i = false) (hp : p.val ≠ 0) (hlive : (s.paddock p).live = true)
    (hended : (s.paddock p).ended = none) :
    ∃ u, exec (.rePlacement p) s = .next u ∧ (u.paddock p).ended = some 0x0102 ∧ (u.paddock p).replaceDue = none := by
  have hexec := exec_rePlacement_of_shared_false hdue hhalt himage halone
  rw [hnot, if_neg Bool.false_ne_true] at hexec
  refine ⟨_, hexec, ?_⟩
  rw [State.paddock_bump, State.paddock_onPaddock]
  exact ⟨State.ended_killJob hp hlive hended _, rfl⟩

theorem rePlacement_of_possible (h : s.fallbackPossible p r i = true) : ∃ u, exec (.rePlacement p) s = .next u
    ∧ (u.paddock p).excluded = some r ∧ (u.paddock p).replaceDue = none ∧ (u.paddock p).image = some i
    ∧ (u.paddock p).reins = i.reins (r + 1)
    ∧ (u.paddock p).replacements = (if (s.paddock p).replacements = 255 then 255 else (s.paddock p).replacements + 1)
    ∧ (u.paddock p).remount.slots = [] := by
  have hexec := exec_rePlacement_of_shared_false hdue hhalt himage halone
  rw [h, if_pos rfl] at hexec
  exact ⟨_, hexec, s.paddock_rePlace p r i⟩

end

end Sys2Proof.Machine
end

section
/-! Tiles retired and the patina map (17, R505 to R508, R519 to R521), and what settles O50. -/

namespace Sys2Proof.Machine

/-! ## A tile retires (17, R519) -/

theorem State.abandons_breakThrough (s : State) (p k : Nat) : s.abandons (s.breakThrough p k) := by
  refine State.abandons_foldl _ (fun u q => ?_) _ s
  dsimp only
  split
  · exact .refl u
  · exact u.abandons_broken _ q

/-- The removal of a tile of no paddock, before the reins that cross it break: it is parked, a hole, with an entry of the
patina map and a repair. -/
def State.tileRemoved (s : State) (k kind : Nat) : State :=
  { (s.onTile k (fun t => { t with parked := true })).dueTile kind k with
    holes := s.holes ++ [k], repairs := s.repairs ++ [{ tile := k, col := ((s.colsOf k).getD (tileX k % 70) none).getD 0 }] }

theorem State.removeTile_of_unowned {s : State} {k : Nat} (hpresent : s.present k = true) (howner : s.ownerOf k = 0) (kind : Nat) :
    s.removeTile k kind = (s.tileRemoved k kind).breakThrough 0 k := by
  unfold State.removeTile
  rw [hpresent, howner]
  rfl

theorem tileRetire_of_worn {k : TileIx} {s : State} (hpresent : s.present k = true) (hworn : s.worn (s.tilePlace k) = true)
    (howner : s.ownerOf k = 0) (hhalt : s.halted = false) :
    ∃ u e, exec (.tileRetire k) s = .next u ∧ u.holes = s.holes ++ [k.val] ∧ (u.tile k).parked = true ∧ u.otherTiles s k
      ∧ u.patinaDue = s.patinaDue ++ [e] ∧ e.kind = 3 ∧ e.place = s.tilePlace k := by
  have hexec : exec (.tileRetire k) s
      = .next (((s.tileRemoved k 3).breakThrough 0 k).cntRegion (regionOfTile k) 11 1).bump := by
    simp only [exec_tileRetire, execTileRetire, hpresent, hworn, howner, hhalt, State.removeTile_of_unowned hpresent howner,
      Bool.not_true, bne_self_eq_false, Bool.or_self, Bool.false_eq_true, ite_false]
  obtain ⟨⟨paddocks, regions, hbreak⟩, -⟩ := (s.tileRemoved k 3).abandons_breakThrough 0 k
  have hu : ∃ paddocks regions cntWin free, (((s.tileRemoved k 3).breakThrough 0 k).cntRegion (regionOfTile k) 11 1).bump
      = { s.tileRemoved k 3 with paddocks := paddocks, regions := regions, cntWin := cntWin, free := free } := by
    rw [hbreak, State.cntRegion, State.countWin_frame]
    exact ⟨_, _, _, _, rfl⟩
  obtain ⟨_, _, _, _, hu⟩ := hu
  rw [hu] at hexec
  refine ⟨_, _, hexec, rfl, ?_, fun j hj => ?_, rfl, rfl, rfl⟩
  · exact congrArg Tile.parked (s.tile_onTile k (fun t => { t with parked := true }))
  · exact (s.otherTiles_onTile k (fun t => { t with parked := true }) j hj).symm

/-! ## An entry of the patina map (17, R520, R521; log entries 90 and 166) -/

/-- The entry that 16 bytes of the patina map give. -/
def patinaEntryOf (entry : BitVec 128) : PatinaEntry :=
  ⟨entry.toNat % 2 ^ 16, entry.toNat / 2 ^ 16 % 2 ^ 16, BitVec.ofNat 32 (entry.toNat / 2 ^ 32), BitVec.ofNat 64 (entry.toNat / 2 ^ 64)⟩

/-- An entry appended under the next sequence number, and due no more. -/
def State.patinaAppended (s : State) (e : PatinaEntry) : State :=
  { s with
    patina := s.patina ++ [e]
    patinaSeq := (s.patinaSeq + 1) % 2 ^ 32
    patinaDue := s.patinaDue.filter (fun x => !(x.kind == e.kind && x.unit == e.unit && x.place == e.place)) }

theorem State.loseSensor_frame (s : State) (e : PatinaEntry) : s.loseSensor e = { s with hotPairs := (s.loseSensor e).hotPairs } := by
  unfold State.loseSensor
  dsimp only
  split <;> rfl

theorem State.loseSensor_of_other {e : PatinaEntry} (h : e.kind ≠ 10) (s : State) : s.loseSensor e = s := by
  unfold State.loseSensor
  dsimp only
  rw [if_neg (by simp [h])]

theorem exec_patinaWrite_of_wellFormed {entry : BitVec 128} (hlo : 1 ≤ (patinaEntryOf entry).kind) (hhi : (patinaEntryOf entry).kind ≤ 10)
    (s : State) : exec (.patinaWrite entry) s
      = .next ((s.patinaAppended (patinaEntryOf entry)).loseSensor (patinaEntryOf entry)).bump := by
  have hwf : (Instr.patinaWrite entry).wellFormed = true := decide_eq_true ⟨hlo, hhi⟩
  simp only [exec_patinaWrite, execPatinaWrite, hwf, Bool.not_true, Bool.false_eq_true, ite_false]
  rfl

theorem patinaWrite_of_wellFormed {entry : BitVec 128} (hlo : 1 ≤ (patinaEntryOf entry).kind) (hhi : (patinaEntryOf entry).kind ≤ 10)
    (s : State) : ∃ u, exec (.patinaWrite entry) s = .next u ∧ u.patina = s.patina ++ [patinaEntryOf entry]
      ∧ u.patinaSeq = (s.patinaSeq + 1) % 2 ^ 32
      ∧ (∀ x ∈ u.patinaDue, x ∈ s.patinaDue ∧ ¬ (x.kind = (patinaEntryOf entry).kind ∧ x.unit = (patinaEntryOf entry).unit
          ∧ x.place = (patinaEntryOf entry).place))
      ∧ ((patinaEntryOf entry).kind ≠ 10 → u.hotPairs = s.hotPairs)
      ∧ { u with patina := s.patina, patinaSeq := s.patinaSeq, patinaDue := s.patinaDue, hotPairs := s.hotPairs, free := s.free } = s := by
  have hcool : (patinaEntryOf entry).kind ≠ 10 →
      ((s.patinaAppended (patinaEntryOf entry)).loseSensor (patinaEntryOf entry)).hotPairs = s.hotPairs := fun h => by
    rw [State.loseSensor_of_other h]
    rfl
  rw [exec_patinaWrite_of_wellFormed hlo hhi, State.loseSensor_frame]
  refine ⟨_, rfl, rfl, rfl, fun x hx => ?_, hcool, rfl⟩
  obtain ⟨hx, hne⟩ := List.mem_filter.mp hx
  refine ⟨hx, fun ⟨hkind, hunit, hplace⟩ => ?_⟩
  simp [hkind, hunit, hplace] at hne

/-- Settles O50: each step from the frames of its parts; the flips from what the tables, the regions and the repaired segment take,
the re-placement from what the install gives, the retirement from what the broken reins leave. -/
theorem repairsAndPatina : Obligations.RepairsAndPatina := by
  unfold Obligations.RepairsAndPatina
  refine ⟨fun _ _ _ => tableFlipRequest_of_no_repair, fun _ _ h => ⟨_, tableFlipRequest_of_flip h, rfl, rfl⟩,
    fun _ _ _ hflip hrep _ => tableFlipRequest_of_repair hflip hrep, fun s hflip hregions hold hqueue => ⟨?_, fun k c => ?_⟩, ?_,
    fun _ _ => tileRetire_of_worn, ?_⟩
  · exact tableFlipComplete_of_no_repair hflip hregions hold hqueue
  · exact tableFlipComplete_of_repair hflip hregions hold hqueue
  · intro p r i s d hdue hhalt himage halone possible
    exact ⟨rePlacement_of_impossible hdue hhalt himage halone, rePlacement_of_possible hdue hhalt himage halone⟩
  · intro entry s e hlo hhi
    exact patinaWrite_of_wellFormed hlo hhi s

end Sys2Proof.Machine
end

section
/-! The memory tiers (10, R316 to R330): what a change of a tier, a heal and a read of a granule leave of the two tiers, and of the
rest of the state. -/

namespace Sys2Proof.Machine

/-! ## One tier changed -/

@[simp] theorem State.tier_setTier (s : State) (far : Bool) (t : Tier) : (s.setTier far t).tier far = t := by cases far <;> rfl
@[simp] theorem State.tier_setTier_not (s : State) (far : Bool) (t : Tier) : (s.setTier (!far) t).tier far = s.tier far := by
  cases far <;> rfl
@[simp] theorem State.tier_not_setTier (s : State) (far : Bool) (t : Tier) : (s.setTier far t).tier (!far) = s.tier (!far) := by
  cases far <;> rfl
@[simp] theorem State.setTier_raised (s : State) (far : Bool) (t : Tier) : (s.setTier far t).raised = s.raised := by
  cases far <;> rfl
@[simp] theorem State.setTier_tiles (s : State) (far : Bool) (t : Tier) : (s.setTier far t).tiles = s.tiles := by cases far <;> rfl
@[simp] theorem State.setTier_paddocks (s : State) (far : Bool) (t : Tier) : (s.setTier far t).paddocks = s.paddocks := by
  cases far <;> rfl
@[simp] theorem State.tier_bump (s : State) (far : Bool) : s.bump.tier far = s.tier far := rfl
@[simp] theorem State.tier_raise (s : State) (r : Report) (far : Bool) : (s.raise r).tier far = s.tier far := rfl
@[simp] theorem State.tier_duePatina (s : State) (kind unit : Nat) (place : BitVec 32) (far : Bool) :
    (s.duePatina kind unit place).tier far = s.tier far := rfl

@[simp] theorem Tier.granule_setGranule (t : Tier) (g : Nat) (x : Granule) : (t.setGranule g x).granule g = x :=
  getD_putD_same _ _ _ _

theorem Tier.granule_setGranule_other (t : Tier) {g h : Nat} (x : Granule) (hne : h ≠ g) :
    (t.setGranule g x).granule h = t.granule h := getD_putD_other _ _ _ _ _ hne

theorem Tier.setGranule_heals (t : Tier) (g : Nat) (x : Granule) : (t.setGranule g x).heals = t.heals := rfl
theorem Tier.setGranule_sites (t : Tier) (g : Nat) (x : Granule) : (t.setGranule g x).sites = t.sites := rfl

/-! ## Steps that change tiers, reports and counters only -/

/-- `t` differs from `s` in the tiers, the reports, the counters and the step's free choice only. -/
def State.tiersOnly (s t : State) : Prop :=
  t = { s with near := t.near, far := t.far, raised := t.raised, cntWin := t.cntWin, bw := t.bw, free := t.free }

theorem State.tiersOnly.refl (s : State) : s.tiersOnly s := rfl

theorem State.tiersOnly.trans {s t u : State} (h : s.tiersOnly t) (h' : t.tiersOnly u) : s.tiersOnly u := by
  unfold State.tiersOnly at *
  rw [h', h]

/-- What reads no tier, report or counter is kept. -/
theorem State.tiersOnly.keeps {β : Type} {s t : State} (h : s.tiersOnly t) (proj : State → β)
    (hproj : ∀ near far raised cntWin bw free, proj { s with
        near := near, far := far, raised := raised, cntWin := cntWin, bw := bw, free := free } = proj s := by
      intros; rfl) :
    proj t = proj s := by
  unfold State.tiersOnly at h
  rw [h, hproj]

theorem State.tiersOnly_foldl {α : Type} (f : State → α → State) (h : ∀ (s : State) a, s.tiersOnly (f s a)) (l : List α)
    (s : State) : s.tiersOnly (l.foldl f s) := by
  induction l generalizing s with
  | nil => exact .refl s
  | cons a l ih => exact (h s a).trans (ih _)

theorem State.tiersOnly_raise (s : State) (r : Report) : s.tiersOnly (s.raise r) := rfl
theorem State.tiersOnly_setTier (s : State) (far : Bool) (t : Tier) : s.tiersOnly (s.setTier far t) := by cases far <;> rfl

/-- A count at a tier unit changes counters only. -/
theorem State.cntUnit_frame (s : State) (far : Bool) (u i n : Nat) :
    ∃ cntWin bw, s.cntUnit far u i n = { s with cntWin := cntWin, bw := bw } := by
  have hbw : ∀ key, ∃ bw, s.addBw key n = { s with bw := bw } := by
    intro key
    unfold State.addBw
    split
    · exact ⟨_, rfl⟩
    · exact ⟨_, rfl⟩
  unfold State.cntUnit
  dsimp only
  rw [State.countWin_frame]
  split
  · obtain ⟨bw, h⟩ := hbw ((if far then 0x5000 else 0x4000) + 0x80 * u + 7 + i)
    rw [h]
    exact ⟨_, _, rfl⟩
  · exact ⟨_, _, rfl⟩

theorem State.tiersOnly_cntUnit (s : State) (far : Bool) (u i n : Nat) : s.tiersOnly (s.cntUnit far u i n) := by
  obtain ⟨cntWin, bw, h⟩ := s.cntUnit_frame far u i n
  rw [h]
  rfl

@[simp] theorem State.tier_cntUnit (s : State) (f : Bool) (u i n : Nat) (far : Bool) : (s.cntUnit f u i n).tier far = s.tier far := by
  obtain ⟨cntWin, bw, h⟩ := s.cntUnit_frame f u i n
  rw [h]
  rfl
@[simp] theorem State.cntUnit_raised (s : State) (f : Bool) (u i n : Nat) : (s.cntUnit f u i n).raised = s.raised := by
  obtain ⟨cntWin, bw, h⟩ := s.cntUnit_frame f u i n
  rw [h]
@[simp] theorem State.cntUnit_tiles (s : State) (f : Bool) (u i n : Nat) : (s.cntUnit f u i n).tiles = s.tiles :=
  (s.tiersOnly_cntUnit f u i n).keeps State.tiles

/-! ## What a change of tiers leaves of the mirrors and of the other tier's copies (R329) -/

theorem State.mirrorOf_congr {s t : State} (h : t.paddocks = s.paddocks) (far : Bool) (a : Nat) :
    t.mirrorOf far a = s.mirrorOf far a := by
  unfold State.mirrorOf State.unitOwner State.paddock
  rw [h]

theorem State.granuleBad_congr {s t : State} {far : Bool} (h : t.tier far = s.tier far) (g : Nat) :
    t.granuleBad far g = s.granuleBad far g := by
  unfold State.granuleBad
  rw [h]

/-- The copy that a heal takes is read off the paddocks and the other tier. -/
theorem State.goodCopy_congr {s t : State} {far : Bool} (hp : t.paddocks = s.paddocks) (ht : t.tier (!far) = s.tier (!far)) (g : Nat) :
    t.goodCopy far g = s.goodCopy far g := by
  unfold State.goodCopy
  simp only [State.mirrorOf_congr hp, State.granuleBad_congr ht, ht]

theorem State.goodCopy_of_unmirrored {s : State} {far : Bool} {g : Nat} (h : s.mirrorOf far (64 * g) = none) :
    s.goodCopy far g = none := by rw [State.goodCopy, h, Option.bind_none]

/-! ## A granule marked poisoned, and one read with an error (R324, R325, R330) -/

/-- The tier with a granule that reads as poisoned. -/
def Tier.poisonAt (t : Tier) (far : Bool) (g : Nat) : Tier := t.setGranule g { t.whole far g 0 with poison := true }

theorem Tier.poisonAt_heals (t : Tier) (far : Bool) (g : Nat) : (t.poisonAt far g).heals = t.heals := by
  rw [Tier.poisonAt, Tier.setGranule_heals]
theorem Tier.poisonAt_sites (t : Tier) (far : Bool) (g : Nat) : (t.poisonAt far g).sites = t.sites := by
  rw [Tier.poisonAt, Tier.setGranule_sites]

theorem State.tiersOnly_noteUe (s : State) (far : Bool) (unit : Nat) : s.tiersOnly (s.noteUe far unit) := s.tiersOnly_setTier far _

theorem State.tiersOnly_uncorrectable (s : State) (far : Bool) (g : Nat) : s.tiersOnly (s.uncorrectable far g) := by
  unfold State.uncorrectable
  dsimp only
  split
  · split
    · exact s.tiersOnly_noteUe far _
    · exact (s.tiersOnly_noteUe far _).trans (State.tiersOnly_setTier _ far _)
  · exact (s.tiersOnly_noteUe far _).trans (State.tiersOnly_setTier _ far _)

theorem State.tiersOnly_touchGranule (s : State) (far : Bool) (g : Nat) : s.tiersOnly (s.touchGranule far g) := by
  unfold State.touchGranule
  dsimp only
  split
  · exact .refl s
  · exact (s.tiersOnly_setTier far _).trans ((State.tiersOnly_setTier _ far _).trans
      ((State.tiersOnly_raise _ _).trans (State.tiersOnly_cntUnit _ far _ _ _)))
  · exact (s.tiersOnly_uncorrectable far g).trans ((State.tiersOnly_raise _ _).trans (State.tiersOnly_cntUnit _ far _ _ _))

/-- A read of a share changes tiers, reports and counters. -/
theorem State.tiersOnly_touchShare (s : State) (p : Nat) (far : Bool) (off n : Nat) : s.tiersOnly (s.touchShare p far off n) :=
  State.tiersOnly_foldl _ (fun s g => s.tiersOnly_touchGranule far g) _ s

theorem State.tiersOnly_countRead (s : State) (p : Nat) (far : Bool) (off n : Nat) : s.tiersOnly (s.countRead p far off n) := by
  refine State.tiersOnly_foldl _ (fun s x => ?_) _ s
  split
  · exact .refl s
  · exact s.tiersOnly_cntUnit far _ _ _

/-- `u` has the granules of `t` but one, and its scrubber at the same granule. -/
def Tier.touched (t u : Tier) (g : Nat) : Prop := (∀ h, h ≠ g → u.granule h = t.granule h) ∧ u.scrubAt = t.scrubAt

theorem Tier.touched.refl (t : Tier) (g : Nat) : t.touched t g := ⟨fun _ _ => rfl, rfl⟩

theorem Tier.touched_setGranule (t : Tier) (g : Nat) (x : Granule) : t.touched (t.setGranule g x) g :=
  ⟨fun _ h => t.granule_setGranule_other x h, rfl⟩

theorem State.touched_noteUe (s : State) (far : Bool) (unit g : Nat) : (s.tier far).touched ((s.noteUe far unit).tier far) g := by
  rw [State.noteUe, State.tier_setTier]
  exact .refl _ g

theorem State.noteCe_frame (s : State) (far : Bool) (unit : Nat) :
    ∃ times, s.noteCe far unit = s.setTier far { s.tier far with ceTimes := times } := ⟨_, rfl⟩

theorem State.touched_noteCe (s : State) (far : Bool) (unit g : Nat) : (s.tier far).touched ((s.noteCe far unit).tier far) g := by
  obtain ⟨times, h⟩ := s.noteCe_frame far unit
  rw [h, State.tier_setTier]
  exact .refl _ g

theorem State.granule_noteCe (s : State) (far : Bool) (unit g : Nat) :
    ((s.noteCe far unit).tier far).granule g = (s.tier far).granule g := by
  obtain ⟨times, h⟩ := s.noteCe_frame far unit
  rw [h, State.tier_setTier]
  rfl

theorem Tier.touched.trans {t u v : Tier} {g : Nat} (h : t.touched u g) (h' : u.touched v g) : t.touched v g := by
  obtain ⟨hg, hat⟩ := h
  obtain ⟨hg', hat'⟩ := h'
  exact ⟨fun j hj => (hg' j hj).trans (hg j hj), hat'.trans hat⟩

theorem State.touched_uncorrectable (s : State) (far : Bool) (g : Nat) :
    (s.tier far).touched ((s.uncorrectable far g).tier far) g := by
  have hnote := s.touched_noteUe far (unitOf far (64 * g)) g
  unfold State.uncorrectable
  dsimp only
  split
  · split
    · exact hnote
    · rw [State.tier_setTier]
      exact hnote.trans (Tier.touched_setGranule _ g _)
  · rw [State.tier_setTier]
    exact hnote.trans (Tier.touched_setGranule _ g _)

/-- A read of a granule leaves the other granules of its tier. -/
theorem State.touched_touchGranule (s : State) (far : Bool) (g : Nat) :
    (s.tier far).touched ((s.touchGranule far g).tier far) g := by
  unfold State.touchGranule
  dsimp only
  split
  · exact .refl _ g
  · rw [State.tier_cntUnit, State.tier_raise]
    refine Tier.touched.trans ?_ (State.touched_noteCe _ far _ g)
    rw [State.tier_setTier]
    exact Tier.touched_setGranule _ g _
  · rw [State.tier_cntUnit, State.tier_raise]
    exact s.touched_uncorrectable far g

theorem State.touchGranule_of_good {s : State} {far : Bool} {g : Nat} (h : ((s.tier far).granule g).ecc = .good) :
    s.touchGranule far g = s := by
  unfold State.touchGranule
  dsimp only
  rw [h]

/-- A single error is corrected and reported (R324). -/
theorem State.touchGranule_of_single {s : State} {far : Bool} {g : Nat} (h : ((s.tier far).granule g).ecc = .single) :
    ((s.touchGranule far g).tier far).granule g = { (s.tier far).granule g with ecc := .good }
      ∧ ∃ r, (s.touchGranule far g).raised = s.raised ++ [r] ∧ r.code = 0x0100 ∧ r.cls = clsCE := by
  unfold State.touchGranule
  dsimp only
  rw [h]
  dsimp only
  rw [State.tier_cntUnit, State.tier_raise, State.granule_noteCe, State.tier_setTier, Tier.granule_setGranule, State.cntUnit_raised,
    State.raise, State.noteCe, State.setTier_raised, State.setTier_raised]
  exact ⟨rfl, _, rfl, rfl, rfl⟩

/-- An uncorrectable error of a granule with no copy marks it poisoned, and is reported (R325). -/
theorem State.touchGranule_of_multi {s : State} {far : Bool} {g : Nat} (h : ((s.tier far).granule g).ecc = .multi)
    (hm : s.mirrorOf far (64 * g) = none) :
    ((s.touchGranule far g).tier far).granule g = { (s.tier far).whole far g 0 with poison := true }
      ∧ ∃ r, (s.touchGranule far g).raised = s.raised ++ [r] ∧ r.code = 0x0101 ∧ r.cls = clsUE := by
  have hm' : (s.noteUe far (unitOf far (64 * g))).mirrorOf far (64 * g) = none :=
    (State.mirrorOf_congr (s.setTier_paddocks far _) far _).trans hm
  have hu : s.uncorrectable far g = (s.noteUe far (unitOf far (64 * g))).setTier far
      (((s.noteUe far (unitOf far (64 * g))).tier far).poisonAt far g) := by
    unfold State.uncorrectable
    dsimp only
    rw [hm']
    rfl
  unfold State.touchGranule
  dsimp only
  rw [h]
  dsimp only
  rw [State.tier_cntUnit, State.tier_raise, State.cntUnit_raised, State.raise, hu, State.tier_setTier, State.setTier_raised, State.noteUe,
    State.setTier_raised, State.tier_setTier]
  exact ⟨Tier.granule_setGranule _ g _, _, rfl, rfl, rfl⟩

end Sys2Proof.Machine
end

section
/-! Upkeep of the memory tiers (10, R328, R330, R345, R346): a heal that ends, the scrubber's read, and a unit's move to a spare
site. -/

namespace Sys2Proof.Machine

/-! ## A heal ends (R330) -/

/-- The state with a granule's lock taken away. -/
def State.unlocked (s : State) (far : Bool) (g : Nat) : State :=
  s.setTier far { s.tier far with heals := (s.tier far).heals.filter (· != g) }

theorem State.goodCopy_unlocked (s : State) (far : Bool) (g h : Nat) : (s.unlocked far g).goodCopy far h = s.goodCopy far h :=
  State.goodCopy_congr (s.setTier_paddocks far _) (s.tier_not_setTier far _) h

theorem State.mirrorOf_unlocked (s : State) (far : Bool) (g a : Nat) : (s.unlocked far g).mirrorOf far a = s.mirrorOf far a :=
  State.mirrorOf_congr (s.setTier_paddocks far _) far a

theorem State.tier_healFrom (s : State) (far : Bool) (g : Nat) (c : Granule) :
    (s.healFrom far g c).tier far = (s.tier far).setGranule g ((s.tier far).whole far g c.bits) := by
  rw [State.healFrom, State.tier_cntUnit, State.tier_raise, State.tier_setTier]

/-- A heal reports the granule it replaced. -/
theorem State.healFrom_report (s : State) (far : Bool) (g : Nat) (c : Granule) :
    ∃ r, (s.healFrom far g c).raised = s.raised ++ [r] ∧ r.code = 0x0103 ∧ r.cls = clsCE ∧ r.addr = BitVec.ofNat 64 (64 * g) := by
  rw [State.healFrom, State.cntUnit_raised, State.raise, State.setTier_raised]
  exact ⟨_, rfl, rfl, rfl, rfl⟩

/-- What finds the copy bad as well leaves the tier of the granule it was to heal. -/
theorem State.tier_poisonCopy (s : State) (far : Bool) (a : Nat) : (s.poisonCopy (!far) a).tier far = s.tier far := by
  unfold State.poisonCopy
  dsimp only
  split
  · rfl
  · rw [State.tier_cntUnit, State.tier_raise, State.tier_setTier_not, State.noteUe, State.tier_setTier_not]

theorem exec_tierHealComplete_of_copy {far : Bool} {g : Nat} {s : State} {c : Granule} (hlock : (s.tier far).heals.contains g = true)
    (hc : s.goodCopy far g = some c) :
    exec (.tierHealComplete far g true) s = .next ((s.unlocked far g).healFrom far g c).bump := by
  have hc' := (s.goodCopy_unlocked far g g).trans hc
  unfold State.unlocked at hc' ⊢
  simp only [exec_tierHealComplete, execTierHealComplete, hlock, hc', Bool.not_true, Bool.false_eq_true, ite_false, ite_true]

/-- A heal without a copy that reads correct poisons its granule, and touches the other tier only where the copy lies. -/
theorem tierHealComplete_of_no_copy {far good : Bool} {g : Nat} {s : State} (hlock : (s.tier far).heals.contains g = true)
    (hbad : good = false ∨ s.goodCopy far g = none) :
    ∃ v : State, exec (.tierHealComplete far g good) s = .next v.bump ∧ v.tier far = ((s.unlocked far g).tier far).poisonAt far g
      ∧ (s.mirrorOf far (64 * g) = none → v.raised = s.raised ∧ v.tier (!far) = s.tier (!far)) := by
  have hnone : (if good = true then (s.unlocked far g).goodCopy far g else none) = none := by
    rw [State.goodCopy_unlocked]
    rcases hbad with h | h
    · rw [h]; rfl
    · rw [h]; exact ite_self none
  have hmirror : ((s.unlocked far g).setTier far (((s.unlocked far g).tier far).poisonAt far g)).mirrorOf far (64 * g)
      = s.mirrorOf far (64 * g) :=
    (State.mirrorOf_congr (State.setTier_paddocks _ far _) far _).trans (s.mirrorOf_unlocked far g _)
  unfold Tier.poisonAt at hmirror ⊢
  unfold State.unlocked at hnone hmirror ⊢
  simp only [exec_tierHealComplete, execTierHealComplete, hlock, hnone, Bool.not_true, Bool.false_eq_true, ite_false]
  refine ⟨_, rfl, ?_, fun hm => ?_⟩
  · split
    · rw [State.tier_poisonCopy, State.tier_setTier]
    · rw [State.tier_setTier]
  · rw [hmirror, hm]
    dsimp only
    rw [State.setTier_raised, State.setTier_raised, State.tier_not_setTier, State.tier_not_setTier]
    exact ⟨rfl, rfl⟩

/-! ## The scrubber (R328; 15, R466) -/

/-- What the scrubber notes of its pass changes the pass's own record. -/
theorem State.tier_notePass (s : State) (far : Bool) :
    ∃ start late, (s.notePass far).tier far = { s.tier far with passStart := start, passLate := late } := by
  unfold State.notePass
  dsimp only
  split
  · rw [State.tier_raise, State.tier_setTier]
    exact ⟨_, _, rfl⟩
  · split
    · rw [State.tier_setTier]
      exact ⟨_, _, rfl⟩
    · exact ⟨_, _, rfl⟩

theorem State.tiersOnly_notePass (s : State) (far : Bool) : s.tiersOnly (s.notePass far) := by
  unfold State.notePass
  dsimp only
  split
  · exact (s.tiersOnly_setTier far _).trans (State.tiersOnly_raise _ _)
  · split
    · exact s.tiersOnly_setTier far _
    · exact .refl s

theorem State.notePass_raised_of_in_time {s : State} {far : Bool} (h : s.scrubOverrun far = false) :
    (s.notePass far).raised = s.raised := by
  unfold State.notePass
  dsimp only
  rw [h, if_neg Bool.false_ne_true]
  split
  · exact s.setTier_raised far _
  · rfl

theorem State.notePass_raised_of_overrun {s : State} {far : Bool} (h : s.scrubOverrun far = true) :
    ∃ r, (s.notePass far).raised = s.raised ++ [r] ∧ r.code = 0x050F ∧ r.cls = clsInfra := by
  unfold State.notePass
  dsimp only
  rw [h, if_pos rfl, State.raise, State.setTier_raised]
  exact ⟨_, rfl, rfl, rfl⟩

/-- What the scrubber finds of a granule's check symbols. -/
def foundEcc (bad fixed : Bool) (e : Ecc) : Ecc := if bad then .multi else if fixed then .single else e

/-- The state in which the scrubber has found a granule's check symbols and stands at the next granule. -/
def State.scrubbing (s : State) (far bad fixed : Bool) (g : Nat) : State :=
  s.setTier far { (s.tier far).setGranule g { (s.tier far).granule g with ecc := foundEcc bad fixed ((s.tier far).granule g).ecc } with
    scrubAt := (g + 1) % tierGranules far }

/-- A tier with a granule replaced by the scrubber, which stands at `next` in a pass so noted. -/
def Tier.scrubbed (t : Tier) (g : Nat) (x : Granule) (start : BitVec 64) (late : Bool) (next : Nat) : Tier :=
  { t.setGranule g x with passStart := start, passLate := late, scrubAt := next }

theorem Tier.granule_scrubbed (t : Tier) (g : Nat) (x : Granule) (start : BitVec 64) (late : Bool) (next : Nat) :
    (t.scrubbed g x start late next).granule g = x := t.granule_setGranule g x

theorem Tier.granule_scrubbed_other (t : Tier) {g h : Nat} (hne : h ≠ g) (x : Granule) (start : BitVec 64) (late : Bool) (next : Nat) :
    (t.scrubbed g x start late next).granule h = t.granule h := t.granule_setGranule_other x hne

theorem Tier.whole_scrubbed (t : Tier) (far : Bool) (g : Nat) (bits : BitVec 512) (x : Granule) (start : BitVec 64) (late : Bool)
    (next : Nat) : (t.scrubbed g x start late next).whole far g bits = t.whole far g bits := rfl

section
variable (s : State) (far bad fixed : Bool) (g : Nat)

theorem State.tier_scrubbing : ∃ start late, ((s.notePass far).scrubbing far bad fixed g).tier far
    = (s.tier far).scrubbed g { (s.tier far).granule g with ecc := foundEcc bad fixed ((s.tier far).granule g).ecc } start late
        ((g + 1) % tierGranules far) := by
  obtain ⟨start, late, hpass⟩ := s.tier_notePass far
  rw [State.scrubbing, State.tier_setTier, hpass]
  exact ⟨start, late, rfl⟩

theorem State.scrubbing_raised : ((s.notePass far).scrubbing far bad fixed g).raised = (s.notePass far).raised :=
  State.setTier_raised _ far _

theorem State.tiersOnly_scrubbing : s.tiersOnly ((s.notePass far).scrubbing far bad fixed g) :=
  (s.tiersOnly_notePass far).trans (State.tiersOnly_setTier _ far _)

end

section
variable {far bad fixed : Bool} {s : State} (henable : bitOf (s.scrubCtrl far) 8 = true)
  (hlock : (s.tier far).heals.contains (s.tier far).scrubAt = false) (hhalt : s.halted = false)
  (hpoison : ((s.tier far).granule (s.tier far).scrubAt).poison = false)
include henable hlock hhalt hpoison

theorem exec_tierScrub_of_unlocked : exec (.tierScrub far bad fixed) s
    = .next ((((s.notePass far).scrubbing far bad fixed (s.tier far).scrubAt).touchGranule far (s.tier far).scrubAt).cntUnit far
        (unitOf far (64 * (s.tier far).scrubAt)) 6 1).bump := by
  obtain ⟨start, late, hpass⟩ := s.tier_notePass far
  have hpoison' : (((s.notePass far).tier far).granule (s.tier far).scrubAt).poison = false := by rw [hpass]; exact hpoison
  unfold State.scrubbing foundEcc
  simp only [exec_tierScrub, execTierScrub, henable, hlock, hhalt, hpoison', Bool.not_true, Bool.or_self, Bool.false_eq_true, ite_false]

/-- The granule under the scrubber by what its check symbols show: good, corrected, or with no copy poisoned. -/
theorem tierScrub_reads : ∃ u, exec (.tierScrub far bad fixed) s = .next u
    ∧ (u.tier far).scrubAt = ((s.tier far).scrubAt + 1) % tierGranules far
    ∧ (∀ h, h ≠ (s.tier far).scrubAt → (u.tier far).granule h = (s.tier far).granule h) ∧ u.tiles = s.tiles
    ∧ (((s.tier far).granule (s.tier far).scrubAt).ecc = .good → bad = false → fixed = false →
      (u.tier far).granule (s.tier far).scrubAt = (s.tier far).granule (s.tier far).scrubAt ∧ u.raised = (s.notePass far).raised)
    ∧ (bad = false → fixed = true →
      (u.tier far).granule (s.tier far).scrubAt = { (s.tier far).granule (s.tier far).scrubAt with ecc := .good }
        ∧ ∃ r, u.raised = (s.notePass far).raised ++ [r] ∧ r.code = 0x0100 ∧ r.cls = clsCE)
    ∧ (bad = true → s.mirrorOf far (64 * (s.tier far).scrubAt) = none →
      (u.tier far).granule (s.tier far).scrubAt = { (s.tier far).whole far (s.tier far).scrubAt 0 with poison := true }
        ∧ ∃ r, u.raised = (s.notePass far).raised ++ [r] ∧ r.code = 0x0101 ∧ r.cls = clsUE) := by
  refine ⟨_, exec_tierScrub_of_unlocked henable hlock hhalt hpoison, ?_⟩
  set g := (s.tier far).scrubAt
  set v := (s.notePass far).scrubbing far bad fixed g with hv
  obtain ⟨hothers, hat⟩ := v.touched_touchGranule far g
  obtain ⟨start, late, htier⟩ := s.tier_scrubbing far bad fixed g
  have hgranule : (v.tier far).granule g
      = { (s.tier far).granule g with ecc := foundEcc bad fixed ((s.tier far).granule g).ecc } := by
    rw [hv, htier, Tier.granule_scrubbed]
  have htold : v.raised = _ := s.scrubbing_raised far bad fixed g
  rw [State.tier_bump, State.tier_cntUnit, State.bump_tiles, State.cntUnit_tiles, State.bump_raised, State.cntUnit_raised]
  refine ⟨hat.trans ?_, fun h hne => (hothers h hne).trans ?_, ?_,
    fun hecc hbad hfixed => ?_, fun hbad hfixed => ?_, fun hbad hmirror => ?_⟩
  · rw [hv, htier, Tier.scrubbed]
  · rw [hv, htier, Tier.granule_scrubbed_other _ hne]
  · exact ((s.tiersOnly_scrubbing far bad fixed g).trans (v.tiersOnly_touchGranule far g)).keeps State.tiles
  · have hsame : (v.tier far).granule g = (s.tier far).granule g := by simp [hgranule, foundEcc, hbad, hfixed]
    rw [State.touchGranule_of_good (by rw [hsame, hecc])]
    exact ⟨hsame, htold⟩
  · have hsingle : ((v.tier far).granule g).ecc = .single := by simp [hgranule, foundEcc, hbad, hfixed]
    obtain ⟨hfixed, hreport⟩ := State.touchGranule_of_single hsingle
    rw [hfixed, hgranule, ← htold]
    exact ⟨rfl, hreport⟩
  · have hmulti : ((v.tier far).granule g).ecc = .multi := by simp [hgranule, foundEcc, hbad]
    have hmirror' : v.mirrorOf far (64 * g) = none :=
      (State.mirrorOf_congr ((s.tiersOnly_scrubbing far bad fixed g).keeps State.paddocks) far _).trans hmirror
    obtain ⟨hpoisoned, hreport⟩ := State.touchGranule_of_multi hmulti hmirror'
    rw [hpoisoned, ← htold, hv, htier, Tier.whole_scrubbed]
    exact ⟨rfl, hreport⟩

end

/-! ## Spare sites (R345, R346) -/

section
variable {far : Bool} {unit site : Nat} {s : State} (hsite : (s.tier far).sites[unit]? = some site)
  (hidle : (s.tier far).migration = none) (hdue : s.migrationDue far unit = true) (hwell : (s.tier far).failed.contains unit = false)
include hsite hidle hdue

theorem siteMigrationStart_of_free_spare (hunused : (s.tier far).sparesUsed.contains (spareOf far site) = false)
    (hgood : (s.tier far).sparesFailed.contains (spareOf far site) = false) :
    ∃ r, exec (.siteMigrationStart far unit) s = .next ((s.setTier far { s.tier far with
      migration := some ⟨unit, spareOf far site, site, 0⟩ }).raise r).bump ∧ r.code = 0x050B := by
  simp only [exec_siteMigrationStart, execSiteMigrationStart, hsite, hidle, hdue, hunused, hgood, Option.isSome_none, Bool.not_true,
    Bool.or_self, Bool.false_eq_true, ite_false]
  exact ⟨_, rfl, rfl⟩

include hwell

/-- Without a spare the unit has failed, and each of its granules reads as poisoned. -/
theorem siteMigrationStart_of_no_spare (hused : (s.tier far).sparesUsed.contains (spareOf far site) = true
      ∨ (s.tier far).sparesFailed.contains (spareOf far site) = true) :
    ∃ u, exec (.siteMigrationStart far unit) s = .next u
      ∧ u.tier far = { s.tier far with failed := (s.tier far).failed ++ [unit] }
      ∧ ∀ g, unitOf far (64 * g) = unit → u.granuleBad far g = true := by
  have hused' : ((s.tier far).sparesUsed.contains (spareOf far site) || (s.tier far).sparesFailed.contains (spareOf far site)) = true := by
    rwa [Bool.or_eq_true]
  have htier : ((s.setTier far { s.tier far with failed := (s.tier far).failed ++ [unit] }).dueUnit 7 far unit site).bump.tier far
      = { s.tier far with failed := (s.tier far).failed ++ [unit] } := by
    rw [State.tier_bump, State.dueUnit, State.tier_duePatina, State.tier_setTier]
  refine ⟨_, ?_, htier, fun g hg => ?_⟩
  · simp only [exec_siteMigrationStart, execSiteMigrationStart, hsite, hidle, hdue, hused', hwell, Option.isSome_none, Bool.not_true,
      Bool.or_self, Bool.false_eq_true, ite_false, ite_true]
  · unfold State.granuleBad
    rw [htier]
    simp [hg]

end

/-- The site map switched at a migration's end, with the report of it. -/
def State.siteSwitched (s : State) (far : Bool) (m : Migration) : State :=
  ((s.setTier far { s.tier far with
      sites := modifyAt (s.tier far).sites m.logical (fun _ => m.toSite)
      sparesUsed := (s.tier far).sparesUsed ++ [m.toSite]
      downSites := (s.tier far).downSites ++ [m.fromSite]
      ceTimes := drop (s.tier far).ceTimes m.logical
      ueTimes := drop (s.tier far).ueTimes m.logical
      migration := none }).dueUnit 6 far m.logical m.toSite).raise
    (frameReport (tierSource far m.logical) 0x050C clsInfra 0 (BitVec.ofNat 64 m.toSite))

theorem State.tier_siteSwitched (s : State) (far : Bool) (m : Migration) :
    ((s.siteSwitched far m).tier far).sites = modifyAt (s.tier far).sites m.logical (fun _ => m.toSite)
      ∧ ((s.siteSwitched far m).tier far).sparesUsed = (s.tier far).sparesUsed ++ [m.toSite]
      ∧ ((s.siteSwitched far m).tier far).migration = none := by
  rw [State.siteSwitched, State.tier_raise, State.dueUnit, State.tier_duePatina, State.tier_setTier]
  exact ⟨rfl, rfl, rfl⟩

theorem State.siteSwitched_report (s : State) (far : Bool) (m : Migration) :
    ∃ r, r ∈ (s.siteSwitched far m).raised ∧ r.code = 0x050C :=
  ⟨_, List.mem_append_right _ List.mem_cons_self, rfl⟩

/-- The sites of a tier and its spares in use. -/
def State.siteMap (s : State) (far : Bool) : List Nat × List Nat := ((s.tier far).sites, (s.tier far).sparesUsed)

theorem State.siteMap_healFrom (s : State) (far : Bool) (g : Nat) (c : Granule) : (s.healFrom far g c).siteMap far = s.siteMap far := by
  rw [State.siteMap, State.tier_healFrom]
  rfl

theorem State.siteMap_rebuildUnit (s : State) (far : Bool) (unit : Nat) : (s.rebuildUnit far unit).siteMap far = s.siteMap far := by
  unfold State.rebuildUnit
  refine (foldl_keeps (fun s : State => s.siteMap far) _ (fun s g => ?_) _ _).trans ?_
  · split
    · exact s.siteMap_healFrom far g _
    · rfl
  · rw [State.siteMap, State.tier_setTier]
    rfl

/-- The migration's end heals or rebuilds the unit's granules, which leaves the site map, and switches the map. -/
theorem exec_siteMigrationComplete_of_migration {far : Bool} {s : State} {m : Migration} (hm : (s.tier far).migration = some m) :
    ∃ w : State, w.siteMap far = s.siteMap far ∧ exec (.siteMigrationComplete far) s = .next (w.siteSwitched far m).bump := by
  simp only [exec_siteMigrationComplete, execSiteMigrationComplete, hm]
  refine ⟨_, ?_, rfl⟩
  split
  · exact s.siteMap_rebuildUnit far m.logical
  · refine foldl_keeps (fun s : State => s.siteMap far) _ (fun s g => ?_) _ s
    split
    · exact s.siteMap_healFrom far g _
    · rfl

/-! ## The obligation -/

theorem tierHealComplete_ends (far : Bool) (s : State) (g : Nat) (good : Bool) (hlock : (s.tier far).heals.contains g = true) :
    ∃ u, exec (.tierHealComplete far g good) s = .next u
      ∧ (u.tier far).heals = (s.tier far).heals.filter (· != g)
      ∧ (∀ h, h ≠ g → (u.tier far).granule h = (s.tier far).granule h) ∧ (u.tier far).sites = (s.tier far).sites
      ∧ (∀ c, good = true → s.goodCopy far g = some c → (u.tier far).granule g = (s.tier far).whole far g c.bits
        ∧ u.tier (!far) = s.tier (!far)
        ∧ ∃ r, u.raised = s.raised ++ [r] ∧ r.code = 0x0103 ∧ r.cls = clsCE ∧ r.addr = BitVec.ofNat 64 (64 * g))
      ∧ (good = false ∨ s.goodCopy far g = none → (u.tier far).granule g = { (s.tier far).whole far g 0 with poison := true })
      ∧ (s.mirrorOf far (64 * g) = none → u.raised = s.raised ∧ u.tier (!far) = s.tier (!far)) := by
  have hunlocked : (s.unlocked far g).tier far = { s.tier far with heals := (s.tier far).heals.filter (· != g) } :=
    s.tier_setTier far _
  by_cases hbad : good = false ∨ s.goodCopy far g = none
  · obtain ⟨v, hexec, htier, hmirror⟩ := tierHealComplete_of_no_copy hlock hbad
    rw [hunlocked] at htier
    refine ⟨_, hexec, ?_⟩
    rw [State.tier_bump, htier, Tier.poisonAt_heals, Tier.poisonAt_sites]
    refine ⟨rfl, fun h hne => Tier.granule_setGranule_other _ _ hne, rfl, fun c hgood hc => ?_, fun _ => Tier.granule_setGranule _ g _,
      hmirror⟩
    simp [hgood, hc] at hbad
  · obtain ⟨hgood, hcopy⟩ := not_or.mp hbad
    obtain rfl : good = true := by simpa using hgood
    obtain ⟨c, hc⟩ := Option.ne_none_iff_exists'.mp hcopy
    refine ⟨_, exec_tierHealComplete_of_copy hlock hc, ?_⟩
    have hother : ((s.unlocked far g).healFrom far g c).bump.tier (!far) = s.tier (!far) := by
      rw [State.tier_bump, State.healFrom, State.tier_cntUnit, State.tier_raise, State.tier_not_setTier, State.unlocked,
        State.tier_not_setTier]
    obtain ⟨r, hraised, hcode, hcls, haddr⟩ := (s.unlocked far g).healFrom_report far g c
    rw [State.unlocked, State.setTier_raised] at hraised
    rw [State.tier_bump, State.tier_healFrom, hunlocked]
    refine ⟨rfl, fun h hne => Tier.granule_setGranule_other _ _ hne, rfl, fun c' _ hc' => ?_, fun h => absurd h hbad, fun hm => ?_⟩
    · obtain rfl := Option.some.inj (hc.symm.trans hc')
      exact ⟨Tier.granule_setGranule _ g _, hother, r, hraised, hcode, hcls, haddr⟩
    · rw [State.goodCopy_of_unmirrored hm] at hc
      exact nomatch hc

/-- Settles O42: a heal by whether a copy reads correct, the scrubber's read by what the check symbols show, a migration by its spare. -/
theorem tierUpkeep : Obligations.TierUpkeep := by
  unfold Obligations.TierUpkeep
  intro far s
  dsimp only
  refine ⟨tierHealComplete_ends far s, fun bad fixed henable hlock hhalt hpoison => ⟨State.notePass_raised_of_in_time,
    State.notePass_raised_of_overrun, tierScrub_reads henable hlock hhalt hpoison⟩,
    fun unit site _ hsite hidle hdue hwell => ⟨fun hunused hgood => siteMigrationStart_of_free_spare hsite hidle hdue hunused hgood,
      siteMigrationStart_of_no_spare hsite hidle hdue hwell⟩, fun m hm => ?_⟩
  obtain ⟨w, hmap, hexec⟩ := exec_siteMigrationComplete_of_migration hm
  obtain ⟨hsites, hspares⟩ := Prod.mk.inj hmap
  obtain ⟨hsites', hspares', hdone⟩ := w.tier_siteSwitched far m
  exact ⟨_, hexec, hsites'.trans (by rw [hsites]), hspares'.trans (by rw [hspares]), hdone, w.siteSwitched_report far m⟩

end Sys2Proof.Machine
end

section
/-! The host's windows (10, R347, R348; 14, R416, R417, R444): aperture reads and writes, BAR2 writes and the indirect windows. -/

namespace Sys2Proof.Machine

/-! ## A whole granule of a share written (R319, R323, R325) -/

theorem natLE_eq_foldr (data : List Byte) :
    (data.map (fun b => (b.toNat, false))).foldr (fun (b : Nat × Bool) acc => b.1 % 256 + 256 * acc) 0 = natLE data := by
  induction data with
  | nil => rfl
  | cons b bs ih => rw [List.map_cons, List.foldr_cons, ih, natLE, Nat.mod_eq_of_lt b.isLt]

/-- A write of all 64 bytes replaces the granule. -/
theorem Tier.writeGranule_whole (t : Tier) (far : Bool) (g : Nat) (bad : Bool) {data : List Byte} (h : data.length = 64) :
    t.writeGranule far g bad 0 (data.map (fun b => (b.toNat, false))) = t.whole far g (BitVec.ofNat 512 (natLE data)) := by
  have hclean : (data.map (fun b => (b.toNat, false))).any Prod.snd = false := by simp
  have hold : (t.granule g).bits.toNat / 2 ^ 512 = 0 := Nat.div_eq_of_lt (t.granule g).bits.isLt
  unfold Tier.writeGranule
  dsimp only
  rw [hclean, natLE_eq_foldr, List.length_map, h]
  simp [hold, Nat.mod_one]

/-- Bytes that end within their 4 KiB make one piece. -/
theorem granulePieces_one {off : Nat} {bs : List (Nat × Bool)} (hne : bs ≠ []) (h : off % 4096 + bs.length ≤ 4096) (n : Nat) :
    granulePieces (n + 2) off bs = [(off, bs)] := by
  have htake : bs.take (4096 - off % 4096) = bs := List.take_of_length_le (by omega)
  have hdrop : bs.drop (4096 - off % 4096) = [] := List.drop_eq_nil_of_le (by omega)
  simp [granulePieces, hne, htake, hdrop]

theorem granulesIn_one {a : Nat} (h : a % 64 = 0) : granulesIn a 64 = [a / 64] := by
  have hcount : (a + 64 - 1) / 64 - a / 64 + 1 = 1 := by omega
  rw [granulesIn, if_neg (by decide), hcount]
  rfl

/-- The tier address of an offset keeps its place in the granule. -/
theorem Paddock.shareAddr_aligned {d : Paddock} {far : Bool} {off a : Nat} (h : d.shareAddr far off = some a) (hoff : off % 64 = 0) :
    a % 64 = 0 := by
  obtain ⟨u, -, rfl⟩ := Option.map_eq_some_iff.mp h
  omega

theorem State.writeTier_granule (s : State) (far : Bool) {a : Nat} (ha : a % 64 = 0) {data : List Byte} (h : data.length = 64) :
    s.writeTier far a (data.map (fun b => (b.toNat, false)))
      = s.setTier far ((s.tier far).setGranule (a / 64) ((s.tier far).whole far (a / 64) (BitVec.ofNat 512 (natLE data)))) := by
  have hat : 64 * (a / 64) = a := by omega
  have hpart : (data.map (fun b => (b.toNat, false))).take 64 = data.map (fun b => (b.toNat, false)) :=
    List.take_of_length_le (by simp [h])
  rw [State.writeTier, List.length_map, h, granulesIn_one ha, List.foldl_cons, List.foldl_nil]
  simp only [hat, Nat.lt_irrefl, ite_false, Nat.sub_self, Nat.sub_zero, List.drop_zero, hpart, Tier.writeGranule_whole _ _ _ _ h]

/-- A write of a whole granule that takes it changes that granule and the counters of its unit. -/
theorem State.writeShare_granule {s : State} {p : Nat} {far : Bool} {off a : Nat} (htakes : s.takesGranule p far off a)
    {data : List Byte} (h : data.length = 64) :
    s.writeShare p far off (data.map (fun b => (b.toNat, false)))
      = (s.setTier far ((s.tier far).setGranule (a / 64) ((s.tier far).whole far (a / 64) (BitVec.ofNat 512 (natLE data))))).cntUnit
          far (unitOf far a) 1 64 := by
  obtain ⟨hoff, haddr, hwritable, -, hforward⟩ := htakes
  have hone : granulePieces ((data.map (fun b => (b.toNat, false))).length / 4096 + 2) off (data.map (fun b => (b.toNat, false)))
      = [(off, data.map (fun b => (b.toNat, false)))] :=
    granulePieces_one (List.ne_nil_of_length_pos (by simp [h])) (by simp [h]; omega) _
  rw [State.writeShare, State.writePieces, hone, List.foldl_cons, List.foldl_nil]
  simp only [haddr, hwritable, hforward, Bool.false_and, Bool.false_eq_true, ite_false, List.length_map, h,
    State.writeTier_granule _ _ (Paddock.shareAddr_aligned haddr hoff) h]

/-! ## The aperture (R347, R348; 16, R494) -/

theorem apertureRead_of_halted {s : State} (hhalt : s.halted = true) (offset : BitVec 36) (len : Nat) :
    exec (.apertureRead offset len) s = .next (s.emit (.aperture (List.replicate len 0xFF) false)).bump := by
  simp only [exec_apertureRead, execApertureRead, hhalt, ite_true]

theorem apertureWrite_of_halted {s : State} (hhalt : s.halted = true) (offset : BitVec 36) (data : List Byte) :
    exec (.apertureWrite offset data) s = .next s.bump := by
  simp only [exec_apertureWrite, execApertureWrite, hhalt, ite_true]

section
variable {s : State} {offset : BitVec 36} (hrun : s.halted = false)
include hrun

theorem exec_apertureRead_of_miss {len : Nat} (hmiss : s.apertureTarget offset.toNat len = none) :
    exec (.apertureRead offset len) s = .next (s.emit (.aperture (List.replicate len 0xFF) false)).apertureMiss.bump := by
  simp only [exec_apertureRead, execApertureRead, hrun, hmiss, Bool.false_eq_true, ite_false]

theorem exec_apertureWrite_of_miss {data : List Byte} (hmiss : s.apertureTarget offset.toNat data.length = none) :
    exec (.apertureWrite offset data) s = .next s.apertureMiss.bump := by
  simp only [exec_apertureWrite, execApertureWrite, hrun, hmiss, Bool.false_eq_true, ite_false]

/-- What an aperture read of a share leaves before its answer. -/
theorem apertureRead_of_hit {len p off : Nat} {far : Bool} (hhit : s.apertureTarget offset.toNat len = some (p, far, off))
    (hopen : s.shareLocked p far off len = false) :
    ∃ u, exec (.apertureRead offset len) s = .next u ∧ u.tiles = s.tiles ∧ u.paddocks = s.paddocks
      ∧ ((s.shareBytes p far off len).any Prod.snd = false →
        u.out = s.out ++ [.aperture ((s.shareBytes p far off len).map (fun b => BitVec.ofNat 8 b.1)) false])
      ∧ ((s.shareBytes p far off len).any Prod.snd = true → u.out = s.out ++ [.aperture (List.replicate len 0xFF) true]) := by
  have hread := (s.tiersOnly_touchShare p far off len).trans (State.tiersOnly_countRead _ p far off len)
  have hout := hread.keeps State.out
  have htiles := hread.keeps State.tiles
  have hpaddocks := hread.keeps State.paddocks
  simp only [exec_apertureRead, execApertureRead, hrun, hhit, hopen, Bool.false_eq_true, ite_false]
  by_cases hbad : (s.shareBytes p far off len).any Prod.snd = true
  · rw [if_pos hbad]
    exact ⟨_, rfl, htiles, hpaddocks, fun h => absurd (hbad.symm.trans h) (by decide), fun _ => congrArg (· ++ [_]) hout⟩
  · rw [if_neg hbad]
    exact ⟨_, rfl, htiles, hpaddocks, fun _ => congrArg (· ++ [_]) hout, fun h => absurd h hbad⟩

/-- An aperture write of a whole granule that takes it replaces it and marks the next seal of its paddock. -/
theorem apertureWrite_of_granule {data : List Byte} (h : data.length = 64) {p off a : Nat} {far : Bool}
    (hhit : s.apertureTarget offset.toNat 64 = some (p, far, off)) (htakes : s.takesGranule p far off a) :
    ∃ u, exec (.apertureWrite offset data) s = .next u
      ∧ (u.tier far).granule (a / 64) = (s.tier far).whole far (a / 64) (BitVec.ofNat 512 (natLE data))
      ∧ (∀ g, g ≠ a / 64 → (u.tier far).granule g = (s.tier far).granule g)
      ∧ (u.paddock p).seals.unsealedIn = true ∧ u.tiles = s.tiles := by
  have hwrite := State.writeShare_granule htakes h
  obtain ⟨-, -, -, hopen, -⟩ := htakes
  rw [← h] at hhit hopen
  have htier : ∀ (w : State) (f : Paddock → Paddock), (w.onPaddock p f).bump.tier far = w.tier far := fun _ _ => by cases far <;> rfl
  refine ⟨_, by simp only [exec_apertureWrite, execApertureWrite, hrun, hhit, hopen, Bool.false_eq_true, ite_false]; rfl, ?_⟩
  rw [htier, hwrite, State.tier_cntUnit, State.tier_setTier, State.paddock_bump, State.paddock_onPaddock, State.bump_tiles,
    State.onPaddock_tiles, State.cntUnit_tiles, State.setTier_tiles]
  exact ⟨Tier.granule_setGranule _ _ _, fun g hg => Tier.granule_setGranule_other _ _ hg, rfl, rfl⟩

end

theorem State.apertureMiss_frame (s : State) : s.apertureMiss = { s with cntWin := s.apertureMiss.cntWin } := by
  unfold State.apertureMiss State.cntPaddock
  exact s.countWin_frame _ _

/-! ## The indirect windows (14, R416, R417; log entry 116) -/

/-- A write at an offset of the indirect windows, a multiple of 8, is one of those windows. -/
theorem State.bar0Write_indirect (s : State) {o : Nat} (h8 : o % 8 = 0) (hlo : 0x1000000 ≤ o) (hhi : o < 0x4000000) (v : BitVec 64) :
    s.bar0Write o false v = s.indirectPut o v := by
  rw [State.bar0Write, Bool.not_false, if_pos rfl, if_pos h8, State.bar0Put]
  repeat rw [if_neg (by omega)]
  rw [if_pos ⟨hlo, hhi⟩]

section
variable {s : State} (hopen : s.bar0Open = true) (v : BitVec 64)
include hopen

theorem exec_indirectWindowWrite_of_region {at_ : Nat} (h8 : at_ % 8 = 0) (hlt : at_ < 2 ^ 24) :
    exec (.indirectWindowWrite false (BitVec.ofNat 32 at_) v) s = .next (s.indirectPut (0x1000000 + at_) v).bump := by
  have hat : (BitVec.ofNat 32 at_).toNat = at_ := Nat.mod_eq_of_lt (by omega)
  simp only [exec_indirectWindowWrite, execIndirectWindowWrite, hopen, hat, Bool.false_eq_true, ite_false]
  rw [if_neg (by simp; omega), State.bar0Write_indirect s (by omega) (by omega) (by omega)]

theorem exec_indirectWindowWrite_of_tile {at_ : Nat} (h8 : at_ % 8 = 0) (hlt : at_ < 2 ^ 25) :
    exec (.indirectWindowWrite true (BitVec.ofNat 32 at_) v) s = .next (s.indirectPut (0x2000000 + at_) v).bump := by
  have hat : (BitVec.ofNat 32 at_).toNat = at_ := Nat.mod_eq_of_lt (by omega)
  simp only [exec_indirectWindowWrite, execIndirectWindowWrite, hopen, hat, ite_true]
  rw [if_neg (by simp; omega), State.bar0Write_indirect s (by omega) (by omega) (by omega)]

end

/-- Without debug a write of a window is recorded only. -/
theorem State.indirectPut_of_closed {s : State} (h : s.debugOpen = false) (o : Nat) (v : BitVec 64) :
    s.indirectPut o v = s.raise (frameReport 0xDFFF 0x0600 clsNote 0 (BitVec.ofNat 64 o)) := by
  simp [State.indirectPut, h]

section
variable {s : State} (hdebug : s.debugOpen = true) (hscope : s.sec.scope.getLsbD 1 = true) (v : BitVec 64)
include hdebug hscope

theorem State.indirectPut_region {r o : Nat} (hr : r < 28) (ho : o < 0x80000) :
    s.indirectPut (0x1000000 + (0x80000 * r + o)) v = s.regionPut r o v := by
  have hregion : (0x1000000 + (0x80000 * r + o) - 0x1000000) / 0x80000 = r := by omega
  have hoffset : (0x1000000 + (0x80000 * r + o)) % 0x80000 = o := by omega
  rw [State.indirectPut, hdebug, hscope, if_neg (by decide), if_pos (by omega), if_pos (by omega), hregion, hoffset]

theorem State.indirectPut_tile (o : Nat) : s.indirectPut (0x2000000 + o) v = s.tilePut o v := by
  rw [State.indirectPut, hdebug, hscope, if_neg (by decide), if_neg (by omega), show 0x2000000 + o - 0x2000000 = o by omega]

end

/-- The directory words of an active region's window. -/
theorem State.regionPut_dir {s : State} {r table : Nat} (hactive : (s.region r).state = .active) (ht : table < 16) (v : BitVec 64) :
    s.regionPut r (0x10000 + 8 * table) v = s.setRegion r { s.region r with dir := putD 0 (s.region r).dir table v } := by
  unfold State.regionPut
  dsimp only
  rw [hactive, if_neg (by simp), if_pos (by omega), show (0x10000 + 8 * table - 0x10000) / 8 = table by omega]

/-- The seed register of the tile that a slot of the window names. -/
theorem State.tilePut_srBase {s : State} {slot k : Nat} (hk : s.tileSlot slot = some k) (v : BitVec 64) :
    s.tilePut (0x1000 * slot + 8 * 0xE2) v = s.setTile k { s.tile k with srBase := v } := by
  have hslot : (0x1000 * slot + 8 * 0xE2) / 0x1000 = slot := by omega
  have hreg : (0x1000 * slot + 8 * 0xE2) % 0x1000 / 8 = 0xE2 := by omega
  unfold State.tilePut
  rw [hslot, hk, hreg]
  rfl

/-! ## The obligation -/

/-- Settles O43: the aperture by halt, miss and hit, a BAR2 write by its count, the windows by what they let through (log entry 116). -/
theorem apertures : Obligations.Apertures := by
  unfold Obligations.Apertures
  refine fun offset s _ => ⟨fun hhalt len _ => ⟨apertureRead_of_halted hhalt offset len, apertureWrite_of_halted hhalt offset⟩,
    fun hrun len _ => ⟨fun hmiss => ⟨_, exec_apertureRead_of_miss hrun hmiss, ?_⟩,
      fun p far off hhit hopen => apertureRead_of_hit hrun hhit hopen⟩,
    fun hrun data h => ⟨fun hmiss => exec_apertureWrite_of_miss hrun (by rwa [h]),
      fun p far off a hhit htakes => apertureWrite_of_granule hrun h hhit htakes⟩,
    fun at_ data h => ?_, fun v hopen => ⟨fun hclosed at_ h8 hlt => ?_, fun hdebug hscope =>
      ⟨fun r table hr ht hactive => ?_, fun slot k hslot hk => ?_⟩⟩⟩
  · rw [State.apertureMiss_frame]
    exact ⟨rfl, rfl, rfl, rfl, rfl⟩
  · have hwf : (Instr.bar2Write at_ data).wellFormed = true := decide_eq_true h
    simp only [exec_bar2Write, execBar2Write, hwf, Bool.not_true, Bool.false_eq_true, ite_false]
  · rw [exec_indirectWindowWrite_of_region hopen v h8 hlt, State.indirectPut_of_closed hclosed]
    rfl
  · rw [Nat.add_assoc, exec_indirectWindowWrite_of_region hopen v (by omega) (by omega),
      State.indirectPut_region hdebug hscope v hr (by omega), State.regionPut_dir hactive ht]
  · rw [exec_indirectWindowWrite_of_tile hopen v (by omega) (by omega), State.indirectPut_tile hdebug hscope, State.tilePut_srBase hk]

end Sys2Proof.Machine
end

section
/-! The remount engine (10, R335 to R339): a choice bound, a slot released, a granule sent down its lane. -/

namespace Sys2Proof.Machine

/-! ## Slots and entries of the remount engine -/

section
variable (m : Remount)

theorem Remount.slots_setSlot_same (g n : Nat) (c : Option RemountSlot) : getD none (m.setSlot g n c).slots (16 * g + n) = c :=
  getD_putD_same _ _ _ _

theorem Remount.slots_setSlot_other {g n j : Nat} (hj : j ≠ 16 * g + n) (c : Option RemountSlot) :
    getD none (m.setSlot g n c).slots j = getD none m.slots j := getD_putD_other _ _ _ _ _ hj

theorem Remount.placements_place_same (key v : Nat) : getD 0x8000 (m.place key v).placements key = v := getD_putD_same _ _ _ _

/-- A pinned slot has content, poisoned or not (R338). -/
theorem Remount.slot_of_pinned {g n : Nat} {c : RemountSlot} (h : getD none m.slots (16 * g + n) = some c) (hpin : c.pinned = true) :
    m.slot g n = some c := by
  simp [Remount.slot, h, hpin]

end

theorem State.paddock_cntPaddock (s : State) (p i n q : Nat) : (s.cntPaddock p i n).paddock q = s.paddock q :=
  State.paddock_of_records (s.records_cntPaddock p i n) q

/-- The signals of a lane are packets. -/
theorem State.sendLaneSignals_frame (p : Nat) (lane : RemountLane) (n : Nat) :
    ∀ s : State, ∃ net, s.sendLaneSignals p lane n = { s with net := net } := by
  induction n with
  | zero => exact fun s => ⟨_, rfl⟩
  | succ n ih =>
    intro s
    rw [State.sendLaneSignals]
    split
    · exact ⟨_, rfl⟩
    · obtain ⟨net, h⟩ := ih (s.launch _)
      exact ⟨net, h⟩

/-- What a state holds of a choice bound to a slot: both entries of the window, and the pinned content of the slot. -/
def State.binds (s : State) (p key v g slot : Nat) : Prop :=
  getD 0 (s.paddock p).remount.choices key = v ∧ getD 0x8000 (s.paddock p).remount.placements key = slot
    ∧ ∃ c, getD none (s.paddock p).remount.slots (16 * g + slot) = some c ∧ c.layer = key / 64 ∧ c.expert = v % 2 ^ 12
      ∧ c.pinned = true ∧ c.predicted = false

/-- A slot that settles sends packets, and owes no signal of a complete lane. -/
theorem State.settleSlot_cases (s : State) (p g slot : Nat) : s.settleSlot p g slot = s
    ∨ ∃ net c owed, (s.paddock p).remount.slot g slot = some c ∧ s.settleSlot p g slot
      = ({ s with net := net } : State).onPaddock p (fun d => d.onRemount (fun m => m.setSlot g slot (some { c with owed := owed }))) := by
  have hsend : ∀ (xs : List ((RemountLane × Bool) × Nat)) (u : State), ∃ net,
      xs.foldl (fun s x => if x.1.2 then s.sendLaneSignals p x.1.1 x.2 else s) u = { u with net := net } := by
    intro xs
    induction xs with
    | nil => exact fun u => ⟨_, rfl⟩
    | cons x xs ih =>
      intro u
      obtain ⟨net, h⟩ : ∃ net, (if x.1.2 then u.sendLaneSignals p x.1.1 x.2 else u) = { u with net := net } := by
        split
        · exact State.sendLaneSignals_frame p _ _ u
        · exact ⟨_, rfl⟩
      rw [List.foldl_cons, h]
      exact ih _
  unfold State.settleSlot
  dsimp only
  split
  case h_1 c gr hc _ =>
    obtain ⟨net, h⟩ := hsend (((gr.lanesOf slot).zip ((List.range (gr.lanesOf slot).length).map
      (fun i => (s.paddock p).remount.laneComplete g slot i c))).zip c.owed) s
    rw [h]
    exact Or.inr ⟨net, c, _, hc, rfl⟩
  case h_2 => exact Or.inl rfl

theorem State.settleSlot_tiles (s : State) (p g slot : Nat) : (s.settleSlot p g slot).tiles = s.tiles := by
  rcases s.settleSlot_cases p g slot with h | ⟨net, c, owed, -, h⟩
  · rw [h]
  · rw [h, State.onPaddock_tiles]

/-- A binding outlasts the signals that its slot sends. -/
theorem State.binds_settleSlot {s : State} {p key v g slot : Nat} (hb : s.binds p key v g slot) :
    (s.settleSlot p g slot).binds p key v g slot := by
  obtain ⟨hchoice, hplace, c, hc, hlayer, hexpert, hpin, hpredicted⟩ := hb
  rcases s.settleSlot_cases p g slot with h | ⟨net, c', owed, hc', h⟩
  · rw [h]
    exact ⟨hchoice, hplace, c, hc, hlayer, hexpert, hpin, hpredicted⟩
  · obtain rfl := Option.some.inj ((Remount.slot_of_pinned _ hc hpin).symm.trans hc')
    rw [h, State.binds, State.paddock_onPaddock]
    exact ⟨hchoice, hplace, { c with owed := owed }, Remount.slots_setSlot_same _ g slot _, hlayer, hexpert, hpin, hpredicted⟩

theorem State.binds_cntPaddock {s : State} {p key v g slot : Nat} (hb : s.binds p key v g slot) (q i n : Nat) :
    (s.cntPaddock q i n).binds p key v g slot := by
  rw [State.binds, State.paddock_cntPaddock]
  exact hb

/-! ## Binding (R335) -/

/-- The state after a choice is bound to the slot that holds its expert. -/
def State.claimSlot (s : State) (p key v g n : Nat) : State :=
  (((s.onPaddock p (fun d => d.onRemount (fun m =>
    { ((((m.pins g n key).choose key v).place key n).setSlot g n ((m.slot g n).map (fun c =>
        { c with pinned := true, stamp := m.clock, predicted := false, owed := c.owed.map (· + 1) }))) with
      clock := m.clock + 1 }))).cntPaddock p 7 1).cntPaddock p 9
        (if ((s.paddock p).remount.slot g n).any RemountSlot.predicted then 1 else 0)).settleSlot p g n

/-- The state after a choice is bound to a victim. -/
def State.claimVictim (s : State) (p key v g n : Nat) : State :=
  (((s.onPaddock p (fun d => d.onRemount (fun m => ((m.pins g n key).choose key v).place key n))).startFetch p g n (key / 64)
    (v % 2 ^ 12) true ((s.paddock p).remount.armed.contains (key / 64)) false 1).cntPaddock p 8 1).settleSlot p g n

theorem State.claimSlot_tiles (s : State) (p key v g n : Nat) : (s.claimSlot p key v g n).tiles = s.tiles := by
  rw [State.claimSlot, State.settleSlot_tiles, State.cntPaddock_tiles, State.cntPaddock_tiles, State.onPaddock_tiles]

theorem State.claimVictim_tiles (s : State) (p key v g n : Nat) : (s.claimVictim p key v g n).tiles = s.tiles := by
  rw [State.claimVictim, State.settleSlot_tiles, State.cntPaddock_tiles, State.startFetch_tiles, State.onPaddock_tiles]

theorem State.binds_claimSlot {s : State} {p key v g n : Nat} {c : RemountSlot} (hc : (s.paddock p).remount.slot g n = some c)
    (hlayer : c.layer = key / 64) (hexpert : c.expert = v % 2 ^ 12) : (s.claimSlot p key v g n).binds p key v g n := by
  refine State.binds_settleSlot (State.binds_cntPaddock (State.binds_cntPaddock ?_ _ _ _) _ _ _)
  rw [State.binds, State.paddock_onPaddock]
  dsimp only [Paddock.onRemount]
  rw [hc]
  refine ⟨getD_putD_same _ _ _ _, getD_putD_same _ _ _ _, _, Remount.slots_setSlot_same _ g n _, ?_, ?_, ?_, ?_⟩
  · exact hlayer
  · exact hexpert
  · rfl
  · rfl

/-- A fetch changes neither entry of the window. -/
theorem State.window_startFetch (s : State) (p g slot layer expert : Nat) (pinned begun predicted : Bool) (owed : Nat) :
    ((s.startFetch p g slot layer expert pinned begun predicted owed).paddock p).remount.choices = (s.paddock p).remount.choices
      ∧ ((s.startFetch p g slot layer expert pinned begun predicted owed).paddock p).remount.placements
        = (s.paddock p).remount.placements := by
  obtain ⟨m, h⟩ := s.countEvicted_frame p g slot
  unfold State.startFetch
  rw [h, State.paddock_onPaddock]
  exact ⟨rfl, rfl⟩

theorem State.binds_claimVictim (s : State) (p key v g n : Nat) : (s.claimVictim p key v g n).binds p key v g n := by
  refine State.binds_settleSlot (State.binds_cntPaddock ?_ _ _ _)
  set u := s.onPaddock p (fun d => d.onRemount (fun m => ((m.pins g n key).choose key v).place key n)) with hu
  obtain ⟨c, hslots, hlayer, hexpert, hpinned, -, hpredicted⟩ := u.slots_startFetch p g n (key / 64) (v % 2 ^ 12) true
    ((s.paddock p).remount.armed.contains (key / 64)) false 1
  obtain ⟨hchoices, hplacements⟩ := u.window_startFetch p g n (key / 64) (v % 2 ^ 12) true
    ((s.paddock p).remount.armed.contains (key / 64)) false 1
  rw [State.binds, hslots, hchoices, hplacements, hu, State.paddock_onPaddock]
  exact ⟨getD_putD_same _ _ _ _, getD_putD_same _ _ _ _, c, getD_putD_same _ _ _ _, hlayer, hexpert, hpinned, hpredicted⟩

section
variable {s : State} {p key v : Nat} (hnew : choiceValid (getD 0 (s.paddock p).remount.choices key) = false)
include hnew

theorem State.bindChoice_of_invalid (hv : choiceValid v = false) : s.bindChoice p key v
    = some (s.onPaddock p (fun d => d.onRemount (fun m => (m.choose key v).place key 0x8000))) := by
  simp only [State.bindChoice, hnew, hv, Bool.not_false, Bool.false_eq_true, ite_false, ite_true]

variable {l : RemountLayer} {gr : RemountGroup} (hv : choiceValid v = true) (hres : v / 2 ^ 12 % 8 = 0)
  (hl : look (s.paddock p).remount.layers (key / 64) = some l) (hexpert : v % 2 ^ 12 < l.experts)
  (hgr : look (s.paddock p).remount.groups l.group = some gr)
  (hlow : (s.paddock p).remount.boundLower (key / 64) (key % 64) (v % 2 ^ 12) = none)
include hv hres hl hexpert hgr hlow

theorem State.bindChoice_of_holder {n : Nat}
    (hn : (s.paddock p).remount.holder l.group gr.slots (key / 64) (v % 2 ^ 12) = some n) :
    s.bindChoice p key v = some (s.claimSlot p key v l.group n) := by
  simp only [State.bindChoice, hnew, hv, hres, hl, hgr, hlow, hn, Option.map_some, Option.getD_some, Nat.not_le.mpr hexpert,
    ne_eq, not_true_eq_false, or_self, Bool.not_true, Bool.false_eq_true, ite_false]
  rfl

theorem State.bindChoice_of_victim {n : Nat}
    (hnone : (s.paddock p).remount.holder l.group gr.slots (key / 64) (v % 2 ^ 12) = none)
    (hn : (s.paddock p).remount.victim l.group gr.slots = some n) :
    s.bindChoice p key v = some (s.claimVictim p key v l.group n) := by
  simp only [State.bindChoice, hnew, hv, hres, hl, hgr, hlow, hnone, hn, Option.map_some, Option.getD_some,
    Nat.not_le.mpr hexpert, ne_eq, not_true_eq_false, or_self, Bool.not_true, Bool.false_eq_true, ite_false]
  rfl

theorem State.bindChoice_of_no_victim
    (hnone : (s.paddock p).remount.holder l.group gr.slots (key / 64) (v % 2 ^ 12) = none)
    (hn : (s.paddock p).remount.victim l.group gr.slots = none) : s.bindChoice p key v = none := by
  simp only [State.bindChoice, hnew, hv, hres, hl, hgr, hlow, hnone, hn, Option.map_some, Option.getD_some,
    Nat.not_le.mpr hexpert, ne_eq, not_true_eq_false, or_self, Bool.not_true, Bool.false_eq_true, ite_false]

end

/-- The choice that a put's next entry writes. -/
def Packet.nextChoice (p : Packet) : Nat := field (p.data.getD (p.taken / 2 / 4) {}).val (16 * (p.taken / 2 % 4)) 16

section
variable {n off : Nat} {p : Packet} {s : State} (hp : s.atFrame n .put s.sameAgent = some p)
  (hw : (s.paddock p.paddock).inWindow p.operand = some off) (hoff : off < 0x4000)
  (hclean : (p.data.getD (p.taken / 2 / 4) {}).poison = false)
include hp hw hoff hclean

theorem exec_remountBind_of_bound (hmore : p.taken / 2 + 1 < 4 * p.data.length) {u : State}
    (hu : s.bindChoice p.paddock (off / 2 + p.taken / 2) p.nextChoice = some u) : exec (.remountBind n) s
      = .next ({ u with net := modifyAt u.net n (fun p' => { p' with taken := 2 * (p.taken / 2 + 1) }) } : State).bump := by
  unfold Packet.nextChoice at hu
  simp only [exec_remountBind, execRemountBind, hp, hw, Nat.not_le.mpr hoff, hclean, hu, hmore, Bool.false_eq_true, ite_false, ite_true]

theorem exec_remountBind_of_wait (heven : p.taken % 2 = 0)
    (hu : s.bindChoice p.paddock (off / 2 + p.taken / 2) p.nextChoice = none) : exec (.remountBind n) s
      = .next { s.cntPaddock p.paddock 11 1 with net := modifyAt s.net n (fun p => { p with taken := p.taken + 1 }) }.bump := by
  unfold Packet.nextChoice at hu
  simp only [exec_remountBind, execRemountBind, hp, hw, Nat.not_le.mpr hoff, hclean, hu, heven, Nat.zero_ne_one, Bool.false_eq_true,
    ite_false]

end

/-! ## Releases (R339) -/

theorem State.unpin_of_pinned {s : State} {p g slot : Nat} {c : RemountSlot}
    (hc : getD none (s.paddock p).remount.slots (16 * g + slot) = some c) (hpin : c.pinned = true) (hclean : c.poisoned = false) :
    s.unpin p g slot = s.onPaddock p (fun d => d.onRemount (fun m => m.setSlot g slot (some { c with pinned := false }))) := by
  simp only [State.unpin, hc, hpin, hclean, Bool.false_eq_true, ite_false, ite_true]

theorem filter_range_bitOf_two_pow : ∀ i < 16, (List.range 16).filter (bitOf (BitVec.ofNat 64 (2 ^ i))) = [i] := by decide +kernel

/-- A put of one release word with one bit set unpins one slot, and is acknowledged. -/
theorem exec_slotRelease_of_one {n g i : Nat} {p : Packet} {s : State} (hp : s.atFrame n .put s.sameAgent = some p)
    (hw : (s.paddock p.paddock).inWindow p.operand = some (0x8000 + 8 * g)) (hg : g < 16) (hi : i < 16)
    (hdata : p.data = [⟨BitVec.ofNat 64 (2 ^ i), false⟩]) :
    exec (.slotRelease n) s = .next (((s.takePacket n).unpin p.paddock g i).frameAnswer p .putAck []).bump := by
  have hin : ¬ (0x8000 + 8 * g < 0x8000 ∨ 0x8080 ≤ 0x8000 + 8 * g) := by omega
  have hgroup : (0x8000 + 8 * g - 0x8000) / 8 + 0 = g := by omega
  simp only [exec_slotRelease, execSlotRelease, hp, hw, hdata, if_neg hin]
  simp only [List.length_singleton, List.range_one, List.zip_cons_cons, List.zip_nil_right, List.foldl_cons, List.foldl_nil, hgroup,
    Nat.not_le.mpr hg, filter_range_bitOf_two_pow i hi, decide_false, Bool.or_self, Bool.false_eq_true, ite_false]

/-! ## Fetches (R337) -/

section
variable {s : State} {p g slot i j : Nat} {c : RemountSlot} {gr : RemountGroup} {l : RemountLane} {layer : RemountLayer} {r : Rein}
  (hc : (s.paddock p).remount.slot g slot = some c) (hgr : look (s.paddock p).remount.groups g = some gr)
  (hl : (gr.lanesOf slot)[i]? = some l) (hlayer : look (s.paddock p).remount.layers c.layer = some layer)
  (hj : (l.granulesOf gr.granules layer.granules)[c.sent.getD i 0]? = some j) (hr : s.rein p l.rein = some r)
  (hbegun : c.begun = true) (hready : r.state = .ready)
  (hopen : s.shareLocked p false (layer.offsets.getD c.expert 0 + 4096 * j) 4096 = false)
include hc hgr hl hlayer hj hr hbegun hready hopen

theorem State.laneReady_of_begun : s.laneReady p g slot i = true := by
  simp only [State.laneReady, hc, hgr, hl, hlayer, hj, hr, hbegun, hready, hopen, beq_self_eq_true, Bool.not_false, Bool.and_self]

end

theorem State.putBurst_paddocks (s : State) (r : Rein) (b : ReinBurst) : (s.putBurst r b).paddocks = s.paddocks := by
  have hcount : ∀ (hs : List Hop) (n : Nat), (s.countCircuit hs n).paddocks = s.paddocks := fun hs n =>
    foldl_keeps State.paddocks _ (fun _ _ => by rfl) hs s
  unfold State.putBurst
  dsimp only
  split
  · exact hcount _ _
  · exact hcount _ _

/-- The burst in which a lane's next granule goes out. -/
def RemountSlot.laneBurst (c : RemountSlot) (p g slot i : Nat) (l : RemountLane) (r : Rein) (words : List PWord) : ReinBurst :=
  { paddock := p, rein := r.id, dest := l.dest + 4096 * c.sent.getD i 0, words := words, lane := some (g, slot, i, c.content) }

theorem RemountSlot.laneBurst_words (c : RemountSlot) (p g slot i : Nat) (l : RemountLane) (r : Rein) (words : List PWord) :
    (c.laneBurst p g slot i l r words).words = words := rfl

/-- The slot's content once that burst has gone. -/
def RemountSlot.sentOne (c : RemountSlot) (i : Nat) (words : List PWord) : RemountSlot :=
  { c with sent := modifyAt c.sent i (· + 1), poisoned := c.poisoned || words.any PWord.poison }

/-- The state after a lane's next granule has gone out as a burst of these words, its share read. -/
def State.laneSent (s : State) (p g slot i : Nat) (c : RemountSlot) (l : RemountLane) (r : Rein) (words : List PWord) : State :=
  ((s.onPaddock p (fun d => d.onRemount (fun m => { m with
      served := putD 0 m.served l.stack (laneTurn g slot l.order + 1) }))).onPaddock p (fun d => d.onRemount (fun m =>
    m.setSlot g slot (some (c.sentOne i words))))).putBurst r (c.laneBurst p g slot i l r words)

theorem State.laneSent_bursts (s : State) (p g slot i : Nat) (c : RemountSlot) (l : RemountLane) {r : Rein} (words : List PWord)
    (htaps : r.taps ≠ []) : (s.laneSent p g slot i c l r words).bursts = s.bursts ++ [c.laneBurst p g slot i l r words] := by
  rw [State.laneSent, State.putBurst_bursts _ _ htaps]
  rfl

theorem State.slots_laneSent (s : State) (p g slot i : Nat) (c : RemountSlot) (l : RemountLane) (r : Rein) (words : List PWord) :
    getD none ((s.laneSent p g slot i c l r words).paddock p).remount.slots (16 * g + slot) = some (c.sentOne i words) := by
  rw [State.laneSent, State.paddock_congr (State.putBurst_paddocks _ _ _), State.paddock_onPaddock]
  exact Remount.slots_setSlot_same _ g slot _

theorem remountGranuleSend_of_turn {p : PaddockId} {lane j : Nat} {c : RemountSlot} {gr : RemountGroup} {l : RemountLane}
    {layer : RemountLayer} {r : Rein} {s : State}
    (hc : (s.paddock p).remount.slot (lane / 16384) (lane / 1024 % 16) = some c)
    (hgr : look (s.paddock p).remount.groups (lane / 16384) = some gr) (hl : (gr.lanesOf (lane / 1024 % 16))[lane % 1024]? = some l)
    (hlayer : look (s.paddock p).remount.layers c.layer = some layer)
    (hj : (l.granulesOf gr.granules layer.granules)[c.sent.getD (lane % 1024) 0]? = some j) (hr : s.rein p l.rein = some r)
    (hready : s.laneReady p (lane / 16384) (lane / 1024 % 16) (lane % 1024) = true)
    (hturn : s.laneNext p l.stack (laneTurn (lane / 16384) (lane / 1024 % 16) l.order) = true) :
    ∃ w, s.tiersOnly w ∧ exec (.remountGranuleSend p lane) s = .next (w.laneSent p (lane / 16384) (lane / 1024 % 16) (lane % 1024) c l r
      (flitPoison (s.shareWords p false (layer.offsets.getD c.expert 0 + 4096 * j) 512))).bump := by
  simp only [exec_remountGranuleSend, execRemountGranuleSend, laneOf, hc, hgr, hl, hlayer, hj, hr, hready, hturn, Bool.not_true,
    Bool.or_self, Bool.false_eq_true, ite_false]
  refine ⟨_, ?_, rfl⟩
  have hread := (s.tiersOnly_touchShare p false (layer.offsets.getD c.expert 0 + 4096 * j) 4096).trans
    (State.tiersOnly_countRead _ p false (layer.offsets.getD c.expert 0 + 4096 * j) 4096)
  split
  · exact hread.trans (State.tiersOnly_cntUnit _ _ _ _ _)
  · exact hread

/-! ## The obligation -/

/-- Settles O41: a choice by the slot it is bound to, a release by its one slot, a granule by its lane's turn (log entries 51, 55). -/
theorem remountBinding : Obligations.RemountBinding := by
  unfold Obligations.RemountBinding
  refine ⟨fun n off p s hp hw hoff heven => ?_, fun n g i p c s hp hw hg hi hdata hc hpin hclean => ?_,
    fun p lane j c gr l layer r s => ?_⟩
  · intro i w m key v rank expert hclean hmore hnew binds
    have hbinds : ∀ (u : State) (g slot : Nat), s.bindChoice p.paddock key v = some u → u.binds p.paddock key v g slot →
        u.tiles = s.tiles → binds g slot := by
      intro u g slot hu ⟨hchoice, hplace, c, hslot, hcl, hce, hpin, hpredicted⟩ htiles
      exact ⟨_, c, exec_remountBind_of_bound hp hw hoff hclean hmore hu, hchoice, hplace, hslot, hcl, hce, hpin, hpredicted, htiles⟩
    refine ⟨fun hv => ⟨_, exec_remountBind_of_bound hp hw hoff hclean hmore (State.bindChoice_of_invalid hnew hv), ?_⟩,
      fun l gr hv hres hl hexpert hgr hlow => ⟨fun slot c hn hc hcl hce => ?_, fun slot hnone hn => ?_, fun hnone hn => ?_⟩⟩
    · have hpaddock := s.paddock_onPaddock p.paddock (fun d => d.onRemount (fun m => (m.choose key v).place key 0x8000))
      exact ⟨(congrArg (fun d => getD 0x8000 d.remount.placements key) hpaddock).trans (Remount.placements_place_same _ _ _),
        congrArg (fun d => d.remount.slots) hpaddock⟩
    · exact hbinds _ _ _ (State.bindChoice_of_holder hnew hv hres hl hexpert hgr hlow hn) (State.binds_claimSlot hc hcl hce)
        (State.claimSlot_tiles _ _ _ _ _ _)
    · exact hbinds _ _ _ (State.bindChoice_of_victim hnew hv hres hl hexpert hgr hlow hnone hn) (State.binds_claimVictim _ _ _ _ _ _)
        (State.claimVictim_tiles _ _ _ _ _ _)
    · exact exec_remountBind_of_wait hp hw hoff hclean heven (State.bindChoice_of_no_victim hnew hv hres hl hexpert hgr hlow hnone hn)
  · have hexec := exec_slotRelease_of_one hp hw hg hi hdata
    rw [State.unpin_of_pinned (s := s.takePacket n) hc hpin hclean] at hexec
    refine ⟨_, _, hexec, rfl, rfl, rfl, rfl, ?_⟩
    have hpaddock := (s.takePacket n).paddock_onPaddock p.paddock
      (fun d => d.onRemount (fun m => m.setSlot g i (some { c with pinned := false })))
    exact ⟨(congrArg (fun d => getD none d.remount.slots (16 * g + i)) hpaddock).trans (Remount.slots_setSlot_same _ g i _),
      fun j hj => (congrArg (fun d => getD none d.remount.slots j) hpaddock).trans (Remount.slots_setSlot_other _ hj _)⟩
  · intro m g slot i hc hgr hl hlayer hj hr hbegun hready htaps off hopen hturn
    obtain ⟨w, htiers, hexec⟩ := remountGranuleSend_of_turn hc hgr hl hlayer hj hr
      (State.laneReady_of_begun hc hgr hl hlayer hj hr hbegun hready hopen) hturn
    have hbursts := w.laneSent_bursts p g slot i c l (flitPoison (s.shareWords p false off 512)) htaps
    rw [htiers.keeps State.bursts] at hbursts
    exact ⟨_, _, _, hexec, hbursts, c.laneBurst_words p g slot i l r _, rfl, rfl, w.slots_laneSent p g slot i c l r _,
      rfl, rfl, rfl, rfl⟩

end Sys2Proof.Machine
end

section
/-! Descriptors that move bytes (14, R428): a PAD that a twin was forwarded. -/

namespace Sys2Proof.Machine

/-- The work of a PAD (R428). -/
theorem exec_pad_of_atDesc {s : State} {id : Nat} {d : Desc} (h : s.atDesc id 0x0002 d) :
    exec (.pad id) s = .next ((s.onDesc id (fun d => { d with status := some 0, completed := true })).flushRing d).bump := by
  rw [exec_pad, execPad]
  exact descWork_of_atDesc h rfl

/-- A PAD of ring pair 1 that the primary's side has forwarded, with no prompt tokens. -/
def forwardedPad : Desc := { id := 0, ring := 1, paddock := 1, bytes := bytesLE 2 0x0002, staged := some [] }

/-- The other module of the pair, whose paddock 1 carries no chains yet, with that descriptor consumed. -/
def twinWithPad : State :=
  { State.reset with paddocks := [(1, { live := true, pairMode := 1, primary := false })], descs := [forwardedPad] }

theorem forwardedPad_atDesc : twinWithPad.atDesc 0 0x0002 forwardedPad := by decide

/-- The chains that the yoke carries gain an entry for the PAD's ring pair (log entry 100). -/
theorem chains_after_forwardedPad : (((twinWithPad.onDesc 0 (fun d => { d with status := some 0, completed := true })).flushRing
    forwardedPad).paddock 1).twin.chains = [(1, {})] := by decide

/-- Refutes O45: on the module that is not the primary's a PAD that was forwarded puts its ring pair among the chains that the yoke
carries, which its paddock holds, where the statement asks for the paddocks as they were (R428; log entries 100 and 126). -/
theorem not_descriptorsMoving : ¬ Obligations.DescriptorsMoving := by
  unfold Obligations.DescriptorsMoving
  intro hall
  obtain ⟨-, hpad, -⟩ := hall 0 forwardedPad twinWithPad
  obtain ⟨u, hexec, -, -, -, -, hpaddocks⟩ := hpad forwardedPad_atDesc
  have hu := Host.Outcome.next.inj (hexec.symm.trans (exec_pad_of_atDesc forwardedPad_atDesc))
  have hchains := congrArg (fun m : Map Paddock => (getD {} m 1).twin.chains) hpaddocks
  rw [hu] at hchains
  exact absurd (chains_after_forwardedPad.symm.trans hchains) (by decide)

end Sys2Proof.Machine
end

section
/-! Ring pairs and polling (14, R420 to R429): what a doorbell record, a consumed descriptor and a poll leave. -/

namespace Sys2Proof.Machine

/-! ## Ring pairs (Table 14.16) -/

@[simp] theorem State.ring_setRing (s : State) (n : Nat) (r : Ring) : (s.setRing n r).ring n = r := getD_putD_same _ _ _ _

theorem State.ring_setRing_other (s : State) {n j : Nat} (r : Ring) (h : j ≠ n) : (s.setRing n r).ring j = s.ring j :=
  getD_putD_other _ _ _ _ _ h

theorem State.ring_congr {s t : State} (h : s.rings = t.rings) (n : Nat) : s.ring n = t.ring n := by
  unfold State.ring; rw [h]

/-- Whether a ring pair has nothing that a poll consumes. -/
def Ring.idle (r : Ring) : Prop := r.enable = false ∨ r.sqHead = r.sqTail

/-! ## Runs over a list in which at most one step acts -/

theorem foldl_of_fixed {σ α : Type} {f : σ → α → σ} {s : σ} {l : List α} (h : ∀ a ∈ l, f s a = s) : l.foldl f s = s := by
  induction l with
  | nil => rfl
  | cons a l ih => rw [List.foldl_cons, h a List.mem_cons_self, ih (fun b hb => h b (List.mem_cons_of_mem a hb))]

/-- A run in which all but one step leave the state as it is, before that step and after it. -/
theorem foldl_of_one {σ α : Type} {f : σ → α → σ} {s : σ} {l : List α} {n : α} (hl : l.Nodup) (hn : n ∈ l)
    (hbefore : ∀ a ∈ l, a ≠ n → f s a = s) (hafter : ∀ a ∈ l, a ≠ n → f (f s n) a = f s n) : l.foldl f s = f s n := by
  obtain ⟨l₁, l₂, rfl⟩ := List.append_of_mem hn
  obtain ⟨-, hl₂, hdisj⟩ := List.nodup_append.mp hl
  obtain ⟨hn₂, -⟩ := List.nodup_cons.mp hl₂
  have hfirst : l₁.foldl f s = s := foldl_of_fixed fun a ha =>
    hbefore a (List.mem_append_left _ ha) (hdisj a ha n List.mem_cons_self)
  have hrest : l₂.foldl f (f s n) = f s n := foldl_of_fixed fun a ha =>
    hafter a (List.mem_append_right _ (List.mem_cons_of_mem n ha)) (fun h => hn₂ (h ▸ ha))
  rw [List.foldl_append, hfirst, List.foldl_cons, hrest]

/-! ## The doorbell record (R423, R426) -/

theorem State.readDoorbell_of_disabled {s : State} {n : Nat} (h : (s.ring n).enable = false) : s.readDoorbell n = s := by
  simp [State.readDoorbell, h]

/-- A doorbell record read changes its ring pair, a counter and the reports. -/
theorem State.readDoorbell_frame (s : State) (n : Nat) :
    (∃ rings cntWin raised, s.readDoorbell n = { s with rings := rings, cntWin := cntWin, raised := raised })
      ∧ ∀ j, j ≠ n → (s.readDoorbell n).ring j = s.ring j := by
  have hset : ∀ (r : Ring) (t : State), t.rings = s.rings → ∀ j, j ≠ n → (t.setRing n r).ring j = s.ring j := fun r t ht j hj =>
    (t.ring_setRing_other r hj).trans (State.ring_congr ht j)
  unfold State.readDoorbell
  dsimp only
  rw [State.cntRing, State.countWin_frame]
  split
  · exact ⟨⟨_, _, _, rfl⟩, fun _ _ => rfl⟩
  · split
    · exact ⟨⟨_, _, _, rfl⟩, hset _ _ rfl⟩
    · exact ⟨⟨_, _, _, rfl⟩, hset _ _ rfl⟩

theorem State.readDoorbell_keeps {β : Type} (s : State) (n : Nat) (proj : State → β)
    (hproj : ∀ rings cntWin raised, proj { s with rings := rings, cntWin := cntWin, raised := raised } = proj s := by intros; rfl) :
    proj (s.readDoorbell n) = proj s := by
  obtain ⟨⟨rings, cntWin, raised, h⟩, -⟩ := s.readDoorbell_frame n
  rw [h, hproj]

/-! ## A descriptor consumed (R425 to R431) -/

/-- `t` differs from `s` in paddocks, regions, stirrups, tiers, reports, counters and the step's free choice only. -/
def State.slotsOnly (s t : State) : Prop :=
  t = { s with paddocks := t.paddocks, regions := t.regions, stirrups := t.stirrups, near := t.near, far := t.far, raised := t.raised,
               cntWin := t.cntWin, bw := t.bw, free := t.free }

theorem State.slotsOnly.trans {s t u : State} (h : s.slotsOnly t) (h' : t.slotsOnly u) : s.slotsOnly u := by
  unfold State.slotsOnly at *
  rw [h', h]

theorem State.tiersOnly.slotsOnly {s t : State} (h : s.tiersOnly t) : s.slotsOnly t := by
  unfold State.tiersOnly at h
  unfold State.slotsOnly
  rw [h]

theorem State.aside.slotsOnly {s t : State} (h : s.aside t) : s.slotsOnly t := by
  obtain ⟨⟨_, _, rfl⟩, -⟩ := h
  rfl

/-- What reads none of those is kept. -/
theorem State.slotsOnly.keeps {β : Type} {s t : State} (h : s.slotsOnly t) (proj : State → β)
    (hproj : ∀ paddocks regions stirrups near far raised cntWin bw free, proj { s with
        paddocks := paddocks, regions := regions, stirrups := stirrups, near := near, far := far, raised := raised
        cntWin := cntWin, bw := bw, free := free } = proj s := by
      intros; rfl) :
    proj t = proj s := by
  unfold State.slotsOnly at h
  rw [h, hproj]

theorem State.tiersOnly_writeTier (s : State) (far : Bool) (a : Nat) (bs : List (Nat × Bool)) : s.tiersOnly (s.writeTier far a bs) :=
  State.tiersOnly_foldl _ (fun s _ => s.tiersOnly_setTier far _) _ s

/-- A result slot replaced: its paddock's record, and its header in the near tier (R445). -/
theorem State.tiersOnly_setSlot (s : State) (p k : Nat) (x : ResultSlot) :
    (s.setPaddock p { s.paddock p with slots := putD {} (s.paddock p).slots k x }).tiersOnly (s.setSlot p k x) := by
  unfold State.setSlot
  dsimp only
  split
  · exact State.tiersOnly_writeTier _ _ _ _
  · exact .refl _

theorem State.slotsOnly_setSlot (s : State) (p k : Nat) (x : ResultSlot) : s.slotsOnly (s.setSlot p k x) :=
  State.slotsOnly.trans (t := s.setPaddock p _) rfl (s.tiersOnly_setSlot p k x).slotsOnly

/-- The state in which a descriptor stands behind those consumed before it, the head of its ring pair advanced. -/
def State.queueDesc (s : State) (d : Desc) (entries : Nat) : State :=
  { s.setRing d.ring { s.ring d.ring with sqHead := ((s.ring d.ring).sqHead + entries) % ringSize (s.ring d.ring).sq } with
    descs := s.descs ++ [d], nextDesc := s.nextDesc + 1 }

/-- The paddock of a descriptor at the head of a ring pair: its own field on the admin ring, else the ring pair's. -/
def State.descPaddock (s : State) (n : Nat) (b : List (BitVec 8)) : Nat := if n = 0 then descNat b 3 1 else (s.ring n).paddock

/-- The descriptor that consumption makes of the bytes at the head of a ring pair. -/
def State.consumed (s : State) (n : Nat) (b : List (BitVec 8)) : Desc :=
  let p := s.descPaddock n b
  let st := if descNat b 0 2 = 0x0002 then none else s.earlyStatus n p b
  let unsealed := descNat b 2 1 / 4 % 2 = 1 ∧ !(s.paddock p).seals.enable
  { id := s.nextDesc, ring := n, paddock := p, bytes := b, status := st
    slot := if st.isSome then none else (s.destSlot p b).getD none
    quiet := decide unsealed
    records := if unsealed then [] else s.inputRecords b none }

/-- Consumption queues that descriptor; besides, its result slot and the regions of a SCREEN change. -/
theorem State.slotsOnly_consume (s : State) (n : Nat) (b : List (BitVec 8)) (entries : Nat) :
    (s.queueDesc (s.consumed n b) entries).slotsOnly (s.consume n b entries) := by
  set t := ((s.queueDesc (s.consumed n b) entries).cntRing n 1 1).enterService (s.consumed n b) with ht
  have hconsume : s.consume n b entries = match (s.consumed n b).slot with
      | some k => t.setSlot (s.descPaddock n b) k { (t.paddock (s.descPaddock n b)).slot k with state := 1 }
      | none => t := rfl
  have hcount : (s.queueDesc (s.consumed n b) entries).slotsOnly ((s.queueDesc (s.consumed n b) entries).cntRing n 1 1) := by
    rw [State.cntRing, State.countWin_frame]
    rfl
  have henter := hcount.trans (State.aside_enterService _ (s.consumed n b)).slotsOnly
  rw [hconsume]
  split
  · exact henter.trans (State.slotsOnly_setSlot _ _ _ _)
  · exact henter

/-! ## Consumption from a ring (R425 to R429) -/

/-- The descriptor at the head of a ring pair. -/
abbrev State.headBytes (s : State) (n : Nat) : List (BitVec 8) := s.hostRead (ringBase (s.ring n).sq + 64 * (s.ring n).sqHead) 64

/-- A ring pair holds one whole descriptor, without extensions and no PAD, that may be consumed. -/
structure State.holdsOne (s : State) (n : Nat) : Prop where
  enable : (s.ring n).enable = true
  error : (s.ring n).error = false
  owned : n ≠ 0 → (s.ring n).paddock ≠ 0
  tail : (s.ring n).sqTail = (s.ring n).sqHead + 1
  inside : (s.ring n).sqTail < ringSize (s.ring n).sq
  opcode : descNat (s.headBytes n) 0 2 ≠ 2
  whole : extensionsOf (s.headBytes n) = 0
  may : s.mayConsume n (s.headBytes n) = true
  unshared : n = 0 ∨ s.shared (s.ring n).paddock = false

theorem State.ring_queueDesc (s : State) (d : Desc) (entries : Nat) : (s.queueDesc d entries).ring d.ring
    = { s.ring d.ring with sqHead := ((s.ring d.ring).sqHead + entries) % ringSize (s.ring d.ring).sq } :=
  State.ring_setRing s d.ring _

theorem State.ring_consume (s : State) (n : Nat) (b : List (BitVec 8)) (entries : Nat) : (s.consume n b entries).ring n
    = { s.ring n with sqHead := ((s.ring n).sqHead + entries) % ringSize (s.ring n).sq } :=
  ((s.slotsOnly_consume n b entries).keeps (fun t => t.ring n)).trans (s.ring_queueDesc (s.consumed n b) entries)

theorem State.ring_consume_other (s : State) {n j : Nat} (h : j ≠ n) (b : List (BitVec 8)) (entries : Nat) :
    (s.consume n b entries).ring j = s.ring j :=
  ((s.slotsOnly_consume n b entries).keeps (fun t => t.ring j)).trans (State.ring_setRing_other _ _ h)

theorem State.consumeRing_of_idle {s : State} {n : Nat} (h : (s.ring n).idle) (fuel : Nat) : State.consumeRing fuel n s = s := by
  cases fuel with
  | zero => rfl
  | succ fuel =>
    obtain h | h := h
    · simp [State.consumeRing, h]
    · simp [State.consumeRing, h]

/-- A ring pair with one descriptor that may be consumed has it consumed, and no more. -/
theorem State.consumeRing_of_one {s : State} {n : Nat} (h : s.holdsOne n) :
    State.consumeRing (ringSize (s.ring n).sq) n s = s.consume n (s.headBytes n) 1 := by
  obtain ⟨henable, herror, howned, htail, hin, hpad, hext, hmay, hshared⟩ := h
  obtain ⟨fuel, hfuel⟩ : ∃ fuel, ringSize (s.ring n).sq = fuel + 1 := ⟨ringSize (s.ring n).sq - 1, by omega⟩
  have hroom : s.ringRoom n = true := by
    unfold State.mayConsume at hmay
    simp only [Bool.and_eq_true] at hmay
    exact hmay.1.1.1.1.1.1
  have hthere : ((s.ring n).sqTail + ringSize (s.ring n).sq - (s.ring n).sqHead) % ringSize (s.ring n).sq = 1 := by
    rw [show (s.ring n).sqTail + ringSize (s.ring n).sq - (s.ring n).sqHead = 1 + ringSize (s.ring n).sq by omega, Nat.add_mod_right,
      Nat.mod_eq_of_lt (by omega)]
  have hstop : (n != 0 && (s.ring n).paddock == 0) = false := by
    by_cases hn : n = 0
    · simp [hn]
    · simp [hn, howned hn]
  have hnot : ¬ ringSize (s.ring n).sq < (s.ring n).sqHead + 1 := by omega
  have hown : (n = 0 || !s.shared (s.ring n).paddock) = true := by simpa using hshared
  have hne : ((s.ring n).sqHead == (s.ring n).sqTail) = false := by simp [htail]
  have hidle : ((s.consume n (s.headBytes n) 1).ring n).idle := .inr (by
    rw [s.ring_consume, ← htail, Nat.mod_eq_of_lt hin])
  rw [hfuel, State.consumeRing]
  simp only [henable, herror, hstop, hne, hpad, hext, hthere, hnot, hroom, hmay, hown, Nat.add_zero, Nat.mul_one, Bool.not_true,
    Bool.or_self, Bool.false_eq_true, Nat.lt_irrefl, if_false, if_true]
  exact State.consumeRing_of_idle hidle fuel

/-! ## HI_POLL with one ring enabled (R425; log entry 123) -/

section
variable {n : RingIx} {s : State} (hready : s.ready = true) (hrun : s.halted = false) (hd3 : s.d3hot = false)
  (hscan : bitOf (s.frameReg 0x00028000 0xC8) 16 = true)
include hready hrun hd3 hscan

/-- With the scan bit set a poll reads every doorbell record, then consumes ring by ring. -/
theorem exec_hiPoll_of_scan (fails : BitVec 4) : exec (.hiPoll fails) s = .next ((List.range 256).foldl
    (fun s n => State.consumeRing (ringSize (s.ring n).sq) n s) ((List.range 256).foldl (fun s n => s.readDoorbell n) s)).bump := by
  rw [exec_hiPoll, execHiPoll]
  simp only [hready, hrun, hd3, hscan, Bool.not_true, Bool.or_self, Bool.false_eq_true, if_false, if_true, Bool.true_or, Bool.false_and,
    List.filter_true, List.filter_false, List.foldl_nil]

/-- With one ring pair enabled, which after its doorbell record holds one descriptor that may be consumed, a poll consumes it. -/
theorem exec_hiPoll_of_one (hothers : ∀ j, j < 256 → j ≠ n.val → (s.ring j).enable = false) (h : (s.readDoorbell n).holdsOne n)
    (fails : BitVec 4) :
    exec (.hiPoll fails) s = .next ((s.readDoorbell n).consume n ((s.readDoorbell n).headBytes n) 1).bump := by
  have hmem : n.val ∈ List.range 256 := List.mem_range.mpr n.isLt
  have hdisabled : ∀ j ∈ List.range 256, j ≠ n.val → ((s.readDoorbell n).ring j).enable = false := fun j hj hne => by
    rw [(s.readDoorbell_frame n).2 j hne]
    exact hothers j (List.mem_range.mp hj) hne
  have hread : (List.range 256).foldl (fun s n => s.readDoorbell n) s = s.readDoorbell n :=
    foldl_of_one List.nodup_range hmem
      (fun j hj hne => State.readDoorbell_of_disabled (hothers j (List.mem_range.mp hj) hne))
      (fun j hj hne => State.readDoorbell_of_disabled (hdisabled j hj hne))
  have hconsume : (List.range 256).foldl (fun s n => State.consumeRing (ringSize (s.ring n).sq) n s) (s.readDoorbell n)
      = (s.readDoorbell n).consume n ((s.readDoorbell n).headBytes n) 1 := by
    refine (foldl_of_one List.nodup_range hmem (fun j hj hne => ?_) (fun j hj hne => ?_)).trans (State.consumeRing_of_one h)
    · exact State.consumeRing_of_idle (.inl (hdisabled j hj hne)) _
    · rw [State.consumeRing_of_one h]
      refine State.consumeRing_of_idle (.inl ?_) _
      rw [State.ring_consume_other _ hne, hdisabled j hj hne]
  rw [exec_hiPoll_of_scan hready hrun hd3 hscan, hread, hconsume]

/-- What that poll leaves. -/
theorem hiPoll_consumes (hothers : ∀ j, j < 256 → j ≠ n.val → (s.ring j).enable = false) (h : (s.readDoorbell n).holdsOne n)
    (fails : BitVec 4) :
    let s1 := s.readDoorbell n
    ∃ u d, exec (.hiPoll fails) s = .next u ∧ u.descs = s.descs ++ [d] ∧ d.id = s.nextDesc ∧ u.nextDesc = s.nextDesc + 1
      ∧ d.ring = n.val ∧ d.paddock = s1.descPaddock n (s1.headBytes n) ∧ d.bytes = s1.headBytes n ∧ d.completed = false
      ∧ d.status = s1.earlyStatus n d.paddock (s1.headBytes n) ∧ (u.ring n).sqHead = (s1.ring n).sqTail ∧ u.tiles = s.tiles
      ∧ u.hostMem = s.hostMem := by
  intro s1
  have hkeep := s1.slotsOnly_consume n (s1.headBytes n) 1
  refine ⟨_, s1.consumed n (s1.headBytes n), exec_hiPoll_of_one hready hrun hd3 hscan hothers h fails,
    (hkeep.keeps State.descs).trans ?_, s.readDoorbell_keeps n State.nextDesc, (hkeep.keeps State.nextDesc).trans ?_, rfl, rfl, rfl, rfl,
    if_neg h.opcode, ?_, (hkeep.keeps State.tiles).trans (s.readDoorbell_keeps n State.tiles),
    (hkeep.keeps State.hostMem).trans (s.readDoorbell_keeps n State.hostMem)⟩
  · show s1.descs ++ _ = _
    rw [s.readDoorbell_keeps n State.descs]
  · show s1.nextDesc + 1 = _
    rw [s.readDoorbell_keeps n State.nextDesc]
  · show ((s1.consume n (s1.headBytes n) 1).ring n).sqHead = _
    rw [s1.ring_consume, ← h.tail, Nat.mod_eq_of_lt h.inside]

end

end Sys2Proof.Machine
end

section
/-! Ring pairs enabled and disabled, the event ring, and a link reset (14, R413, R422, R443; log entries 60 and 61). -/

namespace Sys2Proof.Machine

/-! ## RING_ENABLE and RING_DISABLE (R422; log entry 61) -/

/-- A ring pair as it starts over. -/
def Ring.restarted (r : Ring) : Ring :=
  { r with enable := true, error := false, phase := true, cqTail := 0, sqHead := 0, sqTail := 0, cqHead := 0, unread := 0 }

theorem exec_ringEnable_of_disabled {n : RingIx} {s : State} (h : (s.ring n).enable = false) :
    exec (.ringEnable n) s = .next (s.setRing n (s.ring n).restarted).bump := by
  rw [exec_ringEnable, execRingEnable, h]
  rfl

/-- What a ring pair replaced leaves. -/
theorem State.setRing_leaves (s : State) (n : Nat) (r : Ring) : (s.setRing n r).bump.ring n = r
    ∧ (∀ j, j ≠ n → (s.setRing n r).bump.ring j = s.ring j)
    ∧ { (s.setRing n r).bump with rings := s.rings, free := s.free } = s :=
  ⟨s.ring_setRing n r, fun _ h => s.ring_setRing_other r h, rfl⟩

/-! ## The event ring (R443; log entry 60) -/

/-- HI_EVENT_CTRL as written, before events that were lost are told. -/
def State.eventCtrl (s : State) (v : BitVec 64) : State :=
  { s with
    eventEnable := bitOf v 63, eventOverflow := s.eventOverflow && !bitOf v 62, eventVector := field v 48 11
    eventUnread := s.eventLeft (field v 0 16), eventHead := field v 0 16 }

theorem exec_eventRingHeadWrite_eq (v : BitVec 64) (s : State) :
    exec (.eventRingHeadWrite v) s = .next (s.eventCtrl v).resumeEvents.bump := rfl

theorem State.resumeEvents_of_none_lost {s : State} (h : s.eventLost = 0) : s.resumeEvents = s := by
  simp [State.resumeEvents, h]

theorem State.resumeEvents_of_lost {s : State} (henable : s.eventEnable = true) (hlost : 0 < s.eventLost)
    (hroom : s.eventFull = false) (hd3 : s.d3hot = false) :
    s.resumeEvents = { s.putEvent s.lostBytes with eventLost := 0 } := by
  simp [State.resumeEvents, henable, hlost, hroom, hd3]

theorem State.length_lostBytes (s : State) : s.lostBytes.length = 31 := by
  simp only [State.lostBytes, List.length_append, length_bytesLE]

/-- A record of the event ring with its phase. -/
def State.eventRecord (s : State) (bytes : List (BitVec 8)) : List (BitVec 8) := bytes.take 31 ++ [if s.eventPhase then 1 else 0]

/-- A record written to the event ring: its bytes in host memory, and the tail past it. -/
theorem State.putEvent_frame (s : State) (bytes : List (BitVec 8)) : s.putEvent bytes
    = { s.hostWrite (ringBase (s.frameReg 0x00028018 4) + 32 * s.eventTail) (s.eventRecord bytes) with
        eventUnread := s.eventUnread + 1
        eventTail := if s.eventTail + 1 = s.eventSize then 0 else s.eventTail + 1
        eventPhase := if s.eventTail + 1 = s.eventSize then !s.eventPhase else s.eventPhase } := by
  have hsize : ∀ (a : Nat) (bs : List (BitVec 8)) (n : Nat),
      State.eventSize { s.hostWrite a bs with eventUnread := n } = s.eventSize := fun _ _ _ => rfl
  unfold State.putEvent
  simp only [hsize]
  by_cases h : s.eventTail + 1 = s.eventSize
  · rw [if_pos h, if_pos h]
    exact if_pos h
  · rw [if_neg h, if_neg h]
    exact if_neg h

/-- Once the ring has room the lost-events record is told. -/
theorem eventRingHeadWrite_tells {v : BitVec 64} {s : State} (henable : bitOf v 63 = true) (hlost : 0 < s.eventLost)
    (hroom : (s.eventCtrl v).eventFull = false) (hd3 : s.d3hot = false) :
    ∃ u, exec (.eventRingHeadWrite v) s = .next u
      ∧ u.hostRead (ringBase (s.frameReg 0x00028018 4) + 32 * s.eventTail) 32 = s.eventRecord s.lostBytes
      ∧ u.eventLost = 0 ∧ u.eventHead = field v 0 16
      ∧ u.eventTail = (if s.eventTail + 1 = s.eventSize then 0 else s.eventTail + 1)
      ∧ (u.eventPhase = s.eventPhase ↔ s.eventTail + 1 ≠ s.eventSize) ∧ u.tiles = s.tiles := by
  have hlen : (s.eventRecord s.lostBytes).length = 32 := by
    simp [State.eventRecord, State.length_lostBytes]
  refine ⟨_, exec_eventRingHeadWrite_eq v s, ?_⟩
  rw [State.resumeEvents_of_lost (s := s.eventCtrl v) henable hlost hroom hd3, State.putEvent_frame]
  refine ⟨?_, rfl, rfl, rfl, ?_, rfl⟩
  · rw [← hlen]
    exact State.hostRead_hostWrite (s.eventCtrl v) _ _
  · show (if s.eventTail + 1 = s.eventSize then !s.eventPhase else s.eventPhase) = s.eventPhase ↔ _
    by_cases h : s.eventTail + 1 = s.eventSize
    · simp [h]
    · simp [h]

/-! ## LINK_RESET (R413) -/

/-- What a link reset keeps of a ring pair: its paddock and its chains. -/
def Ring.linkReset (r : Ring) : Ring :=
  { ({} : Ring) with paddock := r.paddock, chainIn := r.chainIn, chainSeed := r.chainSeed, chainOut := r.chainOut }

/-- The ring pairs and the frame registers after a link reset. -/
def State.linkRings (s : State) : Map Ring :=
  (s.rings.map (fun kv => (kv.1, kv.2.linkReset))).filter (fun kv => decide (kv.2 ≠ ({} : Ring)))

theorem State.ring_linkRings {s : State} (h : canonical {} s.rings = true) (n : Nat) :
    getD {} s.linkRings n = (s.ring n).linkReset := getD_map_filter rfl h n

theorem look_putD_other {α : Type} [DecidableEq α] (d : α) (m : Map α) (v : α) {k j : Nat} (h : j ≠ k) :
    look (putD d m k v) j = look m j := by
  unfold putD
  split
  · exact look_drop_other m k j h
  · exact look_insertAt_other m k j v h

/-- HI_CTRL is back at its reset value, whatever is then written to HI_STATUS. -/
theorem getD_linkRegs (m : Map (BitVec 64)) (v : BitVec 64) :
    getD 0xC8 (putD 0 (linkRegs.foldl (fun m o => drop m (o / 8)) m) (0x00028010 / 8) v) (0x00028000 / 8) = 0xC8 := by
  rw [getD, look_putD_other _ _ _ (by decide)]
  simp only [linkRegs, List.foldl_cons, List.foldl_nil]
  repeat rw [look_drop_other _ _ _ (by decide)]
  rw [look_drop_same]
  rfl

/-- What a link reset leaves. -/
theorem linkReset_leaves {s : State} (h : canonical {} s.rings = true) : ∃ u, exec .linkReset s = .next u
    ∧ (∀ n, u.ring n = (s.ring n).linkReset)
    ∧ u.msix = [] ∧ u.msixPending = [] ∧ u.eventEnable = false ∧ u.eventOverflow = false ∧ u.eventHead = 0 ∧ u.eventTail = 0
    ∧ u.eventUnread = 0 ∧ u.eventPhase = true ∧ u.eventLost = 0 ∧ u.d3hot = false ∧ u.tiles = s.tiles ∧ u.paddocks = s.paddocks
    ∧ u.descs = s.descs.map (fun (d : Desc) => { d with mute := true }) ∧ u.frameReg 0x00028000 0xC8 = 0xC8 :=
  ⟨_, rfl, State.ring_linkRings h, rfl, rfl, rfl, rfl, rfl, rfl, rfl, rfl, rfl, rfl, rfl, rfl, rfl, getD_linkRegs _ _⟩

end Sys2Proof.Machine
end

section
/-! The completion of a descriptor (14, R422, R432, R442; 12, R373), and what settles O44. -/

namespace Sys2Proof.Machine

/-! ## Bytes around a write of host memory -/

theorem State.hostByte_hostWrite_outside (s : State) {a b : Nat} {bs : List (BitVec 8)} (h : b < a ∨ a + bs.length ≤ b) :
    (s.hostWrite a bs).hostByte b = s.hostByte b := by
  have hmem : getD 0 (s.hostWrite a bs).hostMem b = getD 0 s.hostMem b := by
    unfold State.hostWrite
    dsimp only
    induction bs using List.reverseRecOn with
    | nil => rfl
    | append_singleton bs x ih =>
      rw [List.length_append, List.length_singleton] at h
      rw [getD_foldl_putD_snoc, getD_putD_other _ _ _ _ _ (by omega), ih (by omega)]
  have hpoison : (s.hostWrite a bs).hostPoison.contains b = s.hostPoison.contains b := by
    show (s.hostPoison.filter _).contains b = _
    rw [Bool.eq_iff_iff, List.contains_iff_mem, List.contains_iff_mem, List.mem_filter]
    exact ⟨And.left, fun hb => ⟨hb, by simpa using h⟩⟩
  rw [State.hostByte, hmem, hpoison]
  rfl

/-! ## The completion record (R432, R442) -/

/-- A ring pair after one more completion record. -/
def Ring.recorded (r : Ring) : Ring :=
  { r with
    cqTail := if r.cqTail + 1 = ringSize r.cq then 0 else r.cqTail + 1
    unread := r.unread + 1
    phase := if r.cqTail + 1 = ringSize r.cq then !r.phase else r.phase }

/-- The completion record of a descriptor that ends with a status on its own ring pair. -/
def State.recordBytes (s : State) (d : Desc) (st : Nat) : List (BitVec 8) :=
  completionBytes d st (d.count.getD (s.paddock d.paddock).paceCount) (s.ring d.ring).phase

theorem State.length_recordBytes (s : State) {d : Desc} (h : 8 ≤ d.bytes.length) (st : Nat) : (s.recordBytes d st).length = 32 := by
  simp only [State.recordBytes, completionBytes, List.length_append, List.length_take, List.length_drop, length_bytesLE,
    List.length_replicate, List.length_singleton]
  omega

/-- The state with the completion record of a descriptor at the tail of its ring pair. -/
def State.recorded (s : State) (d : Desc) (st : Nat) : State :=
  (s.hostWrite (ringBase (s.ring d.ring).cq + 32 * (s.ring d.ring).cqTail) (s.recordBytes d st)).setRing d.ring (s.ring d.ring).recorded

/-- The completion record of a descriptor is written at its own ring pair: it was not forwarded, no link reset has muted it, and its
paddock is the primary's and is not shared with a twin. -/
structure State.recordsHere (s : State) (d : Desc) : Prop where
  staged : d.staged = none
  mute : d.mute = false
  primary : (s.paddock d.paddock).primary = true
  unshared : s.shared d.paddock = false

/-- There the record is written also though the ring pair is not enabled. -/
theorem State.writeCompletion_own {s : State} {d : Desc} (h : s.recordsHere d) (st : Nat) :
    s.writeCompletion d st = if d.flags / 2 % 2 = 1 then (s.recorded d st).sendMsix (s.ring d.ring).vector else s.recorded d st := by
  obtain ⟨hstaged, hmute, hprimary, hshared⟩ := h
  have hring : s.recordRing d = d.ring := by
    rw [State.recordRing, hstaged]
    rfl
  unfold State.writeCompletion
  simp only [hring, hstaged, hmute, hprimary, hshared, Bool.false_and, Bool.true_or, Option.isSome_none, Bool.or_self, Bool.not_true,
    Bool.false_eq_true, if_false]
  rfl

/-- What reads no host memory and no ring pair is kept. -/
theorem State.recorded_keeps {β : Type} (s : State) (d : Desc) (st : Nat) (proj : State → β)
    (hproj : ∀ (t : State) hostMem hostPoison rings,
      proj { t with hostMem := hostMem, hostPoison := hostPoison, rings := rings } = proj t := by intros; rfl) :
    proj (s.recorded d st) = proj s := hproj s _ _ _

theorem State.ring_recorded (s : State) (d : Desc) (st : Nat) : (s.recorded d st).ring d.ring = (s.ring d.ring).recorded :=
  State.ring_setRing _ _ _

/-- A message changes the vectors that are pending, or what is sent. -/
theorem State.sendMsix_frame (s : State) (v : Nat) : ∃ pending out, s.sendMsix v = { s with msixPending := pending, out := out } := by
  unfold State.sendMsix
  split
  · exact ⟨_, _, rfl⟩
  · exact ⟨_, _, rfl⟩

theorem State.sendMsix_of_unmasked {s : State} {v : Nat} (hmask : s.msixMasked v = false) (hd3 : s.d3hot = false) :
    s.sendMsix v = s.emit (.msix v) := by
  simp [State.sendMsix, hmask, hd3]

section
variable {s : State} {d : Desc} (hhere : s.recordsHere d) (st : Nat)
include hhere

/-- A completion record changes, besides, the vectors that are pending and what is sent. -/
theorem State.writeCompletion_keeps {β : Type} (proj : State → β)
    (hproj : ∀ (t : State) pending out, proj { t with msixPending := pending, out := out } = proj t := by intros; rfl) :
    proj (s.writeCompletion d st) = proj (s.recorded d st) := by
  rw [State.writeCompletion_own hhere st]
  split
  · obtain ⟨pending, out, h⟩ := State.sendMsix_frame (s.recorded d st) (s.ring d.ring).vector
    rw [h, hproj]
  · rfl

theorem State.writeCompletion_out_of_quiet (h : d.flags / 2 % 2 = 0) : (s.writeCompletion d st).out = s.out := by
  rw [State.writeCompletion_own hhere st, if_neg (by omega)]
  exact s.recorded_keeps d st State.out

theorem State.writeCompletion_out_of_told (h : d.flags / 2 % 2 = 1) (hmask : s.msixMasked (s.ring d.ring).vector = false)
    (hd3 : s.d3hot = false) : (s.writeCompletion d st).out = s.out ++ [.msix (s.ring d.ring).vector] := by
  have hmask' := (s.recorded_keeps d st (fun t => t.msixMasked (s.ring d.ring).vector)).trans hmask
  have hd3' := (s.recorded_keeps d st State.d3hot).trans hd3
  rw [State.writeCompletion_own hhere st, if_pos h, State.sendMsix_of_unmasked hmask' hd3']
  exact congrArg (· ++ [_]) (s.recorded_keeps d st State.out)

end

/-! ## Completion (R422, R428; 12, R373) -/

/-- Records added to the chains of a ring pair change nothing else of it. -/
theorem Ring.foldl_addRecord_frame (recs : List ChainRec) (r : Ring) :
    ∃ i s o, recs.foldl Ring.addRecord r = { r with chainIn := i, chainSeed := s, chainOut := o } := by
  induction recs generalizing r with
  | nil => exact ⟨_, _, _, rfl⟩
  | cons x recs ih =>
    obtain ⟨_, _, _, hx⟩ : ∃ i s o, r.addRecord x = { r with chainIn := i, chainSeed := s, chainOut := o } := by
      unfold Ring.addRecord
      split
      · exact ⟨_, _, _, rfl⟩
      · split
        · exact ⟨_, _, _, rfl⟩
        · exact ⟨_, _, _, rfl⟩
    obtain ⟨_, _, _, h⟩ := ih (r.addRecord x)
    rw [List.foldl_cons, h, hx]
    exact ⟨_, _, _, rfl⟩

section
variable {d : Desc} (hstaged : d.staged = none) (s : State)
include hstaged

theorem State.addRecords_own (recs : List ChainRec) :
    s.addRecords d recs = s.setRing d.ring (recs.foldl Ring.addRecord (s.ring d.ring)) := by
  simp only [State.addRecords, hstaged, Option.isNone_none, if_true]

/-- The chains of a ring pair take records: of the state the descriptors and the chains of that ring pair change. -/
theorem State.flushRing_own : ∃ i c o, s.flushRing d
    = { s.setRing d.ring { s.ring d.ring with chainIn := i, chainSeed := c, chainOut := o } with descs := (s.flushRing d).descs } := by
  obtain ⟨i, c, o, h⟩ := Ring.foldl_addRecord_frame
    ((((s.descs.filter d.sameRing).takeWhile (·.completed)).map Desc.chainRecords).flatten) (s.ring d.ring)
  refine ⟨i, c, o, ?_⟩
  rw [← h, ← State.addRecords_own hstaged]
  rfl

theorem State.mem_flushRing {x : Desc} (hx : x ∈ (s.flushRing d).descs) : x ∈ s.descs := by
  have hkept := List.mem_of_mem_filter hx
  rwa [State.addRecords_own hstaged] at hkept

theorem State.flushRing_keeps {β : Type} (proj : State → β)
    (hproj : ∀ (t : State) descs rings, proj { t with descs := descs, rings := rings } = proj t := by intros; rfl) :
    proj (s.flushRing d) = proj s := by
  obtain ⟨i, c, o, h⟩ := State.flushRing_own hstaged s
  rw [h]
  exact hproj s _ _

theorem State.ring_flushRing : ∃ i c o, (s.flushRing d).ring d.ring
    = { s.ring d.ring with chainIn := i, chainSeed := c, chainOut := o } := by
  obtain ⟨i, c, o, h⟩ := State.flushRing_own hstaged s
  rw [h]
  exact ⟨i, c, o, State.ring_setRing _ _ _⟩

end

/-- A descriptor that completed with a status. -/
def Desc.completedWith (st : Nat) (d : Desc) : Desc := { d with status := some st, completed := true }

/-- The completion of a descriptor without a result slot that does not end its job. -/
theorem State.completeDesc_of_plain {d : Desc} (hslot : d.slot = none) {st : Nat} (hend : jobEnding st = false)
    (hop : d.opcode ≠ 0x0002) (s : State) : s.completeDesc d st
      = (((s.addLate d).writeCompletion { d with status := some st } st).onDesc d.id (Desc.completedWith st)).flushRing d := by
  have hfinal : (s.addLate d).finalSlot d st = (s.addLate d, st) := by
    unfold State.finalSlot
    rw [hslot]
  unfold State.completeDesc
  simp only [hfinal, hop, hend, Bool.false_eq_true, if_false]
  rfl

/-- Whatever a descriptor reads back as after all of its number were changed, it is one that was changed. -/
theorem State.desc_of_mem_onDesc {s t : State} {id : Nat} {f : Desc → Desc} (h : ∀ x ∈ t.descs, x ∈ (s.onDesc id f).descs)
    {x : Desc} (hx : t.desc id = some x) : ∃ y, x = f y := by
  obtain ⟨y, -, hy⟩ := List.mem_map.mp (h x (List.mem_of_find?_eq_some hx))
  have hid := State.desc_id hx
  by_cases hyid : y.id = id
  · exact ⟨y, by rw [← hy, if_pos hyid]⟩
  · rw [if_neg hyid] at hy
    exact absurd (hy ▸ hid) hyid

theorem State.addLate_keeps {β : Type} {s : State} {d : Desc} (hd : s.desc d.id = some d) (proj : State → β)
    (hproj : ∀ descs, proj { s with descs := descs } = proj s := by intros; rfl) : proj (s.addLate d) = proj s := by
  obtain ⟨-, descs, h⟩ := State.addLate_cases hd
  rw [h, hproj]

section
variable {s : State} {d : Desc} (hd : s.desc d.id = some d) (hhere : s.recordsHere d)
include hd hhere

theorem State.recordsHere_addLate (st : Nat) : (s.addLate d).recordsHere { d with status := some st } where
  staged := hhere.staged
  mute := hhere.mute
  primary := (State.addLate_keeps hd (fun t => (t.paddock d.paddock).primary)).trans hhere.primary
  unshared := (State.addLate_keeps hd (fun t => t.shared d.paddock)).trans hhere.unshared

variable {st : Nat} (hslot : d.slot = none) (hop : d.opcode ≠ 0x0002) (hend : jobEnding st = false)
include hslot hop hend

/-- A completion, besides its record, changes descriptors, ring pairs, the vectors that are pending and what is sent. -/
theorem State.completeDesc_keeps {β : Type} (proj : State → β)
    (hproj : ∀ (t : State) descs rings pending out,
      proj { t with descs := descs, rings := rings, msixPending := pending, out := out } = proj t := by intros; rfl) :
    proj (s.completeDesc d st) = proj ((s.addLate d).recorded { d with status := some st } st) := by
  rw [State.completeDesc_of_plain hslot hend hop]
  exact (State.flushRing_keeps hhere.staged _ proj fun t descs rings => hproj t descs rings t.msixPending t.out).trans
    ((hproj _ _ _ _ _).trans (State.writeCompletion_keeps (State.recordsHere_addLate hd hhere st) st proj
      fun t pending out => hproj t t.descs t.rings pending out))

omit hd in
theorem State.completed_completeDesc {x : Desc} (hx : (s.completeDesc d st).desc d.id = some x) :
    x.completed = true ∧ x.status = some st := by
  rw [State.completeDesc_of_plain hslot hend hop] at hx
  obtain ⟨y, rfl⟩ := State.desc_of_mem_onDesc (f := Desc.completedWith st) (fun x => State.mem_flushRing hhere.staged _) hx
  exact ⟨rfl, rfl⟩

theorem State.ring_completeDesc : ∃ i c o, (s.completeDesc d st).ring d.ring
    = { (s.ring d.ring).recorded with chainIn := i, chainSeed := c, chainOut := o } := by
  obtain ⟨i, c, o, h⟩ := State.ring_flushRing hhere.staged
    (((s.addLate d).writeCompletion { d with status := some st } st).onDesc d.id (Desc.completedWith st))
  have hwritten : ((s.addLate d).writeCompletion { d with status := some st } st).ring d.ring = (s.ring d.ring).recorded := by
    rw [State.writeCompletion_keeps (State.recordsHere_addLate hd hhere st) st (fun t => t.ring d.ring)]
    refine (State.ring_recorded _ { d with status := some st } st).trans ?_
    rw [State.addLate_keeps hd (fun t => t.ring d.ring)]
  refine ⟨i, c, o, ?_⟩
  rw [State.completeDesc_of_plain hslot hend hop, h, ← hwritten]
  rfl

/-- What a completion leaves of host memory. -/
theorem State.hostMem_completeDesc (hlen : 8 ≤ d.bytes.length) :
    let tail := ringBase (s.ring d.ring).cq + 32 * (s.ring d.ring).cqTail
    (s.completeDesc d st).hostRead tail 32 = s.recordBytes d st
      ∧ ∀ a, a < tail ∨ tail + 32 ≤ a → (s.completeDesc d st).hostByte a = s.hostByte a := by
  intro tail
  have hbytes : (s.addLate d).recordBytes { d with status := some st } st = s.recordBytes d st :=
    State.addLate_keeps hd (fun t => t.recordBytes d st)
  have hring := State.addLate_keeps hd (fun t => t.ring d.ring)
  have h32 := s.length_recordBytes hlen st
  have hstate : (s.addLate d).recorded { d with status := some st } st
      = ((s.addLate d).hostWrite tail (s.recordBytes d st)).setRing d.ring (s.ring d.ring).recorded := by
    simp only [State.recorded, hbytes, hring]
    rfl
  constructor
  · rw [State.completeDesc_keeps hd hhere hslot hop hend (fun t => t.hostRead tail 32), hstate, ← h32]
    exact State.hostRead_hostWrite _ _ _
  · intro a ha
    rw [State.completeDesc_keeps hd hhere hslot hop hend (fun t => t.hostByte a), hstate,
      ← State.addLate_keeps hd (fun t => t.hostByte a)]
    exact State.hostByte_hostWrite_outside _ (by rwa [h32])

theorem State.tiles_completeDesc : (s.completeDesc d st).tiles = s.tiles := by
  rw [State.completeDesc_keeps hd hhere hslot hop hend State.tiles, State.recorded_keeps _ _ _ State.tiles,
    State.addLate_keeps hd State.tiles]

omit hd in
/-- What a completion sends is what its record does. -/
theorem State.out_completeDesc : (s.completeDesc d st).out = ((s.addLate d).writeCompletion { d with status := some st } st).out := by
  rw [State.completeDesc_of_plain hslot hend hop]
  exact State.flushRing_keeps hhere.staged _ State.out

theorem State.out_completeDesc_of_quiet (h : d.flags / 2 % 2 = 0) : (s.completeDesc d st).out = s.out := by
  rw [State.out_completeDesc hhere hslot hop hend,
    State.writeCompletion_out_of_quiet (State.recordsHere_addLate hd hhere st) st h, State.addLate_keeps hd State.out]

theorem State.out_completeDesc_of_told (h : d.flags / 2 % 2 = 1) (hmask : s.msixMasked (s.ring d.ring).vector = false)
    (hd3 : s.d3hot = false) : (s.completeDesc d st).out = s.out ++ [.msix (s.ring d.ring).vector] := by
  have hring := State.addLate_keeps hd (fun t => t.ring d.ring)
  have hmask' := (State.addLate_keeps hd (fun t => t.msixMasked (s.ring d.ring).vector)).trans hmask
  rw [← hring] at hmask'
  rw [State.out_completeDesc hhere hslot hop hend, State.writeCompletion_out_of_told (State.recordsHere_addLate hd hhere st) st h hmask'
    ((State.addLate_keeps hd State.d3hot).trans hd3), State.addLate_keeps hd State.out, ← hring]

end

/-! ## DESCRIPTOR_COMPLETE -/

/-- A paddock that no longer waits for the twin's share of a descriptor. -/
def Paddock.dropForwarded (id : Nat) (x : Paddock) : Paddock :=
  { x with twin := { x.twin with forwarded := x.twin.forwarded.filter (· != id) } }

theorem exec_descriptorComplete_of_unended {s : State} {id : Nat} {d : Desc} (hd : s.desc id = some d) (h : d.status = none) :
    exec (.descriptorComplete id) s = .next s := by
  rw [exec_descriptorComplete, execDescriptorComplete]
  simp only [hd, h]
  rfl

/-- A descriptor whose work has ended, that awaits no seal and no twin, completes. -/
theorem exec_descriptorComplete_of_ended {s : State} {id st : Nat} {d : Desc} (hd : s.desc id = some d) (hst : d.status = some st)
    (hopen : d.completed = false) (hseal : s.sealDue d = false) (hd3 : s.d3hot = false) (hrun : s.halted = false)
    (hhere : s.recordsHere d) : exec (.descriptorComplete id) s
      = .next ((s.onPaddock d.paddock (Paddock.dropForwarded id)).completeDesc d st).bump := by
  rw [exec_descriptorComplete, execDescriptorComplete]
  simp only [hd, hst, hopen, hseal, hd3, hrun, hhere.primary, hhere.unshared, Bool.not_true, Bool.and_false, Bool.false_and,
    Bool.or_self, Bool.false_eq_true, if_false]
  rfl

/-- What the twin's share was waited for changes none of what the record is made from. -/
theorem State.recordsHere_dropForwarded {s : State} {d : Desc} (h : s.recordsHere d) (id : Nat) :
    (s.onPaddock d.paddock (Paddock.dropForwarded id)).recordsHere d where
  staged := h.staged
  mute := h.mute
  primary := by
    rw [State.paddock_onPaddock]
    exact h.primary
  unshared := by
    have hsame : (s.onPaddock d.paddock (Paddock.dropForwarded id)).shared d.paddock = s.shared d.paddock := by
      rw [State.shared, State.paddock_onPaddock]
      rfl
    rw [hsame]
    exact h.unshared

/-- What a completion leaves: its record behind those before it, and its message where it asks for one. -/
theorem descriptorComplete_leaves {s : State} {id st : Nat} {d : Desc} (hd : s.desc id = some d) (hst : d.status = some st)
    (hle : st ≤ 2) (hop : d.opcode ≠ 2) (hopen : d.completed = false) (hseal : s.sealDue d = false) (hd3 : s.d3hot = false)
    (hrun : s.halted = false) (hslot : d.slot = none) (hhere : s.recordsHere d) (hlen : 8 ≤ d.bytes.length) :
    let r := s.ring d.ring
    let wrap := r.cqTail + 1 = ringSize r.cq
    ∃ u, exec (.descriptorComplete id) s = .next u
      ∧ u.hostRead (ringBase r.cq + 32 * r.cqTail) 32 = completionBytes d st (d.count.getD (s.paddock d.paddock).paceCount) r.phase
      ∧ (∀ a, a < ringBase r.cq + 32 * r.cqTail ∨ ringBase r.cq + 32 * r.cqTail + 32 ≤ a → u.hostByte a = s.hostByte a)
      ∧ (u.ring d.ring).cqTail = (if wrap then 0 else r.cqTail + 1) ∧ (u.ring d.ring).unread = r.unread + 1
      ∧ ((u.ring d.ring).phase = r.phase ↔ ¬ wrap)
      ∧ (∀ x, u.desc id = some x → x.completed = true ∧ x.status = some st)
      ∧ (d.flags / 2 % 2 = 0 → u.out = s.out)
      ∧ (d.flags / 2 % 2 = 1 → s.msixMasked r.vector = false → u.out = s.out ++ [.msix r.vector])
      ∧ u.tiles = s.tiles := by
  intro r wrap
  obtain rfl : d.id = id := State.desc_id hd
  have hend : jobEnding st = false := by
    simp only [jobEnding, Bool.or_eq_false_iff, decide_eq_false_iff_not, beq_eq_false_iff_ne]
    omega
  set t := s.onPaddock d.paddock (Paddock.dropForwarded d.id) with ht
  have hdt : t.desc d.id = some d := hd
  have hheret : t.recordsHere d := State.recordsHere_dropForwarded hhere d.id
  have hbytes : t.recordBytes d st = completionBytes d st (d.count.getD (s.paddock d.paddock).paceCount) r.phase := by
    rw [State.recordBytes, ht, State.paddock_onPaddock]
    rfl
  obtain ⟨hrecord, houtside⟩ := State.hostMem_completeDesc hdt hheret hslot hop hend hlen
  obtain ⟨i, c, o, hring⟩ := State.ring_completeDesc hdt hheret hslot hop hend
  have hringu : ((t.completeDesc d st).bump).ring d.ring = { r.recorded with chainIn := i, chainSeed := c, chainOut := o } := hring
  refine ⟨_, exec_descriptorComplete_of_ended hd hst hopen hseal hd3 hrun hhere, hrecord.trans hbytes, houtside, ?_, ?_, ?_,
    fun x hx => State.completed_completeDesc hheret hslot hop hend hx,
    State.out_completeDesc_of_quiet hdt hheret hslot hop hend,
    fun htold hmask => State.out_completeDesc_of_told hdt hheret hslot hop hend htold hmask hd3,
    State.tiles_completeDesc hdt hheret hslot hop hend⟩
  · rw [hringu]
    rfl
  · rw [hringu]
    rfl
  · rw [hringu]
    show (if r.cqTail + 1 = ringSize r.cq then !r.phase else r.phase) = r.phase ↔ _
    by_cases h : r.cqTail + 1 = ringSize r.cq
    · simp [wrap, h]
    · simp [wrap, h]

/-- Settles O44: a poll's steps over the other ring pairs leave the state, ring commands write one ring pair, the completion record is
the last write at its tail (R413, R422 to R432, R442, R443; log entries 60, 61, 123 and 125). -/
theorem hostRings : Obligations.HostRings := by
  unfold Obligations.HostRings
  refine ⟨?_, fun n s => ⟨fun h => ?_, ?_⟩, fun v s => ⟨fun hlost => ?_, fun henable hlost hroom hd3 => ?_⟩,
    fun s h => linkReset_leaves h, fun id d s hd => ⟨exec_descriptorComplete_of_unended hd, ?_⟩⟩
  · intro n s s1 r b hready hrun hd3 hscan hothers henable herror howned htail hin hop hext hmay hshared fails
    exact hiPoll_consumes hready hrun hd3 hscan hothers ⟨henable, herror, howned, htail, hin, hop, hext, hmay, hshared⟩ fails
  · exact ⟨_, exec_ringEnable_of_disabled h, s.setRing_leaves n _⟩
  · exact ⟨_, rfl, s.setRing_leaves n _⟩
  · rw [exec_eventRingHeadWrite_eq, State.resumeEvents_of_none_lost (s := s.eventCtrl v) hlost]
    rfl
  · exact eventRingHeadWrite_tells henable hlost hroom hd3
  · intro st hst hle hop hopen hseal hd3 hrun hslot hstaged hprimary hshared hmute hlen
    exact descriptorComplete_leaves hd hst hle hop hopen hseal hd3 hrun hslot ⟨hstaged, hmute, hprimary, hshared⟩ hlen

end Sys2Proof.Machine
end

section
/-! A placement installed (14, R437, R438; 10, R320, R321): what writing an image, and setting up its regions and tiles, leaves. -/

namespace Sys2Proof.Machine

/-! ## Steps that change tiles, tiers, reports and counters only -/

/-- `t` differs from `s` in the tiles, the tiers, the reports, the counters and the step's free choice only. -/
def State.contentOnly (s t : State) : Prop :=
  t = { s with tiles := t.tiles, near := t.near, far := t.far, raised := t.raised, cntWin := t.cntWin, bw := t.bw, free := t.free }

theorem State.contentOnly.refl (s : State) : s.contentOnly s := rfl

theorem State.contentOnly.trans {s t u : State} (h : s.contentOnly t) (h' : t.contentOnly u) : s.contentOnly u := by
  unfold State.contentOnly at *
  rw [h', h]

theorem State.tiersOnly.contentOnly {s t : State} (h : s.tiersOnly t) : s.contentOnly t := by
  unfold State.tiersOnly at h
  unfold State.contentOnly
  rw [h]

/-- What reads none of those is kept. -/
theorem State.contentOnly.keeps {β : Type} {s t : State} (h : s.contentOnly t) (proj : State → β)
    (hproj : ∀ tiles near far raised cntWin bw free, proj { s with
        tiles := tiles, near := near, far := far, raised := raised, cntWin := cntWin, bw := bw, free := free } = proj s := by
      intros; rfl) :
    proj t = proj s := by
  unfold State.contentOnly at h
  rw [h, hproj]

theorem State.contentOnly_foldl {α : Type} (f : State → α → State) (h : ∀ (s : State) a, s.contentOnly (f s a)) (l : List α)
    (s : State) : s.contentOnly (l.foldl f s) := by
  induction l generalizing s with
  | nil => exact .refl s
  | cons a l ih => exact (h s a).trans (ih _)

theorem State.contentOnly_onTile (s : State) (k : Nat) (f : Tile → Tile) : s.contentOnly (s.onTile k f) := rfl

theorem State.contentOnly_loadRange (s : State) (p : Nat) (i : Image) (k : Nat) (m : MemRange) : s.contentOnly (s.loadRange p i k m) := by
  unfold State.loadRange
  split
  · exact .refl s
  · exact ((s.tiersOnly_touchShare p false _ _).trans (State.tiersOnly_countRead _ p false _ _)).contentOnly.trans
      (State.contentOnly_onTile _ k _)

theorem State.contentOnly_prepareTile (s : State) (p : Nat) (i : Image) (pl k : Nat) : s.contentOnly (s.prepareTile p i pl k) := by
  unfold State.prepareTile
  exact (s.contentOnly_onTile k _).trans (State.contentOnly_foldl _ (fun s m => s.contentOnly_loadRange p i k m) _ _)

theorem State.tiersOnly_writeMirror (s : State) (p : Nat) (m : Nat × Nat × Nat) : s.tiersOnly (s.writeMirror p m) := by
  refine State.tiersOnly_foldl _ (fun s x => ?_) _ s
  dsimp only
  split
  · exact State.tiersOnly_foldl _ (fun s g => s.tiersOnly_setTier true _) _ s
  · exact .refl s

/-! ## A placement installed (R438; 17, R514) -/

/-- The state with the declarations of a placement in its paddock and its regions, before its tiles. -/
def State.declare (s : State) (p : Nat) (i : Image) (pl : Nat) : State :=
  (i.regionsIn pl).foldl (fun s r => s.onRegion r (i.installRegion pl r)) (s.onPaddock p (i.installPaddock pl (s.freeWafer p)))

theorem State.contentOnly_install (s : State) (p : Nat) (i : Image) (pl : Nat) : (s.declare p i pl).contentOnly (s.install p i pl) := by
  have hprepare : ∀ (l : List Nat) (u : State), u.contentOnly (l.foldl (fun s k => s.prepareTile p i pl k) u) := fun l u =>
    State.contentOnly_foldl _ (fun s k => s.contentOnly_prepareTile p i pl k) l u
  have hstart : ∀ (l : List Nat) (u : State), u.contentOnly (l.foldl (fun s k => s.onTile k (i.startTile pl k)) u) := fun l u =>
    State.contentOnly_foldl _ (fun s k => s.contentOnly_onTile k _) l u
  unfold State.install State.declare
  dsimp only
  split
  · exact hprepare _ _
  · exact (hprepare _ _).trans (hstart _ _)

/-- A field of the regions of a list that a change gives the same value whatever the region held. -/
theorem State.region_foldl_const {β : Type} (proj : Region → β) {f : Nat → Region → Region} {c : Nat → β}
    (h : ∀ r g, proj (f r g) = c r) (l : List Nat) (s : State) {r : Nat} (hr : r ∈ l ∨ proj (s.region r) = c r) :
    proj ((l.foldl (fun s r => s.onRegion r (f r)) s).region r) = c r := by
  induction l generalizing s with
  | nil => exact hr.resolve_left List.not_mem_nil
  | cons q l ih =>
    refine ih _ ?_
    by_cases hq : r = q
    · exact .inr (by rw [hq, State.region_onRegion, h])
    · rw [State.region_onRegion_other _ _ _ _ hq]
      exact hr.imp_left fun hmem => (List.mem_cons.mp hmem).resolve_left hq

theorem State.region_install (s : State) (p : Nat) (i : Image) (pl : Nat) {r : Nat} (hr : r ∈ i.regionsIn pl) :
    ((s.install p i pl).region r).barriers = objectMap (wordsOf (i.sec pl 3 r)) ∧ ((s.install p i pl).region r).due = [] := by
  rw [(s.contentOnly_install p i pl).keeps (fun t => t.region r)]
  exact ⟨State.region_foldl_const Region.barriers (c := fun r => objectMap (wordsOf (i.sec pl 3 r))) (fun _ _ => rfl) _ _ (.inl hr),
    State.region_foldl_const Region.due (c := fun _ => []) (fun _ _ => rfl) _ _ (.inl hr)⟩

theorem State.declare_keeps {β : Type} (s : State) (p : Nat) (i : Image) (pl : Nat) (proj : State → β)
    (hregion : ∀ (t : State) r g, proj (t.setRegion r g) = proj t := by intros; rfl)
    (hpaddock : ∀ (t : State) q d, proj (t.setPaddock q d) = proj t := by intros; rfl) : proj (s.declare p i pl) = proj s :=
  (foldl_keeps proj _ (fun t r => hregion t r _) _ _).trans (hpaddock s p _)

theorem State.takeFactors_descs (s : State) (p : Nat) : (s.takeFactors p).descs = s.descs := rfl
theorem State.takeFactors_hostMem (s : State) (p : Nat) : (s.takeFactors p).hostMem = s.hostMem := rfl
theorem State.takeFactors_nearUnits (s : State) (p : Nat) : ((s.takeFactors p).paddock p).nearUnits = (s.paddock p).nearUnits := by
  rw [State.takeFactors, State.paddock_onPaddock]

/-! ## An image taken from its bytes (R437) -/

theorem State.tiersOnly_unmapImage (s : State) (p : Nat) : s.tiersOnly (s.unmapImage p) := by
  unfold State.unmapImage
  split
  · exact .refl s
  · exact s.tiersOnly_setTier false _

/-- A paddock's own declarations, and in the near tier its image's units, go with its image. -/
theorem State.leaveImage_keeps {β : Type} (s : State) (p : Nat) (proj : State → β)
    (hproj : ∀ (t : State) paddocks near far raised cntWin bw free, proj { t with
        paddocks := paddocks, near := near, far := far, raised := raised, cntWin := cntWin, bw := bw, free := free } = proj t := by
      intros; rfl) :
    proj (s.leaveImage p) = proj s := by
  refine (hproj (s.unmapImage p) _ _ _ _ _ _ _).trans ?_
  exact (s.tiersOnly_unmapImage p).keeps proj fun near far raised cntWin bw free => hproj s s.paddocks _ _ _ _ _ _

theorem State.paddock_leaveImage (s : State) (p : Nat) : (s.leaveImage p).paddock p = (s.paddock p).dropImage := by
  rw [State.leaveImage, State.paddock_onPaddock, (s.tiersOnly_unmapImage p).keeps (fun t => t.paddock p)]

/-- The state with an image's bytes and mirror copies written, before its placement. -/
def State.writeImage (s : State) (p : Nat) (i : Image) (pl : Nat) (bytes : List (Nat × Bool)) : State :=
  (i.mirrorRanges pl).foldl (fun s m => s.writeMirror p m) (s.writeShare p false i.base bytes)

theorem State.records_writeImage (s : State) (p : Nat) (i : Image) (pl : Nat) (bytes : List (Nat × Bool)) :
    (s.writeImage p i pl bytes).records = s.records :=
  (records_foldl _ (fun s m => (s.tiersOnly_writeMirror p m).keeps State.records) _ _).trans (State.records_writeShare _ _ _ _ _)

theorem State.loadInto_eq {s : State} {i : Image} {pl : Nat} (h : s.placementFor i = some pl) (d : Desc) (bytes : List (Nat × Bool)) :
    s.loadInto d i bytes = ((((s.writeImage d.paddock i pl bytes).takeFactors d.paddock).install d.paddock i pl).finishDesc d.id 0
      (BitVec.ofNat 64 i.length)) := by
  rw [State.loadInto, h]
  rfl

/-- A descriptor that has no status ends with the one it is given, whatever else its step changed. -/
theorem State.ended_finishDesc_of_descs {s t : State} {id : Nat} {x : Desc} (h : t.descs = s.descs) (hx : s.desc id = some x)
    (hs : x.status = none) (st : Nat) (r : BitVec 64) : (t.finishDesc id st r).bump.ended id st r := by
  refine State.ended_finishDesc ?_ hs st r
  rw [State.desc, h]
  exact hx

/-- The end of a descriptor changes nothing but descriptors. -/
theorem State.finished_keeps {β : Type} (s : State) (id st : Nat) (r : BitVec 64) (proj : State → β)
    (hproj : ∀ (t : State) descs free, proj { t with descs := descs, free := free } = proj t := by intros; rfl) :
    proj (s.finishDesc id st r).bump = proj s := hproj s _ _

/-- What an image that is taken leaves of its paddock, its regions and its descriptor. -/
theorem State.loadInto_leaves {s : State} {d x : Desc} {i : Image} {pl : Nat} (h : s.placementFor i = some pl)
    (hx : s.desc d.id = some x) (hs : x.status = none) (bytes : List (Nat × Bool)) :
    let u := (s.loadInto d i bytes).bump
    u.ended d.id 0 (BitVec.ofNat 64 i.length)
      ∧ (∃ free pd, pd.nearUnits = (s.paddock d.paddock).nearUnits ∧ u.paddock d.paddock = i.installPaddock pl free pd)
      ∧ ∀ r ∈ i.regionsIn pl, (u.region r).barriers = objectMap (wordsOf (i.sec pl 3 r)) ∧ (u.region r).due = [] := by
  dsimp only
  rw [State.loadInto_eq h]
  have hrecords := s.records_writeImage d.paddock i pl bytes
  refine ⟨State.ended_finishDesc_of_descs ?_ hx hs _ _, ⟨_, _, ?_,
    (State.finished_keeps _ _ _ _ (fun t => t.paddock d.paddock)).trans (State.paddock_install _ _ _ _)⟩, fun r hr => ?_⟩
  · rw [(State.contentOnly_install _ _ _ _).keeps State.descs, State.declare_keeps _ _ _ _ State.descs, State.takeFactors_descs]
    exact congrArg (fun x => x.2.2.2) hrecords
  · rw [State.takeFactors_nearUnits, State.paddock_of_records hrecords]
  · rw [State.finished_keeps _ _ _ _ (fun t => t.region r)]
    exact State.region_install _ _ _ _ hr

/-- An image whose bytes stand in the share already is taken without a change of host memory. -/
theorem State.hostMem_loadInto_nil {s : State} {i : Image} {pl : Nat} (h : s.placementFor i = some pl) (d : Desc) :
    (s.loadInto d i []).hostMem = s.hostMem := by
  have hwrite : (s.writeImage d.paddock i pl []).hostMem = s.hostMem :=
    (State.tiersOnly_foldl _ (fun s m => s.tiersOnly_writeMirror d.paddock m) _ s).keeps State.hostMem
  have hfinish : ∀ (t : State) (id st : Nat) (r : BitVec 64), (t.finishDesc id st r).hostMem = t.hostMem := fun _ _ _ _ => rfl
  rw [State.loadInto_eq h, hfinish, (State.contentOnly_install _ _ _ _).keeps State.hostMem,
    State.declare_keeps _ _ _ _ State.hostMem, State.takeFactors_hostMem, hwrite]

end Sys2Proof.Machine
end

section
/-! LOAD_IMAGE, LOAD_IMAGE_SHARED and UNLOAD_IMAGE (14, R437; 10, R321; log entry 66). -/

namespace Sys2Proof.Machine

/-! ## LOAD_IMAGE from host memory or the far tier -/

/-- The bytes that a LOAD_IMAGE reads. -/
def State.loadBytes (s : State) (d : Desc) : List (Nat × Bool) :=
  if d.nat 8 1 = 0 then s.hostBytes (d.nat 24 8) (d.nat 16 8) else s.shareBytes d.paddock true (d.nat 24 8) (d.nat 16 8)

/-- The state once they are read. -/
def State.loadRead (s : State) (d : Desc) : State :=
  if d.nat 8 1 = 0 then s
  else (s.touchShare d.paddock true (d.nat 24 8) (d.nat 16 8)).countRead d.paddock true (d.nat 24 8) (d.nat 16 8)

/-- The bytes of an image without their poison. -/
abbrev rawBytes (bs : List (Nat × Bool)) : List (BitVec 8) := bs.map (fun b => BitVec.ofNat 8 b.1)

/-- A LOAD_IMAGE from host memory or the far tier is due whose ranges lie in the shares, are not locked and not forwarded. -/
structure State.loadDue (s : State) (id : Nat) (d : Desc) : Prop where
  due : s.atDesc id 0x0020 d
  idle : (s.paddock d.paddock).current = none
  source : d.nat 8 1 ≤ 1
  inNear : (s.paddock d.paddock).inShare false (d.nat 32 8) (d.nat 16 8) = true
  inFar : d.nat 8 1 = 1 → (s.paddock d.paddock).inShare true (d.nat 24 8) (d.nat 16 8) = true
  unlocked : d.nat 8 1 = 1 → s.shareLocked d.paddock true (d.nat 24 8) (d.nat 16 8) = false
  unshared : d.nat 8 1 = 0 → d.staged = none ∧ s.shared d.paddock = false

theorem State.tiersOnly_loadRead (s : State) (d : Desc) : s.tiersOnly (s.loadRead d) := by
  unfold State.loadRead
  split
  · exact .refl s
  · exact (s.tiersOnly_touchShare _ true _ _).trans (State.tiersOnly_countRead _ _ true _ _)

/-- Nothing of a descriptor's data is forwarded where its paddock is not shared. -/
theorem State.forwardStaged_of_unshared {s : State} {d : Desc} (h : s.shared d.paddock = false) (bs : List (Nat × Bool)) :
    s.forwardStaged d bs = s := by
  simp [State.forwardStaged, h]

/-- The data of a descriptor that was not forwarded is in host memory. -/
theorem State.hostFor_of_unstaged {d : Desc} (h : d.staged = none) (s : State) (a n : Nat) : s.hostFor d a n = s.hostBytes a n := by
  simp [State.hostFor, h]

theorem Desc.hostReady_of_unstaged {d : Desc} (h : d.staged = none) (n : Nat) : d.hostReady n = true := by
  simp [Desc.hostReady, h]

theorem State.stagingTurn_of_unshared {s : State} {d : Desc} (h : s.shared d.paddock = false) : s.stagingTurn d = true := by
  simp [State.stagingTurn, h]

/-- An image of the bytes read is checked, refused or taken (R437). -/
def State.checkImage (s : State) (id : Nat) (d : Desc) (bytes : List (Nat × Bool)) : State :=
  let i := Sys2Proof.Machine.readImage (rawBytes bytes) (d.nat 32 8) (d.nat 16 8) none
  if !imageBytesOk (rawBytes bytes) (s.paddock d.paddock).rect (d.nat 16 8) false then s.finishDesc id 0x0200 0
  else match s.imageRefused d.paddock i (rawBytes bytes) with
    | some st => s.finishDesc id st 0
    | none => (s.leaveImage d.paddock).loadInto d i bytes

/-- The state in which the chain record of a LOAD_IMAGE stands. -/
def State.loadChained (s : State) (id : Nat) (d : Desc) : State :=
  (s.loadRead d).chain id 0x0001 (loadRecord (rawBytes (s.loadBytes d)) d)

theorem exec_loadImage_of_due {id : Nat} {d : Desc} {s : State} (h : s.loadDue id d) :
    exec (.loadImage id) s = .next ((s.loadChained id d).checkImage id d (s.loadBytes d)).bump := by
  obtain ⟨hdue, hidle, hsource, hnear, hfar, hlock, hunshared⟩ := h
  have hrect : ((s.loadChained id d).paddock d.paddock).rect = (s.paddock d.paddock).rect :=
    (s.tiersOnly_loadRead d).keeps fun t => (t.paddock d.paddock).rect
  rw [exec_loadImage, execLoadImage]
  refine descWork_of_atDesc hdue ?_
  rw [State.checkImage, hrect]
  obtain hsrc | hsrc : d.nat 8 1 = 0 ∨ d.nat 8 1 = 1 := by omega
  · obtain ⟨hstaged, hshared⟩ := hunshared hsrc
    have hbytes : s.loadBytes d = s.hostBytes (d.nat 24 8) (d.nat 16 8) := if_pos hsrc
    have hread : s.loadRead d = s := if_pos hsrc
    simp only [State.loadChained, rawBytes, hbytes, hread, hsrc, hidle, hnear, State.hostFor_of_unstaged hstaged,
      Desc.hostReady_of_unstaged hstaged, State.stagingTurn_of_unshared hshared, State.forwardStaged_of_unshared hshared,
      Option.isSome_none, Bool.not_true, Bool.or_false, Bool.and_false, Bool.and_true, Bool.false_and, Bool.false_eq_true, decide_true,
      decide_false, Nat.reduceEqDiff, if_true, if_false]
    split
    · rfl
    · generalize State.imageRefused _ _ _ _ = refused
      cases refused <;> rfl
  · have hbytes : s.loadBytes d = s.shareBytes d.paddock true (d.nat 24 8) (d.nat 16 8) := if_neg (by omega)
    have hread : s.loadRead d
        = (s.touchShare d.paddock true (d.nat 24 8) (d.nat 16 8)).countRead d.paddock true (d.nat 24 8) (d.nat 16 8) := if_neg (by omega)
    simp only [State.loadChained, rawBytes, hbytes, hread, hsrc, hidle, hnear, hfar hsrc, hlock hsrc, Option.isSome_none, Bool.not_true,
      Bool.or_false, Bool.and_false, Bool.false_and, Bool.false_eq_true, decide_true, decide_false, Nat.reduceEqDiff, if_false]
    split
    · rfl
    · generalize State.imageRefused _ _ _ _ = refused
      cases refused <;> rfl


theorem State.desc_loadChained {s : State} {id : Nat} {d : Desc} (h : s.desc id = some d) :
    ∃ x, (s.loadChained id d).desc id = some x ∧ x.status = d.status := by
  have hread : (s.loadRead d).desc id = some d := ((s.tiersOnly_loadRead d).keeps fun t => t.desc id).trans h
  exact ⟨_, State.desc_onDesc hread fun _ => rfl, rfl⟩

/-- A chain record changes nothing of a state but descriptors. -/
theorem State.chain_keeps {β : Type} (s : State) (id kind : Nat) (payload : List (BitVec 8)) (proj : State → β)
    (hproj : ∀ (t : State) descs, proj { t with descs := descs } = proj t := by intros; rfl) :
    proj (s.chain id kind payload) = proj s := hproj s _

/-- The image that a LOAD_IMAGE reads from bytes. -/
abbrev loadedImage (raw : List (BitVec 8)) (d : Desc) : Image := readImage raw (d.nat 32 8) (d.nat 16 8) none

/-- What an image that passes its checks and is not refused leaves. -/
theorem State.checkImage_takes {t : State} {d x : Desc} {bytes : List (Nat × Bool)} {pl : Nat} (hx : t.desc d.id = some x)
    (hs : x.status = none) (hok : imageBytesOk (rawBytes bytes) (t.paddock d.paddock).rect (d.nat 16 8) false = true)
    (hfree : t.imageRefused d.paddock (loadedImage (rawBytes bytes) d) (rawBytes bytes) = none)
    (hpl : t.placementFor (loadedImage (rawBytes bytes) d) = some pl) :
    let i := loadedImage (rawBytes bytes) d
    let u := (t.checkImage d.id d bytes).bump
    u.ended d.id 0 (BitVec.ofNat 64 (d.nat 16 8)) ∧ (u.paddock d.paddock).image = some i
      ∧ (u.paddock d.paddock).reins = i.reins pl ∧ (u.paddock d.paddock).channels = i.channels pl
      ∧ (u.paddock d.paddock).groups = i.groups pl ∧ (u.paddock d.paddock).mirrors = i.mirrorRanges pl
      ∧ ∀ r ∈ i.regionsIn pl, (u.region r).barriers = objectMap (wordsOf (i.sec pl 3 r)) ∧ (u.region r).due = [] := by
  have hpl' : (t.leaveImage d.paddock).placementFor (loadedImage (rawBytes bytes) d) = some pl :=
    (t.leaveImage_keeps d.paddock fun t => t.placementFor (loadedImage (rawBytes bytes) d)).trans hpl
  have hx' : (t.leaveImage d.paddock).desc d.id = some x := (t.leaveImage_keeps d.paddock fun t => t.desc d.id).trans hx
  have hcheck : t.checkImage d.id d bytes = (t.leaveImage d.paddock).loadInto d (loadedImage (rawBytes bytes) d) bytes := by
    simp only [State.checkImage, hok, hfree, Bool.not_true, Bool.false_eq_true, if_false]
  obtain ⟨hended, ⟨free, pd, -, hpd⟩, hregions⟩ := State.loadInto_leaves hpl' hx' hs bytes
  dsimp only
  rw [hcheck, hpd]
  exact ⟨hended, rfl, rfl, rfl, rfl, rfl, hregions⟩

theorem State.loadChained_keeps {β : Type} (s : State) (id : Nat) (d : Desc) (proj : State → β)
    (hdescs : ∀ (t : State) descs, proj { t with descs := descs } = proj t := by intros; rfl) :
    proj (s.loadChained id d) = proj (s.loadRead d) := State.chain_keeps _ _ _ _ proj hdescs

section
variable {s : State} {id : Nat} {d : Desc} (h : s.loadDue id d)
include h

/-- An image whose bytes fail their checks is refused, and the paddock keeps the one it has. -/
theorem loadImage_refuses (hbad : imageBytesOk (rawBytes (s.loadBytes d)) (s.paddock d.paddock).rect (d.nat 16 8) false = false) :
    ∃ u, exec (.loadImage id) s = .next u ∧ u.ended id 0x0200 0 ∧ (u.paddock d.paddock).image = (s.paddock d.paddock).image
      ∧ u.tiles = s.tiles := by
  obtain ⟨x, hx, hstatus⟩ := State.desc_loadChained (State.desc_of_atDesc h.due)
  have hpaddock : (s.loadChained id d).paddock d.paddock = s.paddock d.paddock :=
    (s.loadChained_keeps id d fun t => t.paddock d.paddock).trans ((s.tiersOnly_loadRead d).keeps fun t => t.paddock d.paddock)
  have htiles : (s.loadChained id d).tiles = s.tiles :=
    (s.loadChained_keeps id d State.tiles).trans ((s.tiersOnly_loadRead d).keeps State.tiles)
  have hcheck : (s.loadChained id d).checkImage id d (s.loadBytes d) = (s.loadChained id d).finishDesc id 0x0200 0 := by
    simp [State.checkImage, hpaddock, hbad]
  refine ⟨_, exec_loadImage_of_due h, ?_⟩
  rw [hcheck]
  exact ⟨State.ended_finishDesc hx (hstatus.trans (State.status_of_atDesc h.due)) _ _,
    (State.finished_keeps _ _ _ _ fun t => (t.paddock d.paddock).image).trans (congrArg Paddock.image hpaddock),
    (State.finished_keeps _ _ _ _ State.tiles).trans htiles⟩

/-- An image that passes its checks and is not refused is its paddock's, with its placement's declarations. -/
theorem loadImage_takes {pl : Nat} (hok : imageBytesOk (rawBytes (s.loadBytes d)) (s.paddock d.paddock).rect (d.nat 16 8) false = true)
    (hfree : (s.loadRead d).imageRefused d.paddock (loadedImage (rawBytes (s.loadBytes d)) d) (rawBytes (s.loadBytes d)) = none)
    (hpl : (s.loadRead d).placementFor (loadedImage (rawBytes (s.loadBytes d)) d) = some pl) :
    let i := loadedImage (rawBytes (s.loadBytes d)) d
    ∃ u, exec (.loadImage id) s = .next u ∧ u.ended id 0 (BitVec.ofNat 64 (d.nat 16 8)) ∧ (u.paddock d.paddock).image = some i
      ∧ (u.paddock d.paddock).reins = i.reins pl ∧ (u.paddock d.paddock).channels = i.channels pl
      ∧ (u.paddock d.paddock).groups = i.groups pl ∧ (u.paddock d.paddock).mirrors = i.mirrorRanges pl
      ∧ ∀ r ∈ i.regionsIn pl, (u.region r).barriers = objectMap (wordsOf (i.sec pl 3 r)) ∧ (u.region r).due = [] := by
  obtain rfl : d.id = id := State.desc_id (State.desc_of_atDesc h.due)
  obtain ⟨x, hx, hstatus⟩ := State.desc_loadChained (State.desc_of_atDesc h.due)
  have hrect : ((s.loadChained d.id d).paddock d.paddock).rect = (s.paddock d.paddock).rect :=
    (s.loadChained_keeps d.id d fun t => (t.paddock d.paddock).rect).trans
      ((s.tiersOnly_loadRead d).keeps fun t => (t.paddock d.paddock).rect)
  exact ⟨_, exec_loadImage_of_due h, State.checkImage_takes hx (hstatus.trans (State.status_of_atDesc h.due)) (hrect ▸ hok)
    ((s.loadChained_keeps d.id d fun t => t.imageRefused d.paddock _ _).trans hfree)
    ((s.loadChained_keeps d.id d fun t => t.placementFor _).trans hpl)⟩

end

/-! ## LOAD_IMAGE over the image of another paddock (10, R321; log entry 66) -/

/-- The image of a shared load: the plan read from host memory, over the other sections of the source image. -/
abbrev sharedImage (raw : List (BitVec 8)) (d : Desc) (i0 : Image) : Image :=
  { readImage raw (d.nat 32 8) i0.length (some (d.nat 9 1)) with
    sections := (readImage raw (d.nat 32 8) i0.length none).sections ++ i0.sections.filter (fun x => x.kind == 8) }

theorem Paddock.length_dropImage (d : Paddock) : d.dropImage.nearUnits.length = d.nearUnits.length := by
  simp [Paddock.dropImage]

/-- Mapping an image changes the near tier and its paddock. -/
theorem State.mapImage_keeps {β : Type} (s : State) (p : Nat) (source : Paddock) (i : Image) (base : Nat) (proj : State → β)
    (hnear : ∀ (t : State) x, proj (t.setTier false x) = proj t := by intros; rfl)
    (hpaddock : ∀ (t : State) q x, proj (t.setPaddock q x) = proj t := by intros; rfl) :
    proj (s.mapImage p source i base) = proj s := by
  unfold State.mapImage
  dsimp only
  rw [State.onPaddock, hpaddock]
  exact hnear s _

/-- A paddock in whose share the units of a source image stand. -/
def Paddock.mapUnits (us : List Nat) (u0 : Nat) (d : Paddock) : Paddock :=
  { d with
    kept := (List.range us.length).map (fun n => (u0 + n, d.nearUnits.getD (u0 + n) 0))
    nearUnits := (List.range d.nearUnits.length).map (fun n =>
      if u0 ≤ n ∧ n < u0 + us.length then us.getD (n - u0) 0 else d.nearUnits.getD n 0) }

theorem Paddock.nearUnits_mapUnits (us : List Nat) (u0 : Nat) (d : Paddock) {n : Nat} (hn : n < us.length)
    (hroom : u0 + n < d.nearUnits.length) : (d.mapUnits us u0).nearUnits.getD (u0 + n) 0 = us.getD n 0 := by
  refine (getD_map_range _ 0 hroom).trans ?_
  rw [if_pos ⟨Nat.le_add_right _ _, Nat.add_lt_add_left hn _⟩, Nat.add_sub_cancel_left]

theorem State.paddock_mapImage (s : State) (p : Nat) (source : Paddock) (i : Image) (base : Nat) :
    (s.mapImage p source i base).paddock p = (s.paddock p).mapUnits (i.tierUnits source) (base / 2 ^ 30) := by
  have hnear : ∀ (t : State) x, ({ t with near := x } : State).paddock p = t.paddock p := fun _ _ => rfl
  unfold State.mapImage
  dsimp only
  rw [State.paddock_onPaddock, hnear]
  rfl

/-- The work of a shared load that is not refused. -/
theorem exec_loadImageShared_of_mapped {s : State} {id : Nat} {d : Desc} {i0 : Image} (h : s.atDesc id 0x0020 d)
    (hidle : (s.paddock d.paddock).current = none) (hsource : d.nat 8 1 = 2) (hstaged : d.staged = none)
    (hshared : s.shared d.paddock = false) (hi0 : (s.paddock (d.nat 9 1)).image = some i0) :
    let raw := rawBytes (s.hostBytes (d.nat 24 8) (d.nat 16 8))
    let t := s.chain id 0x0001 (loadRecord raw d)
    imageBytesOk raw (s.paddock d.paddock).rect (d.nat 16 8) true = true → (sharedImage raw d i0).digest = i0.digest →
    d.nat 9 1 ≠ d.paddock → mayMap (s.paddock (d.nat 9 1)) (s.paddock d.paddock) i0 (d.nat 32 8) = true →
    t.imageRefused d.paddock (sharedImage raw d i0) (rawBytes (t.shareBytes (d.nat 9 1) false i0.base i0.length)) = none →
    exec (.loadImageShared id) s = .next (((t.leaveImage d.paddock).mapImage d.paddock (s.paddock (d.nat 9 1)) i0
      (d.nat 32 8)).loadInto d (sharedImage raw d i0) []).bump := by
  intro raw t hok hdigest hother hmap hfree
  rw [exec_loadImageShared, execLoadImageShared]
  refine descWork_of_atDesc h ?_
  have hsame := bne_eq_false_iff_eq.mpr hdigest
  simp only [raw, t, sharedImage, rawBytes] at hok hsame hfree ⊢
  simp only [hsource, hidle, State.hostFor_of_unstaged hstaged, Desc.hostReady_of_unstaged hstaged,
    State.stagingTurn_of_unshared hshared, State.forwardStaged_of_unshared hshared, hi0, hok, hsame, hother, hmap, hfree,
    Option.isSome_none, Bool.not_true, Bool.or_self, Bool.and_self, Bool.false_eq_true, decide_false, if_false, ne_eq,
    not_true_eq_false]

/-- An image that is not refused has a placement. -/
theorem State.placementFor_of_unrefused {s : State} {p : Nat} {i : Image} {content : List (BitVec 8)}
    (h : s.imageRefused p i content = none) : ∃ pl, s.placementFor i = some pl := by
  cases hpl : s.placementFor i with
  | some pl => exact ⟨pl, rfl⟩
  | none =>
    unfold State.imageRefused at h
    simp only [hpl] at h
    split at h <;> exact nomatch h

/-- The share units in which a source image is mapped are the share's own. -/
theorem room_of_mayMap {source pd : Paddock} {i : Image} {base : Nat} (h : mayMap source pd i base = true) :
    base / 2 ^ 30 + (i.tierUnits source).length ≤ pd.nearUnits.length := by
  unfold mayMap at h
  simp only [Bool.and_eq_true, decide_eq_true_eq] at h
  exact h.1.2

/-- What an image taken over a source image leaves. -/
theorem State.loadMapped_leaves {t : State} {d x : Desc} {i i0 : Image} {pl : Nat} {src : Paddock}
    (hpl : t.placementFor i = some pl) (hx : t.desc d.id = some x) (hs : x.status = none)
    (hmap : mayMap src (t.paddock d.paddock) i0 (d.nat 32 8) = true) :
    let u := (((t.leaveImage d.paddock).mapImage d.paddock src i0 (d.nat 32 8)).loadInto d i []).bump
    u.ended d.id 0 (BitVec.ofNat 64 i.length) ∧ (u.paddock d.paddock).image = some i ∧ u.hostMem = t.hostMem
      ∧ ∀ n, n < (i0.tierUnits src).length →
          (u.paddock d.paddock).nearUnits.getD (d.nat 32 8 / 2 ^ 30 + n) 0 = (i0.tierUnits src).getD n 0 := by
  have hpl' : ((t.leaveImage d.paddock).mapImage d.paddock src i0 (d.nat 32 8)).placementFor i = some pl :=
    (State.mapImage_keeps _ _ _ _ _ fun t => t.placementFor i).trans ((t.leaveImage_keeps d.paddock fun t => t.placementFor i).trans hpl)
  have hx' : ((t.leaveImage d.paddock).mapImage d.paddock src i0 (d.nat 32 8)).desc d.id = some x :=
    (State.mapImage_keeps _ _ _ _ _ fun t => t.desc d.id).trans ((t.leaveImage_keeps d.paddock fun t => t.desc d.id).trans hx)
  have hmem : ((t.leaveImage d.paddock).mapImage d.paddock src i0 (d.nat 32 8)).hostMem = t.hostMem :=
    (State.mapImage_keeps _ _ _ _ _ State.hostMem).trans (t.leaveImage_keeps d.paddock State.hostMem)
  obtain ⟨hended, ⟨free, pd, hnear, hpd⟩, -⟩ := State.loadInto_leaves hpl' hx' hs []
  dsimp only
  rw [hpd]
  refine ⟨hended, rfl, (State.bump_hostMem _).trans ((State.hostMem_loadInto_nil hpl' d).trans hmem), fun n hn => ?_⟩
  have hroom := Nat.lt_of_lt_of_le (Nat.add_lt_add_left hn _) (room_of_mayMap hmap)
  have hkept : (i.installPaddock pl free pd).nearUnits = pd.nearUnits := rfl
  rw [hkept, hnear, State.paddock_mapImage, State.paddock_leaveImage]
  exact Paddock.nearUnits_mapUnits _ _ _ hn (by rwa [Paddock.length_dropImage])

theorem State.shareBytes_chain (s : State) (id kind : Nat) (payload : List (BitVec 8)) (p : Nat) (far : Bool) (off n : Nat) :
    (s.chain id kind payload).shareBytes p far off n = s.shareBytes p far off n :=
  s.chain_keeps id kind payload fun t => t.shareBytes p far off n

theorem State.imageRefused_chain (s : State) (id kind : Nat) (payload : List (BitVec 8)) (p : Nat) (i : Image)
    (content : List (BitVec 8)) : (s.chain id kind payload).imageRefused p i content = s.imageRefused p i content :=
  s.chain_keeps id kind payload fun t => t.imageRefused p i content

/-- A shared load that is not refused makes its image the paddock's, with the source's units in the share. -/
theorem loadImageShared_takes {s : State} {id : Nat} {d : Desc} {i0 : Image} (h : s.atDesc id 0x0020 d)
    (hidle : (s.paddock d.paddock).current = none) (hsource : d.nat 8 1 = 2) (hstaged : d.staged = none)
    (hshared : s.shared d.paddock = false) (hi0 : (s.paddock (d.nat 9 1)).image = some i0) :
    let src := s.paddock (d.nat 9 1)
    let raw := rawBytes (s.hostBytes (d.nat 24 8) (d.nat 16 8))
    imageBytesOk raw (s.paddock d.paddock).rect (d.nat 16 8) true = true → (sharedImage raw d i0).digest = i0.digest →
    d.nat 9 1 ≠ d.paddock → mayMap src (s.paddock d.paddock) i0 (d.nat 32 8) = true →
    s.imageRefused d.paddock (sharedImage raw d i0) (rawBytes (s.shareBytes (d.nat 9 1) false i0.base i0.length)) = none →
    ∃ u, exec (.loadImageShared id) s = .next u ∧ u.ended id 0 (BitVec.ofNat 64 i0.length)
      ∧ (u.paddock d.paddock).image = some (sharedImage raw d i0) ∧ (sharedImage raw d i0).shared = some (d.nat 9 1)
      ∧ u.hostMem = s.hostMem
      ∧ ∀ n, n < (i0.tierUnits src).length →
          (u.paddock d.paddock).nearUnits.getD (d.nat 32 8 / 2 ^ 30 + n) 0 = (i0.tierUnits src).getD n 0 := by
  intro src raw hok hdigest hother hmap hfree
  obtain rfl : d.id = id := State.desc_id (State.desc_of_atDesc h)
  have hfree' : (s.chain d.id 0x0001 (loadRecord raw d)).imageRefused d.paddock (sharedImage raw d i0)
      (rawBytes ((s.chain d.id 0x0001 (loadRecord raw d)).shareBytes (d.nat 9 1) false i0.base i0.length)) = none := by
    rw [State.shareBytes_chain, State.imageRefused_chain]
    exact hfree
  obtain ⟨pl, hpl⟩ := State.placementFor_of_unrefused hfree'
  obtain ⟨x, hx, hxs⟩ : ∃ x, (s.chain d.id 0x0001 (loadRecord raw d)).desc d.id = some x ∧ x.status = d.status :=
    ⟨_, State.desc_onDesc (State.desc_of_atDesc h) fun _ => rfl, rfl⟩
  obtain ⟨hended, himage, hmem, hunits⟩ :=
    State.loadMapped_leaves (src := src) hpl hx (hxs.trans (State.status_of_atDesc h)) hmap
  exact ⟨_, exec_loadImageShared_of_mapped h hidle hsource hstaged hshared hi0 hok hdigest hother hmap hfree', hended, himage, rfl,
    hmem.trans (State.chain_keeps _ _ _ _ State.hostMem), hunits⟩

/-! ## UNLOAD_IMAGE (R437, R441) -/

/-- The work of an UNLOAD_IMAGE of an unpaired paddock. -/
theorem exec_unloadImage_of_unpaired {s : State} {id : Nat} {d : Desc} (h : s.atDesc id 0x0021 d)
    (hidle : (s.paddock d.paddock).current = none) (hpair : (s.paddock d.paddock).pairMode = 0) :
    exec (.unloadImage id) s = .next (((((s.unmapImage d.paddock).onPaddock d.paddock
      (fun d => { d.dropImage with ended := none })).chain id 0x0002 (s.paddock d.paddock).imageDigest).finishDesc id 0 0)).bump := by
  rw [exec_unloadImage, execUnloadImage]
  refine descWork_of_atDesc h ?_
  simp only [hidle, hpair, Option.isSome_none, bne_self_eq_false, Bool.false_eq_true, if_false]

theorem unloadImage_leaves {s : State} {id : Nat} {d : Desc} (h : s.atDesc id 0x0021 d)
    (hidle : (s.paddock d.paddock).current = none) (hpair : (s.paddock d.paddock).pairMode = 0) :
    ∃ u, exec (.unloadImage id) s = .next u ∧ u.ended id 0 0 ∧ (u.paddock d.paddock).image = none
      ∧ (u.paddock d.paddock).ended = none ∧ (u.paddock d.paddock).reins = [] ∧ (u.paddock d.paddock).channels = []
      ∧ (u.paddock d.paddock).wafer = {} ∧ u.tiles = s.tiles ∧ ∀ q, q ≠ d.paddock → u.paddock q = s.paddock q := by
  set t := (s.unmapImage d.paddock).onPaddock d.paddock (fun d => { d.dropImage with ended := none }) with ht
  have hkeep := s.tiersOnly_unmapImage d.paddock
  have hdesc : t.desc id = some d := (hkeep.keeps fun t => t.desc id).trans (State.desc_of_atDesc h)
  obtain ⟨x, hx, hxs⟩ : ∃ x, (t.chain id 0x0002 (s.paddock d.paddock).imageDigest).desc id = some x ∧ x.status = d.status :=
    ⟨_, State.desc_onDesc hdesc fun _ => rfl, rfl⟩
  have hpd : t.paddock d.paddock = { (s.paddock d.paddock).dropImage with ended := none } := by
    rw [ht, State.paddock_onPaddock, hkeep.keeps fun t => t.paddock d.paddock]
  have hleft : ∀ q, (((t.chain id 0x0002 (s.paddock d.paddock).imageDigest).finishDesc id 0 0).bump).paddock q = t.paddock q :=
    fun q => (State.finished_keeps _ _ _ _ fun t => t.paddock q).trans (State.chain_keeps _ _ _ _ fun t => t.paddock q)
  refine ⟨_, exec_unloadImage_of_unpaired h hidle hpair, State.ended_finishDesc hx (hxs.trans (State.status_of_atDesc h)) _ _, ?_⟩
  rw [hleft, hpd]
  refine ⟨rfl, rfl, rfl, rfl, rfl, ?_, fun q hq => ?_⟩
  · exact (State.finished_keeps _ _ _ _ State.tiles).trans ((State.chain_keeps _ _ _ _ State.tiles).trans (hkeep.keeps State.tiles))
  · rw [hleft, ht, State.paddock_onPaddock_other _ _ _ _ hq, hkeep.keeps fun t => t.paddock q]

end Sys2Proof.Machine
end

section
/-! PADDOCK_CREATE, PADDOCK_DESTROY and BUDGET_SET (01, R42, R45; 10, R320; 14, R435; 15, R459; log entries 67, 68 and 128). -/

namespace Sys2Proof.Machine

/-! ## Folds over regions, ring pairs and tiles -/

/-- Ring pairs of a list that all take a change read back changed, where the change may be made twice. -/
theorem State.ring_foldl_setRing {f : Ring → Ring} (hf : ∀ r, f (f r) = f r) (l : List Nat) (s : State) (n : Nat) :
    (l.foldl (fun s n => s.setRing n (f (s.ring n))) s).ring n = if n ∈ l then f (s.ring n) else s.ring n := by
  induction l generalizing s with
  | nil => rfl
  | cons m l ih =>
    rw [List.foldl_cons, ih]
    by_cases hm : n = m
    · subst hm
      simp [hf]
    · simp only [List.mem_cons, hm, false_or, State.ring_setRing_other _ _ hm]

/-- So do regions, -/
theorem State.region_foldl_of_idem {f : Region → Region} (hf : ∀ g, f (f g) = f g) (l : List Nat) (s : State) (r : Nat) :
    (l.foldl (fun s r => s.onRegion r f) s).region r = if r ∈ l then f (s.region r) else s.region r := by
  induction l generalizing s with
  | nil => rfl
  | cons q l ih =>
    rw [List.foldl_cons, ih]
    by_cases hq : r = q
    · subst hq
      simp [hf]
    · simp only [List.mem_cons, hq, false_or, State.region_onRegion_other _ _ _ _ hq]

/-- and tiles. -/
theorem State.tile_foldl_of_idem {f : Tile → Tile} (hf : ∀ t, f (f t) = f t) (l : List Nat) (s : State) (k : Nat) :
    (l.foldl (fun s k => s.onTile k f) s).tile k = if k ∈ l then f (s.tile k) else s.tile k := by
  induction l generalizing s with
  | nil => rfl
  | cons j l ih =>
    rw [List.foldl_cons, ih]
    by_cases hj : k = j
    · subst hj
      simp [State.tile_onTile, hf]
    · simp only [List.mem_cons, hj, false_or, State.otherTiles_onTile s j f k hj]

theorem look_of_not_mem {α : Type} {m : Map α} {k : Nat} (h : k ∉ m.map Prod.fst) : look m k = none := by
  induction m with
  | nil => rfl
  | cons x m ih =>
    obtain ⟨j, v⟩ := x
    rw [List.map_cons, List.mem_cons, not_or] at h
    rw [look, if_neg (Ne.symm h.1), ih h.2]

/-- A tile that the state does not list is as the engine's reset leaves it. -/
theorem State.tile_of_unlisted {s : State} {k : Nat} (h : k ∉ s.tiles.map Prod.fst) : s.tile k = Tile.reset := by
  rw [State.tile, getD, look_of_not_mem h]
  rfl

/-- A reset of a paddock's tiles: each tile of a region that it owns. -/
theorem State.tile_onTilesOf_afterReset (s : State) (p k : Nat) :
    (s.onTilesOf p (fun _ t => t.afterReset)).tile k = if s.ownerOf k = p then (s.tile k).afterReset else s.tile k := by
  refine (State.tile_foldl_of_idem (f := Tile.afterReset) (fun _ => rfl) _ s k).trans ?_
  by_cases hmem : k ∈ s.tiles.map Prod.fst
  · simp only [State.listedTiles, List.mem_filter, hmem, true_and, beq_iff_eq]
  · have hreset : (s.tile k).afterReset = s.tile k := by
      rw [State.tile_of_unlisted hmem]
      rfl
    rw [hreset, ite_self, ite_self]

/-! ## Regions in transit (R35) -/

/-- Every region has the same owner, and the ACTIVE regions are the same. -/
def State.heldAlike (s t : State) : Prop :=
  ∀ r, (t.region r).owner = (s.region r).owner ∧ ((t.region r).state = .active ↔ (s.region r).state = .active)

theorem State.heldAlike.refl (s : State) : s.heldAlike s := fun _ => ⟨rfl, .rfl⟩

theorem State.heldAlike.trans {s t u : State} (h : s.heldAlike t) (h' : t.heldAlike u) : s.heldAlike u := fun r =>
  ⟨(h' r).1.trans (h r).1, (h' r).2.trans (h r).2⟩

theorem State.heldAlike_foldl {α : Type} (f : State → α → State) (h : ∀ (s : State) a, s.heldAlike (f s a)) (l : List α)
    (s : State) : s.heldAlike (l.foldl f s) := by
  induction l generalizing s with
  | nil => exact .refl s
  | cons a l ih => exact (h s a).trans (ih _)

theorem State.heldAlike_setRegion {s : State} {r : Nat} {g : Region} (howner : g.owner = (s.region r).owner)
    (hactive : g.state = .active ↔ (s.region r).state = .active) : s.heldAlike (s.setRegion r g) := fun j => by
  by_cases hj : j = r
  · rw [hj, State.region_setRegion]
    exact ⟨howner, hactive⟩
  · rw [State.region_setRegion_other _ _ _ _ hj]
    exact ⟨rfl, .rfl⟩

theorem State.heldAlike_if {s t : State} (c : Prop) [Decidable c] (h : s.heldAlike t) : s.heldAlike (if c then t else s) := by
  split
  · exact h
  · exact .refl s

theorem State.heldAlike_installStirrups (s : State) : s.heldAlike s.installStirrups := fun _ => ⟨rfl, .rfl⟩

/-- Regions go into TRANSIT and out of it: their owners stay, and none that is ACTIVE goes. -/
theorem State.heldAlike_settleTransit (s : State) : s.heldAlike s.settleTransit := by
  refine State.heldAlike.trans (State.heldAlike_foldl _ (fun s r => ?_) _ s) (State.heldAlike_installStirrups _)
  dsimp only
  split
  case h_1 hg => exact State.heldAlike_if _ (State.heldAlike_setRegion rfl (by simp [hg]))
  case h_2 hg => exact State.heldAlike_if _ (State.heldAlike_setRegion rfl (by simp [hg]))
  case h_3 => exact .refl s

/-- What is no region and no stirrup stays. -/
theorem State.settleTransit_keeps {β : Type} (s : State) (proj : State → β)
    (hproj : ∀ (t : State) regions stirrups, proj { t with regions := regions, stirrups := stirrups } = proj t := by intros; rfl) :
    proj s.settleTransit = proj s := by
  obtain ⟨⟨regions, stirrups, h⟩, -⟩ := s.aside_settleTransit
  rw [h, hproj]

/-! ## Allotted units (10, R320) -/

/-- A granule of the allotted units reads as nothing, any other as before. -/
theorem getD_foldl_clearRange {α : Type} (x : α) (us : List Nat) (m : Map α) (g : Nat) :
    getD x (us.foldl (fun m u => clearRange m (u * 2 ^ 24) ((u + 1) * 2 ^ 24)) m) g
      = if us.contains (g / 2 ^ 24) then x else getD x m g := by
  induction us generalizing m with
  | nil => rfl
  | cons u us ih =>
    rw [List.foldl_cons, ih, List.contains_cons]
    by_cases hu : g / 2 ^ 24 = u
    · rw [getD_clearRange_inside x m (by omega), beq_iff_eq.mpr hu, Bool.true_or, if_pos rfl, ite_self]
    · rw [getD_clearRange_outside x m (by omega), beq_eq_false_iff_ne.mpr hu, Bool.false_or]

theorem State.granule_zeroUnits (s : State) (far : Bool) (us : List Nat) (g : Nat) :
    ((s.zeroUnits far us).tier far).granule g = if us.contains (g / 2 ^ 24) then {} else (s.tier far).granule g := by
  rw [State.zeroUnits, State.tier_setTier]
  exact getD_foldl_clearRange _ us _ g

/-- The state with the units of a new paddock's shares zero. -/
def State.zeroShares (s : State) (near far : List Nat) : State := (s.zeroUnits false near).zeroUnits true far

theorem State.zeroShares_keeps {β : Type} (s : State) (near far : List Nat) (proj : State → β)
    (hproj : ∀ (t : State) far x, proj (t.setTier far x) = proj t := by intro _ far _; cases far <;> rfl) :
    proj (s.zeroShares near far) = proj s := (hproj _ true _).trans (hproj s false _)

theorem State.near_zeroShares (s : State) (near far : List Nat) (g : Nat) :
    (s.zeroShares near far).near.granule g = if near.contains (g / 2 ^ 24) then {} else s.near.granule g :=
  s.granule_zeroUnits false near g

theorem State.far_zeroShares (s : State) (near far : List Nat) (g : Nat) :
    (s.zeroShares near far).far.granule g = if far.contains (g / 2 ^ 24) then {} else s.far.granule g :=
  (State.granule_zeroUnits _ true far g).trans (by rw [State.zeroUnits]; rfl)

/-! ## PADDOCK_CREATE (R42, R435) -/

/-- A ring pair given to a paddock. -/
def Ring.given (p : Nat) (r : Ring) : Ring := { r with paddock := p, chainIn := 0, chainSeed := 0, chainOut := 0 }

/-- The regions of a new paddock. -/
abbrev newRegions (d : Desc) : List Nat := rectRegions (d.nat 8 1, d.nat 9 1, d.nat 10 1, d.nat 11 1)

/-- The state with a new paddock, its regions and its ring pairs, before its tiles are reset. -/
def State.created (s : State) (d : Desc) (near far : List Nat) : State :=
  let p := d.nat 3 1
  (ringMask d).foldl (fun s n => s.setRing n ((s.ring n).given p))
    ((newRegions d).foldl (fun s r => s.onRegion r (fun g => g.activate p))
      (((s.zeroShares near far).resetPaddockRegs p).setPaddock p (s.newPaddock d near far)))

/-- The work of a PADDOCK_CREATE that is not refused and finds its units. -/
theorem exec_paddockCreate_of_allotted {s : State} {id : Nat} {d : Desc} {near far : List Nat} (h : s.atDesc id 0x0100 d)
    (hgood : s.createBad d = false) (hnear : allotUnits false (tierUnitCount false) (d.nat 12 2) 0 (s.unitsHeld false) = some near)
    (hfar : allotUnits true (tierUnitCount true) (d.nat 14 2) 0 (s.unitsHeld true) = some far) :
    exec (.paddockCreate id) s = .next ((((s.created d near far).onTilesOf (d.nat 3 1)
      (fun _ t => t.afterReset)).settleTransit.finishDesc id 0 0)).bump := by
  have hnew : (s.zeroShares near far).newPaddock d near far = s.newPaddock d near far :=
    s.zeroShares_keeps near far fun t => t.newPaddock d near far
  rw [exec_paddockCreate, execPaddockCreate]
  refine descWork_of_atDesc h ?_
  dsimp only
  rw [if_neg (by simp [hgood]), hnear, hfar, State.created, ← hnew]
  rfl

section
variable (s : State) (d : Desc) (near far : List Nat)

theorem State.created_keeps {β : Type} (proj : State → β)
    (hring : ∀ (t : State) n r, proj (t.setRing n r) = proj t := by intros; rfl)
    (hregion : ∀ (t : State) r g, proj (t.setRegion r g) = proj t := by intros; rfl)
    (hpaddock : ∀ (t : State) p x, proj (t.setPaddock p x) = proj t := by intros; rfl)
    (hregs : ∀ (t : State) p, proj (t.resetPaddockRegs p) = proj t := by intros; rfl) :
    proj (s.created d near far) = proj (s.zeroShares near far) :=
  (foldl_keeps proj _ (fun t n => hring t n _) _ _).trans
    ((foldl_keeps proj _ (fun t r => hregion t r _) _ _).trans ((hpaddock _ _ _).trans (hregs _ _)))

/-- The paddocks of the state with a new paddock. -/
theorem State.created_paddocks : (s.created d near far).paddocks
    = (((s.zeroShares near far).resetPaddockRegs (d.nat 3 1)).setPaddock (d.nat 3 1) (s.newPaddock d near far)).paddocks :=
  (foldl_keeps State.paddocks _ (fun t n => by rfl) _ _).trans (foldl_keeps State.paddocks _ (fun t r => by rfl) _ _)

theorem State.paddock_created : (s.created d near far).paddock (d.nat 3 1) = s.newPaddock d near far :=
  (State.paddock_congr (s.created_paddocks d near far) _).trans (State.paddock_setPaddock _ _ _)

theorem State.paddock_created_other {q : Nat} (hq : q ≠ d.nat 3 1) : (s.created d near far).paddock q = s.paddock q := by
  have hregs : ∀ (t : State) p, (t.resetPaddockRegs p).paddock q = t.paddock q := fun _ _ => rfl
  rw [State.paddock_congr (s.created_paddocks d near far), State.paddock_setPaddock_other _ _ _ _ hq, hregs]
  exact s.zeroShares_keeps near far fun t => t.paddock q

theorem State.region_created (r : Nat) : (s.created d near far).region r
    = if r ∈ newRegions d then (s.region r).activate (d.nat 3 1) else s.region r := by
  have hring : ∀ (l : List Nat) (t : State),
      (l.foldl (fun s n => s.setRing n ((s.ring n).given (d.nat 3 1))) t).region r = t.region r := fun l t =>
    foldl_keeps (fun t => t.region r) _ (fun _ _ => by rfl) l t
  have hbase : ∀ (t : State) p x, ((t.resetPaddockRegs p).setPaddock p x).region r = t.region r := fun _ _ _ => rfl
  rw [State.created, hring, State.region_foldl_of_idem (f := fun g => g.activate (d.nat 3 1)) (fun _ => rfl), hbase,
    s.zeroShares_keeps near far fun t => t.region r]

theorem State.ring_created {n : Nat} (hn : n ∈ ringMask d) : ∃ r, (s.created d near far).ring n = Ring.given (d.nat 3 1) r :=
  ⟨_, (State.ring_foldl_setRing (f := Ring.given (d.nat 3 1)) (fun _ => rfl) _ _ n).trans (if_pos hn)⟩

end

theorem State.onTilesOf_keeps {β : Type} (s : State) (p : Nat) (f : Nat → Tile → Tile) (proj : State → β)
    (hproj : ∀ (t : State) k x, proj (t.setTile k x) = proj t := by intros; rfl) : proj (s.onTilesOf p f) = proj s :=
  foldl_keeps proj _ (fun t k => hproj t k _) _ _

/-- Tiles reset, regions settled and a descriptor ended: no more than these change. -/
theorem State.settled_keeps {β : Type} (w : State) (p id : Nat) (proj : State → β)
    (htile : ∀ (t : State) k x, proj (t.setTile k x) = proj t := by intros; rfl)
    (hproj : ∀ (t : State) regions stirrups descs free,
      proj { t with regions := regions, stirrups := stirrups, descs := descs, free := free } = proj t := by intros; rfl) :
    proj ((w.onTilesOf p (fun _ t => t.afterReset)).settleTransit.finishDesc id 0 0).bump = proj w := by
  rw [State.finished_keeps _ _ _ _ proj fun t descs free => hproj t t.regions t.stirrups descs free,
    State.settleTransit_keeps _ proj fun t regions stirrups => hproj t regions stirrups t.descs t.free,
    w.onTilesOf_keeps p _ proj htile]

/-- What a PADDOCK_CREATE leaves. -/
theorem paddockCreate_leaves {s : State} {id : Nat} {d : Desc} {near far : List Nat} (h : s.atDesc id 0x0100 d)
    (hgood : s.createBad d = false) (hnear : allotUnits false (tierUnitCount false) (d.nat 12 2) 0 (s.unitsHeld false) = some near)
    (hfar : allotUnits true (tierUnitCount true) (d.nat 14 2) 0 (s.unitsHeld true) = some far) :
    let p := d.nat 3 1
    ∃ u, exec (.paddockCreate id) s = .next u ∧ u.ended id 0 0 ∧ u.paddock p = s.newPaddock d near far
      ∧ (∀ q, q ≠ p → u.paddock q = s.paddock q)
      ∧ (∀ r ∈ newRegions d, (u.region r).state = .active ∧ (u.region r).owner = p)
      ∧ (∀ n ∈ ringMask d, (u.ring n).paddock = p ∧ (u.ring n).chainIn = 0 ∧ (u.ring n).chainSeed = 0
          ∧ (u.ring n).chainOut = 0)
      ∧ (∀ g, near.contains (g / 2 ^ 24) = true → u.near.granule g = {})
      ∧ (∀ g, near.contains (g / 2 ^ 24) = false → u.near.granule g = s.near.granule g)
      ∧ (∀ g, far.contains (g / 2 ^ 24) = true → u.far.granule g = {})
      ∧ (∀ k, (newRegions d).contains (regionOfTile k) = true → u.tile k = (s.tile k).afterReset)
      ∧ (∀ k, (newRegions d).contains (regionOfTile k) = false → s.ownerOf k ≠ p → u.tile k = s.tile k) := by
  intro p
  have hexec := exec_paddockCreate_of_allotted h hgood hnear hfar
  set w := s.created d near far with hw
  have hdesc : (w.onTilesOf p (fun _ t => t.afterReset)).settleTransit.desc id = some d := by
    rw [State.settleTransit_keeps _ fun t => t.desc id, w.onTilesOf_keeps p _ fun t => t.desc id, hw,
      s.created_keeps d near far fun t => t.desc id, s.zeroShares_keeps near far fun t => t.desc id]
    exact State.desc_of_atDesc h
  have htile : ∀ k, ((w.onTilesOf p (fun _ t => t.afterReset)).settleTransit.finishDesc id 0 0).bump.tile k
      = if w.ownerOf k = p then (s.tile k).afterReset else s.tile k := fun k => by
    rw [State.finished_keeps _ _ _ _ fun t => t.tile k, State.settleTransit_keeps _ fun t => t.tile k, State.tile_onTilesOf_afterReset,
      hw, s.created_keeps d near far fun t => t.tile k, s.zeroShares_keeps near far fun t => t.tile k]
  have hnearu := fun g => (w.settled_keeps p id fun t => t.near.granule g).trans
    ((s.created_keeps d near far fun t => t.near.granule g).trans (s.near_zeroShares near far g))
  have hfaru := fun g => (w.settled_keeps p id fun t => t.far.granule g).trans
    ((s.created_keeps d near far fun t => t.far.granule g).trans (s.far_zeroShares near far g))
  refine ⟨_, hexec, State.ended_finishDesc hdesc (State.status_of_atDesc h) _ _, ?_, fun q hq => ?_, fun r hr => ?_, fun n hn => ?_,
    fun g hg => (hnearu g).trans (if_pos hg), fun g hg => (hnearu g).trans (if_neg (Bool.eq_false_iff.mp hg)),
    fun g hg => (hfaru g).trans (if_pos hg), fun k hk => ?_, fun k hk howner => ?_⟩
  · exact (w.settled_keeps p id fun t => t.paddock p).trans (s.paddock_created d near far)
  · exact (w.settled_keeps p id fun t => t.paddock q).trans (s.paddock_created_other d near far hq)
  · obtain ⟨howner, hstate⟩ := (w.onTilesOf p (fun _ t => t.afterReset)).heldAlike_settleTransit r
    have hactive : (w.onTilesOf p (fun _ t => t.afterReset)).region r = (s.region r).activate p := by
      rw [w.onTilesOf_keeps p _ fun t => t.region r, hw, State.region_created, if_pos hr]
    rw [State.finished_keeps _ _ _ _ fun t => t.region r, howner, hstate, hactive]
    exact ⟨rfl, rfl⟩
  · obtain ⟨r, hr⟩ := s.ring_created d near far hn
    rw [w.settled_keeps p id fun t => t.ring n, hw, hr]
    exact ⟨rfl, rfl, rfl, rfl⟩
  · rw [htile, if_pos]
    rw [State.ownerOf, hw, State.region_created, if_pos (List.contains_iff_mem.mp hk)]
    rfl
  · rw [htile, if_neg]
    rw [State.ownerOf, hw, State.region_created, if_neg fun hmem => Bool.eq_false_iff.mp hk (List.contains_iff_mem.mpr hmem)]
    exact howner

/-! ## PADDOCK_DESTROY (R45) -/

/-- The tiles of a destroyed paddock zeroised, but those of a region that does not stand. -/
def State.zeroiseTile (s : State) (k : Nat) : State := if (s.region (regionOfTile k)).zeroises then s.onTile k Tile.zeroise else s

theorem State.zeroiseTile_keeps {β : Type} (s : State) (k : Nat) (proj : State → β)
    (hproj : ∀ (t : State) k x, proj (t.setTile k x) = proj t := by intros; rfl) : proj (s.zeroiseTile k) = proj s := by
  unfold State.zeroiseTile
  split
  · exact hproj s k _
  · rfl

/-- Each of a list of tiles whose regions zeroise is as if zeroised. -/
theorem State.tile_foldl_zeroiseTile (l : List Nat) (s : State) {k : Nat} (hz : (s.region (regionOfTile k)).zeroises = true)
    (hk : k ∈ l ∨ (s.tile k).zeroise = s.tile k) :
    ((l.foldl State.zeroiseTile s).tile k).zeroise = (l.foldl State.zeroiseTile s).tile k := by
  induction l generalizing s with
  | nil => exact hk.resolve_left List.not_mem_nil
  | cons j l ih =>
    refine ih _ ?_ ?_
    · rw [s.zeroiseTile_keeps j fun t => t.region (regionOfTile k)]
      exact hz
    · by_cases hj : k = j
      · subst hj
        rw [State.zeroiseTile, if_pos hz, State.tile_onTile]
        exact .inr rfl
      · have hother : (s.zeroiseTile j).tile k = s.tile k := by
          unfold State.zeroiseTile
          split
          · exact s.otherTiles_onTile j _ k hj
          · rfl
        rw [hother]
        exact hk.imp_left fun hmem => (List.mem_cons.mp hmem).resolve_left hj

/-- A region given up has no owner and is not ACTIVE. -/
theorem Region.release_leaves (g : Region) : g.release.owner = 0 ∧ g.release.state ≠ .active := by
  unfold Region.release
  dsimp only
  split
  case h_1 => exact ⟨rfl, RegionState.noConfusion⟩
  case h_2 hg => exact ⟨rfl, hg⟩

/-- A ring pair of a destroyed paddock has none. -/
def Ring.free (p : Nat) (r : Ring) : Ring := if r.paddock = p then { r with paddock := 0 } else r

/-- The ring pairs once those of a paddock are given up. -/
def State.freeRings (s : State) (p : Nat) : Map Ring :=
  (s.rings.map (fun kv => (kv.1, kv.2.free p))).filter (fun kv => decide (kv.2 ≠ ({} : Ring)))

/-- The state with a paddock's tiles zeroised and its regions given up. -/
def State.evicted (s : State) (p : Nat) : State :=
  (((s.unmapImage p).listedTiles p).foldl State.zeroiseTile (s.unmapImage p)).onRegionsOf p Region.release

/-- The state with a paddock destroyed, before its free regions are settled. -/
def State.vacated (s : State) (p : Nat) : State :=
  let t := s.evicted p
  ({ t with
      bursts := t.bursts.filter (fun b => b.paddock != p)
      net := t.net.filter (fun a => a.paddock != p)
      peerWaits := t.peerWaits.filter (fun w => w.packet.paddock != p)
      rings := t.freeRings p : State }.resetPaddockRegs p).setPaddock p {}

/-- A paddock whose other descriptors have all completed is destroyed without a completion. -/
theorem State.destroyPaddock_of_idle {s : State} {id p : Nat}
    (h : ∀ x ∈ s.descs, x.paddock = p → x.id = id ∨ x.completed = true) :
    s.destroyPaddock id p = (s.vacated p).settleTransit.cntFrame 23 (2 + ((s.evicted p).paddock p).relKeys.length) := by
  have hnone : s.descs.filter (fun x => x.paddock == p && x.id != id && !x.completed) = [] := by
    refine List.filter_eq_nil_iff.mpr fun x hx => ?_
    simp only [Bool.and_eq_true, beq_iff_eq, bne_iff_ne, Bool.not_eq_true', ne_eq, not_and, Bool.not_eq_false]
    exact fun ⟨hp, hid⟩ => (h x hx hp).resolve_left hid
  have hfree : ∀ t : State, t.freeRings p = (t.rings.map (fun (kv : Nat × Ring) =>
      if kv.2.paddock = p then (kv.1, { kv.2 with paddock := 0 }) else kv)).filter (fun kv => decide (kv.2 ≠ ({} : Ring))) := fun t => by
    unfold State.freeRings Ring.free
    congr 2
    funext kv
    split <;> rfl
  unfold State.destroyPaddock State.vacated
  dsimp only
  rw [hnone, hfree]
  rfl

section
variable (s : State) (p : Nat)

/-- Eviction changes tiles, regions, and in the near tier the image's units. -/
theorem State.evicted_keeps {β : Type} (proj : State → β)
    (htile : ∀ (t : State) k x, proj (t.setTile k x) = proj t := by intros; rfl)
    (hregion : ∀ (t : State) r g, proj (t.setRegion r g) = proj t := by intros; rfl)
    (htiers : ∀ near far raised cntWin bw free, proj { s with
      near := near, far := far, raised := raised, cntWin := cntWin, bw := bw, free := free } = proj s := by intros; rfl) :
    proj (s.evicted p) = proj s :=
  (foldl_keeps proj _ (fun t r => hregion t r _) _ _).trans
    ((foldl_keeps proj _ (fun t k => t.zeroiseTile_keeps k proj htile) _ _).trans ((s.tiersOnly_unmapImage p).keeps proj htiers))

/-- A paddock's end changes, besides, what it has in flight, its ring pairs, its registers and its record. -/
theorem State.vacated_keeps {β : Type} (proj : State → β)
    (hflight : ∀ (t : State) bursts net peerWaits rings,
      proj { t with bursts := bursts, net := net, peerWaits := peerWaits, rings := rings } = proj t := by intros; rfl)
    (hregs : ∀ (t : State) p, proj (t.resetPaddockRegs p) = proj t := by intros; rfl)
    (hpaddock : ∀ (t : State) p x, proj (t.setPaddock p x) = proj t := by intros; rfl) : proj (s.vacated p) = proj (s.evicted p) :=
  (hpaddock _ _ _).trans ((hregs _ _).trans (hflight _ _ _ _ _))

theorem State.paddock_vacated : (s.vacated p).paddock p = {} := State.paddock_setPaddock _ _ _

theorem State.paddock_vacated_other {q : Nat} (hq : q ≠ p) : (s.vacated p).paddock q = s.paddock q := by
  have hrest : ∀ (t : State) bursts net peerWaits rings, ({ t with
      bursts := bursts, net := net, peerWaits := peerWaits, rings := rings : State }.resetPaddockRegs p).paddock q = t.paddock q :=
    fun _ _ _ _ _ => rfl
  exact (State.paddock_setPaddock_other _ _ _ _ hq).trans ((hrest _ _ _ _ _).trans (s.evicted_keeps p fun t => t.paddock q))

theorem State.region_evicted {r : Nat} (hr : r ∈ s.regionsOf p) :
    ((s.evicted p).region r).owner = 0 ∧ ((s.evicted p).region r).state ≠ .active := by
  have hbefore : ∀ q, (((s.unmapImage p).listedTiles p).foldl State.zeroiseTile (s.unmapImage p)).region q = s.region q := fun q =>
    (foldl_keeps (fun t : State => t.region q) _ (fun t k => t.zeroiseTile_keeps k fun t => t.region q) _ _).trans
      ((s.tiersOnly_unmapImage p).keeps fun t => t.region q)
  rw [State.evicted, State.region_onRegionsOf, State.regionsOf_congr (t := s) fun q => congrArg Region.owner (hbefore q), if_pos hr]
  exact Region.release_leaves _

theorem State.tile_evicted {k : Nat} (hk : k ∈ s.listedTiles p) (hz : (s.region (regionOfTile k)).zeroises = true) :
    ((s.evicted p).tile k).zeroise = (s.evicted p).tile k := by
  have hregions : ∀ t : State, (t.onRegionsOf p Region.release).tile k = t.tile k := fun t =>
    State.tile_congr (t.onRegionsOf_tiles p _) k
  have hkeep := s.tiersOnly_unmapImage p
  rw [State.evicted, hregions]
  refine State.tile_foldl_zeroiseTile _ _ ?_ (.inl ?_)
  · rw [hkeep.keeps fun t => t.region (regionOfTile k)]
    exact hz
  · rw [hkeep.keeps fun t => t.listedTiles p]
    exact hk

theorem State.ring_vacated (h : canonical {} s.rings = true) (hp : 1 ≤ p) (n : Nat) : (s.vacated p).ring n = (s.ring n).free p := by
  have hrings : (s.evicted p).rings = s.rings := s.evicted_keeps p State.rings
  have hnone : (({} : Ring)).free p = {} := if_neg (by show ¬ 0 = p; omega)
  have hring : (s.vacated p).ring n = getD {} ((s.evicted p).freeRings p) n := rfl
  rw [hring, State.freeRings, hrings]
  exact getD_map_filter hnone h n

end

/-- The work of a PADDOCK_DESTROY of an unpaired paddock. -/
theorem exec_paddockDestroy_of_unpaired {s : State} {id : Nat} {d : Desc} (h : s.atDesc id 0x0101 d) (hp : 1 ≤ d.nat 3 1)
    (hp28 : d.nat 3 1 ≤ 28) (hlive : (s.paddock (d.nat 3 1)).live = true) (hpair : (s.paddock (d.nat 3 1)).pairMode = 0) :
    exec (.paddockDestroy id) s = .next ((s.destroyPaddock id (d.nat 3 1)).finishDesc id 0 0).bump := by
  rw [exec_paddockDestroy, execPaddockDestroy]
  refine descWork_of_atDesc h ?_
  dsimp only
  rw [if_neg, if_neg]
  · simp [hpair]
  · simp only [hlive, Bool.not_true, Bool.or_false, Bool.or_eq_true, decide_eq_true_eq]
    omega

theorem State.cntFrame_keeps {β : Type} (s : State) (i n : Nat) (proj : State → β)
    (hproj : ∀ (t : State) cntWin, proj { t with cntWin := cntWin } = proj t := by intros; rfl) : proj (s.cntFrame i n) = proj s := by
  rw [State.cntFrame, State.countWin_frame, hproj]

/-- Free regions settled, a count taken and a descriptor ended: no more than these change. -/
theorem State.counted_keeps {β : Type} (w : State) (n id : Nat) (proj : State → β)
    (hproj : ∀ (t : State) regions stirrups cntWin descs free, proj { t with
      regions := regions, stirrups := stirrups, cntWin := cntWin, descs := descs, free := free } = proj t := by intros; rfl) :
    proj ((w.settleTransit.cntFrame 23 n).finishDesc id 0 0).bump = proj w := by
  rw [State.finished_keeps _ _ _ _ proj fun t descs free => hproj t t.regions t.stirrups t.cntWin descs free,
    State.cntFrame_keeps _ _ _ proj fun t cntWin => hproj t t.regions t.stirrups cntWin t.descs t.free,
    State.settleTransit_keeps _ proj fun t regions stirrups => hproj t regions stirrups t.cntWin t.descs t.free]

/-- What a PADDOCK_DESTROY leaves of a paddock whose other descriptors have all completed. -/
theorem paddockDestroy_leaves {s : State} {id : Nat} {d : Desc} (h : s.atDesc id 0x0101 d) (hrings : canonical {} s.rings = true)
    (hp : 1 ≤ d.nat 3 1) (hp28 : d.nat 3 1 ≤ 28) (hlive : (s.paddock (d.nat 3 1)).live = true)
    (hpair : (s.paddock (d.nat 3 1)).pairMode = 0)
    (hidle : ∀ x ∈ s.descs, x.paddock = d.nat 3 1 → x.id = id ∨ x.completed = true) :
    let p := d.nat 3 1
    ∃ u, exec (.paddockDestroy id) s = .next u ∧ u.ended id 0 0 ∧ u.paddock p = {}
      ∧ (∀ q, q ≠ p → u.paddock q = s.paddock q)
      ∧ (∀ r ∈ s.regionsOf p, (u.region r).owner = 0 ∧ (u.region r).state ≠ .active)
      ∧ (∀ k ∈ s.listedTiles p, (s.region (regionOfTile k)).zeroises = true →
          (u.tile k).mem = [] ∧ (u.tile k).poseMem = [] ∧ (u.tile k).queues = [] ∧ (u.tile k).syncs = [])
      ∧ (∀ n, (u.ring n).paddock = if (s.ring n).paddock = p then 0 else (s.ring n).paddock) := by
  intro p
  have hexec := exec_paddockDestroy_of_unpaired h hp hp28 hlive hpair
  rw [State.destroyPaddock_of_idle hidle] at hexec
  set w := s.vacated p with hw
  set n := 2 + ((s.evicted p).paddock p).relKeys.length
  have hdesc : (w.settleTransit.cntFrame 23 n).desc id = some d := by
    rw [State.cntFrame_keeps _ _ _ fun t => t.desc id, State.settleTransit_keeps _ fun t => t.desc id, hw,
      s.vacated_keeps p fun t => t.desc id, s.evicted_keeps p fun t => t.desc id]
    exact State.desc_of_atDesc h
  refine ⟨_, hexec, State.ended_finishDesc hdesc (State.status_of_atDesc h) _ _, ?_, fun q hq => ?_, fun r hr => ?_, fun k hk hz => ?_,
    fun j => ?_⟩
  · exact (w.counted_keeps n id fun t => t.paddock p).trans (s.paddock_vacated p)
  · exact (w.counted_keeps n id fun t => t.paddock q).trans (s.paddock_vacated_other p hq)
  · obtain ⟨howner, hstate⟩ := w.heldAlike_settleTransit r
    rw [State.finished_keeps _ _ _ _ fun t => t.region r, State.cntFrame_keeps _ _ _ fun t => t.region r, howner, ne_eq, hstate, hw,
      s.vacated_keeps p fun t => t.region r]
    exact s.region_evicted p hr
  · have htile : (((w.settleTransit.cntFrame 23 n).finishDesc id 0 0).bump).tile k = ((s.evicted p).tile k).zeroise := by
      rw [w.counted_keeps n id fun t => t.tile k, hw, s.vacated_keeps p fun t => t.tile k, s.tile_evicted p hk hz]
    rw [htile]
    exact ⟨rfl, rfl, rfl, rfl⟩
  · rw [w.counted_keeps n id fun t => t.ring j, hw, s.ring_vacated p hrings hp j, Ring.free]
    split <;> rfl

/-! ## BUDGET_SET (15, R459) -/

/-- A BUDGET_SET that leaves no class of the image without a share sets the three. -/
theorem exec_budgetSet_of_usable {s : State} {id : Nat} {d : Desc} (h : s.atDesc id 0x0102 d) (hp : 1 ≤ d.nat 3 1)
    (hp28 : d.nat 3 1 ≤ 28) (hlive : (s.paddock (d.nat 3 1)).live = true)
    (husable : ∀ c, c < 3 → d.nat (8 + c) 1 = 0 → ∀ i, (s.paddock (d.nat 3 1)).image = some i → i.usesClass c = false) :
    exec (.budgetSet id) s = .next ((s.setPaddock (d.nat 3 1) { s.paddock (d.nat 3 1) with
      latency := d.nat 8 1, normal := d.nat 9 1, background := d.nat 10 1 }).finishDesc id 0 0).bump := by
  have hshare : ∀ c, c < 3 → [d.nat 8 1, d.nat 9 1, d.nat 10 1].getD c 0 = d.nat (8 + c) 1 := fun c hc => by
    interval_cases c <;> rfl
  have hnone : (List.range 3).any (fun c => [d.nat 8 1, d.nat 9 1, d.nat 10 1].getD c 0 == 0
      && ((s.paddock (d.nat 3 1)).image.map (fun i => i.usesClass c)).getD false) = false := by
    refine List.any_eq_false.mpr fun c hc hboth => ?_
    obtain ⟨hzero, huses⟩ := Bool.and_eq_true_iff.mp hboth
    have hc3 := List.mem_range.mp hc
    rw [hshare c hc3, beq_iff_eq] at hzero
    cases himage : (s.paddock (d.nat 3 1)).image with
    | none => simp [himage] at huses
    | some i => simp [himage, husable c hc3 hzero i himage] at huses
  rw [exec_budgetSet, execBudgetSet]
  refine descWork_of_atDesc h ?_
  dsimp only
  rw [if_neg, if_neg (by rw [hnone]; exact Bool.false_ne_true)]
  simp only [hlive, Bool.not_true, Bool.or_false, Bool.or_eq_true, decide_eq_true_eq]
  omega

/-- A paddock replaced and a descriptor ended: no more changes. -/
theorem State.setPaddock_finished {s u : State} {p id : Nat} {x : Paddock} (h : ((s.setPaddock p x).finishDesc id 0 0).bump = u) :
    { u with paddocks := s.paddocks, descs := s.descs, free := s.free } = s := by
  have hframe : ∀ paddocks descs free, ({ s with paddocks := paddocks, descs := descs, free := free } : State) = u →
      { u with paddocks := s.paddocks, descs := s.descs, free := s.free } = s := by
    rintro paddocks descs free rfl
    rfl
  exact hframe _ _ _ h

theorem budgetSet_leaves {s : State} {id : Nat} {d : Desc} (h : s.atDesc id 0x0102 d) (hp : 1 ≤ d.nat 3 1)
    (hp28 : d.nat 3 1 ≤ 28) (hlive : (s.paddock (d.nat 3 1)).live = true)
    (husable : ∀ c, c < 3 → d.nat (8 + c) 1 = 0 → ∀ i, (s.paddock (d.nat 3 1)).image = some i → i.usesClass c = false) :
    let p := d.nat 3 1
    ∃ u, exec (.budgetSet id) s = .next u ∧ u.ended id 0 0
      ∧ u.paddock p = { s.paddock p with latency := d.nat 8 1, normal := d.nat 9 1, background := d.nat 10 1 }
      ∧ { u with paddocks := s.paddocks, descs := s.descs, free := s.free } = s := by
  intro p
  exact ⟨_, exec_budgetSet_of_usable h hp hp28 hlive husable,
    State.ended_finishDesc (State.desc_of_atDesc h) (State.status_of_atDesc h) _ _,
    (State.finished_keeps _ _ _ _ fun t => t.paddock p).trans (State.paddock_setPaddock _ _ _), State.setPaddock_finished rfl⟩

/-- Settles O46: a load's checks do not see its chain record, what an image writes besides declarations is tiles, tiers and counters, and
regions that a paddock takes or gives up keep their owner when free ones go into transit (R42, R45, R320, R321, R435, R437, R459; log
entries 66, 67, 68 and 128). -/
theorem descriptorsImages : Obligations.DescriptorsImages := by
  unfold Obligations.DescriptorsImages
  intro id d s
  refine ⟨?_, unloadImage_leaves, fun hdue near far hgood hnear hfar => paddockCreate_leaves hdue hgood hnear hfar,
    fun hdue hrings hp hp28 hlive hpair hidle => paddockDestroy_leaves hdue hrings hp hp28 hlive hpair hidle,
    fun hdue hp hp28 hlive husable => budgetSet_leaves hdue hp hp28 hlive husable⟩
  intro hdue p pd source len base hcurrent
  refine ⟨fun hsource hnear hfar hlock hhost => ?_, fun i0 hsource hstaged hshared hi0 => ?_⟩
  · have hload : s.loadDue id d := ⟨hdue, hcurrent, hsource, hnear, hfar, hlock, hhost⟩
    exact ⟨fun hbad => loadImage_refuses hload hbad, fun pl hok hfree hpl => loadImage_takes hload hok hfree hpl⟩
  · exact fun hok hdigest hother hmap hfree =>
      loadImageShared_takes hdue hcurrent hsource hstaged hshared hi0 hok hdigest hother hmap hfree

end Sys2Proof.Machine
end
